-- ==== Sys2Proof/Word.lean ====
section
/-! DEFINITION. The word types of the TV4812 model: register words, 64-bit scalar registers, bytes,
2,048-bit vector registers (00_scope R11, 06_tile_instruction_set R148). -/

namespace Sys2Proof

/-- A 32-bit register of a page (R11). -/
abbrev W32 := BitVec 32
/-- A 64-bit scalar register, counter, mailbox word (R148, R407). -/
abbrev W64 := BitVec 64
/-- One byte of memory. -/
abbrev Byte := BitVec 8
/-- A vector register: 64 lanes of 32 bits, lane 0 lowest (R148, R160). -/
abbrev Vec := BitVec 2048

end Sys2Proof
end

