-- ==== Sys2Proof/Syntax.lean ====
section
/-! DEFINITION. The commands of the block: one constructor of `Instr` per row of spec/opcode_table.json,
in the table's order. The table gives the rows no bits and no fields, so each constructor carries what
its rule lets the outside choose: which tile, port, queue or connection, the value written, the packet
received, the reading taken (log entry 9). A tile slot command carries every field of its slot format
(06_tile_instruction_set Table 6-2), reserved fields included. -/

namespace Sys2Proof

/-- Where a slot command issues: the logical tile, and whether further slots of the same bundle follow
it in the same ACLK (R143, R145; log entry 5). -/
structure At where
  tile : Nat
  more : Bool
  deriving DecidableEq, Repr

/-- The four slots of a bundle (R143). -/
inductive Slot where
  | S | V | M | X
  deriving DecidableEq, Repr

/-- The logical directions of a tile's links, coded as Table 7-4 codes outputs. -/
inductive Dir where
  | north | east | south | west
  deriving DecidableEq, Repr

/-- Format SR (Table 6-2). -/
structure FmtSR where
  rd : BitVec 6
  rs1 : BitVec 6
  rs2 : BitVec 6
  deriving DecidableEq, Repr

/-- Format SI. -/
structure FmtSI where
  rd : BitVec 6
  rs1 : BitVec 6
  imm : BitVec 14
  deriving DecidableEq, Repr

/-- Format SB. -/
structure FmtSB where
  rs1 : BitVec 6
  rs2 : BitVec 6
  off : BitVec 14
  deriving DecidableEq, Repr

/-- Format SU. -/
structure FmtSU where
  rd : BitVec 6
  imm : BitVec 20
  deriving DecidableEq, Repr

/-- Format SL. -/
structure FmtSL where
  lvl : BitVec 2
  rs : BitVec 6
  rsv : BitVec 4
  len : BitVec 14
  deriving DecidableEq, Repr

/-- Format SC. -/
structure FmtSC where
  r : BitVec 6
  rsv : BitVec 12
  cr : BitVec 8
  deriving DecidableEq, Repr

/-- Format SP. -/
structure FmtSP where
  pd : BitVec 3
  pa : BitVec 3
  pb : BitVec 3
  rs : BitVec 6
  func : BitVec 3
  rsv : BitVec 8
  deriving DecidableEq, Repr

/-- Format VR. -/
structure FmtVR where
  vd : BitVec 5
  va : BitVec 5
  vb : BitVec 5
  vc : BitVec 5
  pred : BitVec 3
  rm : BitVec 3
  deriving DecidableEq, Repr

/-- Format VP. -/
structure FmtVP where
  pd : BitVec 3
  cond : BitVec 3
  va : BitVec 5
  vb : BitVec 5
  rsv : BitVec 4
  pred : BitVec 3
  rsv2 : BitVec 3
  deriving DecidableEq, Repr

/-- Format VS. -/
structure FmtVS where
  v : BitVec 5
  rs : BitVec 6
  lane : BitVec 6
  rsv : BitVec 3
  pred : BitVec 3
  rsv2 : BitVec 3
  deriving DecidableEq, Repr

/-- Format VC. -/
structure FmtVC where
  vd : BitVec 5
  va : BitVec 5
  sfmt : BitVec 4
  dfmt : BitVec 4
  sat : Bool
  pred : BitVec 3
  rm : BitVec 3
  rsv : BitVec 1
  deriving DecidableEq, Repr

/-- Format VM. -/
structure FmtVM where
  v : BitVec 5
  rs : BitVec 6
  off : BitVec 12
  pred : BitVec 3
  deriving DecidableEq, Repr

/-- Format MM. -/
structure FmtMM where
  fa : BitVec 4
  fb : BitVec 4
  sA : BitVec 6
  sB : BitVec 6
  sK : BitVec 6
  deriving DecidableEq, Repr

/-- Format MV. -/
structure FmtMV where
  fa : BitVec 4
  fb : BitVec 4
  va : BitVec 5
  nv : BitVec 5
  sB : BitVec 6
  rsv : BitVec 2
  deriving DecidableEq, Repr

/-- Format MR. -/
structure FmtMR where
  bank : BitVec 2
  fmt : BitVec 4
  rm : BitVec 3
  sat : Bool
  clr : Bool
  rsv : BitVec 15
  deriving DecidableEq, Repr

/-- Format MA. -/
structure FmtMA where
  bank : BitVec 2
  rs : BitVec 6
  rsv : BitVec 18
  deriving DecidableEq, Repr

/-- Format MX. -/
structure FmtMX where
  v : BitVec 5
  bank : BitVec 2
  row : BitVec 6
  rsv : BitVec 13
  deriving DecidableEq, Repr

/-- Format XD. -/
structure FmtXD where
  sn : BitVec 6
  rsv : BitVec 20
  deriving DecidableEq, Repr

/-- Format XV. -/
structure FmtXV where
  v : BitVec 5
  sn : BitVec 6
  rsv : BitVec 15
  deriving DecidableEq, Repr

/-- Format XT. -/
structure FmtXT where
  t : BitVec 6
  rs : BitVec 6
  rsv : BitVec 14
  deriving DecidableEq, Repr

/-- Format XS. -/
structure FmtXS where
  rsv : BitVec 2
  wave : BitVec 4
  rsv2 : BitVec 20
  deriving DecidableEq, Repr

/-- Format XB. -/
structure FmtXB where
  sn : BitVec 6
  cnt : BitVec 4
  rsv : BitVec 16
  deriving DecidableEq, Repr

/-- A mailbox channel (Table 17-1). -/
inductive Chan where
  | manager | security | inter
  | part (p : Nat)
  | tile (t : Nat)
  deriving DecidableEq, Repr

/-- A firmware command as its message names it: the channel it came on and the sender's tag (R418). -/
structure Cmd where
  chan : Chan
  tag : BitVec 16
  deriving DecidableEq, Repr

/-- A 64-byte descriptor's fields (Table 15-4); the opcode is the command's own. -/
structure Desc where
  flags : BitVec 8 := 0
  len : W32 := 0
  lva : W64 := 0
  rva : W64 := 0
  key : W32 := 0
  cid : BitVec 20 := 0
  lap : BitVec 2 := 0
  imm : W32 := 0
  tally : W32 := 0
  cookie : W64 := 0
  deriving DecidableEq, Repr

/-- A KVT packet as the receive side hands it on: the base header (Table 12-2), the extension (R289),
the payload, and what the receive path found out about it (port, source address, CE mark, trailer). -/
structure Pkt where
  port : Nat := 0
  src : BitVec 128 := 0
  dst : BitVec 128 := 0
  version : BitVec 4 := 1
  keyPhase : BitVec 2 := 0
  probe : Bool := false
  flags : BitVec 16 := 0
  cid : BitVec 20 := 0
  tc : BitVec 3 := 0
  psn : BitVec 24 := 0
  msgId : BitVec 16 := 0
  offset : W32 := 0
  length : W32 := 0
  op24 : W32 := 0
  op28 : W32 := 0
  rva : W64 := 0
  key : W32 := 0
  imm : W32 := 0
  payload : List Byte := []
  ce : Bool := false
  /-- the trailer checks, and with it a UDP checksum that is not 0 (R285) -/
  trailerOk : Bool := true
  /-- the frame's FCS checks, which the port tells the transport (R257) -/
  fcsOk : Bool := true
  /-- (OFFSET / MTU) mod 2^16, as the sender sets it (Table 12-2) -/
  pktIndex : BitVec 16 := 0
  /-- the packet counter of the security field, as the sender sets it (R292) -/
  counter : W64 := 0
  udpSrc : Nat := 0
  udpDst : Nat := 0
  deriving DecidableEq, Repr

/-- What a received frame is, to the port (R255, R258, R279, R285). -/
structure RxFrame where
  /-- the half of a two-half port it came on -/
  half1 : Bool := false
  len : Nat
  tagged : Bool := true
  pcp : BitVec 3 := 0
  dei : Bool := false
  isIp : Bool := true
  dscp : BitVec 6 := 0
  ecn : BitVec 2 := 0
  fcsOk : Bool := true
  poolUe : Bool := false
  dst : BitVec 128 := 0
  kvt : Bool := true
  metered : Bool := false
  ptpEvent : Option (BitVec 16 × BitVec 4) := none
  sync : Option Int := none
  deriving DecidableEq, Repr

/-- The stream that met a translation miss (Table 9-6, Table 9-7 bytes 6-7). -/
inductive Stream where
  | queue (p q idx : Nat)
  | tileReq (t : Nat) (spill : Bool)
  | conn (cid : Nat)
  deriving DecidableEq, Repr

/-- A resource of PART_SET (Table 16-1, R390, R416). -/
inductive Resource where
  | rect (i : Nat) (r0 r1 c0 c1 : Nat)
  | rectRemove (i : Nat)
  | groups (first count : Nat)
  | memset (mask : BitVec 12)
  | memQuota (units : Nat)
  | connQuota (n : Nat)
  | queueMax (n : Nat)
  | windows (base count : Nat)
  | tcMask (m : BitVec 8)
  | dbKey (k : W32)
  | listen (i : Nat) (tag : W32)
  | ip (i : Nat) (addr : BitVec 128)
  | xlat (en : Bool) (root fqBase : BitVec 48) (fqLog2 : Nat) (dlog : Bool)
  | channel (va : BitVec 48)
  deriving DecidableEq, Repr

/-- One edge of a collective group's definition (R347). -/
structure CollEdge where
  cid : Nat
  first : Nat
  last : Nat
  deriving DecidableEq, Repr

/-- A collective group's definition as COLL_DEFINE carries it (R346, R347). -/
structure CollDef where
  part : Nat
  tag : W32
  size : Nat
  rank : Nat
  last : Nat
  home : Bool
  parent : Option Nat
  children : List CollEdge
  deriving DecidableEq, Repr

/-- What FW_STAGE finds at the address it is given (R463): an image with its SVN and RAISE_MIN flag,
an operator record with its sequence, manager addresses and key-delivery key, or anything else; `ok` says
whether its signature verifies. -/
inductive StagedObj where
  | image (svn : Nat) (raiseMin : Bool) (ok : Bool)
  | operator (seq : Nat) (managers : List (BitVec 128)) (key : BitVec 776) (ok : Bool)
  | other
  deriving DecidableEq, Repr

/-- What a read with its code finds (R90, R217, R494). -/
inductive EccFind where
  | clean | corrected | uncorrectable
  deriving DecidableEq, Repr

/-- Who signs a configuration record (Table 19-2): the vendor configuration key, the module's identity key, the
operator key, or the authority above in the chain. -/
inductive Signer where
  | vendor | identity | operator | authority
  deriving DecidableEq, Repr

/-- Body of the ledger record (Table 19-3). -/
structure Ledger where
  devs : List Nat := []
  unclean : Nat := 0
  boots : Nat := 0
  minSvn : Nat := 0
  deriving DecidableEq, Repr

/-- Body of a configuration record (Table 19-3, R448). A certificate's kind is 0 authority, 1 device,
2 configuration key, 3 firmware key. Asymmetry is in 2^-32 ns, by 2 × port, plus 1 for reception; a repair map
holds the retired column and the second retirement by die row, 31 being none. -/
inductive RecBody where
  | cert (kind : Nat) (key : BitVec 776) (serial : W64)
  | puf (fd0 fd1 : BitVec 4096)
  | product (serial : W64) (n16 : Bool)
  | calibration (vcd : List (BitVec 16)) (asym : List (Nat × Int))
  | repairMap (col second : List (Nat × Nat))
  | owner (key : BitVec 776)
  | operator (managers : List (BitVec 128)) (key : BitVec 776)
  | ledger (l : Ledger)
  deriving DecidableEq, Repr

/-- A configuration record (Table 19-2). `signed`: its signature verifies under the key of its signer;
`binds`: its binding is this module's. -/
structure ConfigRec where
  body : RecBody
  signer : Signer := .vendor
  version : Nat := 1
  seq : Nat := 0
  signed : Bool := true
  binds : Bool := true
  deriving DecidableEq, Repr

/-- What a start-up stage found out (R446, R451, R457, R458): PUF reconstruction on each die, whether Q
matches the certificate, the records that the vendor wrote to the store since the last start-up, the record types
whose newest record fails verification, whether the stage's own action succeeded, and the physical tiles that failed the start-up test. `ten`: the stage that ends is
stage 10, where it runs beside stage 8 or 9. -/
structure StageFind where
  ten : Bool := false
  puf0 : Bool := true
  puf1 : Bool := true
  qOk : Bool := true
  added : List ConfigRec := []
  bad : List Nat := []
  ok : Bool := true
  failed : List (Nat × Nat × Nat) := []
  deriving DecidableEq, Repr

/-- A test class of TEST_CTRL (R503). -/
inductive TestClass where
  | tile | patrol | kat | margin
  deriving DecidableEq, Repr

/-- What a module chooses for a new connection: its ID, one not in use, and the first PSN and the salt
of its direction, both random (R294). -/
structure Pick where
  cid : Nat
  psn : BitVec 24
  salt : W32
  deriving DecidableEq, Repr

/-- How the two computations of a root-class job turn out (R437): whether they agree, whether those of the
rerun on other cores do, and the two cores first used. -/
structure Twice where
  agrees : Bool := true
  rerun : Bool := true
  c1 : Nat := 0
  c2 : Nat := 1
  deriving DecidableEq, Repr

/-- Data of a tray-bus write, with the Packet Error Code where the host sends one (R52). -/
structure TrayData where
  value : BitVec 16
  pec : Option Byte := none
  deriving DecidableEq, Repr

/-- What a droop detector of a compute die reads: VCD below its setpoint, in mV (R66). -/
structure Droop where
  die : Nat
  drop : Nat
  deriving DecidableEq, Repr

/-- The end of a state shift in a die row; `lost`: the condemned tile's state could not be read (R493, R102). -/
structure MoveEnd where
  row : Nat
  lost : Bool := false
  deriving DecidableEq, Repr

/-- A value written to a register, and what is written to the same register of the other instance in the same
PCLK, where anything is (R82). -/
structure PairWrite where
  v : W32
  also : Option W32 := none
  deriving DecidableEq, Repr

/-- The commands of the block: one constructor per row of spec/opcode_table.json, in its order; the
row's rule of spec/ stands beside each. -/
inductive Instr where
  | hotInsertion  -- R61
  | hotRemoval  -- R45
  | powerGood  -- R61
  | holdupRefilled  -- R62
  | modPwrenHigh  -- R47
  | modPwrenLow  -- R47
  | modResetNLow  -- R48
  | modResetNHigh  -- R48
  | trayAlertClear (bits : Byte)  -- R50
  | alertResponse  -- R50
  | trayBusWrite (code : Byte) (value : TrayData)  -- R53
  | trayTelemetryUpdate (vin iin pin tj tcool : BitVec 16)  -- R53
  | ppsInEdge  -- R266
  | ppsOut  -- R51
  | referenceLost (die : Nat) (pll : Bool)  -- R55
  | serdesRefLost (fd1 : Bool)  -- R55
  | inputProtectionOpen  -- R60
  | inputProtectionClose  -- R60
  | sagStart (below40 : Bool)  -- R71
  | sagEnd  -- R71
  | lastGasp (atReserve : Bool)  -- R72
  | throttleFrameBoundary  -- R63
  | droopTrip (die : Droop)  -- R66
  | droopRelease  -- R66
  | pwrCapWrite (v : W32)  -- R67
  | shareEstimate (pin : Nat) (est : List (Nat × Nat))  -- R68
  | slopeStep (pin : Nat) (idleLoad : Bool)  -- R69
  | thermalSample (tj : BitVec 16)  -- R80
  | thermalHalt  -- R80
  | railFault (rail : Nat)  -- R75
  | pmFailover  -- R81
  | stateReqGate (on : Bool)  -- R77
  | stateReqM3  -- R78
  | stateReqM4  -- R78
  | stateReqRun  -- R78
  | m3ExitDone  -- R78
  | ungateDone (t : Nat)  -- R107
  | tileClearDone (t : Nat)  -- R105
  | tileCtrlArm (t : Nat)  -- R107
  | tileCtrlStop (t : Nat)  -- R108
  | tileCtrlResume (t : Nat)  -- R108
  | tileCtrlAbort (t : Nat)  -- R108
  | gridLaunch (v : W32)  -- R106
  | launchStart (g : Nat)  -- R106
  | drainDone (t : Nat)  -- R156
  | patchEngage (die row : Nat)  -- R493
  | patchMoveDone (die : Nat) (row : MoveEnd)  -- R493
  | holdRelease (t : Nat)  -- R197
  | nop (a : At) (slot : Slot) (w : W32)  -- R144
  | add (a : At) (f : FmtSR)  -- R153
  | sub (a : At) (f : FmtSR)  -- R153
  | and (a : At) (f : FmtSR)  -- R153
  | or (a : At) (f : FmtSR)  -- R153
  | xor (a : At) (f : FmtSR)  -- R153
  | sll (a : At) (f : FmtSR)  -- R153
  | srl (a : At) (f : FmtSR)  -- R153
  | sra (a : At) (f : FmtSR)  -- R153
  | slt (a : At) (f : FmtSR)  -- R153
  | sltu (a : At) (f : FmtSR)  -- R153
  | min (a : At) (f : FmtSR)  -- R153
  | max (a : At) (f : FmtSR)  -- R153
  | mul (a : At) (f : FmtSR)  -- R153
  | mulhu (a : At) (f : FmtSR)  -- R153
  | addi (a : At) (f : FmtSI)  -- R153
  | andi (a : At) (f : FmtSI)  -- R153
  | ori (a : At) (f : FmtSI)  -- R153
  | xori (a : At) (f : FmtSI)  -- R153
  | slli (a : At) (f : FmtSI)  -- R153
  | srli (a : At) (f : FmtSI)  -- R153
  | srai (a : At) (f : FmtSI)  -- R153
  | slti (a : At) (f : FmtSI)  -- R153
  | lui (a : At) (f : FmtSU)  -- R153
  | plog (a : At) (f : FmtSP)  -- R153
  | pset (a : At) (f : FmtSP)  -- R153
  | pget (a : At) (f : FmtSP)  -- R153
  | ld (a : At) (f : FmtSI)  -- R153
  | lw (a : At) (f : FmtSI)  -- R153
  | st (a : At) (f : FmtSB)  -- R153
  | sw (a : At) (f : FmtSB)  -- R153
  | beq (a : At) (f : FmtSB)  -- R154
  | bne (a : At) (f : FmtSB)  -- R154
  | blt (a : At) (f : FmtSB)  -- R154
  | bge (a : At) (f : FmtSB)  -- R154
  | bltu (a : At) (f : FmtSB)  -- R154
  | bgeu (a : At) (f : FmtSB)  -- R154
  | jal (a : At) (f : FmtSU)  -- R154
  | jr (a : At) (f : FmtSI)  -- R154
  | loop (a : At) (f : FmtSL)  -- R155
  | csrr (a : At) (f : FmtSC)  -- R149
  | csrw (a : At) (f : FmtSC)  -- R149
  | csrc (a : At) (f : FmtSC)  -- R149
  | step (a : At) (rsv : BitVec 26)  -- R156
  | endProg (a : At) (rsv : BitVec 26)  -- R156
  | endDone (t : Nat)  -- R156
  | trap (a : At) (f : FmtSU)  -- R153
  | waitt (a : At) (f : FmtSI)  -- R157
  | waittRelease (t : Nat)  -- R157
  | vaddF (a : At) (f : FmtVR)  -- R158
  | vsubF (a : At) (f : FmtVR)  -- R158
  | vmulF (a : At) (f : FmtVR)  -- R158
  | vfmaF (a : At) (f : FmtVR)  -- R139
  | vminF (a : At) (f : FmtVR)  -- R140
  | vmaxF (a : At) (f : FmtVR)  -- R140
  | vfn (a : At) (f : FmtVR)  -- R141
  | vcmpF (a : At) (f : FmtVP)  -- R158
  | vaddI (a : At) (f : FmtVR)  -- R158
  | vsubI (a : At) (f : FmtVR)  -- R158
  | vmulI (a : At) (f : FmtVR)  -- R158
  | vand (a : At) (f : FmtVR)  -- R158
  | vor (a : At) (f : FmtVR)  -- R158
  | vxor (a : At) (f : FmtVR)  -- R158
  | vshl (a : At) (f : FmtVR)  -- R158
  | vshr (a : At) (f : FmtVR)  -- R158
  | vsra (a : At) (f : FmtVR)  -- R158
  | vcmpI (a : At) (f : FmtVP)  -- R158
  | vsel (a : At) (f : FmtVR)  -- R158
  | vbcast (a : At) (f : FmtVS)  -- R158
  | vext (a : At) (f : FmtVS)  -- R158
  | vperm (a : At) (f : FmtVR)  -- R158
  | vredF (a : At) (f : FmtVR)  -- R159
  | vcvt (a : At) (f : FmtVC)  -- R160
  | vqnt (a : At) (f : FmtVC)  -- R160
  | vdq (a : At) (f : FmtVC)  -- R160
  | vld (a : At) (f : FmtVM)  -- R158
  | vst (a : At) (f : FmtVM)  -- R158
  | mma (a : At) (f : FmtMM)  -- R163
  | mmav (a : At) (f : FmtMV)  -- R164
  | madd (a : At) (f : FmtMA)  -- R164
  | mclr (a : At) (f : FmtMA)  -- R164
  | mrd (a : At) (f : FmtMR)  -- R137
  | ald (a : At) (f : FmtMA)  -- R164
  | ast (a : At) (f : FmtMA)  -- R165
  | mlst (a : At) (f : FmtMA)  -- R138
  | mlad (a : At) (f : FmtMA)  -- R138
  | ardv (a : At) (f : FmtMX)  -- R164
  | awrv (a : At) (f : FmtMX)  -- R164
  | xmsg (a : At) (f : FmtXD)  -- R175
  | xmsgv (a : At) (f : FmtXV)  -- R175
  | xmov (a : At) (f : FmtXD)  -- R520
  | xmovDone (t : Nat)  -- R520
  | xwait (a : At) (f : FmtXT)  -- R181
  | tallyWaitRelease (t : Nat)  -- R181
  | xtset (a : At) (f : FmtXT)  -- R181
  | xtrd (a : At) (f : FmtXT)  -- R181
  | xsync (a : At) (f : FmtXS)  -- R189
  | waveComplete (p w g : Nat)  -- R190
  | xfill (a : At) (f : FmtXD)  -- R194
  | xspill (a : At) (f : FmtXD)  -- R194
  | xmbw (a : At) (f : FmtXB)  -- R168
  | xmbr (a : At) (f : FmtXB)  -- R168
  | xfld (a : At) (f : FmtXV)  -- R174
  | xfldDone (t : Nat)  -- R174
  | messageInject (t : Nat) (out : Dir) (idx : Nat)  -- R176
  | beatForward (t : Nat) (input : Dir) (err : Nat)  -- R186
  | messageLand (t : Nat)  -- R178
  | copyComplete (eng idx : Nat)  -- R224
  | gridStLoad  -- R187
  | gridStRead  -- R198
  | gridLinkOwnerWrite (v : W32)  -- R182
  | gridLoad (c : Cmd) (p : Nat) (va : W64) (len : Nat)  -- R200
  | dramRefresh (dev : Nat) (waiting : Bool)  -- R34
  | refreshBurst (dev : Nat)  -- R34
  | dramArbWindow (dev : Nat)  -- R33
  | unmappedAccess (addr : BitVec 48) (write : Bool) (core : BitVec 2) (complex : Bool)  -- R30
  | dramcSlabDataWrite (inst : Nat) (v : W32)  -- R213
  | slabWrite (c : Cmd) (slab : Nat) (entry : W32)  -- R213
  | translationWalkDone (fd1 : Bool) (p : Nat) (va : BitVec 48) (acc : BitVec 4) (st : Stream)  -- R232
  | fqReread (p : Nat)  -- R240
  | xlatFqKick (inst : Nat) (v : W32)  -- R240
  | xlatReload (inst : Nat) (v : W32)  -- R226
  | resumeRetry (inst : Nat)  -- R241
  | resumeFail (inst : Nat)  -- R241
  | faultResume (c : Cmd) (token : W32) (action : Nat)  -- R241
  | xlatFence (q : Nat) (d : Desc)  -- R234
  | xlatFenceDone (p : Nat)  -- R234
  | evacStart (dev : Nat)  -- R244
  | evacDone (dev : Nat) (lost : List Nat)  -- R244
  | lostLogReread (dev : Nat)  -- R247
  | devstateRetire (dev : Nat)  -- R248
  | devEvac (c : Cmd) (dev slab dstDev dstLocal : Nat)  -- R244
  | devRetire (c : Cmd) (dev : Nat)  -- R248
  | memGrant (c : Cmd) (p units : Nat)  -- R387
  | memReturn (c : Cmd) (p units : Nat)  -- R387
  | portEnable (n : Nat)  -- R253
  | portDisable (n : Nat)  -- R253
  | portModeWrite (n : Nat) (v : W32)  -- R252
  | linkUp (n : Nat) (half1 : Bool)  -- R253
  | linkDown (n : Nat) (half1 : Bool)  -- R253
  | frameReceive (n : Nat) (f : RxFrame)  -- R256
  | frameTransmit (n : Nat) (half1 : Bool)  -- R270
  | pauseReceive (n : Nat) (pfc : Bool) (classes : Byte) (quanta : List (BitVec 16))  -- R260
  | pauseExpire (n cls : Nat)  -- R260
  | pauseRefresh (n : Nat)  -- R259
  | pfcStorm (n cls : Nat)  -- R261
  | tsPopRx (n : Nat)  -- R264
  | tsPopTx (n : Nat)  -- R264
  | ptpStep  -- R263
  | ptpLatch  -- R269
  | ptpSyncTimeout  -- R265
  | ptpPortMove  -- R265
  | gateEnable (n : Nat)  -- R273
  | gateSwap (n : Nat)  -- R274
  | gateEntryBoundary (n : Nat)  -- R272
  | shpCommit (n : Nat)  -- R278
  | shaperRefill (n : Nat)  -- R277
  | meterCommit (fd1 : Bool)  -- R280
  | meterRefill (fd1 : Bool)  -- R280
  | schedSet (c : Cmd) (n off : Nat) (v : W32)  -- R282
  | kvtWrite (k : Pkt)  -- R311
  | kvtWriteImm (k : Pkt)  -- R328
  | kvtReadReq (k : Pkt)  -- R329
  | kvtReadResp (k : Pkt)  -- R329
  | kvtSend (k : Pkt)  -- R328
  | kvtAtomicReq (k : Pkt)  -- R330
  | kvtAtomicResp (k : Pkt)  -- R330
  | kvtReduce (k : Pkt)  -- R332
  | kvtAck (k : Pkt)  -- R302
  | kvtProbe (k : Pkt)  -- R298
  | kvtNak (k : Pkt)  -- R304
  | kvtGrant (k : Pkt)  -- R307
  | kvtMoved (k : Pkt)  -- R320
  | kvtConnect (k : Pkt) (mine : Pick)  -- R294
  | kvtAccept (k : Pkt)  -- R294
  | kvtClose (k : Pkt)  -- R305
  | kvtMgmt (k : Pkt)  -- R414
  | unknownCidPacket (k : Pkt) (opcode : Byte)  -- R521
  | contextFetchDone (cid : Nat)  -- R296
  | kvtSendPacket (cid : Nat)  -- R300
  | ackTimer (cid : Nat)  -- R302
  | reorderTimeout (cid : Nat)  -- R303
  | retransmitTimeout (cid : Nat)  -- R303
  | labelHoldExpire (cid k : Nat)  -- R298
  | connectResend (cid : Nat)  -- R294
  | unsolTimer (cid : Nat)  -- R306
  | grantWindowUpdate (cid : Nat)  -- R308
  | grantTimer (cid : Nat)  -- R307
  | grantResend (cid : Nat) (msgId : BitVec 16)  -- R307
  | movedHoldExpire (cid : Nat)  -- R320
  | epochKeyDerived (cid : Nat) (tx : Bool) (t : Twice)  -- R430
  | doorbell (p q : Nat) (fromFw : Bool)  -- R373
  | lapReread (p q : Nat)  -- R376
  | notifyTimer (p q : Nat)  -- R382
  | write (p q : Nat) (d : Desc)  -- R327
  | writeImm (p q : Nat) (d : Desc)  -- R328
  | read (p q : Nat) (d : Desc)  -- R329
  | send (p q : Nat) (d : Desc)  -- R328
  | recv (p q : Nat) (d : Desc)  -- R328
  | fadd (p q : Nat) (d : Desc)  -- R330
  | cswap (p q : Nat) (d : Desc)  -- R330
  | reduce (p q : Nat) (d : Desc)  -- R332
  | fence (p q : Nat) (d : Desc)  -- R334
  | fenceDone (p q : Nat)  -- R334
  | fill (p q : Nat) (d : Desc)  -- R223
  | spill (p q : Nat) (d : Desc)  -- R223
  | windowOpen (p q : Nat) (d : Desc)  -- R336
  | windowRevoke (p q : Nat) (d : Desc)  -- R338
  | windowRevokeDone (p q : Nat)  -- R338
  | arm (p q : Nat) (d : Desc)  -- R342
  | armedFire (p : Nat)  -- R343
  | tallySet (p q : Nat) (d : Desc)  -- R341
  | collStart (p q : Nat) (d : Desc)  -- R351
  | collSlotsGranted (fd1 : Bool)  -- R351
  | collChunkCombine (h : Nat)  -- R357
  | tileLaunch (p q : Nat) (d : Desc)  -- R371
  | collDefine (c : Cmd) (h : Nat) (d : CollDef)  -- R347
  | collRemove (c : Cmd) (h : Nat)  -- R346
  | queueCreate (c : Cmd) (p q kind sizeLog2 : Nat) (ring cb : BitVec 48)  -- R366
  | queueDestroy (c : Cmd) (p q : Nat)  -- R379
  | connOpen (c : Cmd) (p : Nat) (peer : BitVec 128) (listen : W32) (mtu : BitVec 2) (cls : BitVec 3) (encrypt pin : Bool) (mine : Pick)  -- R294
  | connClose (c : Cmd) (cid : Nat) (abort : Bool)  -- R305
  | partCreate (c : Cmd) (p : Nat)  -- R389
  | partSet (c : Cmd) (p : Nat) (r : Resource)  -- R390
  | partActivate (c : Cmd) (p : Nat)  -- R389
  | partQuiesce (c : Cmd) (p : Nat) (drain : Bool)  -- R394
  | partQuiesceDone (p : Nat)  -- R394
  | partDestroy (c : Cmd) (p : Nat)  -- R392
  | partFreeze (c : Cmd) (p : Nat)  -- R396
  | partFreezeDone (p : Nat)  -- R396
  | partThaw (c : Cmd) (p : Nat)  -- R398
  | partSave (c : Cmd) (p : Nat) (dest : BitVec 128) (cid : Nat)  -- R399
  | partRestore (c : Cmd) (p : Nat) (image : Nat) (tagsOk : Bool)  -- R400
  | partRestoreDone (p : Nat)  -- R400
  | partRelease (c : Cmd) (p : Nat)  -- R400
  | mboxPost (ch : Chan) (toFw : Bool) (words : List W64)  -- R408
  | mboxTake (ch : Chan) (toFw : Bool)  -- R409
  | mboxAck (ch : Chan) (toFw : Bool) (rc : BitVec 16)  -- R409
  | mgmtPost (security newSession : Bool) (mp1 : Bool) (seq : W32) (words : List W64) (src : BitVec 128)  -- R415
  | mgmtAck (security : Bool) (mp1 : Bool) (seq : W32) (rc : BitVec 16) (src : BitVec 128)  -- R415
  | mgmtStateEcho (security : Bool) (mp1 : Bool) (seq : W32) (state : BitVec 4) (src : BitVec 128)  -- R415
  | mgmtLastGasp (src : BitVec 128) (dataPort : Bool)  -- R414
  | mgmtResend (security : Bool)  -- R415
  | mgmtRecoveryData (off : W32) (bytes : List Byte)  -- R456
  | recoveryRequest  -- R456
  | mgmtPageLock (seq : W32) (block : Byte) (inst : BitVec 12) (lock all : Bool) (mp1 : Bool) (src : BitVec 128)  -- R509
  | channelPost (p : Nat) (words : List W64) (seq : W32) (len : BitVec 4)  -- R416
  | channelTaken (p : Nat) (seq : W32)  -- R416
  | tileStop (c : Cmd) (t : Nat)  -- R108
  | tileResume (c : Cmd) (t : Nat)  -- R108
  | tileAbort (c : Cmd) (t : Nat)  -- R108
  | keyRoot (c : Cmd) (p : Nat) (rootId : W32) (wrapped : BitVec 320) (t : Twice)  -- R426
  | keyErase (c : Cmd) (p : Nat)  -- R427
  | attest (c : Cmd) (nonce : BitVec 256) (sel : BitVec 4) (p : Nat) (addr : W64)  -- R462
  | fwStage (c : Cmd) (o : StagedObj)  -- R463
  | fwStageDone (t : Twice)  -- R463
  | fwActivate (c : Cmd)  -- R464
  | fwQuietPoint  -- R464
  | fwActivateDone  -- R464
  | powerCap (c : Cmd) (watts : Nat)  -- R67
  | powerShare (c : Cmd) (p watts nonTile : Nat)  -- R68
  | powerState (c : Cmd) (gate : Bool) (down : BitVec 2)  -- R78
  | testCtrl (c : Cmd) (cls : TestClass) (en : Bool) (period : Nat)  -- R503
  | telemRead (c : Cmd) (block : Byte) (inst : BitVec 12) (off : BitVec 12) (cnt : Nat)  -- R508
  | snapArm (c : Cmd) (w : W64)  -- R499
  | modRestart (c : Cmd)  -- R458
  | alarm (cause : Nat)  -- R439
  | alarmClear (cause : Nat)  -- R441
  | startupStageDone (r : StageFind)  -- R457
  | startupStageTimeout  -- R458
  | ccFailover (sramUe : Bool)  -- R480
  | ccRestartDone (ok : Bool)  -- R480
  | seamLaneReplace (seam lane : Nat) (dir spare : Bool)  -- R481
  | testSegmentStart (die row col : Nat) (idleNs : Nat)  -- R487
  | testSegmentDone (die row col : Nat) (ok : Bool) (ue : Option (BitVec 48)) (ce : Option (BitVec 48))  -- R487
  | tileTestOverdue (die row col : Nat)  -- R492
  | patrolRead (dev : Nat) (pa : BitVec 48) (found : EccFind)  -- R494
  | patrolOverdue (dev : Nat)  -- R494
  | katRun (fd1 : Bool) (core : Nat) (ok rerunOk : Bool)  -- R496
  | marginLow (port lane : Nat)  -- R497
  | snapCtrlArm  -- R516
  | snapshot  -- R500
  | eventsClear (block : Byte) (inst : BitVec 12) (v : W32) (setAgain : W32)  -- R471
  | eventEnWrite (block : Byte) (inst : BitVec 12) (v : W32)  -- R469
  | counterLowRead (block : Byte) (inst : BitVec 12) (off : BitVec 12) (core : Nat)  -- R510
  | registerWrite (block : Byte) (inst : BitVec 12) (off : BitVec 12) (v : PairWrite)  -- R16
  | kvtCollUp (k : Pkt)  -- R354
  | kvtCollDown (k : Pkt)  -- R360
  | powerDownDone  -- R47
  | m3EntryDone  -- R78
  | inputPowerReturn  -- R73
  | standbyLost  -- R465
  | pmStandbyLost  -- R81
  | probeTimeout (cid k : Nat)  -- R298
  | attestDone (p : Nat) (sig : List Byte) (t : Twice)  -- R462
  | launchMeasureDone (p : Nat)  -- R461
  deriving DecidableEq, Repr

end Sys2Proof
end

