-- ==== Sys2Proof/Decode.lean ====
section
/-! DEFINITION. Commands spelled by a table word. spec/opcode_table.json gives no row any bits or fields, so
no word spells a command. -/

namespace Sys2Proof

/-- The command a word of the table's bits spells: none, as no row has bits. -/
def decodeTableWord (_nbits _w : Nat) : Option Instr := none

end Sys2Proof
end

