-- ==== Sys2Proof/Config.lean ====
section
/-! DEFINITION. What the spec leaves open: the free values, each an uninterpreted constant, and the
functions that other published standards define and this spec only names. Nothing here has a body, so
a claim holds for every value of them (log entries 4 and 7). -/

namespace Sys2Proof

/-- A free byte: byte `i` of the free value number `n` (log entry 4). -/
opaque Config.freeByte : Nat → Nat → Byte
/-- A free number: choice `i` of the free value number `n`; its users reduce it into the stated set. -/
opaque Config.freeNat : Nat → Nat → Nat
/-- SHA-384 of a byte string (FIPS 180-4, Table 0-3); 48 bytes wide as a number. -/
opaque Config.sha384 : List Byte → BitVec 384
/-- HMAC-SHA-384 of a message under a key (R424). -/
opaque Config.hmac384 : List Byte → List Byte → BitVec 384
/-- RFC 3394 unwrap of a 40-byte wrapping under the key-wrap key: the root, or none if the integrity
check fails (R426). -/
opaque Config.unwrap : BitVec 256 → BitVec 320 → Option (BitVec 256)
/-- The x-coordinate of the secret that the identity key and a manager's key-delivery key make (R424). -/
opaque Config.ecdhSecret : BitVec 776 → BitVec 384
/-- Bits [63:0] of the module serial number and of the identity key pair are values of one module
(R445, R466). -/
opaque Config.serial : W64
/-- The identity secret that the PUF of either die reconstructs (R445). -/
opaque Config.identitySecret : BitVec 256
/-- The order of brainpoolP384 (RFC 5639). -/
opaque Config.curveOrder : Nat
/-- The module's public key Q, 97 bytes as a number, most significant byte first (R445). -/
opaque Config.publicKey : BitVec 776
/-- Usable energy of the full hold-up bank beyond 7.0 J, in 10 mJ (R62 states only the least). -/
opaque Config.bankSpare : Nat
/-- The VCD setpoint in mV that a compute die's calibration value gives at a junction reading in 0.1 °C (R76). -/
opaque Config.vcd : BitVec 16 → BitVec 16 → Nat
/-- A compute die's VCD calibration value, as the vendor recorded it. -/
opaque Config.calWord : Nat → BitVec 16
/-- The stepping of each die, as PAGE_VER reports it (R505). -/
opaque Config.stepping : Nat → Byte
/-- The measured digest of the boot ROM (R460). -/
opaque Config.romDigest : BitVec 384
/-- The digest of a firmware image, by the number the model gives the image (R460). -/
opaque Config.fwDigest : Nat → BitVec 384
/-- The signature of a signer over the bytes of a record, r and s (R447), by the signer's code of Table 19-2. -/
opaque Config.signature : Nat → List Byte → BitVec 768
/-- The public key that a certificate record binds, by its subject kind; the device's is `Config.publicKey`. -/
opaque Config.certKey : Nat → BitVec 776
/-- The operator's public key of the owner record, and the managers' key-delivery key (Table 19-3). -/
opaque Config.operatorKey : BitVec 776
opaque Config.deliveryKey : BitVec 776
/-- PUF helper data of a die, as the vendor recorded it; 512 bytes are the model's (log entry 67). -/
opaque Config.pufHelper : Nat → BitVec 4096

end Sys2Proof
end

