-- ==== Sys2Proof/Machine/Map.lean ====
section
/-! DEFINITION. Sparse maps from Nat to plain data in one canonical form: keys strictly rising and no
entry equal to the value an unlisted key reads as. Memory, register pages, counters and every table of
the module are kept this way. -/

namespace Sys2Proof.Machine

/-- A sparse map; equal maps in canonical form are equal lists. -/
abbrev SMap (α : Type) := List (Nat × α)

/-- The value at key `k`; `d` is what an unlisted key reads as. -/
def mget {α : Type} (d : α) : SMap α → Nat → α
  | [], _ => d
  | (a, x) :: m, k => if k = a then x else mget d m k

/-- Puts `(k, v)` at its place in rising key order, over any earlier entry of `k`. -/
def minsert {α : Type} : SMap α → Nat → α → SMap α
  | [], k, v => [(k, v)]
  | (a, x) :: m, k, v =>
    if k < a then (k, v) :: (a, x) :: m
    else if k = a then (k, v) :: m
    else (a, x) :: minsert m k v

/-- Removes key `k`. -/
def merase {α : Type} : SMap α → Nat → SMap α
  | [], _ => []
  | (a, x) :: m, k => if k = a then merase m k else (a, x) :: merase m k

/-- Stores `v` at `k`; storing the default removes the entry. -/
def mset {α : Type} [DecidableEq α] (d : α) (m : SMap α) (k : Nat) (v : α) : SMap α :=
  if v = d then merase m k else minsert m k v

/-- Changes the value at `k` by `f`. -/
def mupd {α : Type} [DecidableEq α] (d : α) (m : SMap α) (k : Nat) (f : α → α) : SMap α :=
  mset d m k (f (mget d m k))

/-- Removes every key from `lo` to `hi - 1`. -/
def mclear {α : Type} (m : SMap α) (lo hi : Nat) : SMap α :=
  m.filter (fun c => c.1 < lo || hi ≤ c.1)

/-- The canonical form: keys strictly rising, no entry equal to the default. -/
abbrev mwf {α : Type} (d : α) (m : SMap α) : Prop :=
  m.Pairwise (fun a b => a.1 < b.1) ∧ ∀ c ∈ m, c.2 ≠ d

/-- The `n` bytes from address `a`, each read through `mget`. -/
def readBytes (m : SMap Byte) (a : Nat) : Nat → List Byte
  | 0 => []
  | n + 1 => mget 0 m a :: readBytes m (a + 1) n

/-- Stores bytes at consecutive addresses from `a`. -/
def writeBytes (m : SMap Byte) (a : Nat) : List Byte → SMap Byte
  | [] => m
  | b :: bs => writeBytes (mset 0 m a b) (a + 1) bs

/-- Stores each listed byte at its own address, in list order. -/
def writeCells (m : SMap Byte) : List (Nat × Byte) → SMap Byte
  | [] => m
  | c :: cs => writeCells (mset 0 m c.1 c.2) cs

/-- Puts an element before the first that it does not come after. -/
def insertBy {α : Type} (le : α → α → Bool) (x : α) : List α → List α
  | [] => [x]
  | y :: l => if le x y then x :: y :: l else y :: insertBy le x l
/-- A list in rising order. -/
def sortBy {α : Type} (le : α → α → Bool) (l : List α) : List α := l.foldr (insertBy le) []

/-- The little-endian number of a list of bytes (R11). -/
def leNat : List Byte → Nat
  | [] => 0
  | b :: bs => b.toNat + 256 * leNat bs

/-- The big-endian number of a list of bytes (KVT headers, R11). -/
def beNat (l : List Byte) : Nat := leNat l.reverse

/-- The `n` little-endian bytes of a number. -/
def leBytes : Nat → Nat → List Byte
  | 0, _ => []
  | n + 1, x => BitVec.ofNat 8 x :: leBytes n (x / 256)

/-- The `n` big-endian bytes of a number. -/
def beBytes (n x : Nat) : List Byte := (leBytes n x).reverse

end Sys2Proof.Machine
end

