-- ==== Sys2Proof/Machine/State.lean ====
section
/-! DEFINITION. The state of the module: everything the spec gives it, as plain data (INVENTORY.md
lists it piece by piece), the queue of waiting commands, the reasons a step may stop, and reset. -/

namespace Sys2Proof.Machine

/-- Reasons the block would stop with a fault. The spec gives every command an effect, so nothing in
the model raises one. -/
inductive Fault where
  /-- Raised by no command; kept because the host's interface asks for a fault type. Safe: a step that
  never faults excludes no behaviour. -/
  | none
  deriving DecidableEq, Repr

/-- Reasons the block would refuse a command. -/
inductive Refusal where
  /-- Raised by Dispatch.lean alone, for a row whose meaning is not written yet. Safe: no claim follows
  about that command. -/
  | notModelled (mnemonic : String)
  deriving DecidableEq, Repr

/-! ## Outputs -/

/-- The IP and UDP fields of a KVT packet that the module sets (R284): IPv4 or IPv6, DSCP, ECN, TTL or hop limit,
DF, flow label, and whether a UDP checksum is computed. -/
structure IpHdr where
  v4 : Bool
  dscp : Nat
  ecn : Nat
  hops : Nat
  df : Bool
  flow : Nat
  summed : Bool
  deriving DecidableEq, Repr

/-- What the module put on its outside wires (log entry 9). -/
inductive Out where
  /-- A tray-bus write accepted, or refused with a NACK (R53). -/
  | trayAck
  | trayNack
  /-- The answer to the Alert Response Address (R50). -/
  | trayAra (addr : BitVec 7)
  /-- An edge of MOD_PPS_OUT (R51). -/
  | pps (level : Bool)
  /-- A MGMT packet on MP0 or MP1: KIND, channel, sequence number, RC or echoed state, words. -/
  | mgmt (mp1 : Bool) (kind : Nat) (security : Bool) (seq : W32) (rc : BitVec 16) (words : List W64)
  /-- A recovery request to a manager address; none: broadcast on the management segment (R456). -/
  | recovery (mp1 : Bool) (dest : Option (BitVec 128))
  /-- The power-down notice to the manager (R47). -/
  | notice (mp1 : Bool)
  /-- A last-gasp record on TC6 to the peer of a collective connection, with network time and cause (R72,
  R481). -/
  | peerGasp (cid : Nat) (time : W64) (cause : Nat)
  /-- A report of a failed start-up by the boot ROM responder (R458). -/
  | startFail (stage code : Nat)
  /-- A frame that begins transmission on a port or half: traffic class, which is also the PCP of its 802.1Q tag,
  the tag's VID (R255; none on a management port), length, packet and IP header if KVT. -/
  | frame (port : Nat) (half1 : Bool) (cls : Nat) (vid : Option Nat) (len : Nat) (pkt : Option (Nat × Pkt)) (ip : Option IpHdr)
  /-- A PAUSE or priority flow control frame: classes and quanta (R259). -/
  | pause (port : Nat) (pfc : Bool) (classes : Byte) (quanta : Nat)
  deriving DecidableEq, Repr

/-! ## Power manager, sideband, tray bus -/

/-- Inrush limiting after insertion (R61). -/
inductive Inrush where
  | none | inputCap | bank
  deriving DecidableEq, Repr

/-- Why the module is going down (R47, R48, R72, R78, R458, R481). -/
inductive DownWhy where
  | orderly | requested | reset | lastGasp | fatal | thermal | failed | abandoned | restart
  deriving DecidableEq, Repr

/-- Where the module is between off and in service (R47, R78, R457). -/
inductive Phase where
  | off | starting | on | down (why : DownWhy) | toM3 | fromM3
  deriving DecidableEq, Repr

/-- Supply, rails, power state and throttle (03_power_and_supply). -/
structure Pwr where
  seated : Bool := true
  pwren : Bool := false
  resetN : Bool := true
  vaux : Bool := true
  powerGood : Bool := false
  inrush : Inrush := .none
  cut : Bool := false
  /-- the input monitors see the input below 44 V, and below 40 V (R71) -/
  low : Bool := false
  below40 : Bool := false
  sag : Bool := false
  bankFull : Bool := false
  /-- stored energy of the hold-up bank in 10 mJ, as of the end of its latest discharge or charge (R62) -/
  bank : Nat := 0
  rails : Nat := 1
  phase : Phase := .off
  state : Nat := 4
  startQueued : Bool := false
  blocked : Bool := false
  kCap : Nat := 64
  kSag : Nat := 64
  kTherm : Nat := 64
  kSlope : Nat := 64
  halt : Bool := false
  shareK : SMap Nat := []
  keep : Nat := 64
  keepShare : SMap Nat := []
  /-- K to which the slope limit holds a partition whose own K rises (R65, R69) -/
  slopeShare : SMap Nat := []
  /-- compute dies a droop detector of which has tripped, and periods since the latest trip (R66) -/
  droopDies : List Nat := []
  droopFor : Nat := 0
  droopSeen : Bool := false
  droopLast : Bool := false
  keepLast : Nat := 64
  frame : Nat := 0
  prevPin : Nat := 0
  /-- test load that fills a fall, in 10 mW (R70) -/
  fill : Nat := 0
  /-- setpoints of VCD0 to VCD3 in mV (R76) -/
  vcd : SMap Nat := []
  tj : BitVec 16 := 0
  /-- in M4 by request: a run request starts the module up (Table 3-6) -/
  slept : Bool := false
  /-- input energy not yet counted, in units of 100 µJ -/
  joule : Nat := 0
  pmStandbyOk : Bool := false
  pmRole : Bool := false
  deriving DecidableEq, Repr

/-- The tray bus and MOD_PPS_OUT (02_module_connections); supplied from VAUX (R52). `cond` holds the conditions present now. -/
structure Tray where
  vin : BitVec 16 := 0
  iin : BitVec 16 := 0
  pin : BitVec 16 := 0
  tj : BitVec 16 := 0
  tcool : BitVec 16 := 0
  /-- the readings have been updated since VAUX came up -/
  seen : Bool := false
  alert : Byte := 0
  mask : Byte := 0x1F
  cond : Byte := 0
  ppsOut : Bool := false
  ppsLeft : Nat := 0
  deriving DecidableEq, Repr

/-- Network time and its discipline (10_ethernet_ports R262-R266). `sub` counts 2^-32 ns. -/
structure NetTime where
  sec : Nat := 0
  ns : Nat := 0
  sub : Nat := 0
  inLock : Nat := 0
  outLock : Nat := 0
  /-- sequence number of the clock's next delay request (R265) -/
  reqSeq : BitVec 16 := 0
  deriving DecidableEq, Repr

/-! ## Tiles and the grid -/

/-- Tile states (Table 4-6). -/
inductive Run where
  | idle | armed | running | stopping | stopped | done | trapped | gated | held | unavailable
  deriving DecidableEq, Repr

/-- Special state of a long accumulator (R133). -/
inductive Spec where
  | fin | pinf | ninf | nan
  deriving DecidableEq, Repr

/-- A long accumulator: 320-bit two's-complement V of weight 2^-170, and its special state (R133). -/
structure LAcc where
  v : BitVec 320 := 0
  sp : Spec := .fin
  deriving DecidableEq, Repr

/-- An active loop (R155): level, first and last bundle of the body, iterations remaining. -/
structure LoopRec where
  lvl : Nat
  first : Nat
  last : Nat
  left : Nat
  deriving DecidableEq, Repr

/-- What lands when a result in flight reaches its ACLK (R145). -/
inductive Land where
  | s (r : Nat) (v : W64)
  | v (r : Nat) (x mask : Vec)
  | p (r : Nat) (v : W64)
  | nstat (set : BitVec 5)
  | csr (r : Nat) (v : W64)
  | csrClear (r : Nat) (v : W64)
  | mem (pa : Nat) (bytes : List (Option Byte))
  /-- AST and MLST: written at the end of the busy count (R165). -/
  | memBusy (pa : Nat) (bytes : List (Option Byte))
  /-- MMA: element format codes, bases, K, and the operand bytes as they stood at issue (R519). -/
  | mma (fa fb : Nat) (aBase aScale bBase bScale k : Nat) (aOld aScOld bOld bScOld : List Byte)
  /-- MMAV: A from nv registers from va as they stood at issue, and as the busy time left them once it has
  ended (R167), B as for MMA. -/
  | mmav (fa fb : Nat) (va nv : Nat) (aOld : List Vec) (aNew : Option (List Vec)) (bBase k : Nat) (bOld : List Byte)
  /-- the busy time of an MMAV ends: what its registers from va hold then (R167) -/
  | mmavCut (va nv : Nat)
  /-- an increment of a grid tally, its mark, and the message whose lines it settles (R178, R180) -/
  | tally (k : Nat) (mark : Bool) (own : Option Nat)
  deriving DecidableEq, Repr

/-- A result in flight: the ACLK at which it lands. -/
structure Flight where
  due : Nat
  land : Land
  deriving DecidableEq, Repr

/-- What the next bundle of a tile waits for. -/
inductive Wait where
  /-- WAITT: until the time word (R157). -/
  | time (target : W64)
  /-- XWAIT on tally t for operand n; whether it is an external wait (R169, R188). -/
  | tally (t : Nat) (n : Nat) (ext : Bool)
  /-- XSYNC on a wave (R189). -/
  | wave (w : Nat)
  /-- XMBR into the register group (R168). -/
  | mbox (sn : Nat)
  /-- A bundle that names a register whose far-load data is pending (R174). -/
  | far
  /-- The injection queue is full (R176). -/
  | inject
  /-- Sixteen copy requests are outstanding (R196). -/
  | copies
  /-- The drain of END (R156). -/
  | endDrain
  /-- The drain after a step boundary with STOP or a hold pending (R156). -/
  | stepDrain
  /-- A resumed or released tile waits for its slot phase (R197). -/
  | phase
  deriving DecidableEq, Repr

/-- A message in an injection queue (R175, R176). `old` are the source bytes at issue, `ready` the first
GCLK of its staging, `next` the source line to stage next, `lines` the lines staged and not yet released:
line, GCLK of its reading, bytes; `mark` is the external mark of a beat already sent. -/
structure Msg where
  vec : Bool
  src : Nat
  dstTile : Nat
  dst : Nat
  len : Nat
  tally : Nat
  srct : Option Nat
  old : List Byte
  sent : Nat
  ready : Nat := 0
  next : Nat := 0
  lines : List (Nat × Nat × List Byte) := []
  mark : Bool := false
  deriving DecidableEq, Repr

/-- A destination line in a landing buffer (R178): its number, the bytes arrived by address, how many the
message writes in it, and the GCLK in which the last of them arrived. -/
structure LandLine where
  no : Nat
  cells : List (Nat × Byte)
  want : Nat
  full : Option Nat
  deriving DecidableEq, Repr

/-- A message landing at its destination (R178): beats arrived, lines in the landing buffer, lines not yet
written. `dead`: discarded, and whether its beats count as discarded (R179, R186). -/
structure Landing where
  src : Nat
  id : Nat
  dst : Nat
  len : Nat
  tally : Nat
  mark : Bool
  beats : List Nat
  lines : List LandLine := []
  left : Nat
  dead : Option Bool := none
  deriving DecidableEq, Repr

/-- A pending XMOV (R520): the first GCLK of its reading, lines read so far, and those read and not yet
written with the GCLK of their reading. -/
structure XMov where
  src : Nat
  dst : Nat
  len : Nat
  tally : Nat
  ready : Nat
  read : Nat := 0
  buf : List (Nat × List Byte) := []
  deriving DecidableEq, Repr

/-- One logical tile (04_tiles_and_grid, 06_tile_instruction_set, 07_grid_messaging). `aclk` is the
tile's own ACLK since launch; `slots` is the bundle being assembled or held back; `rp0`, `rp1` and `wp`
are the GCLKs, with the bank, in which the program uses each SRAM port (R88, R152); `mbusy` ends the
matrix unit's busy count and `mIss` to `mg` follow the operand fetch of an MMA (R166); `far` holds far
loads as register, address and translation epoch (R174). GCLK times of a tile count from its launch without
its holds and stops, which last whole 256-GCLK periods: `lag` is what they add up to (R197); `eng` is the
next GCLK of its ports to come (R176, R178, R520), `joinG` the GCLK of its join of a wave (R190), `roomAt`
that in which its full landing buffer last wrote a line (R193). -/
structure Tile where
  run : Run := .unavailable
  mode : Bool := false
  clearing : Bool := false
  stopReq : Bool := false
  holdReq : Bool := false
  wasStopped : Bool := false
  armPending : Bool := false
  s : SMap W64 := []
  v : SMap Vec := []
  p : SMap W64 := []
  banks : SMap W32 := []
  acc : SMap LAcc := []
  pc : Nat := 0
  loops : List LoopRec := []
  nstat : BitVec 5 := 0
  stepcnt : W64 := 0
  sre : W32 := 0
  cycle : W64 := 0
  extwait : W64 := 0
  xerr : BitVec 17 := 0
  aclk : Nat := 0
  flight : List Flight := []
  mbusy : Nat := 0
  own0 : Nat := 0
  ownW : Nat := 0
  rp0 : List (Nat × Nat) := []
  rp1 : List (Nat × Nat) := []
  wp : List (Nat × Nat) := []
  mIss : Nat := 0
  mc : Nat := 0
  mNext : Nat := 0
  m0 : Nat := 0
  m1 : Nat := 0
  mg : Nat := 0
  far : List (Nat × Nat × Nat) := []
  waited : Nat := 0
  slots : List Instr := []
  waitFor : Option Wait := none
  waitExt : Bool := false
  heldFrom : Option Run := none
  tallies : SMap W32 := []
  marks : SMap Bool := []
  flag : Bool := false
  /-- the flag was set since the tile's latest XSYNC or launch (R188) -/
  soiled : Bool := false
  lag : Nat := 0
  eng : Nat := 0
  joinG : Nat := 0
  roomAt : Nat := 0
  injq : List Msg := []
  msgId : Nat := 0
  landing : List Landing := []
  xmovs : List XMov := []
  copies : Nat := 0
  outMsgs : Nat := 0
  sramPend : Bool := false
  measured : Option (BitVec 384) := none
  /-- GCLK count of the group at the step boundary where the tile was held or stopped (R197) -/
  slotHold : Nat := 0
  phys : Option (Nat × Nat × Nat) := none
  deriving DecidableEq, Repr

/-- A directed link (R182): owner, group, mode and the slot table (R185); in Steady mode the input its
output's round robin serves next, the first GCLK of its next grant, and that in which the full buffer at its
far end last let a beat go (R192). -/
structure Link where
  owned : Bool := false
  part : Nat := 0
  group : Nat := 0
  steady : Bool := false
  table : SMap Nat := []
  ptr : Nat := 0
  free : Nat := 0
  room : Nat := 0
  deriving DecidableEq, Repr

/-- A beat between two tiles: the tile it reaches next, the input it comes on and the GCLK, from the group's
launch, in which it gets there (R175, R186); `heldAt` is the group's GCLK count since which it waits before
a held tile (R197). -/
structure Beat where
  src : Nat
  id : Nat
  dstTile : Nat
  dst : Nat
  len : Nat
  tally : Nat
  j : Nat
  bytes : List Byte
  mark : Bool
  gclk : Nat
  at_ : Nat
  input : Dir
  heldAt : Option Nat := none
  deriving DecidableEq, Repr

/-- A launch group (R106, R185): GCLK edges since its launch, of which the slot counter is the count modulo
256, when GRID_LAUNCH asked for its launch, the wave masks in force since its latest launch (R189, R200),
GCLK edges since its last active tile left (R182), and the TILE_LAUNCH entry that waits for the launch. -/
structure Group where
  gclk : Nat := 0
  counting : Bool := false
  launchAt : Option Nat := none
  part : Nat := 0
  live : SMap Nat := []
  idle : Option Nat := none
  entry : Option (Nat × Nat) := none
  deriving DecidableEq, Repr

/-! ## Memory, translation, copies -/

/-- A stretch of memory whose reads are not settled: a basted message (grain 1, R313) or a landing
(grain 256, R180), with the prior bytes of what is already placed. -/
structure Soft where
  owner : Nat
  grain : Nat
  cells : List (Nat × Byte)
  deriving DecidableEq, Repr

/-- A slab-map evacuation in progress on a device (R244). -/
structure Evac where
  slab : Nat
  dstDev : Nat
  dstLocal : Nat
  auto : Bool := false
  /-- the DEV_EVAC whose final reply is due -/
  cmd : Option Cmd := none
  deriving DecidableEq, Repr

/-- Per-device controller state (R33, R34, R244-R248, R494); the lines found with errors carry the
alignment period of the finding (R495). -/
structure Device where
  state : Nat := 0
  evac : Option Evac := none
  status : Nat := 0
  ptr : Nat := 0
  postponed : Nat := 0
  patrol : Nat := 0
  ceLines : List (Nat × Nat) := []
  ueLines : List (Nat × Nat) := []
  overdue : Bool := false
  logWait : List (Nat × Nat) := []
  /-- the run of lost lines that the units copied so far end with (R247) -/
  lostRun : Option (Nat × Nat) := none
  /-- the alignment period at which the patrol pass began (R494) -/
  patrolAt : Nat := 0
  /-- bytes that classes Q0 and Q2 had of the arbitration window, and those of Q0 that wait for the next (R33) -/
  q0 : Nat := 0
  q2 : Nat := 0
  late : Nat := 0
  /-- the class served last (R33); a refresh has gone ahead of the Q0 or Q1 request that waits (R34) -/
  cls : Nat := 3
  ahead : Bool := false
  deriving DecidableEq, Repr

/-- A partition translation record (Table 9-2). -/
structure XRec where
  en : Bool := false
  root : Nat := 0
  fqLog2 : Nat := 0
  fqBase : Nat := 0
  dlog : Bool := false
  deriving DecidableEq, Repr

/-- A translation-buffer entry (R231): n pages of one size from `va`, physically contiguous from `pa`,
with bits [11:0] of their leaves. -/
structure TbEntry where
  part : Nat
  va : Nat
  size : Nat
  n : Nat
  pa : Nat
  bits : BitVec 12
  deriving DecidableEq, Repr

/-- A translated run a holder keeps (R233): n bytes from `va`, at `pa`, the translation epoch, and whether the
partition logged writes then (R243). -/
structure Held where
  va : Nat
  n : Nat
  pa : Nat
  bits : BitVec 12
  epoch : Nat
  dlog : Bool := false
  deriving DecidableEq, Repr

/-- A pending-fault entry of a die (R239); `seq` numbers faults in the order they occurred. -/
structure FaultEntry where
  token : Nat
  fd1 : Bool
  part : Nat
  level : Nat
  lo : Nat
  size : Nat
  reason : Nat
  acc : BitVec 4
  va : Nat
  time : W64
  slot : Option Nat
  streams : List Stream
  seq : Nat := 0
  deriving DecidableEq, Repr

/-- A fault that waits for a table entry or for fault-queue space (R240). -/
structure FaultWait where
  fd1 : Bool
  part : Nat
  level : Nat
  lo : Nat
  size : Nat
  reason : Nat
  acc : BitVec 4
  va : Nat
  time : W64
  st : Stream
  seq : Nat := 0
  deriving DecidableEq, Repr

/-- A translation fence waiting for the holders of earlier-epoch runs (R234). -/
structure Fence where
  part : Nat
  q : Nat
  idx : Nat
  epoch : Nat
  deriving DecidableEq, Repr

/-- Where a copy request came from (R222); of a fired operation the physical address of its embedded
descriptor, the data key, and whether writes there are logged. -/
inductive CopyFrom where
  | tile (t : Nat)
  | entry (p q idx : Nat)
  | armed (p embPa k : Nat) (dl : Bool)
  deriving DecidableEq, Repr

/-- A fill or spill an engine holds (R194, R222-R224): `runs` and `truns` are its held runs, `moved` the
bytes moved, `tiles` the tiles its tile-side runs named, `cells` what it was to write, by target address,
as its source stood when the engine took it. -/
structure CopyJob where
  eng : Nat
  id : Nat
  from_ : CopyFrom
  part : Nat
  spill : Bool
  lva : Nat
  /-- tile-side address: a tile-local address or bundle byte for a tile request, a VA for a descriptor -/
  tva : Nat
  im : Bool
  len : Nat
  tally : Option Nat
  flags : Byte
  ctally : W32
  parked : Bool := false
  epoch : Nat := 0
  runs : List Held := []
  truns : List Held := []
  moved : Nat := 0
  tiles : List Nat := []
  cells : List (Nat × Byte) := []
  deriving DecidableEq, Repr

/-! ## Ports and scheduling -/

/-- A timestamp of an IEEE 1588 event message (R264). -/
structure Stamp where
  sec : Nat
  ns : Nat
  frac : Nat
  seq : BitVec 16
  kind : BitVec 4
  half1 : Bool := false
  deriving DecidableEq, Repr

/-- A frame queued for transmission on a port or half. -/
structure TxFrame where
  half1 : Bool := false
  cls : Nat
  len : Nat
  ptp : Option (BitVec 16 × BitVec 4) := none
  pkt : Option (Nat × Pkt) := none
  deriving DecidableEq, Repr

/-- A port (10_ethernet_ports). -/
structure Port where
  up0 : Bool := false
  up1 : Bool := false
  training : Bool := false
  pool : Nat := 0
  pausing : Bool := false
  paused : SMap Nat := []
  pauseOut : List (Bool × Nat) := []
  txq : List TxFrame := []
  tsRx : List Stamp := []
  tsTx : List Stamp := []
  deriving DecidableEq, Repr

/-- A gate control list with its cycle time (R271). -/
structure GateList where
  entries : SMap W32 := []
  len : Nat := 1
  cycle : Nat := 1000000
  deriving DecidableEq, Repr

/-- A shaper's configuration (R277). -/
structure ShaperCfg where
  rate : Nat := 0
  burst : Nat := 0x2414
  en : Bool := false
  deriving DecidableEq, Repr

/-- The gates and shapers of a data port (11_traffic_scheduling): `start` is the start of the cycle in
progress, or of the first one while `going` is false; `guarded` are the classes, by half, whose first frame
the guard band has deferred; `which` tells which of the two lists is active. -/
structure Sched where
  active : Bool := false
  act : GateList := {}
  shadow : GateList := {}
  start : Option Int := none
  entry : Nat := 0
  mask : Byte := 0xFF
  swapPend : Bool := false
  swapAt : Int := 0
  shpPend : Bool := false
  ovh : Int := 20
  shp : SMap ShaperCfg := []
  staged : SMap ShaperCfg := []
  tokens : SMap Int := []
  guarded : List Nat := []
  going : Bool := false
  which : Bool := false
  deriving DecidableEq, Repr

/-- A meter's configuration (R280). -/
structure MeterCfg where
  en : Bool := false
  alg : Bool := false
  aware : Bool := false
  cir : Nat := 0
  pir : Nat := 0
  cbs : Nat := 0
  xbs : Nat := 0
  deriving DecidableEq, Repr

/-- A meter: staged and active configuration, buckets, counts (R279-R283). -/
structure Meter where
  cfg : MeterCfg := {}
  staged : MeterCfg := {}
  pend : Bool := false
  tc : Nat := 0
  tx : Nat := 0
  yellow : W64 := 0
  red : W64 := 0
  deriving DecidableEq, Repr

/-! ## Transport -/

/-- Connection states (Table 12-8); accepted-open is treated as open. -/
inductive CState where
  | free | connecting | open_ | closing | error | frozen | forwarding
  deriving DecidableEq, Repr

/-- What a message being sent belongs to. -/
inductive Origin where
  | entry (p q idx : Nat)
  | armed (p embPa k : Nat) (dl : Bool)
  | readResp (ofMsg : BitVec 16)
  | atomicResp (ofMsg : BitVec 16) (value : W64)
  | notify (p q : Nat)
  | coll (h chunk : Nat)
  | close
  deriving DecidableEq, Repr

/-- A message in a connection's transmit order (R300, R306, R334). -/
structure TxMsg where
  org : Origin
  op : Nat
  msgId : BitVec 16
  len : Nat
  lva : Nat
  rva : W64
  key : W32
  imm : W32
  fence : Bool
  small : Bool
  data : List Byte
  first : Option Nat
  sent : Nat
  unsol : Nat
  granted : Nat
  ended : Bool := false
  acked : Bool := false
  d : Desc
  win : Option Nat := none
  runs : List Held := []
  deriving DecidableEq, Repr

/-- A packet sent and not yet acknowledged: PSN, message, offset, label (R298, R300). -/
structure SentPkt where
  psn : Nat
  msgId : BitVec 16
  off : Nat
  label : Nat
  deriving DecidableEq, Repr

/-- A posted receive (R328). -/
structure Recv where
  p : Nat
  q : Nat
  idx : Nat
  d : Desc
  deriving DecidableEq, Repr

/-- The receive state of a message not yet hemmed (R310-R316): `got` are the offsets of packets verified,
`held` those held in the pool, `applied` the REDUCE packets combined, `pool` the pool space they take. -/
structure RxMsg where
  op : Nat
  msgId : BitVec 16
  len : Nat
  firstPsn : Nat
  rva : W64
  key : W32
  imm : W32
  fence : Bool
  small : Bool
  unsol : Nat
  granted : Nat
  grantSent : Nat
  arrived : Nat
  got : List Nat
  held : List (Nat × List Byte)
  recv : Option Recv
  win : Option Nat
  /-- the request of this module that a READ_RESP or ATOMIC_RESP answers -/
  ofMsg : BitVec 16
  db : Option Nat
  ended : Bool := false
  runs : List Held := []
  epoch : Nat := 0
  dirty : List (Nat × Nat) := []
  applied : Nat := 0
  pool : List (Nat × Nat) := []
  deriving DecidableEq, Repr

/-- An outstanding READ or atomic of this module, awaiting its response (R318). -/
structure Await where
  org : Origin
  msgId : BitVec 16
  op : Nat
  len : Nat
  lva : Nat
  d : Desc
  runs : List Held := []
  deriving DecidableEq, Repr

/-- A connection (12_kvt_transport). -/
structure Conn where
  state : CState := .free
  part : Nat := 0
  home : Bool := false
  pin : Bool := false
  enc : Bool := false
  opener : Bool := false
  mtu : Nat := 4096
  offer : BitVec 2 := 2
  cls : Nat := 0
  listen : W32 := 0
  peerCid : Nat := 0
  peerAddr : BitVec 128 := 0
  /-- the module's own address, as the peer's CONNECT named it; 0 stands for any of the partition's -/
  localAddr : BitVec 128 := 0
  peerPort : Nat := 28744
  salt : W32 := 0
  peerSalt : W32 := 0
  sends : Nat := 0
  /-- the first PSN of this end's direction, as its CONNECT or ACCEPT names it -/
  psn0 : Nat := 0
  a : Nat := 0
  n : Nat := 0
  nMax : Nat := 0
  nextMsg : BitVec 16 := 0
  retries : Nat := 0
  uc : Nat := 65536
  echoed : Bool := false
  txParked : Bool := false
  label : Nat := 0
  suspect : List Nat := []
  probing : List Nat := []
  txq : List TxMsg := []
  sent : List SentPkt := []
  awaits : List Await := []
  e : Nat := 0
  got : List Nat := []
  solicits : List Nat := []
  hemNext : BitVec 16 := 0
  rxq : List RxMsg := []
  accepted : Nat := 0
  /-- PSNs of accepted packets that arrived with CE and that no ACK has covered -/
  ce : List Nat := []
  wc : Nat := 1048576
  pktsInt : Nat := 0
  ceInt : Nat := 0
  recvs : List Recv := []
  parked : Bool := false
  parkMsg : Option RxMsg := none
  txEpoch : Nat := 0
  txCtr : Nat := 0
  txLog2 : Nat := 32
  txNextLog2 : Nat := 32
  txNext : Bool := false
  txAsked : Bool := false
  stall : Bool := false
  rxEpoch : Nat := 0
  rxPrev : Bool := false
  /-- tag failures by the epoch of the key that was tried (R431) -/
  tagFails : SMap Nat := []
  /-- epochs whose receive keys have been asked for: those below this number -/
  rxAsked : Nat := 0
  edge : Option Nat := none
  fwdAddr : BitVec 128 := 0
  fwdPort : Nat := 0
  fwdCid : Nat := 0
  gone : Bool := false
  cause : Nat := 0
  /-- the period of the latest NAK 0x09, NAK 0x0A or MOVED in answer to a packet -/
  nakAt : Option Nat := none
  /-- the PSN a NAK 0x05 asked to be resent from -/
  noRecv : Option Nat := none
  /-- the CONN_OPEN or CONN_CLOSE whose final reply is due -/
  cmd : Option Cmd := none
  deriving DecidableEq, Repr

/-- Per-die transport state: cached contexts in use order, miss lists of waiting packets (R295, R296),
the round-robin pointer of the grant scheduler. -/
structure KvtDie where
  cached : List Nat := []
  misses : List (Nat × Pkt × Nat) := []
  fetch : List Nat := []
  /-- the connection granted last, by class (R307) -/
  rr : SMap Nat := []
  deriving DecidableEq, Repr

/-! ## Remote operations, queues, collectives -/

/-- A window (R335). `gen` is the generation of the latest open. -/
structure Window where
  ever : Bool := false
  open_ : Bool := false
  part : Nat := 0
  gen : Byte := 0
  base : Nat := 0
  len : Nat := 0
  rights : BitVec 4 := 0
  deriving DecidableEq, Repr

/-- A revoke waiting for its READ_RESPs to be acknowledged (R338). -/
structure Revoke where
  p : Nat
  q : Nat
  idx : Nat
  win : Nat
  deriving DecidableEq, Repr

/-- An armed operation (R342): embedded descriptor's physical address, data key and logging, opcode and
fields. -/
structure Armed where
  p : Nat
  tally : Nat
  threshold : W64
  embPa : Nat
  embK : Nat
  embDl : Bool := false
  op : Nat
  d : Desc
  epoch : Option Nat := none
  /-- it fired and met a translation fault -/
  parked : Bool := false
  deriving DecidableEq, Repr

/-- An entry consumed and not yet passed by H (R375-R377); `epoch` is that of its earliest held run. -/
structure Entry where
  idx : Nat
  op : Nat
  d : Desc
  started : Bool := true
  done : Option Nat := none
  parked : Bool := false
  epoch : Option Nat := none
  deriving DecidableEq, Repr

/-- A queue (Table 15-2, Table 15-3). -/
structure Queue where
  used : Bool := false
  kind : Nat := 0
  sizeLog2 : Nat := 4
  ring : Nat := 0
  cb : Nat := 0
  p : Nat := 0
  c : Nat := 0
  h : Nat := 0
  qstate : Nat := 0
  nfail : Nat := 0
  ncount : Nat := 0
  ntimer : Nat := 0
  nkind : Nat := 0
  ndest : Nat := 0
  nkey : W32 := 0
  naddr : Nat := 0
  entries : List Entry := []
  fence : Bool := false
  parked : Bool := false
  pend : Bool := false
  count : Nat := 0
  err : Bool := false
  seq : W32 := 0
  timer : Bool := false
  /-- the QUEUE_DESTROY whose final reply is due -/
  cmd : Option Cmd := none
  deriving DecidableEq, Repr

/-- A collective group's run state (Table 14-7 GRP_STATE). -/
inductive CollState where
  | undef | idle | running | failed
  deriving DecidableEq, Repr

/-- A run of a collective group (R351-R360). -/
structure CollRun where
  p : Nat
  q : Nat
  idx : Nat
  number : Nat
  len : Nat
  src : Nat
  dst : Nat
  kind : Nat
  op : Nat
  ty : Nat
  form : Nat
  tally : W32
  slots : Nat
  waiting : Bool
  upNext : Nat := 0
  downNext : Nat := 0
  /-- chunk data hemmed from children: (child index, chunk, bytes) -/
  got : List (Nat × Nat × List Byte) := []
  srcRuns : List Held := []
  dstRuns : List Held := []
  /-- the contribution as it stood when the run began (R360) -/
  src0 : List Byte := []
  deriving DecidableEq, Repr

/-- A collective group (R346-R349); `later` are runs consumed behind the present one. A group not yet
defined holds in `d` what was written to its registers. -/
structure CollGroup where
  state : CollState := .undef
  d : CollDef := { part := 0, tag := 0, size := 1, rank := 0, last := 0, home := false,
                   parent := none, children := [] }
  number : Nat := 0
  run : Option CollRun := none
  later : List CollRun := []
  /-- child count written for a group not yet defined (COLL_GRP_CFG) -/
  cnt : Nat := 0
  /-- what was written to COLL_EDGE_CID and COLL_EDGE_RANKS of the parent edge (R16) -/
  pedge : CollEdge := { cid := 0, first := 0, last := 0 }
  deriving DecidableEq, Repr

/-! ## Partitions, mailboxes, keys, identity, test -/

/-- Partition states (Table 16-2). -/
inductive LState where
  | free | configuring | active | quiescing | quiesced | freezing | frozen | restoring | forwarding
  deriving DecidableEq, Repr

/-- A partition (16_partitions); its resources are the PART registers. -/
structure Part where
  lstate : LState := .free
  draining : Bool := false
  chan : Option Nat := none
  cmd : Option Cmd := none
  /-- the PART_QUIESCE whose drain a second one ended -/
  cmd2 : Option Cmd := none
  rec_ : XRec := {}
  reload : Nat := 0
  epoch : Nat := 0
  tallies : SMap W64 := []
  held : List Armed := []
  chanSeq : W32 := 0
  fwSeq : W32 := 0
  pm : BitVec 384 := 0
  launches : Nat := 0
  /-- the TILE_LAUNCH being served: queue, entry, launch group, launch table (R371) -/
  launch : Option (Nat × Nat × Nat × List Byte) := none
  dbLive : Bool := false
  image : Nat := 0
  deriving DecidableEq, Repr

/-- A tile as a partition image holds it (R399): its index and record, the bytes of its SRAM and its
instruction memory by local address, its TILE registers, and whether its state could not be read. -/
structure TileImage where
  idx : Nat
  tile : Tile
  sram : SMap Byte := []
  im : SMap Byte := []
  regs : List (Nat × W32) := []
  lost : Bool := false
  deriving DecidableEq, Repr

/-- A partition image (R399). -/
structure PartImage where
  rootId : W32 := 0
  tiles : List TileImage := []
  slots : List (Nat × Nat) := []
  queues : List (Nat × Queue) := []
  conns : List (Nat × Conn) := []
  windows : List (Nat × Window) := []
  tallies : SMap W64 := []
  armed : List Armed := []
  held : List Armed := []
  colls : List (Nat × CollGroup) := []
  regs : List (Nat × W32) := []
  chan : Option Nat := none
  dbLive : Bool := false
  pm : BitVec 384 := 0
  launches : Nat := 0
  deriving DecidableEq, Repr, Inhabited

/-- One direction of a mailbox channel (Table 17-2), firmware's pending posts for it (R473) and, on the
privileged channels, the packet that awaits its echo (R415). -/
structure Mbox where
  words : List W64 := []
  len : Nat := 0
  full : Bool := false
  collision : Bool := false
  rreset : Bool := false
  src : Bool := false
  rc : BitVec 16 := 0
  acked : Bool := false
  seq : W32 := 0
  /-- the sequence number of the last post received on the direction (R415) -/
  last : Option W32 := none
  pend : List (List W64) := []
  dropped : Nat := 0
  evSeq : Nat := 0
  awaiting : Option (Nat × W32 × BitVec 16 × List W64) := none
  mp1 : Bool := false
  deriving DecidableEq, Repr

/-- Keys of a partition (Table 18-2). -/
structure PKeys where
  root : Option (BitVec 256) := none
  rootId : W32 := 0
  erased : Bool := false
  prov : Nat := 0
  pkek : BitVec 256 := 0
  deriving DecidableEq, Repr

/-- Cipher-engine state (18_cipher_and_keys). -/
structure Ciph where
  cond : BitVec 4 := 0
  lid : Bool := false
  storageRoot : BitVec 256 := 0
  kek : Bool := false
  aes : Nat × Nat := (40, 40)
  sha : Nat × Nat := (4, 4)
  ec : Nat × Nat := (2, 2)
  reserved : Nat × Nat := (0, 0)
  retired : List (Nat × Nat) := []
  mism : List (Nat × Nat) := []
  /-- derivations of next epochs' wire keys that wait, oldest first: connection and whether it is the sending
  direction's (R423) -/
  epochQ : List (Nat × Bool) := []
  deriving DecidableEq, Repr

/-- An ATTEST in progress (R462): its command, partition, nonce, selection and report address. -/
structure Attest where
  cmd : Cmd
  p : Nat
  nonce : BitVec 256
  sel : BitVec 4
  addr : Nat
  deriving DecidableEq, Repr

/-- An entry of the service log: a start-up began, the orderly-stop mark (R453), a module-fatal stop with its
cause (Table 20-7). -/
inductive LogNote where
  | started
  | orderly
  | fatal (cause : Nat)
  deriving DecidableEq, Repr

/-- A firmware image in the store (R454); `id` numbers it, so that its digest can be told apart. -/
structure StoredImage where
  ok : Bool := true
  svn : Nat := 0
  raiseMin : Bool := false
  id : Nat := 0
  deriving DecidableEq, Repr

/-- The records a module leaves manufacture with, one of each type that start-up needs, and the manager's; their
contents are named in log entry 13. -/
def factoryRecords : List ConfigRec :=
  let c (k : Nat) (key : BitVec 776) : ConfigRec := { body := .cert k key Config.serial, signer := .authority }
  [c 0 (Config.certKey 0), c 1 Config.publicKey, c 2 (Config.certKey 2), c 3 (Config.certKey 3),
   { body := .puf (Config.pufHelper 0) (Config.pufHelper 1) }, { body := .product Config.serial false },
   { body := .calibration ([0, 1, 2, 3].map Config.calWord) [] }, { body := .repairMap [] [] }, { body := .owner Config.operatorKey },
   { body := .operator [] Config.deliveryKey, signer := .operator }]

/-- The configuration store (R449): records by their offset in the record area, in order; the directory, with the
offset plus 1 of the newest record of each type; the firmware image; the service log, newest entry last. -/
structure Store where
  records : List (Nat × ConfigRec) :=
    [0, 320, 640, 960, 1280, 2496, 2688, 3328, 3712, 4032].zip factoryRecords
  dir : SMap Nat := [(1, 961), (2, 1281), (3, 2497), (4, 2689), (5, 3329), (6, 3713), (7, 4033)]
  image : StoredImage := {}
  log : List LogNote := [.orderly]
  deriving DecidableEq, Repr

/-- Identity and firmware (19_identity_startup_firmware). `idKey`: the key stores of the complexes hold the identity
secret and d. `fwId` and `stagingId` number the images, so that their
digests can be told apart (log entry 7). `n16` and `asym` are what start-up read of the product and calibration
records. -/
structure Ident where
  n16 : Bool := false
  idKey : Bool := false
  /-- calibration of a port's path asymmetry, in 2^-32 ns, by 2 × port + 1 for reception (R264) -/
  asym : SMap Int := []
  stage : Nat := 0
  failCode : Nat := 0
  netReady : Bool := false
  gridReady : Bool := false
  nolock : Bool := false
  recovery : Bool := false
  done8 : Bool := false
  done10 : Bool := false
  fwSvn : Nat := 0
  map : SMap Nat := []
  second : SMap Nat := []
  fwId : Nat := 0
  fwMin : Bool := false
  /-- the staged image: SVN, RAISE_MIN, number -/
  staged : Option (Nat × Bool × Nat) := none
  stagingId : Nat := 0
  staging : Option StagedObj := none
  stageCmd : Option Cmd := none
  actCmd : Option Cmd := none
  actStep : Nat := 0
  recBuf : SMap Byte := []
  recOff : List (Nat × Nat) := []
  active : Bool := false
  standbyOk : Bool := false
  ccRestart : Bool := false
  attests : List Attest := []
  deriving DecidableEq, Repr

/-- A physical tile's test record (R486-R492). -/
structure TestTile where
  passed : List Nat := []
  failedOnce : Option Nat := none
  condemned : Bool := false
  retired : Bool := false
  /-- the alignment period at which the last pass ended -/
  passAt : Nat := 0
  segment : Option Nat := none
  overdue : Bool := false
  /-- alignment periods of the corrected errors of the last 24 h in its SRAM, and in its instruction memory (R491) -/
  sramCe : List Nat := []
  imCe : List Nat := []
  deriving DecidableEq, Repr

/-- Test, patch engagement and snapshots (21_test_sparing_telemetry, 22 R516). -/
structure Test where
  tiles : SMap TestTile := []
  /-- per die row n: the column being patched, whether the move has begun -/
  patch : SMap (Nat × Bool) := []
  /-- lanes found low, by port × 8 + lane -/
  margins : SMap Bool := []
  /-- the period of a port's latest retraining, plus 1 -/
  retrained : SMap Nat := []
  armed : Option (Nat × Nat) := none
  snaps : W32 := 0
  deriving DecidableEq, Repr

/-! ## The whole state -/

/-- The module (INVENTORY.md). -/
structure State where
  pending : List Instr := []
  fresh : Nat := 0
  align : Nat := 0
  out : List Out := []
  pwr : Pwr := {}
  tray : Tray := {}
  time : NetTime := {}
  regs : SMap W32 := []
  cnts : SMap W64 := []
  shadows : SMap W64 := []
  latch : SMap (Option W32) := []
  tiles : SMap Tile := []
  links : SMap Link := []
  beats : List Beat := []
  groups : SMap Group := []
  waves : SMap Nat := []
  mem : SMap Byte := []
  ue : List Nat := []
  ce : List Nat := []
  lost : List Nat := []
  lineKey : SMap Nat := []
  soft : List Soft := []
  /-- bundles written in the last alignment periods: address, period of the write, former bytes (R92) -/
  imOld : List (Nat × Nat × List Byte) := []
  /-- DRAM lines a firmware access found corrected, or uncorrectable (true), still to be reported (R217) -/
  fwEcc : List (Nat × Bool) := []
  slabs : SMap W32 := []
  devs : SMap Device := []
  tb : List (Bool × TbEntry) := []
  faults : List FaultEntry := []
  faultWaits : List FaultWait := []
  fences : List Fence := []
  token : Nat := 0
  jobs : List CopyJob := []
  ports : SMap Port := []
  scheds : SMap Sched := []
  meters : SMap Meter := []
  conns : SMap Conn := []
  kvt : KvtDie × KvtDie := ({}, {})
  /-- the latest NAK with ECHO by source address and CID: its period (R521) -/
  naks : List (Nat × Nat × Nat) := []
  windows : SMap Window := []
  revokes : List Revoke := []
  armed : List Armed := []
  armedDue : List Armed := []
  queues : SMap Queue := []
  colls : SMap CollGroup := []
  collWait : List Nat := []
  parts : SMap Part := []
  /-- images PART_SAVE built, by image number -/
  images : List (Nat × PartImage) := []
  mbox : SMap Mbox := []
  keys : SMap PKeys := []
  ciph : Ciph := {}
  ident : Ident := {}
  store : Store := {}
  test : Test := {}
  deriving DecidableEq, Repr

/-- The module right after reset: seated, VAUX up, nothing else powered, in state M4, with every
register at its page's reset value, memory with nothing listed and no command waiting. Values the spec
does not give are named in log entries 3, 6 and 13. -/
def State.reset : State := {}

end Sys2Proof.Machine
end

