-- ==== Sys2Proof/Machine/Pages.lean ====
section
/-! DEFINITION. Register pages (22_register_pages): the directory, the shape of every register (reset
value and the bits software may write), range clamps, mirroring, and the accessors of registers and
counters. -/

namespace Sys2Proof.Machine

/-! ## Block types (Table 22-4) -/
abbrev bMOD : Nat := 0x01
abbrev bCLK : Nat := 0x02
abbrev bPWR : Nat := 0x03
abbrev bTILE : Nat := 0x04
abbrev bGRID : Nat := 0x05
abbrev bDRAMC : Nat := 0x06
abbrev bCOPY : Nat := 0x07
abbrev bXLAT : Nat := 0x08
abbrev bPORT : Nat := 0x09
abbrev bSCHED : Nat := 0x0A
abbrev bMETER : Nat := 0x0B
abbrev bKVT : Nat := 0x0C
abbrev bCOLL : Nat := 0x0E
abbrev bPART : Nat := 0x10
abbrev bMBOX : Nat := 0x11
abbrev bCIPH : Nat := 0x12
abbrev bID : Nat := 0x13
abbrev bTEST : Nat := 0x14
abbrev bSNAP : Nat := 0x15
abbrev bPTP : Nat := 0x16
abbrev bERR : Nat := 0x17
abbrev bCTRL : Nat := 0x18

/-! ## Header offsets (Table 22-1) -/
abbrev oPAGE_ID : Nat := 0x000
abbrev oPAGE_VER : Nat := 0x004
abbrev oPAGE_CAPS : Nat := 0x008
abbrev oPAGE_LOCK : Nat := 0x00C
abbrev oCTRL : Nat := 0x010
abbrev oSTATE : Nat := 0x014
abbrev oEVENTS : Nat := 0x018
abbrev oEVENT_EN : Nat := 0x01C
abbrev oEVENT_ROUTE : Nat := 0x020
abbrev oINFO0 : Nat := 0x024
abbrev oINFO1 : Nat := 0x028
abbrev oINFO2 : Nat := 0x02C
abbrev oSNAP_SEQ : Nat := 0x030

/-- The key of a register: block type, instance, offset, as in its address (R504). -/
abbrev rk (blk inst off : Nat) : Nat := blk * 0x1000000 + inst * 0x1000 + off

/-- Whether Table 22-4 lists the instance. -/
def instOk (blk inst : Nat) : Bool :=
  match blk with
  | 0x01 => inst == 0 | 0x02 => inst < 6 | 0x03 => inst < 2 | 0x04 => inst < 1440
  | 0x05 => inst == 0 | 0x06 => inst < 12 | 0x07 => inst < 32 | 0x08 => inst < 2
  | 0x09 => inst < 26 | 0x0A => inst < 24 | 0x0B => inst < 2 | 0x0C => inst < 2
  | 0x0E => inst < 2 | 0x10 => inst < 1024
  | 0x11 => inst < 3 || (0x100 ≤ inst && inst < 0x500) || (0x800 ≤ inst && inst < 0xDA0)
  | 0x12 => inst < 2 | 0x13 => inst == 0 | 0x14 => inst == 0 | 0x15 => inst == 0
  | 0x16 => inst == 0 | 0x17 => inst == 0 | 0x18 => inst < 2
  | _ => false

/-- Defined EVENTS bits of a block, counted from bit 0. -/
def evBits (blk : Nat) : Nat :=
  match blk with
  | 0x01 => 3 | 0x02 => 2 | 0x03 => 9 | 0x04 => 8 | 0x05 => 3 | 0x06 => 6 | 0x07 => 2 | 0x08 => 4
  | 0x09 => 5 | 0x0A => 3 | 0x0B => 1 | 0x0C => 5 | 0x0E => 3 | 0x10 => 6 | 0x12 => 5 | 0x13 => 5
  | 0x14 => 8 | 0x15 => 2 | 0x16 => 5 | 0x17 => 7 | 0x18 => 3 | _ => 0

/-- The mask of a block's defined EVENTS bits. -/
def evMask (blk : Nat) : W32 := BitVec.ofNat 32 (2 ^ evBits blk - 1)

/-- Number of 64-bit live counters of a block from 0xC00 (Table 22-2 COUNTERS). -/
def cntCount (blk : Nat) : Nat :=
  match blk with
  | 0x01 => 2 | 0x02 => 2 | 0x03 => 6 | 0x04 => 7 | 0x05 => 4 | 0x06 => 6 | 0x07 => 3 | 0x08 => 6
  | 0x09 => 22 | 0x0A => 3 | 0x0B => 5 | 0x0C => 16 | 0x0E => 6 | 0x10 => 5 | 0x12 => 7 | 0x13 => 4
  | 0x14 => 8 | 0x15 => 1 | 0x16 => 3 | 0x17 => 9 | 0x18 => 2 | _ => 0

/-- One register or a run of equal registers at stride 4: offsets, reset value, bits software stores. -/
structure RegDef where
  blk : Nat
  lo : Nat
  hi : Nat
  reset : W32
  wmask : W32
  deriving DecidableEq, Repr

/-- Tables 3-7, 4-11, 4-14, 7-4: power, tile and grid registers. -/
def regsA : List RegDef := [
  ⟨bPWR, 0x040, 0x040, 0x0C80, 0xFFF⟩, ⟨bPWR, 0x044, 0x044, 0x07D0, 0xFFF⟩,
  ⟨bPWR, 0x048, 0x048, 0, 0x7⟩, ⟨bPWR, 0x04C, 0x04C, 0x40, 0⟩, ⟨bPWR, 0x068, 0x068, 0x101E, 0xFFFF⟩,
  ⟨bPWR, 0x06C, 0x06C, 1, 1⟩, ⟨bPWR, 0x084, 0x084, 4, 0⟩,
  ⟨bTILE, 0x040, 0x040, 0, 0x3FFF⟩, ⟨bTILE, 0x044, 0x044, 0, 1⟩, ⟨bTILE, 0x048, 0x048, 0, 0x800003FF⟩,
  ⟨bTILE, 0x04C, 0x050, 0, 0xFFFFFFFF⟩, ⟨bTILE, 0x054, 0x054, 0, 0x7FF⟩,
  ⟨bGRID, 0x200, 0x200, 0, 0x1FFF⟩, ⟨bGRID, 0x280, 0x2FC, 0, 0xFFFFFFFF⟩,
  ⟨bGRID, 0x300, 0x300, 0, 0x1FFF⟩, ⟨bGRID, 0x310, 0x310, 0, 0xF03FF⟩, ⟨bGRID, 0x314, 0x314, 0xF, 0xF⟩]

/-- Tables 9-9, 9-11, 9-13, 10-4, 10-7, 11-2, 11-4. -/
def regsB : List RegDef := [
  ⟨bXLAT, 0x040, 0x040, 0, 0xFFFFF000⟩, ⟨bXLAT, 0x044, 0x044, 0, 0xFFFF⟩,
  ⟨bXLAT, 0x048, 0x048, 0, 0xFFFFF000⟩, ⟨bXLAT, 0x04C, 0x04C, 0, 0xFFFF⟩,
  ⟨bXLAT, 0x050, 0x050, 0, 0xFFFFFFFF⟩,
  ⟨bDRAMC, 0x040, 0x040, 0, 0x3FF⟩, ⟨bDRAMC, 0x048, 0x048, 0, 0x3FF⟩, ⟨bDRAMC, 0x04C, 0x04C, 0, 0x7FF⟩,
  ⟨bDRAMC, 0x058, 0x058, 0x14, 0xFF⟩, ⟨bDRAMC, 0x064, 0x064, 0, 0xFFFFF000⟩,
  ⟨bDRAMC, 0x068, 0x068, 0, 0xFFFF⟩, ⟨bDRAMC, 0x06C, 0x06C, 0, 0x1F⟩,
  ⟨bCOPY, 0x040, 0x040, 0x64, 0x7F⟩,
  ⟨bPORT, 0x040, 0x044, 0, 1⟩, ⟨bPORT, 0x04C, 0x04C, 0, 0xFFF⟩, ⟨bPORT, 0x050, 0x050, 0x0B01, 0xFF03⟩,
  ⟨bPORT, 0x054, 0x054, 0x00400100, 0xFFFFFFFF⟩, ⟨bPORT, 0x058, 0x058, 0xFFFF, 0xFFFF⟩,
  ⟨bPORT, 0x05C, 0x05C, 0xA, 0xFFFF⟩,
  ⟨bPTP, 0x040, 0x040, 0, 0xFF⟩, ⟨bPTP, 0x048, 0x048, 0xFCD6E9E0, 0xFFFFFFFF⟩,
  ⟨bPTP, 0x050, 0x054, 0, 0xFFFFFFFF⟩,
  ⟨bSCHED, 0x040, 0x040, 0, 0x3⟩, ⟨bSCHED, 0x048, 0x048, 0x14, 0xFF⟩, ⟨bSCHED, 0x054, 0x054, 0, 0xFFFFFFFF⟩,
  ⟨bSCHED, 0x058, 0x058, 0, 0xFFFF⟩, ⟨bSCHED, 0x05C, 0x060, 0, 0xFFFFFFFF⟩,
  ⟨bSCHED, 0x064, 0x064, 0, 0xFFFF⟩, ⟨bSCHED, 0x068, 0x068, 0, 0xFFFFFFFF⟩,
  ⟨bSCHED, 0x080, 0x080, 0, 7⟩,
  ⟨bMETER, 0x040, 0x040, 0, 0x703FF⟩]

/-- Tables 12-11, 14-7, 16-5, 18-7, 19-10, 21-6, 22-9. -/
def regsC : List RegDef := [
  ⟨bKVT, 0x040, 0x040, 0x7048, 0xFFFF⟩, ⟨bKVT, 0x044, 0x044, 0x1404, 0xFF0F⟩,
  ⟨bKVT, 0x048, 0x048, 0x14, 0x3FF⟩, ⟨bKVT, 0x04C, 0x04C, 0x70064, 0xF3FFF⟩,
  ⟨bKVT, 0x050, 0x050, 0x40, 0x7F⟩, ⟨bKVT, 0x054, 0x054, 0x100200, 0xFF0FFF⟩,
  ⟨bKVT, 0x058, 0x058, 0xAC000, 0xFFFFFF⟩, ⟨bKVT, 0x05C, 0x05C, 0x40, 0xFF⟩,
  ⟨bKVT, 0x060, 0x060, 0xA, 0xFFFF⟩, ⟨bKVT, 0x068, 0x068, 0, 0xFFFFF000⟩, ⟨bKVT, 0x06C, 0x06C, 0, 0xFFFF⟩,
  ⟨bCOLL, 0x040, 0x040, 0, 0xFFF⟩, ⟨bCOLL, 0x068, 0x068, 0, 0x1F⟩,
  ⟨bPART, 0x040, 0x04C, 0, 0x80FFFFFF⟩, ⟨bPART, 0x050, 0x050, 0, 0xFFF07FF⟩,
  ⟨bPART, 0x054, 0x054, 0, 0xFFF⟩, ⟨bPART, 0x058, 0x058, 0, 0x7FFFF⟩, ⟨bPART, 0x060, 0x060, 0, 0x1FFFFF⟩,
  ⟨bPART, 0x068, 0x068, 0, 0x1FFF⟩, ⟨bPART, 0x06C, 0x06C, 0, 0xFFFFFF⟩, ⟨bPART, 0x070, 0x070, 0, 0x1FFFFFF⟩,
  ⟨bPART, 0x074, 0x074, 0, 0xFF⟩, ⟨bPART, 0x078, 0x078, 0, 0xFFF⟩, ⟨bPART, 0x07C, 0x08C, 0, 0xFFFFFFFF⟩,
  ⟨bPART, 0x0A0, 0x0DC, 0, 0xFFFFFFFF⟩,
  ⟨bCIPH, 0x040, 0x040, 0x1020, 0x3F3F⟩, ⟨bCIPH, 0x048, 0x048, 0, 0x3FF⟩,
  ⟨bID, 0x058, 0x058, 0, 0x1F⟩,
  ⟨bTEST, 0x040, 0x040, 0x1F, 0x3F⟩, ⟨bTEST, 0x044, 0x044, 0x3C1818, 0xFFFFFF⟩,
  ⟨bTEST, 0x048, 0x048, 0, 0xFFF⟩, ⟨bTEST, 0x054, 0x054, 0, 0xF⟩, ⟨bTEST, 0x060, 0x060, 0, 0x71F⟩,
  ⟨bSNAP, 0x040, 0x040, 0, 0xFFFFFFFF⟩, ⟨bSNAP, 0x044, 0x044, 0, 0xFFFF⟩, ⟨bSNAP, 0x048, 0x048, 0, 0xFFFFFFFF⟩]

/-- Every stored register that has a nonzero reset value or that software may write. -/
def regDefs : List RegDef := regsA ++ regsB ++ regsC

/-- The definition of the register at an offset of a block, if it has one. -/
def findReg (blk off : Nat) : Option RegDef :=
  regDefs.find? (fun d => d.blk == blk && d.lo ≤ off && off ≤ d.hi)

/-- Reset value by block and offset (Table 22-1 and each block's table). -/
def regReset (blk off : Nat) : W32 :=
  if off = oEVENT_EN then evMask blk
  else if off = oEVENT_ROUTE then 1
  else match findReg blk off with
    | some d => d.reset
    | none => 0

/-- Reset value by register key. -/
def keyReset (k : Nat) : W32 := regReset (k / 0x1000000) (k % 0x1000)

/-- Whether a page is mirrored whole or in its RW registers, so that one lock serves both (R509). -/
def mirrored (blk : Nat) : Bool :=
  blk == bPWR || blk == bKVT

/-- The instance whose copy holds the register: mirrored registers live in instance 0 (R82, R249, R250,
R321, R363, R432). -/
def home (blk inst off : Nat) : Nat :=
  if blk = bPWR then (if 0x040 ≤ off && off < 0x800 || off = oPAGE_LOCK then 0 else inst)
  else if blk = bKVT then (if 0x040 ≤ off && off < 0x800 && off != 0x064 || off = oPAGE_LOCK then 0 else inst)
  else if blk = bXLAT then (if 0x040 ≤ off && off < 0x050 then 0 else inst)
  else if blk = bDRAMC then (if 0x064 ≤ off && off < 0x070 then 0 else inst)
  else if blk = bCOLL then (if 0x040 ≤ off && off < 0x074 then 0 else inst)
  else if blk = bCIPH then (if off = 0x040 then 0 else inst)
  else inst

/-- The stored value of a register. -/
def State.reg (s : State) (blk inst off : Nat) : W32 :=
  mget (regReset blk off) s.regs (rk blk (home blk inst off) off)

/-- Stores a register's value; a value equal to the reset value is kept unlisted. -/
def State.setReg (s : State) (blk inst off : Nat) (v : W32) : State :=
  { s with regs := mset (regReset blk off) s.regs (rk blk (home blk inst off) off) v }

/-- A field of a register. -/
def State.fld (s : State) (blk inst off lo w : Nat) : Nat :=
  ((s.reg blk inst off) >>> lo).toNat % 2 ^ w

/-- The bits [lo + w - 1 : lo] of a word. -/
def bitsAt (v : Nat) (lo w : Nat) : Nat := v / 2 ^ lo % 2 ^ w

/-- A number clamped to a range. -/
def clampN (lo hi x : Nat) : Nat := if x < lo then lo else if hi < x then hi else x

/-- The value a write stores in a register of a block, its stated range applied (R67, R268, R282, R321,
R432, R503). -/
def clampReg (blk off : Nat) (v : W32) : W32 :=
  let n := v.toNat
  let w (x : Nat) : W32 := BitVec.ofNat 32 x
  if blk = bPWR then
    if off = 0x040 then w (clampN 800 3200 (bitsAt n 0 12)) else v
  else if blk = bPORT then
    if off = 0x054 then w (clampN 32 1024 (bitsAt n 0 16) + 0x10000 * clampN 8 256 (bitsAt n 16 16)) else v
  else if blk = bKVT then
    if off = 0x044 then w (clampN 1 15 (bitsAt n 0 4) + 0x100 * clampN 1 255 (bitsAt n 8 8))
    else if off = 0x048 then w (clampN 1 1000 (bitsAt n 0 10))
    else if off = 0x04C then w (clampN 10 10000 (bitsAt n 0 14) + 0x10000 * clampN 1 15 (bitsAt n 16 4))
    else if off = 0x050 then w (clampN 4 64 (bitsAt n 0 7))
    else if off = 0x054 then w (clampN 64 1024 (bitsAt n 0 12) + 0x10000 * clampN 1 64 (bitsAt n 16 8))
    else if off = 0x058 then w (bitsAt n 0 16 + 0x10000 * clampN 1 255 (bitsAt n 16 8))
    else if off = 0x05C then w (clampN 8 255 (bitsAt n 0 8))
    else if off = 0x060 then w (clampN 1 3600 (bitsAt n 0 16))
    else v
  else if blk = bCIPH then
    if off = 0x040 then w (clampN 16 32 (bitsAt n 0 6) + 0x100 * clampN 8 32 (bitsAt n 8 6)) else v
  else if blk = bTEST then
    if off = 0x044 then
      w (clampN 1 168 (bitsAt n 0 8) + 0x100 * clampN 1 168 (bitsAt n 8 8) + 0x10000 * clampN 1 255 (bitsAt n 16 8))
    else v
  else v

/-! ## Counters (R502, R510) -/

/-- A live counter. -/
def State.cnt (s : State) (blk inst off : Nat) : W64 := mget 0 s.cnts (rk blk inst off)

/-- Adds to a live counter, which stops at 2^64 - 1 (R502). -/
def State.count (s : State) (blk inst off n : Nat) : State :=
  let v : W64 := BitVec.ofNat 64 (min ((s.cnt blk inst off).toNat + n) (2 ^ 64 - 1))
  { s with cnts := mset 0 s.cnts (rk blk inst off) v }

end Sys2Proof.Machine
end

