-- ==== Sys2Proof/Machine/Ops.lean ====
section
/-! DEFINITION. Named operations shared by every family: records of instanced state, free values, time
and mailbox directions. -/

namespace Sys2Proof.Machine

/-! ## Records of instanced state -/

def State.tile (s : State) (t : Nat) : Tile := mget {} s.tiles t
def State.setTile (s : State) (t : Nat) (x : Tile) : State := { s with tiles := mset {} s.tiles t x }
def State.port (s : State) (n : Nat) : Port := mget {} s.ports n
def State.setPort (s : State) (n : Nat) (x : Port) : State := { s with ports := mset {} s.ports n x }
def State.sched (s : State) (n : Nat) : Sched := mget {} s.scheds n
def State.setSched (s : State) (n : Nat) (x : Sched) : State := { s with scheds := mset {} s.scheds n x }
def State.meter (s : State) (k : Nat) : Meter := mget {} s.meters k
def State.setMeter (s : State) (k : Nat) (x : Meter) : State := { s with meters := mset {} s.meters k x }
def State.conn (s : State) (c : Nat) : Conn := mget {} s.conns c
def State.setConn (s : State) (c : Nat) (x : Conn) : State := { s with conns := mset {} s.conns c x }
def State.part (s : State) (p : Nat) : Part := mget {} s.parts p
def State.setPart (s : State) (p : Nat) (x : Part) : State := { s with parts := mset {} s.parts p x }
def State.group (s : State) (g : Nat) : Group := mget {} s.groups g
def State.setGroup (s : State) (g : Nat) (x : Group) : State := { s with groups := mset {} s.groups g x }
/-- Whether an address is IPv4-mapped. -/
def isV4 (a : BitVec 128) : Bool := a.toNat / 2 ^ 32 == 0xFFFF
def State.dev (s : State) (d : Nat) : Device := mget {} s.devs d
def State.setDev (s : State) (d : Nat) (x : Device) : State := { s with devs := mset {} s.devs d x }
def State.window (s : State) (i : Nat) : Window := mget {} s.windows i
def State.setWindow (s : State) (i : Nat) (x : Window) : State := { s with windows := mset {} s.windows i x }
def State.coll (s : State) (h : Nat) : CollGroup := mget {} s.colls h
def State.setColl (s : State) (h : Nat) (x : CollGroup) : State := { s with colls := mset {} s.colls h x }
def State.pkeys (s : State) (p : Nat) : PKeys := mget {} s.keys p
def State.setPkeys (s : State) (p : Nat) (x : PKeys) : State := { s with keys := mset {} s.keys p x }
/-- Queue q of partition p. -/
def State.queue (s : State) (p q : Nat) : Queue := mget {} s.queues (p * 4096 + q)
def State.setQueue (s : State) (p q : Nat) (x : Queue) : State :=
  { s with queues := mset {} s.queues (p * 4096 + q) x }
/-- The directed link out of tile t toward a direction. -/
def dirCode : Dir → Nat
  | .north => 0 | .east => 1 | .south => 2 | .west => 3
def dirOf : Nat → Dir
  | 0 => .north | 1 => .east | 2 => .south | _ => .west
def State.link (s : State) (t : Nat) (d : Dir) : Link := mget {} s.links (t * 4 + dirCode d)
def State.setLink (s : State) (t : Nat) (d : Dir) (x : Link) : State :=
  { s with links := mset {} s.links (t * 4 + dirCode d) x }
/-- The rectangle mask firmware last wrote for a wave of a partition (GRID_WAVE_MEMBERS, reset 0xF). -/
def State.wave (s : State) (p w : Nat) : Nat := mget 0xF s.waves (p * 16 + w)
def State.setWave (s : State) (p w : Nat) (x : Nat) : State :=
  { s with waves := mset 0xF s.waves (p * 16 + w) x }
/-- Test record of the physical tile (die row n, column). -/
def State.ptest (s : State) (n col : Nat) : TestTile := mget {} s.test.tiles (n * 32 + col)
def State.setPtest (s : State) (n col : Nat) (x : TestTile) : State :=
  { s with test := { s.test with tiles := mset {} s.test.tiles (n * 32 + col) x } }
def State.kvtDie (s : State) (fd1 : Bool) : KvtDie := if fd1 then s.kvt.2 else s.kvt.1
def State.setKvtDie (s : State) (fd1 : Bool) (x : KvtDie) : State :=
  { s with kvt := if fd1 then (s.kvt.1, x) else (x, s.kvt.2) }

/-- Instance number of a die's page. -/
def dieInst (fd1 : Bool) : Nat := if fd1 then 1 else 0

/-! ## Tiles by number -/

/-- Owning partition (TILE_OWNER). -/
def State.tileOwner (s : State) (t : Nat) : Option Nat :=
  if (s.reg bTILE t 0x048).getLsbD 31 then some (s.fld bTILE t 0x048 0 10) else none
/-- Whether alignment period j of a throttle frame has edges under a keep count (R63). -/
def keptAt (k j : Nat) : Bool := decide (j * k / 64 < (j + 1) * k / 64)
/-- Whether droop removals are under way (R66). -/
def Pwr.droop (x : Pwr) : Bool := !x.droopDies.isEmpty
/-- Whether the present period has ACLK and GCLK edges under a keep count, droop removals on top (R65). -/
def State.keptNow (s : State) (k : Nat) : Bool := keptAt k s.pwr.frame && !s.pwr.droop
/-- K under which a tile runs: the smallest requested by any cause that applies to it (R65). -/
def State.tileKeep (s : State) (t : Nat) : Nat :=
  match s.tileOwner t with
  | some p => min s.pwr.keep (mget 64 s.pwr.keepShare p)
  | none => s.pwr.keep
/-- Whether a tile's clocks have edges in the present alignment period (R27, R63). -/
def State.tileEdges (s : State) (t : Nat) : Bool := s.keptNow (s.tileKeep t)
/-- A tile row's index is one the grid has. -/
def tileOk (t : Nat) : Bool := t < 1440
/-- Changes one tile's record. -/
def State.updTile (s : State) (t : Nat) (f : Tile → Tile) : State := s.setTile t (f (s.tile t))

/-- Tile tally. -/
def Tile.tally (x : Tile) (k : Nat) : W32 := mget 0 x.tallies k
def Tile.setTally (x : Tile) (k : Nat) (v : W32) : Tile := { x with tallies := mset 0 x.tallies k v }
/-- An increment, which stays at 0xFFFF_FFFF (R181). -/
def Tile.incTally (x : Tile) (k : Nat) : Tile :=
  x.setTally k (BitVec.ofNat 32 (min ((x.tally k).toNat + 1) 0xFFFFFFFF))

/-! ## Free values (log entry 4) -/

/-- Uses up one free-value number. -/
def State.freshen (s : State) : State := { s with fresh := s.fresh + 1 }
/-- A free bit, by position. -/
def State.freeBit (s : State) (i : Nat) : Bool := (Config.freeByte s.fresh i).getLsbD 0
/-- A free number in [lo, hi]. -/
def State.freeIn (s : State) (i lo hi : Nat) : Nat := lo + Config.freeNat s.fresh i % (hi - lo + 1)

/-- The image of a number that this module did not build (log entry 4). -/
opaque savedImage : Nat → PartImage

/-! ## Time -/

/-- The present network time as a time word (R157). -/
def State.timeWord (s : State) : W64 :=
  BitVec.ofNat 64 (s.time.sec % 2 ^ 34 * 2 ^ 30 + s.time.ns % 2 ^ 30)
/-- The present network time in nanoseconds. -/
def State.timeNs (s : State) : Int := (s.time.sec * 1000000000 + s.time.ns : Nat)
/-- Seconds and nanoseconds of a time given as three register words (R516). -/
def time3 (a b c : W32) : Int := ((a.toNat + b.toNat % 65536 * 2 ^ 32) * 1000000000 + c.toNat : Nat)

/-! ## Mailbox channels (17_mailboxes) -/

/-- MBOX instance of a channel (Table 17-1). -/
def chanInst : Chan → Nat
  | .manager => 0 | .security => 1 | .inter => 2
  | .part p => 0x100 + p | .tile t => 0x800 + t
/-- Privileged channels are acknowledged (R409). -/
def chanPriv : Chan → Bool
  | .manager => true | .security => true | .inter => true | _ => false
/-- The state of one direction; `toFw` is the direction toward firmware. -/
def State.mb (s : State) (ch : Chan) (toFw : Bool) : Mbox :=
  mget {} s.mbox (chanInst ch * 2 + toFw.toNat)
def State.setMb (s : State) (ch : Chan) (toFw : Bool) (x : Mbox) : State :=
  { s with mbox := mset {} s.mbox (chanInst ch * 2 + toFw.toNat) x }

/-- A post to a direction (R408): WORDS and LEN are written, FULL is set, an unread message is replaced
whole and flags COLLISION. -/
def Mbox.post (m : Mbox) (words : List W64) (src : Bool) : Mbox :=
  { m with words := words, len := words.length, full := true,
           collision := m.collision || m.full, src := src, acked := false }

/-- The number of event posts a channel may hold pending (R473). -/
def maxPend : Nat := 1024

/-! ## Stopping -/

/-- Whether the module is stopping in last gasp or on a module-fatal cause: firmware starts no more work
(R72, R481). -/
def State.stopping (s : State) : Bool :=
  match s.pwr.phase with
  | .down .lastGasp => true
  | .down .fatal => true
  | .down .thermal => true
  | _ => false

/-- Appends to the module's outputs. -/
def State.emit (s : State) (o : Out) : State := { s with out := s.out ++ [o] }

end Sys2Proof.Machine
end

