-- ==== Sys2Proof/Machine/Mem.lean ====
section
/-! DEFINITION. Bytes of the physical address space (01_architecture R29): the address map, reads that
meet unsettled bytes, writes, and stored memory errors. The whole space is one byte map; an address
nothing has written reads as 0 (log entry 3). -/

namespace Sys2Proof.Machine

/-! ## The address map (Table 1-8) -/
abbrev dramTop : Nat := 0xD800000000
abbrev sramBase0 : Nat := 0x100000000000
abbrev sramTop : Nat := 0x1002D0000000
abbrev imBase0 : Nat := 0x110000000000
abbrev imTop : Nat := 0x110016800000

/-- Address of a tile's SRAM window and instruction memory. -/
def sramAt (t a : Nat) : Nat := sramBase0 + t * 0x800000 + a
def imAt (t a : Nat) : Nat := imBase0 + t * 0x40000 + a

/-- Whether an address lies in the DRAM tier, a tile SRAM window, an instruction memory. -/
def inDram (a : Nat) : Bool := a < dramTop
def inSram (a : Nat) : Bool := sramBase0 ≤ a && a < sramTop
def inIm (a : Nat) : Bool := imBase0 ≤ a && a < imTop
/-- Whether the bus holds memory at an address. -/
def mapped (a : Nat) : Bool := inDram a || inSram a || inIm a

/-- The tile whose SRAM or instruction memory holds an address. -/
def sramTile (a : Nat) : Nat := (a - sramBase0) / 0x800000
def imTile (a : Nat) : Nat := (a - imBase0) / 0x40000

/-- The code granule of an address: a 32-byte SRAM word (R90), a bundle (R93), a DRAM line (R217). -/
def grain (a : Nat) : Nat := if inSram a then 32 else if inIm a then 16 else 64

/-- The granule bases of a list that a range of n bytes from a meets. -/
def hits (l : List Nat) (a n : Nat) : List Nat := l.filter (fun b => b < a + n && a < b + grain b)

/-- The granule bases a range of n bytes from a covers whole. -/
def covered (a n b : Nat) : Bool := a ≤ b && b + grain b ≤ a + n

/-- Whether a memory is in canonical form: addresses strictly rising, no byte listed that an unlisted
address reads as. -/
def Memory.wf (m : SMap Byte) : Bool := decide (mwf 0 m)

/-! ## Reads -/

/-- The byte at an address as a read finds it: the stored byte; where a basted message has written it
before its hem, that byte or the one before, free byte by byte (R313, log entry 4); where a fill or spill
in progress is to write it, the byte there or the one to come, free line by line (R224). -/
def State.byteAt (s : State) (a : Nat) : Byte :=
  let b0 := s.soft.foldl (fun b f =>
    match f.cells.find? (fun c => c.1 == a) with
    | some c => if s.freeBit (a / f.grain * 4096 + f.owner % 4096) then c.2 else b
    | none => b) (mget 0 s.mem a)
  s.jobs.foldl (fun b j =>
    match j.cells.find? (fun c => c.1 == a) with
    | some c => if s.freeBit (a / (if j.spill then 64 else 256) * 4096 + 2048 + j.id % 2048) then c.2 else b
    | none => b) b0

/-- The byte at tile-local address a while messages land: a line all of whose bytes have arrived reads as it
stood or as it will be, free line by line (R180). A line already written stands among the unsettled bytes
until the message's tally increment. -/
def State.landByte (s : State) (t a : Nat) (b : Byte) : Byte :=
  (s.tile t).landing.foldl (fun b l =>
    l.lines.foldl (fun b n =>
      match n.cells.find? (fun c => c.1 == a) with
      | some c => if n.full.isSome && s.freeBit (a / 256 * 4096 + l.id % 4096 + 1) then c.2 else b
      | none => b) b) b

/-- The n bytes from a physical address, as any reader but the owning program's stores finds them. -/
def State.peek (s : State) (a : Nat) : Nat → List Byte
  | 0 => []
  | n + 1 =>
    (if inSram a then s.landByte (sramTile a) ((a - sramBase0) % 0x800000) (s.byteAt a) else s.byteAt a)
      :: s.peek (a + 1) n

/-- The unsettled bytes of an owner are settled as they stand. -/
def State.unsoft (s : State) (owner : Nat) : State := { s with soft := s.soft.filter (fun f => f.owner != owner) }

/-! ## Writes -/

/-- The bundles of instruction memory that a range of n bytes from a meets, as they stand. -/
def State.imBundles (s : State) (a n : Nat) : List (Nat × Nat × List Byte) :=
  (List.range ((a % 16 + n + 15) / 16)).map (fun k =>
    (a / 16 * 16 + 16 * k, s.align, readBytes s.mem (a / 16 * 16 + 16 * k) 16))

/-- Writes bytes: a code granule written whole has no error left; unsettled prior bytes of the range are
gone (R90, R217); a bundle's former contents are kept for the period in which a fetch may find them (R92). -/
def State.poke (s : State) (a : Nat) (bs : List Byte) : State :=
  let n := bs.length
  { s with
    mem := writeBytes s.mem a bs
    imOld := if inIm a then s.imOld ++ s.imBundles a n else s.imOld
    ue := s.ue.filter (fun b => !covered a n b)
    ce := s.ce.filter (fun b => !covered a n b)
    lost := s.lost.filter (fun b => !covered a n b)
    soft := s.soft.map (fun f => { f with cells := f.cells.filter (fun c => c.1 < a || a + n ≤ c.1) }) }

/-- Writes the present bytes of a list whose absent ones are left unchanged. -/
def State.pokeOpt (s : State) (a : Nat) : List (Option Byte) → State
  | [] => s
  | none :: bs => s.pokeOpt (a + 1) bs
  | some b :: bs => (s.poke a [b]).pokeOpt (a + 1) bs

/-- Whether every byte of a list is present. -/
def allSome {α : Type} : List (Option α) → Option (List α)
  | [] => some []
  | none :: _ => none
  | some x :: l => (allSome l).map (x :: ·)

/-- Writes a masked run: whole when nothing is masked, so that whole granules lose their errors. -/
def State.pokeMask (s : State) (a : Nat) (bs : List (Option Byte)) : State :=
  match allSome bs with
  | some l => s.poke a l
  | none => s.pokeOpt a bs

/-- Sets memory from `lo` to `hi - 1` to what an unlisted address reads as, its errors gone. -/
def State.wipe (s : State) (lo hi : Nat) : State :=
  { s with
    mem := mclear s.mem lo hi
    ue := s.ue.filter (fun b => b < lo || hi ≤ b)
    ce := s.ce.filter (fun b => b < lo || hi ≤ b)
    lost := s.lost.filter (fun b => b < lo || hi ≤ b) }

/-- A 64-bit little-endian word of physical memory. -/
def State.word64 (s : State) (a : Nat) : W64 := BitVec.ofNat 64 (leNat (s.peek a 8))

/-- Whether a read of a range meets an uncorrectable or lost line (R90, R217, R245). -/
def State.bad (s : State) (a n : Nat) : Bool := !(hits s.ue a n).isEmpty || !(hits s.lost a n).isEmpty

end Sys2Proof.Machine
end

