-- ==== Sys2Proof/Machine/Walk.lean ====
section
/-! DEFINITION. Where addresses lead (09_memory_and_translation R212-R213, R219-R220, R226-R230): the slab
map, data keys, and page-table walks, as functions of the state alone. -/

namespace Sys2Proof.Machine

/-! ## The slab map (R212, R213) -/

def slabValid (e : Nat) : Bool := bitsAt e 31 1 == 1
/-- Group size of an entry. -/
def slabSize (e : Nat) : Nat := bitsAt e 4 4 + 1
/-- Entry of a physical slab. -/
def State.slab (s : State) (i : Nat) : Nat := (mget 0 s.slabs i).toNat
/-- Whether the group of the slab that holds a DRAM address is whole (R213). -/
def State.groupOk (s : State) (pa : Nat) : Bool :=
  let i := pa / 2 ^ 30
  let e := s.slab i
  let pos := bitsAt e 0 4
  let n := slabSize e
  slabValid e && pos < n && pos ≤ i && (List.range n).all (fun k =>
    let f := s.slab (i - pos + k)
    slabValid f && slabSize f == n && bitsAt f 0 4 == k)

/-- The slab of the group position a DRAM address lies in (R212). -/
def State.slabOf (s : State) (pa : Nat) : Nat :=
  let i := pa / 2 ^ 30
  let e := s.slab i
  let b := i - bitsAt e 0 4
  b + (pa - b * 2 ^ 30) / 4096 % slabSize e

/-- The module's placement of a DRAM address: device and device-local address (R212); a unit that an
evacuation has copied lies at its destination (R244). -/
def State.place (s : State) (pa : Nat) : Nat × Nat :=
  let i := pa / 2 ^ 30
  let e := s.slab i
  let n := slabSize e
  let b := i - bitsAt e 0 4
  let u := (pa - b * 2 ^ 30) / 4096
  let k := s.slabOf pa
  let f := s.slab k
  let low := u / n * 4096 + pa % 4096
  let r := s.dev (bitsAt f 8 4)
  match r.evac with
  | some v => if v.slab = k && u / n < r.ptr then (v.dstDev, v.dstLocal * 2 ^ 30 + low)
      else (bitsAt f 8 4, bitsAt f 12 7 * 2 ^ 30 + low)
  | none => (bitsAt f 8 4, bitsAt f 12 7 * 2 ^ 30 + low)
/-- Device that holds a DRAM address. -/
def State.devOf (s : State) (pa : Nat) : Nat := (s.place pa).1

/-! ## The arbiter of a device (R31-R33) -/

/-- Bytes the data bus carries in a window of 1 µs; the limit of Q0 and the floor of Q2. -/
abbrev windowBytes : Nat := 129600
abbrev q0Limit : Nat := windowBytes / 10
abbrev q2Floor : Nat := windowBytes / 4

/-- The class that is granted next of those with a request waiting: the highest; but Q0 beyond its limit waits
for the next window, and Q2 below its floor goes ahead of Q1 directly after a Q0 or Q1 transaction (R33). -/
def Device.grant (r : Device) (waits : List Nat) : Option Nat :=
  let l := waits.filter (fun c => c != 0 || r.q0 < q0Limit)
  if l.contains 0 then some 0
  else if l.contains 2 && r.q2 < q2Floor && r.cls ≤ 1 then some 2
  else if l.contains 1 then some 1
  else if l.contains 2 then some 2
  else l.head?

/-- A transaction of n bytes of a class on the device of a line: what the window has left of Q0 goes to it, the
rest of a Q0 transaction waits for the next window; a Q0 or Q1 request that was waiting has gone (R33, R34). -/
def State.busUse (s : State) (line cls n : Nat) : State :=
  let d := s.devOf line
  let r := s.dev d
  let now := if cls = 0 then min n (q0Limit - r.q0) else n
  s.setDev d { r with
    q0 := if cls = 0 then r.q0 + now else r.q0, late := r.late + (n - now)
    q2 := if cls = 2 then r.q2 + n else r.q2, cls := cls, ahead := r.ahead && 1 < cls }

/-- A line is read, or written, in a class. -/
def State.lineRead (s : State) (cls l : Nat) : State := (s.count bDRAMC (s.devOf l) 0xC18 64).busUse l cls 64
def State.lineWrite (s : State) (cls l : Nat) : State := (s.count bDRAMC (s.devOf l) 0xC20 64).busUse l cls 64

/-! ## Data keys (R219, R220) -/

/-- Whether a partition holds no data key: a tenant before its first KEY_ROOT or after an erasure. -/
def State.keyGone (s : State) (p : Nat) : Bool := p != 0 && (s.pkeys p).root.isNone
/-- Identity of data key n of a partition; each provisioning of a tenant makes new ones. -/
def State.keyId (s : State) (p k : Nat) : Nat :=
  if p = 0 then k else ((s.pkeys p).prov * 1024 + p) * 16 + k
/-- A byte read under a key: free where its line was written under another (R220). -/
def State.keyByte (s : State) (id a : Nat) (b : Byte) : Byte :=
  if mget 0 s.lineKey (a / 64) = id then b else Config.freeByte s.fresh a
/-- DRAM bytes under a key. -/
def State.dramBytes (s : State) (id a n : Nat) : List Byte :=
  (s.peek a n).zipIdx.map (fun p => s.keyByte id (a + p.2) p.1)

/-- Line addresses a range of n bytes meets. -/
def linesOf (a n : Nat) : List Nat :=
  if n = 0 then [] else (List.range ((a + n - 1) / 64 - a / 64 + 1)).map (fun k => (a / 64 + k) * 64)

/-- A little-endian number in partition 0's memory. -/
def State.get0 (s : State) (a n : Nat) : Nat := leNat (s.dramBytes 0 a n)

/-! ## Page-table walks (R226-R230) -/

/-- Bytes an entry of a level covers. -/
def lvSize (l : Nat) : Nat := 2 ^ (48 - 9 * l)

/-- How a walk ends. -/
inductive Walk where
  | leaf (level base : Nat) (bits : BitVec 12)
  | fault (level reason : Nat)
  | ue (level addr : Nat)
  deriving DecidableEq, Repr

/-- Whether an engine access may reach a physical address: memory, and in the DRAM tier a whole group. -/
def State.reach (s : State) (pa : Nat) : Bool := if inDram pa then s.groupOk pa else mapped pa

/-- The walk from a level's table on; `n` counts the levels left. -/
def State.walkLv (s : State) (va : Nat) : Nat → Nat → Nat → Walk
  | 0, level, _ => .fault (level - 1) 3
  | n + 1, level, tbl =>
    if !inDram tbl || !s.groupOk tbl then .fault (max 1 (level - 1)) 4
    else
      let a := tbl + va / lvSize level % 512 * 8
      let line := a / 64 * 64
      if s.ue.contains line || s.lost.contains line then .ue level line
      else
        let e := s.get0 a 8
        let page := bitsAt e 12 36 * 4096
        if bitsAt e 0 1 = 0 then .fault level 1
        else if bitsAt e 1 1 = 0 then s.walkLv va n (level + 1) page
        else if level = 1 || page % lvSize level != 0 then .fault level 3
        else
          let pa := page + va % lvSize level
          if (inSram pa || inIm pa) && bitsAt e 6 1 = 0 then .fault level 3
          else if !s.reach pa then .fault level 4
          else .leaf level page (BitVec.ofNat 12 e)

/-- Addresses of the entries a walk reads, from a level's table on. -/
def State.walkReads (s : State) (va : Nat) : Nat → Nat → Nat → List Nat
  | 0, _, _ => []
  | n + 1, level, tbl =>
    if !inDram tbl || !s.groupOk tbl then []
    else
      let a := tbl + va / lvSize level % 512 * 8
      let e := s.get0 a 8
      if s.bad (a / 64 * 64) 64 || bitsAt e 0 1 = 0 || bitsAt e 1 1 = 1 then [a]
      else a :: s.walkReads va n (level + 1) (bitsAt e 12 36 * 4096)

/-- A partition's walk. -/
def State.walk (s : State) (p va : Nat) : Walk :=
  let r := (s.part p).rec_
  if !r.en then .fault 1 1 else s.walkLv va 4 1 r.root

/-- Whether a leaf grants the rights an access needs; both are read, write, atomic, reduce from bit 0
(Table 9-4). -/
def rightsOk (bits : BitVec 12) (acc : Nat) : Bool :=
  ((bits >>> 2).toNat % 16) &&& acc == acc
abbrev accR : Nat := 1
abbrev accW : Nat := 2
abbrev accAT : Nat := 5
abbrev accRD : Nat := 9

/-- The physical address and data key selector a walk gives now, if it gives one. -/
def State.pureLeaf (s : State) (p va acc : Nat) : Option (Nat × Nat) :=
  let va := va % 2 ^ 48
  match s.walk p va with
  | .leaf lv base bits => if rightsOk bits acc then some (base + va % lvSize lv, bitsAt bits.toNat 8 4) else none
  | _ => none
def State.pureXl (s : State) (p va acc : Nat) : Option Nat := (s.pureLeaf p va acc).map Prod.fst

end Sys2Proof.Machine
end

