-- ==== Sys2Proof/Machine/Store.lean ====
section
/-! DEFINITION. The configuration store (19_identity_startup_firmware R449 to R455): its regions, the bytes of a
record, which record is in force, appending, and the service log. Widths of body fields that Table 19-3 does not
give, and the size of a log entry, are the model's (log entry 67). -/

namespace Sys2Proof.Machine

/-! ## Regions (Table 19-1) -/

def storeBytes : Nat := 0x4000000
/-- Header and directory; record area; firmware image; service log: first address and size. -/
def dirRegion : Nat × Nat := (0x0000000, 0x10000)
def recordRegion : Nat × Nat := (0x0010000, 0x2000000 - 0x10000)
def imageRegion : Nat × Nat := (0x2000000, 0x800000)
def logRegion : Nat × Nat := (0x2800000, 0x1800000)
/-- Entries that the ring holds, of 64 bytes each. -/
def logEntries : Nat := logRegion.2 / 64

end Sys2Proof.Machine

namespace Sys2Proof
open Sys2Proof.Machine

/-! ## Records (Tables 19-2, 19-3) -/

/-- The type of a record. -/
def RecBody.type : RecBody → Nat
  | .cert _ _ _ => 1
  | .puf _ _ => 2
  | .product _ _ => 3
  | .calibration _ _ => 4
  | .repairMap _ _ => 5
  | .owner _ => 6
  | .operator _ _ => 7
  | .ledger _ => 8
/-- Retired devices of the ledger, a bit each. -/
def Machine.devMask (l : List Nat) : Nat := (List.range 12).foldl (fun n d => if l.contains d then n + 2 ^ d else n) 0
/-- The body; a certificate's is R448's. -/
def RecBody.bytes : RecBody → List Byte
  | .cert kind key serial =>
    beBytes 97 key.toNat ++ beBytes 1 kind ++ (if kind = 1 then beBytes 8 serial.toNat else [])
  | .puf a b => beBytes 512 a.toNat ++ beBytes 512 b.toNat
  | .product serial n16 => beBytes 8 serial.toNat ++ beBytes 1 n16.toNat
  | .calibration vcd asym =>
    vcd.flatMap (fun v => beBytes 2 v.toNat) ++ (List.range 52).flatMap (fun k => beBytes 8 ((mget 0 asym k) % 2 ^ 64).toNat)
  | .repairMap col second => (List.range 80).flatMap (fun n => beBytes 1 (mget 31 col n) ++ beBytes 1 (mget 31 second n))
  | .owner key => beBytes 97 key.toNat
  | .operator ms key => (List.range 8).flatMap (fun i => beBytes 16 (ms.getD i 0).toNat) ++ beBytes 97 key.toNat
  | .ledger l => beBytes 2 (devMask l.devs) ++ beBytes 4 l.unclean ++ beBytes 8 l.boots ++ beBytes 4 l.minSvn
/-- Bytes of the body. -/
def RecBody.size : RecBody → Nat
  | .cert kind _ _ => if kind = 1 then 106 else 98
  | .puf _ _ => 1024
  | .product _ _ => 9
  | .calibration vcd _ => 2 * vcd.length + 416
  | .repairMap _ _ => 160
  | .owner _ => 97
  | .operator _ _ => 225
  | .ledger _ => 18
/-- The signer's code. -/
def Signer.code : Signer → Nat
  | .vendor => 0
  | .identity => 1
  | .operator => 2
  | .authority => 3
/-- Bytes 0 to 71 + B: what the signature covers. -/
def ConfigRec.signedBytes (r : ConfigRec) : List Byte :=
  beBytes 2 r.body.type ++ beBytes 2 r.version ++ beBytes 4 r.body.size ++ beBytes 8 r.seq ++
  (if r.body.type = 2 then beBytes 8 Config.serial.toNat ++ List.replicate 40 0
   else beBytes 48 (Config.sha384 (beBytes 97 Config.publicKey.toNat)).toNat) ++
  [BitVec.ofNat 8 r.signer.code] ++ List.replicate 7 0 ++ r.body.bytes
/-- The whole record. -/
def ConfigRec.bytes (r : ConfigRec) : List Byte :=
  r.signedBytes ++ beBytes 96 (Config.signature r.signer.code r.signedBytes).toNat
/-- Bytes of the record area it takes: 64-byte aligned. -/
def ConfigRec.room (r : ConfigRec) : Nat := (168 + r.body.size + 63) / 64 * 64

/-- A record by itself: its signature verifies under its signer's key, its binding matches, its version is 1. -/
def ConfigRec.sound (r : ConfigRec) : Bool := r.signed && r.binds && r.version == 1

end Sys2Proof

namespace Sys2Proof.Machine

/-! ## Records in force (R448, R451) -/

/-- Whether a certificate of a kind is there to check by. -/
def Store.certified (x : Store) (kind : Nat) : Bool :=
  x.records.any (fun r => r.2.sound && (match r.2.body with | .cert k _ _ => k == kind | _ => false))
/-- A record is valid along the chain of R448: vendor root to authority to the leaves; the firmware key is
certified by the root directly. -/
def Store.valid (x : Store) (r : ConfigRec) : Bool :=
  r.sound && (match r.signer, r.body with
    | .authority, .cert k _ _ => k == 0 || k == 3 || x.certified 0
    | .authority, _ => false
    | .vendor, _ => x.certified 0 && x.certified 2
    | .identity, _ => true
    | .operator, _ => x.records.any (fun o => o.2.sound && o.2.body.type == 6))
/-- Of several records that with the highest sequence, the later one of two that are equal. -/
def newest : List ConfigRec → Option ConfigRec
  | [] => none
  | r :: l =>
    match newest l with
    | some q => some (if q.seq < r.seq then r else q)
    | none => some r
/-- The record in force of a type other than certificates. -/
def Store.inForce (x : Store) (t : Nat) : Option ConfigRec :=
  newest ((x.records.map Prod.snd).filter (fun r => r.body.type == t && x.valid r))
/-- The certificate in force of a subject kind: 0 authority, 1 device, 2 configuration key, 3 firmware key. -/
def Store.cert (x : Store) (kind : Nat) : Option ConfigRec :=
  newest ((x.records.map Prod.snd).filter (fun r =>
    x.valid r && (match r.body with | .cert k _ _ => k == kind | _ => false)))
/-- Every record in force, in ascending type order. -/
def Store.forceList (x : Store) : List ConfigRec :=
  [0, 1, 2, 3].filterMap x.cert ++ [2, 3, 4, 5, 6, 7, 8].filterMap x.inForce
/-- What start-up needs: device, manufacturing and configuration-key certificates, and types 0x02 to 0x07. -/
def Store.complete (x : Store) : Bool :=
  [0, 1, 2].all (fun k => (x.cert k).isSome) && [2, 3, 4, 5, 6, 7].all (fun t => (x.inForce t).isSome)
/-- The ledger; absent, all zero. -/
def Store.ledger (x : Store) : Ledger :=
  match (x.inForce 8).map ConfigRec.body with
  | some (.ledger l) => l
  | _ => {}
/-- The ordering code: true TV4812-N16. -/
def Store.n16 (x : Store) : Bool :=
  match (x.inForce 3).map ConfigRec.body with
  | some (.product _ b) => b
  | _ => false
/-- Timestamp asymmetry, as the calibration record gives it. -/
def Store.asym (x : Store) : SMap Int :=
  match (x.inForce 4).map ConfigRec.body with
  | some (.calibration _ a) => a
  | _ => []
/-- VCD calibration value of a compute die (R76). -/
def Store.vcd (x : Store) (die : Nat) : BitVec 16 :=
  match (x.inForce 4).map ConfigRec.body with
  | some (.calibration v _) => v.getD die 0
  | _ => 0
/-- Retired columns and second retirements of the die rows. -/
def Store.repair (x : Store) : SMap Nat × SMap Nat :=
  match (x.inForce 5).map ConfigRec.body with
  | some (.repairMap a b) => (a, b)
  | _ => ([], [])
/-- Manager addresses, at most 8, and the managers' key-delivery key. -/
def Store.operator (x : Store) : List (BitVec 128) × BitVec 776 :=
  match (x.inForce 7).map ConfigRec.body with
  | some (.operator ms k) => (ms.take 8, k)
  | _ => ([], 0)
/-- The configuration measurement (Table 19-6). -/
def Store.digest (x : Store) : BitVec 384 := Config.sha384 (x.forceList.flatMap ConfigRec.bytes)
/-- The device and manufacturing certificate records, whole (Table 19-7). -/
def Store.chain (x : Store) : List Byte := ([1, 0].filterMap x.cert).flatMap ConfigRec.bytes

/-! ## Writing (R451) -/

/-- The first free offset of the record area. -/
def Store.next (x : Store) : Nat :=
  match x.records.getLast? with
  | some r => r.1 + r.2.room
  | none => 0
/-- Records laid one behind the other. -/
def laid : Nat → List ConfigRec → List (Nat × ConfigRec)
  | _, [] => []
  | o, r :: l => (o, r) :: laid (o + r.room) l
/-- The record area is full: the records in force are copied to its start and the rest is erased; the
certificates, which the module never writes, stay first. -/
def Store.compact (x : Store) : Store :=
  let keep := (laid 0 x.forceList)
  { x with records := keep, dir := keep.foldl (fun m r => mset 0 m r.2.body.type (r.1 + 1)) [] }
/-- A record is appended, and the directory then told its offset; the directory holds 0 for none and the offset
plus 1. -/
def Store.put (x : Store) (r : ConfigRec) : Store :=
  { x with records := x.records ++ [(x.next, r)], dir := mset 0 x.dir r.body.type (x.next + 1) }
def Store.append (x : Store) (r : ConfigRec) : Store :=
  if x.next + r.room ≤ recordRegion.2 then x.put r else x.compact.put r
/-- The module writes a record that it signs: the next sequence of its type. -/
def Store.write (x : Store) (b : RecBody) : Store :=
  x.append { body := b, signer := .identity, seq := ((x.inForce b.type).map ConfigRec.seq).getD 0 + 1 }
/-- The newest record of a type is found not to verify: torn by power loss, or its cells gone. -/
def Store.spoil (x : Store) (t : Nat) : Store :=
  match (x.records.filter (fun r => r.2.body.type == t)).getLast? with
  | some n => { x with records := x.records.map (fun r => if r.1 = n.1 then (r.1, { r.2 with signed := false }) else r) }
  | none => x
/-- Types of the records that are not valid, one for each. -/
def Store.bad (x : Store) : List Nat :=
  (x.records.filter (fun r => !x.valid r.2)).map (fun r => r.2.body.type)
def Store.updLedger (x : Store) (f : Ledger → Ledger) : Store := x.write (.ledger (f x.ledger))

/-- Changes the store. -/
def State.updStore (s : State) (f : Store → Store) : State := { s with store := f s.store }
/-- Firmware writes the repair map in force, where it differs from the record (R101, R493). -/
def State.saveMap (s : State) : State :=
  if s.store.repair = (s.ident.map, s.ident.second) then s
  else s.updStore (fun x => x.write (.repairMap s.ident.map s.ident.second))

/-! ## Service log (R453, Table 20-7) -/

/-- An entry is added; the ring drops its oldest. -/
def Store.note (x : Store) (n : LogNote) : Store :=
  let l := x.log ++ [n]
  { x with log := l.drop (l.length - logEntries) }
/-- Whether the stop before the last start lacks the orderly-stop mark, by the log from its newest entry back. -/
def uncleanBack : List LogNote → Bool
  | .started :: .orderly :: _ => false
  | .started :: _ => true
  | .orderly :: _ => false
  | _ :: _ => true
  | [] => true
def Store.unclean (x : Store) : Bool := uncleanBack x.log.reverse
/-- The cause of the last module-fatal stop that the log holds, 0 for none. -/
def Store.lastFatal (x : Store) : Nat :=
  (x.log.reverse.findSome? (fun n => match n with | .fatal c => some c | _ => none)).getD 0

end Sys2Proof.Machine
end

