-- ==== Sys2Proof/Machine/Events.lean ====
section
/-! DEFINITION. What the module reports: tallies (13_remote_operations R339-R343), messages of firmware and
the partition channel block (17_mailboxes), events with their capture and routing (20_errors R467-R473),
and the answers to firmware commands. -/

namespace Sys2Proof.Machine

/-! ## Tallies -/

/-- Fields of a tally name: EN, KIND, partition-tally index, tile and tile tally (R339). -/
def tnEn (w : W32) : Bool := w.getLsbD 31
def tnTile (w : W32) : Bool := w.getLsbD 30
def tnIdx (w : W32) : Nat := bitsAt w.toNat 0 16
def tnTileIdx (w : W32) : Nat := bitsAt w.toNat 0 11
def tnTileTally (w : W32) : Nat := bitsAt w.toNat 16 6

/-- Whether a tally name is good for a partition. -/
def State.tallyOk (s : State) (p : Nat) (w : W32) (tiles : Bool := true) : Bool :=
  !tnEn w || !tnTile w ||
    (tiles && tileOk (tnTileIdx w) && s.tileOwner (tnTileIdx w) == some p && 48 ≤ tnTileTally w)

/-- Armed operations a tally now meets become due, in the order they were armed; while the partition is
freezing or frozen they are held (R343, R396). -/
def State.armedCheck (s : State) (p i : Nat) : State :=
  let v := mget 0 (s.part p).tallies i
  let hit (a : Armed) : Bool := a.p == p && a.tally == i && a.threshold ≤ v
  let due := s.armed.filter hit
  if due.isEmpty then s
  else
    let s1 := { s with armed := s.armed.filter (fun a => !hit a) }
    let x := s1.part p
    if x.lstate = .freezing || x.lstate = .frozen then s1.setPart p { x with held := x.held ++ due }
    else { s1 with armedDue := s1.armedDue ++ due }

/-- Stores a partition tally. -/
def State.setPTally (s : State) (p i : Nat) (v : W64) : State :=
  let x := s.part p
  (s.setPart p { x with tallies := mset 0 x.tallies i v }).armedCheck p i

/-- Increments a named tally; a partition tally stops at 2^64 - 1 (R340), a tile tally counts as R181. -/
def State.incTally (s : State) (p : Nat) (w : W32) : State :=
  if !tnEn w || !s.tallyOk p w then s
  else if tnTile w then s.updTile (tnTileIdx w) (fun x => x.incTally (tnTileTally w))
  else
    let v := mget 0 (s.part p).tallies (tnIdx w)
    s.setPTally p (tnIdx w) (if v = -1 then v else v + 1)

/-! ## The partition channel block (R416) -/

/-- The bytes of a partition's channel block that firmware writes: words, sequence, LEN and flags
(Table 17-5). -/
def chanImage (words : List W64) (seq : W32) (fwFull coll rres : Bool) : List Byte :=
  (words ++ List.replicate (8 - words.length) 0).flatMap (fun (w : W64) => leBytes 8 w.toNat) ++
  leBytes 8 (seq.toNat + 2 ^ 32 * (words.length % 16) + 2 ^ 36 * fwFull.toNat
    + 2 ^ 37 * coll.toNat + 2 ^ 38 * rres.toNat)

/-- What firmware's read of a line found is reported in the next alignment period (R217). -/
def State.noteEcc (s : State) (l : Nat) : State :=
  if s.ue.contains l || s.lost.contains l then { s with fwEcc := s.fwEcc ++ [(l, true)] }
  else if s.ce.contains l then { s with fwEcc := s.fwEcc ++ [(l, false)] }
  else s

/-- Firmware's write of bytes of one line, in class Q0, under a partition's data key; a line that cannot be
read and is not written whole keeps its contents. -/
def State.fwLine (s : State) (id a : Nat) (bs : List Byte) : State :=
  let l := a / 64 * 64
  let s0 := s.lineWrite 0 l
  if bs.length = 64 then { s0.poke a bs with lineKey := mset 0 s0.lineKey (l / 64) id }
  else
    let s1 := (s0.lineRead 0 l).noteEcc l
    if s1.bad l 64 then s1
    else
      let old := s1.dramBytes id l 64
      let new := old.take (a - l) ++ bs ++ old.drop (a - l + bs.length)
      { s1.poke l new with lineKey := mset 0 s1.lineKey (l / 64) id }.freshen

/-- Physical address and data key of a byte of a partition's channel block, if its tables map it to DRAM
with the right asked for. -/
def State.chanAt (s : State) (p off acc : Nat) : Option (Nat × Nat) :=
  match (s.part p).chan with
  | none => none
  | some va =>
    match s.walk p (va + off) with
    | .leaf lv base bits =>
      let pa := base + (va + off) % lvSize lv
      if rightsOk bits acc && inDram pa && !s.keyGone p then some (pa, s.keyId p (bitsAt bits.toNat 8 4)) else none
    | _ => none

/-- Writes bytes of one line of the channel block. -/
def State.chanPut (s : State) (p off : Nat) (bs : List Byte) : State :=
  match s.chanAt p off accW with
  | some x => s.fwLine x.2 x.1 bs
  | none => s

/-- Firmware writes the status word of the channel block (bytes 192-199). -/
def State.chanStatus (s : State) (p : Nat) : State :=
  let m := s.mb (.part p) false
  let c := s.mb (.part p) true
  s.chanPut p 192 ((chanImage m.words m.seq c.full c.collision c.rreset).drop 64)

/-- Firmware writes its message and the status word, then increments the block's tally. -/
def State.chanSend (s : State) (p : Nat) : State :=
  let s1 := (s.chanPut p 128 ((chanImage (s.mb (.part p) false).words 0 false false false).take 64)).chanStatus p
  match s1.chanAt p 208 accR with
  | some x =>
    let l := x.1 / 64 * 64
    let s2 := (s1.lineRead 0 l).noteEcc l
    if s2.bad l 64 then s2
    else s2.freshen.incTally p (BitVec.ofNat 32 (leNat (s2.dramBytes x.2 x.1 4)))
  | none => s1

/-- Firmware's message of a channel leaves: on a privileged channel toward the manager as a MGMT packet
that awaits its echo (R414, R415), on a partition channel into the channel block, its sequence counted up
(R416). -/
def State.sendFw (s : State) (ch : Chan) (words : List W64) : State :=
  let m := s.mb ch false
  match ch with
  | .manager =>
    let seq := m.seq + 1
    (s.setMb ch false { (m.post words false) with
        seq := seq, awaiting := some (0, seq, 0, words) }).emit (.mgmt m.mp1 0 false seq 0 words)
  | .security =>
    let seq := m.seq + 1
    (s.setMb ch false { (m.post words false) with
        seq := seq, awaiting := some (0, seq, 0, words) }).emit (.mgmt m.mp1 0 true seq 0 words)
  | .part p => (s.setMb ch false { (m.post words false) with seq := m.seq + 1 }).chanSend p
  | _ => s.setMb ch false { (m.post words false) with seq := m.seq + 1 }

/-- Firmware posts on a channel: at once when the direction is free, else pending, else dropped and
counted for the next post (R473). -/
def State.fwPost (s : State) (ch : Chan) (words : List W64) : State :=
  let m := s.mb ch false
  if !m.full && m.pend.isEmpty then s.sendFw ch words
  else if m.pend.length < maxPend then s.setMb ch false { m with pend := m.pend ++ [words] }
  else (s.setMb ch false { m with dropped := min (m.dropped + 1) 65535 }).count bERR 0 0xC38 1

/-- After a message of firmware's is taken or acknowledged, the next pending post goes out (R473). -/
def State.fwNext (s : State) (ch : Chan) : State :=
  let m := s.mb ch false
  match m.pend with
  | [] => s
  | w :: ws => if m.full then s else (s.setMb ch false { m with pend := ws }).sendFw ch w

/-! ## Events (20_errors R467-R473) -/

/-- The class of an event that reports an error (Tables 20-1, 20-5); an event that is no error loses nothing,
which is code 0 (log entry 15). -/
def evClass (blk bit : Nat) : Nat :=
  match blk, bit with
  | 0x01, 0 => 4 | 0x01, 1 => 4 | 0x01, 2 => 4
  | 0x02, _ => 5
  | 0x03, 1 => 5 | 0x03, 6 => 5 | 0x03, 7 => 4
  | 0x04, 2 => 2 | 0x04, 4 => 2 | 0x04, 5 => 2
  | 0x05, 1 => 4 | 0x05, 0 => 4
  | 0x06, 1 => 2 | 0x06, 5 => 2
  | 0x07, 0 => 2
  | 0x08, 0 => 1 | 0x08, 1 => 1 | 0x08, 2 => 2
  | 0x09, 0 => 4 | 0x09, 2 => 1 | 0x09, 3 => 1
  | 0x0C, 0 => 2 | 0x0C, 1 => 1 | 0x0C, 2 => 1 | 0x0C, 3 => 1
  | 0x0E, 0 => 2 | 0x0E, 2 => 2
  | 0x10, 0 => 3 | 0x10, 3 => 4 | 0x10, 4 => 2
  | 0x12, 2 => 1 | 0x12, 3 => 4 | 0x12, 4 => 2
  | 0x13, 0 => 1 | 0x13, 1 => 1
  | 0x14, 0 => 1 | 0x14, 1 => 4 | 0x14, 5 => 4 | 0x14, 7 => 2
  | 0x17, 0 => 1 | 0x17, 1 => 2 | 0x17, 2 => 2 | 0x17, 3 => 3 | 0x17, 4 => 4 | 0x17, 5 => 4
  | 0x18, _ => 4
  | _, _ => 0

/-- The partition that owns a page instance, if it has an owner (R469). -/
def State.pageOwner (s : State) (blk inst : Nat) : Option Nat :=
  if blk = bTILE then
    (if (s.reg bTILE inst 0x048).getLsbD 31 then some (s.fld bTILE inst 0x048 0 10) else none)
  else if blk = bPART then (if (s.part inst).lstate = .free then none else some inst)
  else none

/-- An EVENT post (Table 20-4) built for a channel. -/
def evPost (m : Mbox) (blk inst bit : Nat) (owns : Bool) (i0 i1 i2 : W32) (tw : W64) : List W64 :=
  [ BitVec.ofNat 64 (0x8001 + m.evSeq % 65536 * 65536),
    BitVec.ofNat 64 (blk + inst * 2 ^ 8 + bit * 2 ^ 20 + evClass blk bit * 2 ^ 25 + m.dropped * 2 ^ 32),
    if owns then i1 ++ i0 else 0,
    BitVec.ofNat 64 i2.toNat, tw ]

/-- Posts an event on one channel: the sequence counts up and the drop count it reports restarts. -/
def State.postEvent (s : State) (ch : Chan) (blk inst bit : Nat) : State :=
  let m := s.mb ch false
  let i2 := s.reg blk inst oINFO2
  let owns := i2.getLsbD 5 && i2.toNat % 32 == bit
  let w := evPost m blk inst bit owns (s.reg blk inst oINFO0) (s.reg blk inst oINFO1) i2 s.timeWord
  (s.setMb ch false { m with evSeq := (m.evSeq + 1) % 65536, dropped := 0 }).fwPost ch w

/-- Routes an event as the page's EVENT_ROUTE directs (R469, R472, R507). -/
def State.route (s : State) (blk inst bit : Nat) : State :=
  let dest := s.fld blk inst oEVENT_ROUTE 0 2
  let s1 := if dest = 1 || dest = 3 then s.postEvent .manager blk inst bit else s
  if dest = 2 || dest = 3 then
    match s.pageOwner blk inst with
    | some p => s1.postEvent (.part p) blk inst bit
    | none => s1
  else s1

/-- First-error capture (R470, R471): the first event freezes ERR_INFO0-2, later ones count in MISSED. -/
def State.capture (s : State) (blk inst bit : Nat) (i0 i1 : W32) : State :=
  let i2 := s.reg blk inst oINFO2
  if i2.getLsbD 5 then
    let missed := min (i2.toNat / 256 % 256 + 1) 255
    s.setReg blk inst oINFO2 (BitVec.ofNat 32 (i2.toNat % 64 + missed * 256))
  else
    ((s.setReg blk inst oINFO0 i0).setReg blk inst oINFO1 i1).setReg blk inst oINFO2
      (BitVec.ofNat 32 (bit + 0x20))

/-- An event occurs: its EVENTS bit is set whatever EVENT_EN holds, it meets the first-error capture, it
counts in its class, and it is routed when its bit rises with its EVENT_EN bit set (R469, R470). -/
def State.raise (s : State) (blk inst bit : Nat) (i0 i1 : W32 := 0) : State :=
  let ev := s.reg blk inst oEVENTS
  let s1 := (s.capture blk inst bit i0 i1).setReg blk inst oEVENTS (ev ||| BitVec.ofNat 32 (2 ^ bit))
  let c := evClass blk bit
  let s2 := if c = 0 then s1 else s1.count bERR 0 (0xC00 + 8 * c) 1
  if !ev.getLsbD bit && (s.reg blk inst oEVENT_EN).getLsbD bit then s2.route blk inst bit else s2

/-! ## Firmware answers (R418, R419, R420) -/

/-- The instance of the active power manager's PWR page: events and counters of the power managers land there, and
a failover moves them to the other page (log entry 51). -/
def State.pwrInst (s : State) : Nat := dieInst s.pwr.pmRole

/-- Whether firmware takes commands (R459): network-ready, or the power commands of R79. -/
def State.fwReady (s : State) : Bool := s.ident.netReady

/-- Firmware answers the command it took: on a privileged channel by the acknowledge, which clears FULL
and sets ACKED and RC; on an ordinary channel by a reply whose word 0 repeats opcode and tag with the
code in [47:32]. Data, if any, follows in a reply on either (R409, R418). -/
def State.answer (s : State) (c : Cmd) (opcode rc : Nat) (data : List W64 := []) : State :=
  let m := s.mb c.chan true
  let w0 : W64 := BitVec.ofNat 64 (opcode + c.tag.toNat * 2 ^ 16 + rc * 2 ^ 32)
  let s0 := if m.full then s.count bCTRL (dieInst s.ident.active) 0xC08 1 else s
  if chanPriv c.chan then
    let s1 := if m.full then (s0.setMb c.chan true { m with
        full := false, acked := true, rc := BitVec.ofNat 16 rc, awaiting := some (1, m.seq, BitVec.ofNat 16 rc, []) }).emit
          (.mgmt m.mp1 1 (c.chan == Chan.security) m.seq (BitVec.ofNat 16 rc) [])
      else s0
    if data.isEmpty then s1 else s1.fwPost c.chan (w0 :: data)
  else
    let s1 := s0.setMb c.chan true { m with full := false }
    let s2 := match c.chan with | .part p => s1.chanStatus p | _ => s1
    s2.fwPost c.chan (w0 :: data)

/-- The final reply of an accepted command: opcode 0xFFFF, the command's tag, the final code (R418). -/
def State.finish (s : State) (c : Cmd) (rc : Nat) (data : List W64 := []) : State :=
  s.fwPost c.chan (BitVec.ofNat 64 (0xFFFF + c.tag.toNat * 2 ^ 16 + rc * 2 ^ 32) :: data)

/-- Channels a command may come on (Table 17-7). -/
def chanOk (c : Cmd) (m sec p t : Bool) : Bool :=
  match c.chan with
  | .manager => m
  | .security => sec
  | .inter => false
  | .part _ => p
  | .tile _ => t

/-- Whether a channel that firmware serves first holds a message for it (Table 17-6). -/
def State.outranked (s : State) (ch : Chan) : Bool :=
  let full (c : Chan) : Bool := (s.mb c true).full
  match ch with
  | .manager => false
  | .security => full .manager
  | .inter => full .manager || full .security
  | .part _ => full .manager || full .security || full .inter
  | .tile _ => full .manager || full .security || full .inter ||
      s.mbox.any (fun x => x.2.full && x.1 % 2 == 1 && 0x200 ≤ x.1 && x.1 < 0xA00)

/-- The frame every firmware command shares: behind a channel served first it waits (R417); before network-ready the command waits in its channel
(R79, R459); on a channel Table 17-7 does not list it returns 0x0002. -/
def State.command (s : State) (c : Cmd) (opcode : Nat) (ok : Bool) (k : State → State) : State :=
  if !s.fwReady || s.outranked c.chan then s
  else if !ok then s.answer c opcode 0x0002
  else k s

/-! ## Unmapped accesses (R30) -/

/-- A control core's access finds nothing: it has no effect, a read gives 0; it is captured and counted
(Table 22-7). -/
def State.unmapped (s : State) (a : Nat) (write : Bool) (core : Nat) (complex : Bool) : State :=
  (s.count bERR 0 0xC30 1).raise bERR 0 0 (BitVec.ofNat 32 a)
    (BitVec.ofNat 32 (a / 2 ^ 32 + write.toNat * 2 ^ 16 + core * 2 ^ 17 + complex.toNat * 2 ^ 20))

/-- Address of an offset of a page (R504). -/
def pageAddr (blk inst off : Nat) : Nat := 0x200000000000 + rk blk inst off

/-- An access by a core of the active complex to a page that does not exist; which core is free. -/
def State.noPage (s : State) (blk inst off : Nat) (write : Bool) : State :=
  (s.unmapped (pageAddr blk inst off) write (s.freeIn 0 0 3) s.ident.active).freshen

end Sys2Proof.Machine
end

