-- ==== Sys2Proof/Machine/Flags.lean ====
section
/-! DEFINITION. Number formats, rounding and the numeric flags (05_numerics): exact dyadic values, the
element formats of Table 5-1, rounding under every mode of Table 5-4, the outcomes of Tables 5-5 and
5-6a, binary32 arithmetic, the functions of Table 5-10, and the Philox draw. -/

namespace Sys2Proof.Machine

/-! ## Flags (Table 5-6) -/
abbrev Flags5 : Type := BitVec 5
abbrev fNX : Flags5 := 1
abbrev fUF : Flags5 := 2
abbrev fOF : Flags5 := 4
abbrev fDZ : Flags5 := 8
abbrev fNV : Flags5 := 16

/-- An exact value: a signed dyadic m × 2^e, an infinity, or NaN (R114, R116). -/
inductive XVal where
  | fin (neg : Bool) (m : Nat) (e : Int)
  | inf (neg : Bool)
  | nan
  deriving DecidableEq, Repr

/-- Element formats (Table 5-1). -/
inductive Elt where
  | fp32 | fp16 | bf16 | e4m3 | e5m2 | e3m2 | e2m3 | e2m1 | int8 | int4 | int32 | e8m0
  deriving DecidableEq, Repr

/-- Width in bits (Table 5-1). -/
def eltBits : Elt → Nat
  | .fp32 => 32 | .fp16 => 16 | .bf16 => 16 | .e4m3 => 8 | .e5m2 => 8 | .e3m2 => 6 | .e2m3 => 6
  | .e2m1 => 4 | .int8 => 8 | .int4 => 4 | .int32 => 32 | .e8m0 => 8

/-- Mantissa bits of a floating-point format. -/
def eltM : Elt → Nat
  | .fp32 => 23 | .fp16 => 10 | .bf16 => 7 | .e4m3 => 3 | .e5m2 => 2 | .e3m2 => 2 | .e2m3 => 3
  | .e2m1 => 1 | _ => 0

/-- Exponent bits of a floating-point format. -/
def eltE : Elt → Nat
  | .fp32 => 8 | .fp16 => 5 | .bf16 => 8 | .e4m3 => 4 | .e5m2 => 5 | .e3m2 => 3 | .e2m3 => 2
  | .e2m1 => 2 | _ => 0

/-- Bias. -/
def eltBias : Elt → Nat
  | .fp32 => 127 | .fp16 => 15 | .bf16 => 127 | .e4m3 => 7 | .e5m2 => 15 | .e3m2 => 3 | .e2m3 => 1
  | .e2m1 => 1 | _ => 0

/-- Formats with infinities. -/
def eltInf : Elt → Bool
  | .fp32 => true | .fp16 => true | .bf16 => true | .e5m2 => true | _ => false

/-- Whether the target is an integer format. -/
def eltInt : Elt → Bool
  | .int8 => true | .int4 => true | .int32 => true | _ => false

/-- Canonical NaN (R116); 0 where the format has none (Table 5-5). -/
def eltNan : Elt → Nat
  | .fp32 => 0x7FC00000 | .fp16 => 0x7E00 | .bf16 => 0x7FC0 | .e4m3 => 0x7F | .e5m2 => 0x7E
  | .e8m0 => 0xFF | _ => 0

/-- Magnitude bits of the largest finite value (Table 5-1). -/
def eltMax (f : Elt) : Nat :=
  if eltInf f then 2 ^ (eltE f + eltM f) - 2 ^ eltM f - 1
  else if f = .e4m3 then 0x7E
  else 2 ^ (eltE f + eltM f) - 1

/-- The encoding with a sign bit. -/
def eltSigned (f : Elt) (neg : Bool) (mag : Nat) : Nat := mag + (if neg then 2 ^ (eltBits f - 1) else 0)

/-- The largest finite value of a sign, and infinity. -/
def eltMaxS (f : Elt) (neg : Bool) : Nat := eltSigned f neg (eltMax f)
def eltInfS (f : Elt) (neg : Bool) : Nat := eltSigned f neg ((2 ^ eltE f - 1) * 2 ^ eltM f)

/-- The value of an encoding (R114, R116, Table 5-1). -/
def eltDecode (f : Elt) (bits : Nat) : XVal :=
  let b := bits % 2 ^ eltBits f
  if f = .e8m0 then (if b = 255 then .nan else .fin false 1 ((b : Int) - 127))
  else if eltInt f then
    let half := 2 ^ (eltBits f - 1)
    if b < half then .fin false b 0 else .fin true (2 * half - b) 0
  else
    let neg := decide (2 ^ (eltBits f - 1) ≤ b)
    let mag := b % 2 ^ (eltBits f - 1)
    let ex := mag / 2 ^ eltM f
    let mn := mag % 2 ^ eltM f
    if eltInf f && ex == 2 ^ eltE f - 1 then (if mn = 0 then .inf neg else .nan)
    else if f = .e4m3 && mag == 0x7F then .nan
    else if ex = 0 then .fin neg mn (1 - (eltBias f : Int) - (eltM f : Int))
    else .fin neg (mn + 2 ^ eltM f) ((ex : Int) - (eltBias f : Int) - (eltM f : Int))

/-! ## Rounding (R122-R125, R128, R518) -/

/-- A magnitude m × 2^e rounded to a multiple of 2^lsb under a mode (Table 5-4); `r` is the stochastic
draw. Gives the multiple and whether anything was dropped. -/
def roundMag (rm : Nat) (neg : Bool) (r m : Nat) (e lsb : Int) : Nat × Bool :=
  if lsb ≤ e then (m * 2 ^ (e - lsb).toNat, false)
  else
    let sh := (lsb - e).toNat
    let q := m / 2 ^ sh
    let rem := m % 2 ^ sh
    let up : Bool :=
      match rm with
      | 0 => decide (2 ^ sh < 2 * rem) || (decide (2 * rem = 2 ^ sh) && decide (q % 2 = 1))
      | 1 => false
      | 2 => neg && decide (rem ≠ 0)
      | 3 => !neg && decide (rem ≠ 0)
      | _ => decide (2 ^ 32 ≤ rem * 2 ^ 32 / 2 ^ sh + r)
    (if up then q + 1 else q, decide (rem ≠ 0))

/-- The limits of an integer format. -/
def intLo (f : Elt) : Int := -((2 ^ (eltBits f - 1) : Nat) : Int)
def intHi (f : Elt) : Int := ((2 ^ (eltBits f - 1) : Nat) : Int) - 1

/-- Two's-complement bits of an integer in a width. -/
def twos (w : Nat) (x : Int) : Nat := (x % ((2 ^ w : Nat) : Int)).toNat

/-- A finite value to an integer format (R123, Tables 5-5 and 5-6a). -/
def roundInt (f : Elt) (rm r : Nat) (neg : Bool) (m : Nat) (e : Int) : Nat × Flags5 :=
  let q := roundMag rm neg r m e 0
  let v : Int := if neg then -(q.1 : Int) else q.1
  if v < intLo f then (twos (eltBits f) (intLo f), fNV)
  else if intHi f < v then (twos (eltBits f) (intHi f), fNV)
  else (twos (eltBits f) v, if q.2 then fNX else 0)

/-- A finite value to E8M0 (R160); under RNE a tie at 1.5 × 2^p goes to 2^(p+1) (log entry 59). -/
def roundScale (rm r : Nat) (neg : Bool) (m : Nat) (e : Int) : Nat × Flags5 :=
  if m = 0 || neg then (0xFF, fNV)
  else
    let p : Int := e + (Nat.log2 m : Int)
    let q := roundMag rm false r m e p
    let x : Int := if q.1 = 2 then p + 1 else p
    if 127 < x then (254, fOF ||| fNX)
    else if x < -127 then (0, fUF ||| fNX)
    else ((x + 127).toNat, if q.2 then fNX else 0)

/-- Overflow of a floating-point target (Table 5-5). -/
def overflowTo (f : Elt) (rm : Nat) (sat neg : Bool) : Nat :=
  if f = .e4m3 then (if sat then eltMaxS f neg else eltNan f)
  else if eltInf f && !(sat && f != .fp32) then
    match rm with
    | 1 => eltMaxS f neg
    | 2 => if neg then eltInfS f neg else eltMaxS f neg
    | 3 => if neg then eltMaxS f neg else eltInfS f neg
    | _ => eltInfS f neg
  else eltMaxS f neg

/-- A finite value to a floating-point format (R123-R125, Table 5-6a). -/
def roundFloat (f : Elt) (rm r : Nat) (sat neg : Bool) (m : Nat) (e : Int) : Nat × Flags5 :=
  if m = 0 then (eltSigned f neg 0, 0)
  else
    let mb := eltM f
    let emin : Int := 1 - (eltBias f : Int)
    let p : Int := e + (Nat.log2 m : Int)
    let lsb : Int := max p emin - (mb : Int)
    let q := roundMag rm neg r m e lsb
    let u := roundMag rm neg r m e (p - (mb : Int))
    -- tiny: the rounding with an unbounded exponent lies below the smallest normal
    let tiny : Bool := decide (p < emin) && !(decide (p + 1 = emin) && decide (u.1 = 2 ^ (mb + 1)))
    let carry := decide (q.1 = 2 ^ (mb + 1))
    let mant := if carry then 2 ^ mb else q.1
    let ex : Int := (if carry then lsb + 1 else lsb) + (mb : Int) + (eltBias f : Int)
    let mag : Nat := if mant < 2 ^ mb then mant else ex.toNat * 2 ^ mb + (mant - 2 ^ mb)
    if eltMax f < mag then (overflowTo f rm sat neg, fOF ||| fNX)
    else (eltSigned f neg mag, (if q.2 then fNX else 0) ||| (if q.2 && tiny then fUF else 0))

/-- The conversion of any value to any element format (R123-R125, R518). -/
def roundTo (f : Elt) (rm r : Nat) (sat : Bool) (x : XVal) : Nat × Flags5 :=
  match x with
  | .nan =>
    if eltInt f then (0, fNV)
    else if f = .e8m0 then (0xFF, fNV)
    else (eltNan f, if eltInf f || f = .e4m3 then 0 else fNV)
  | .inf neg =>
    if eltInt f then (twos (eltBits f) (if neg then intLo f else intHi f), fNV)
    else if f = .e8m0 then (0xFF, fNV)
    else if eltInf f then
      if sat && f != .fp32 then (eltMaxS f neg, fNV) else (eltInfS f neg, 0)
    else if f = .e4m3 then (if sat then eltMaxS f neg else eltNan f, fNV)
    else (eltMaxS f neg, fNV)
  | .fin neg m e =>
    if eltInt f then roundInt f rm r neg m e
    else if f = .e8m0 then roundScale rm r neg m e
    else roundFloat f rm r sat neg m e

/-! ## Exact arithmetic on dyadics -/

/-- The signed integer of a dyadic at exponent `e0`, for e0 at most its own. -/
def dyInt (neg : Bool) (m : Nat) (e e0 : Int) : Int :=
  let k : Int := ((m * 2 ^ (e - e0).toNat : Nat) : Int)
  if neg then -k else k

/-- The exact sum of two values; an exact zero takes the sign R125 gives it. -/
def xadd (rm : Nat) (a b : XVal) : XVal × Flags5 :=
  match a, b with
  | .nan, _ => (.nan, 0)
  | _, .nan => (.nan, 0)
  | .inf x, .inf y => if x = y then (.inf x, 0) else (.nan, fNV)
  | .inf x, _ => (.inf x, 0)
  | _, .inf y => (.inf y, 0)
  | .fin n1 m1 e1, .fin n2 m2 e2 =>
    let e0 := min e1 e2
    let v := dyInt n1 m1 e1 e0 + dyInt n2 m2 e2 e0
    if v = 0 then (.fin (if n1 = n2 then n1 else rm == 2) 0 0, 0)
    else (.fin (decide (v < 0)) v.natAbs e0, 0)

/-- The exact product. -/
def xmul (a b : XVal) : XVal × Flags5 :=
  match a, b with
  | .nan, _ => (.nan, 0)
  | _, .nan => (.nan, 0)
  | .inf x, .inf y => (.inf (x != y), 0)
  | .inf x, .fin y m _ => if m = 0 then (.nan, fNV) else (.inf (x != y), 0)
  | .fin x m _, .inf y => if m = 0 then (.nan, fNV) else (.inf (x != y), 0)
  | .fin x m e, .fin y k f => (.fin (x != y) (m * k) (e + f), 0)

/-- The negation. -/
def xneg : XVal → XVal
  | .nan => .nan
  | .inf x => .inf (!x)
  | .fin x m e => .fin (!x) m e

/-- binary32 values of register words. -/
def f32 (w : Nat) : XVal := eltDecode .fp32 w

/-- Rounds an exact result and its flags to binary32. -/
def toF32 (rm r : Nat) (x : XVal × Flags5) : Nat × Flags5 :=
  let y := roundTo .fp32 rm r false x.1
  (y.1, y.2 ||| x.2)

/-- binary32 addition, subtraction, multiplication and fused multiply-add (R139). -/
def f32Add (rm r a b : Nat) : Nat × Flags5 := toF32 rm r (xadd rm (f32 a) (f32 b))
def f32Sub (rm r a b : Nat) : Nat × Flags5 := toF32 rm r (xadd rm (f32 a) (xneg (f32 b)))
def f32Mul (rm r a b : Nat) : Nat × Flags5 := toF32 rm r (xmul (f32 a) (f32 b))
def f32Fma (rm r a b c : Nat) : Nat × Flags5 :=
  let p := xmul (f32 a) (f32 b)
  let q := xadd rm p.1 (f32 c)
  toF32 rm r (q.1, p.2 ||| q.2)

/-- Numeric order of finite and infinite values: a < b. -/
def xlt (a b : XVal) : Bool :=
  match a, b with
  | .nan, _ => false
  | _, .nan => false
  | .inf x, .inf y => x && !y
  | .inf x, .fin _ _ _ => x
  | .fin _ _ _, .inf y => !y
  | .fin n1 m1 e1, .fin n2 m2 e2 =>
    let e0 := min e1 e2
    decide (dyInt n1 m1 e1 e0 < dyInt n2 m2 e2 e0)

/-- Numeric equality; the two zeros are equal. -/
def xeq (a b : XVal) : Bool :=
  match a, b with
  | .nan, _ => false
  | _, .nan => false
  | _, _ => !xlt a b && !xlt b a

/-- Sign bit of a value. -/
def xsign : XVal → Bool
  | .nan => false
  | .inf x => x
  | .fin x _ _ => x

/-- minimumNumber and maximumNumber with −0 below +0 (R140). -/
def f32Min (a b : Nat) : Nat :=
  match f32 a, f32 b with
  | .nan, .nan => eltNan .fp32
  | .nan, _ => b
  | _, .nan => a
  | x, y => if xlt x y then a else if xlt y x then b else if xsign x then a else b
def f32Max (a b : Nat) : Nat :=
  match f32 a, f32 b with
  | .nan, .nan => eltNan .fp32
  | .nan, _ => b
  | _, .nan => a
  | x, y => if xlt x y then b else if xlt y x then a else if xsign x then b else a

/-- VCMP.F's conditions (Table 6-4). -/
def f32Cmp (cond a b : Nat) : Bool :=
  let x := f32 a
  let y := f32 b
  match cond with
  | 0 => xeq x y
  | 1 => !xeq x y
  | 2 => xlt x y
  | 3 => xlt x y || xeq x y
  | _ => x == .nan || y == .nan

/-! ## The functions of Table 5-10 (R141)

Values with no dyadic result are computed to more than 160 significant bits with the last bit set to
mark them inexact, then rounded once (log entry 10). -/

/-- Fraction bits of the fixed-point work. -/
abbrev fxB : Nat := 256
/-- floor(π × 2^256) and floor(ln 2 × 2^256). -/
def fxPi : Nat := 0x3243f6a8885a308d313198a2e03707344a4093822299f31d0082efa98ec4e6c89
def fxLn2 : Nat := 0xb17217f7d1cf79abc9e3b39803f2f6af40f343267298b62d8a0d175b8baafa2b

/-- Integer square root by bits, from bit `k` down. -/
def isqrtGo (n : Nat) : Nat → Nat → Nat
  | 0, r => r
  | k + 1, r => let c := r + 2 ^ k; if c * c ≤ n then isqrtGo n k c else isqrtGo n k r
def isqrt (n : Nat) : Nat := isqrtGo n (Nat.log2 n / 2 + 1) 0

/-- Σ t^k / k! by rising k, in fixed point. -/
def expGo (t : Nat) : Nat → Nat → Nat → Nat
  | 0, _, _ => 0
  | n + 1, k, term => term + expGo t n (k + 1) (term * t / 2 ^ fxB / (k + 1))
def fxExp (t : Nat) : Nat := expGo t 256 0 (2 ^ fxB)

/-- Σ z^(2k+1) / (2k+1). -/
def atanhGo (z2 : Nat) : Nat → Nat → Nat → Nat
  | 0, _, _ => 0
  | n + 1, k, term => term / k + atanhGo z2 n (k + 2) (term * z2 / 2 ^ fxB)
/-- ln y for 1 ≤ y < 2 in fixed point. -/
def fxLn (y : Nat) : Nat :=
  let z := (y - 2 ^ fxB) * 2 ^ fxB / (y + 2 ^ fxB)
  2 * atanhGo (z * z / 2 ^ fxB) 100 1 z

/-- Σ (±1)^k x^k / (2k + c)! with x the square of the argument; the sign alternates when `alt`. -/
def trigGo (alt : Bool) (x : Nat) : Nat → Nat → Nat → Int
  | 0, _, _ => 0
  | n + 1, k, term =>
    (term : Int) + (if alt then -1 else 1) * trigGo alt x n (k + 2) (term * x / 2 ^ fxB / (k * (k + 1)))

/-- The value with its last bit set: inexact. -/
def sticky (neg : Bool) (m : Nat) (e : Int) : XVal := .fin neg (2 * m + 1) (e - 1)

/-- The exact value m × 2^e as fixed point, cut below. -/
def toFx (m : Nat) (e : Int) : Nat :=
  let k : Int := e + (fxB : Int)
  if 0 ≤ k then m * 2 ^ k.toNat else m / 2 ^ (-k).toNat

/-- sin(π m 2^e) for 0 < m 2^e < 1/2. -/
def sinPiSmall (neg : Bool) (m : Nat) (e : Int) : XVal :=
  let th := fxPi * toFx m e / 2 ^ fxB
  let ss := trigGo true (th * th / 2 ^ fxB) 80 2 (2 ^ fxB)
  sticky neg (fxPi * ss.toNat * m) (e - 2 * (fxB : Int))

/-- sin(π u), u = m 2^e in [0, 1], u as a multiple of 2^e with e ≤ −1. -/
def sinPiHalf (neg : Bool) (m : Nat) (e : Int) : XVal :=
  let one : Nat := 2 ^ (-e).toNat
  let v := if one < 2 * m then one - m else m
  if v = 0 then .fin neg 0 0
  else if 2 * v = one then .fin neg 1 0
  else sinPiSmall neg v e

/-- sin(πx). -/
def fnSin (neg : Bool) (m : Nat) (e : Int) : XVal :=
  if 0 ≤ e then .fin neg 0 0
  else
    let one : Nat := 2 ^ (-e).toNat
    if m % one = 0 then .fin neg 0 0
    else
      let u := m % (2 * one)
      if one ≤ u then sinPiHalf (!neg) (u - one) e else sinPiHalf neg u e

/-- cos(πx) = sin(π(1/2 − v)). -/
def fnCos (m : Nat) (e : Int) : XVal :=
  if 0 ≤ e then
    (if 0 < e || m % 2 = 0 then .fin false 1 0 else .fin true 1 0)
  else
    -- work in units of 2^(e-1), so that 1/2 is a whole number of units
    let one : Nat := 2 ^ (1 - e).toNat
    let u := 2 * m % (2 * one)
    let w := if one < u then 2 * one - u else u
    if 2 * w = one then .fin false 0 0
    else if 2 * w < one then sinPiHalf false (one / 2 - w) (e - 1)
    else sinPiHalf true (w - one / 2) (e - 1)

/-- 2^x. -/
def fnExp2 (neg : Bool) (m : Nat) (e : Int) : XVal :=
  let big : Bool := decide (2 ^ 9 ≤ m * 2 ^ e.toNat / 2 ^ (-e).toNat)
  if big then (if neg then .fin false 1 (-1000) else .fin false 1 1000)
  else
    let one : Nat := 2 ^ (-e).toNat
    let k := m * 2 ^ e.toNat
    let v : Int := if neg then -(k : Int) else k
    let n : Int := v / (one : Int)
    let fr : Nat := (v % (one : Int)).toNat
    if fr = 0 then .fin false 1 n
    else sticky false (fxExp (fxLn2 * (fr * 2 ^ fxB / one) / 2 ^ fxB)) (n - (fxB : Int))

/-- log2 of m 2^e, m > 0. -/
def fnLog2 (m : Nat) (e : Int) : XVal :=
  let l := Nat.log2 m
  let p : Int := e + (l : Int)
  if m = 2 ^ l then .fin (decide (p < 0)) p.natAbs 0
  else
    let y := m * 2 ^ fxB / 2 ^ l
    let lg : Int := p * ((2 ^ fxB : Nat) : Int) + ((fxLn y * 2 ^ fxB / fxLn2 : Nat) : Int)
    sticky (decide (lg < 0)) lg.natAbs (-(fxB : Int))

/-- tanh of m 2^e, m > 0. -/
def fnTanh (neg : Bool) (m : Nat) (e : Int) : XVal :=
  let a := toFx m e
  if 20 * 2 ^ fxB ≤ a then sticky neg (2 ^ 200 - 1) (-200)
  else if 2 ^ fxB < a then
    let x := fxExp (2 * a)
    sticky neg ((x - 2 ^ fxB) * 2 ^ fxB / (x + 2 ^ fxB)) (-(fxB : Int))
  else
    let a2 := a * a / 2 ^ fxB
    let sh := trigGo false a2 80 2 (2 ^ fxB)
    let ch := trigGo false a2 80 1 (2 ^ fxB)
    sticky neg (m * (sh.toNat * 2 ^ fxB / ch.toNat)) (e - (fxB : Int))

/-- 1/x, √x and 1/√x of m 2^e, m > 0. -/
def fnRecip (neg : Bool) (m : Nat) (e : Int) : XVal :=
  let q := 2 ^ 300 / m
  if 2 ^ 300 % m = 0 then .fin neg q (-300 - e) else sticky neg q (-300 - e)
def fnSqrt (m : Nat) (e : Int) : XVal :=
  let mm := if e % 2 = 0 then m else 2 * m
  let ee := if e % 2 = 0 then e else e - 1
  let q := isqrt (mm * 2 ^ 400)
  if q * q = mm * 2 ^ 400 then .fin false q (ee / 2 - 200) else sticky false q (ee / 2 - 200)
def fnRsqrt (m : Nat) (e : Int) : XVal :=
  let mm := if e % 2 = 0 then m else 2 * m
  let ee := if e % 2 = 0 then e else e - 1
  let q := isqrt (2 ^ 600 / mm)
  if q * q * mm = 2 ^ 600 then .fin false q (-(ee / 2) - 300) else sticky false q (-(ee / 2) - 300)

/-- VFN's function `fn` on a binary32 word (R141, Table 5-10), rounded to nearest even. -/
def f32Fn (fn : Nat) (a : Nat) : Nat × Flags5 :=
  let bad : XVal × Flags5 := (.nan, fNV)
  toF32 0 0 <|
    match f32 a with
    | .nan => (.nan, 0)
    | .inf neg =>
      match fn with
      | 0 => (.fin neg 0 0, 0)
      | 1 => if neg then bad else (.inf false, 0)
      | 2 => if neg then bad else (.fin false 0 0, 0)
      | 3 => if neg then (.fin false 0 0, 0) else (.inf false, 0)
      | 4 => if neg then bad else (.inf false, 0)
      | 5 => bad
      | 6 => bad
      | _ => (.fin neg 1 0, 0)
    | .fin neg m e =>
      if m = 0 then
        match fn with
        | 0 => (.inf neg, fDZ)
        | 1 => (.fin neg 0 0, 0)
        | 2 => (.inf neg, fDZ)
        | 3 => (.fin false 1 0, 0)
        | 4 => (.inf true, fDZ)
        | 5 => (.fin neg 0 0, 0)
        | 6 => (.fin false 1 0, 0)
        | _ => (.fin neg 0 0, 0)
      else
        match fn with
        | 0 => (fnRecip neg m e, 0)
        | 1 => if neg then bad else (fnSqrt m e, 0)
        | 2 => if neg then bad else (fnRsqrt m e, 0)
        | 3 => (fnExp2 neg m e, 0)
        | 4 => if neg then bad else (fnLog2 m e, 0)
        | 5 => (fnSin neg m e, 0)
        | 6 => (fnCos m e, 0)
        | _ => (fnTanh neg m e, 0)

/-! ## Stochastic draws (R127) -/

/-- The rounds of Philox4x32. -/
def philoxGo : Nat → Nat → Nat → Nat → Nat → Nat → Nat → Nat × Nat × Nat × Nat
  | 0, c0, c1, c2, c3, _, _ => (c0, c1, c2, c3)
  | n + 1, c0, c1, c2, c3, k0, k1 =>
    let p0 := 0xD2511F53 * c0
    let p1 := 0xCD9E8D57 * c2
    philoxGo n ((p1 / 2 ^ 32) ^^^ c1 ^^^ k0) (p1 % 2 ^ 32) ((p0 / 2 ^ 32) ^^^ c3 ^^^ k1) (p0 % 2 ^ 32)
      ((k0 + 0x9E3779B9) % 2 ^ 32) ((k1 + 0xBB67AE85) % 2 ^ 32)

/-- The draw of element e on tile t at step STEP under a seed (R127). -/
def draw (t : Nat) (step seed : W64) (e : Nat) : Nat :=
  let w := philoxGo 10 (e / 4) t (step.toNat % 2 ^ 32) (step.toNat / 2 ^ 32)
    (seed.toNat % 2 ^ 32) (seed.toNat / 2 ^ 32)
  match e % 4 with
  | 0 => w.1
  | 1 => w.2.1
  | 2 => w.2.2.1
  | _ => w.2.2.2

end Sys2Proof.Machine
end

