-- ==== Sys2Proof/Machine/Operands.lean ====
section
/-! DEFINITION. Operand forms of the tile (05_numerics, 06_tile_instruction_set): lanes and elements of
vector registers, immediates, block formats in memory, matrix operands and their rates, tile registers. -/

namespace Sys2Proof.Machine

/-! ## Registers of a tile -/

/-- Scalar register; s0 reads as 0 (R148). -/
def Tile.sreg (x : Tile) (r : Nat) : W64 := if r = 0 then 0 else mget 0 x.s r
/-- Vector register. -/
def Tile.vreg (x : Tile) (r : Nat) : Vec := mget 0 x.v r
/-- Predicate register; p0 reads as all ones (R148). -/
def Tile.preg (x : Tile) (r : Nat) : W64 := if r = 0 then BitVec.allOnes 64 else mget 0 x.p r
/-- Writes; a write to s0 or p0 is discarded (R146). -/
def Tile.setS (x : Tile) (r : Nat) (v : W64) : Tile := if r = 0 then x else { x with s := mset 0 x.s r v }
def Tile.setV (x : Tile) (r : Nat) (v : Vec) : Tile := { x with v := mset 0 x.v r v }
def Tile.setP (x : Tile) (r : Nat) (v : W64) : Tile := if r = 0 then x else { x with p := mset 0 x.p r v }
/-- Bank word (i, j) of bank b. -/
def Tile.bank (x : Tile) (b i j : Nat) : W32 := mget 0 x.banks (b * 4096 + i * 64 + j)
def Tile.setBank (x : Tile) (b i j : Nat) (w : W32) : Tile :=
  { x with banks := mset 0 x.banks (b * 4096 + i * 64 + j) w }
/-- Long accumulator (i, j). -/
def Tile.lacc (x : Tile) (k : Nat) : LAcc := mget {} x.acc k
def Tile.setLacc (x : Tile) (k : Nat) (l : LAcc) : Tile := { x with acc := mset {} x.acc k l }
/-! ## Lanes and elements (R160) -/

/-- Element i of width w of a number. -/
def elem (w v i : Nat) : Nat := v / 2 ^ (w * i) % 2 ^ w
/-- Lane i. -/
def lane (v : Vec) (i : Nat) : Nat := elem 32 v.toNat i
/-- Packs elements of width w, element 0 lowest. -/
def packE (w : Nat) : List Nat → Nat
  | [] => 0
  | x :: l => x % 2 ^ w + 2 ^ w * packE w l
/-- A vector from 64 lanes. -/
def ofLanes (l : List Nat) : Vec := BitVec.ofNat 2048 (packE 32 l)
/-- The mask of the lanes enabled by a predicate. -/
def laneMask (p : W64) : Vec :=
  ofLanes ((List.range 64).map (fun i => if p.getLsbD i then 0xFFFFFFFF else 0))
/-- A predicate from 64 bits. -/
def ofBits (l : List Bool) : W64 := BitVec.ofNat 64 (packE 1 (l.map Bool.toNat))
/-- Merges a masked write into the contents a register holds when the result lands (R158). -/
def merge (old x mask : Vec) : Vec := (old &&& ~~~mask) ||| (x &&& mask)
/-- A vector of 256 bytes, and its bytes. -/
def ofBytes (l : List Byte) : Vec := BitVec.ofNat 2048 (leNat l)
def vecBytes (v : Vec) : List Byte := leBytes 256 v.toNat

/-! ## Immediates (R151) -/
/-- Sign-extends a field to 64 bits. -/
def sx {n : Nat} (x : BitVec n) : W64 := x.signExtend 64

/-! ## Formats by code -/

/-- Element codes of VCVT (Table 6-5). -/
def eltCode : Nat → Option Elt
  | 0 => some .fp32 | 1 => some .fp16 | 2 => some .bf16 | 3 => some .e4m3 | 4 => some .e5m2
  | 5 => some .e3m2 | 6 => some .e2m3 | 7 => some .e2m1 | 8 => some .int8 | 9 => some .int4
  | 10 => some .int32 | 11 => some .e8m0 | _ => none

/-- MRD's formats (Table 6-7). -/
def mrdCode : Nat → Option Elt
  | 0 => some .fp32 | 1 => some .bf16 | 2 => some .fp16 | 3 => some .e4m3 | 4 => some .e5m2
  | 5 => some .int32 | _ => none

/-- Element format of a matrix operand code (Table 6-6). -/
def matElt : Nat → Elt
  | 0x0 => .fp16 | 0x1 => .bf16 | 0x2 => .e4m3 | 0x3 => .e5m2 | 0x4 => .e3m2 | 0x5 => .e2m3
  | 0x6 => .e2m1 | 0x7 => .int8 | 0x8 => .int4 | 0x9 => .e4m3 | 0xA => .e5m2 | 0xB => .e3m2
  | 0xC => .e2m3 | 0xD => .e2m1 | 0xE => .int8 | _ => .e2m1
/-- MX codes, and PF4 (Table 6-6). -/
def matMx (c : Nat) : Bool := 9 ≤ c && c ≤ 14
def matPf4 (c : Nat) : Bool := c == 15
def matBlock (c : Nat) : Bool := 9 ≤ c

/-- Quarter-values of k per ACLK of a pair of operands (Table 5-7): 8, 4 or 1. -/
def matRate4 (fa fb : Nat) : Nat :=
  if matElt fa = .fp16 || matElt fa = .bf16 || matElt fb = .fp16 || matElt fb = .bf16 then 1
  else if eltBits (matElt fa) = 4 && eltBits (matElt fb) = 4 then 8 else 4
/-- ceil(K / r). -/
def matCycles (fa fb k : Nat) : Nat :=
  let q := matRate4 fa fb
  (4 * k + q - 1) / q

/-- Scales a value by 2^x (R117): NaN and infinity stay. -/
def xscale (v : XVal) (x : Int) : XVal :=
  match v with
  | .fin n m e => .fin n m (e + x)
  | y => y

/-- An element of an MX block: scale byte and encoding (R117). -/
def mxValue (c scale enc : Nat) : XVal :=
  if scale = 255 then .nan
  else
    let v := xscale (eltDecode (matElt c) enc) ((scale : Int) - 127)
    if c = 14 then xscale v (-6) else v

/-- Element i of an 18-byte PF4 block held as a number (R119, R120). -/
def pf4Value (blk i : Nat) : XVal :=
  let x := elem 8 blk 16
  if x = 255 then .nan
  else
    let sg := elem 2 (elem 8 blk 17) (i / 8)
    xscale (eltDecode .e2m1 (elem 4 blk i)) ((x : Int) - 127 - (sg : Int))

/-! ## Matrix operands in memory (R163) -/

/-- Bytes of the elements and of the scales of an operand over K. -/
def matLen (c k : Nat) : Nat :=
  if matPf4 c then k / 32 * 64 * 18 else if matMx c then k / 32 * 256 * eltBits (matElt c)
  else k * 8 * eltBits (matElt c)
def matScaleLen (c k : Nat) : Nat := if matMx c then k / 32 * 64 else 0

/-- Value at row or column i and depth k of an operand whose element bytes and scale bytes are given as
little-endian numbers. -/
def matValue (c : Nat) (els scs : Nat) (i k : Nat) : XVal :=
  if matPf4 c then pf4Value (els / 2 ^ (8 * 18 * (k / 32 * 64 + i)) % 2 ^ 144) (k % 32)
  else if matMx c then
    let w := eltBits (matElt c)
    mxValue c (elem 8 scs (k / 32 * 64 + i))
      (els / 2 ^ (8 * (k / 32 * 256 * w + i * 4 * w) + w * (k % 32)) % 2 ^ w)
  else eltDecode (matElt c) (elem (eltBits (matElt c)) els (k * 64 + i))

/-! ## Quantisation to blocks (R121, R160) -/

/-- floor(log2 |x|) of a finite nonzero value. -/
def xlog (v : XVal) : Int :=
  match v with
  | .fin _ m e => e + (Nat.log2 m : Int)
  | _ => 0
/-- Whether a value is finite, and whether it is nonzero. -/
def xfinite : XVal → Bool
  | .fin _ _ _ => true | _ => false
def xnonzero : XVal → Bool
  | .fin _ m _ => m != 0 | _ => true
/-- The greatest floor(log2) over the nonzero values, if any. -/
def amaxLog (l : List XVal) : Option Int :=
  l.foldl (fun a v => if xfinite v && xnonzero v then
    (match a with | none => some (xlog v) | some y => some (max y (xlog v))) else a) none
/-- emax of an MX target (R121). -/
def mxEmax (c : Nat) : Int :=
  match c with
  | 9 => 8 | 10 => 15 | 11 => 4 | 12 => 2 | 13 => 2 | _ => 0

/-- Quantises 32 values, each with its draw, to a block of code c: element encodings, scale byte, the
PF4 sub-scale byte, and the flags (R121). The zero elements of an all-zero, NaN or infinite block are +0
(log entry 60). -/
def quantBlock (c rm : Nat) (l : List (XVal × Nat)) : List Nat × Nat × Nat × Flags5 :=
  let vs := l.map Prod.fst
  if vs.any (fun v => !xfinite v) then (List.replicate 32 0, 0xFF, 0, fNV)
  else
    match amaxLog vs with
    | none => (List.replicate 32 0, 0, 0xFF, 0)
    | some e =>
      if c = 15 then
        let x := (min (max (e - 2 + 127) 0) 254)
        let sg (g : Nat) : Nat :=
          match amaxLog ((vs.drop (8 * g)).take 8) with
          | none => 3
          | some eg => (min 3 (e - eg)).toNat
        let r := l.zipIdx.map (fun p =>
          roundTo .e2m1 rm p.1.2 true (xscale p.1.1 (127 + (sg (p.2 / 8) : Int) - x)))
        (r.map Prod.fst, x.toNat, sg 0 + 4 * sg 1 + 16 * sg 2 + 64 * sg 3,
          r.foldl (fun f p => f ||| p.2) 0)
      else
        let x := (min (max (e - mxEmax c + 127) 0) 254)
        let up : Int := if c = 14 then 6 else 0
        let r := l.map (fun p => roundTo (matElt c) rm p.2 true (xscale p.1 (127 + up - x)))
        (r.map Prod.fst, x.toNat, 0, r.foldl (fun f p => f ||| p.2) 0)

/-- Packs two quantised blocks into a vector register as R160 lays them out. -/
def packBlocks (c : Nat) (a b : List Nat × Nat × Nat × Flags5) : Vec :=
  if c = 15 then
    let one (q : List Nat × Nat × Nat × Flags5) : Nat := packE 4 q.1 + 2 ^ 128 * q.2.1 + 2 ^ 136 * q.2.2.1
    BitVec.ofNat 2048 (one a + 2 ^ 144 * one b)
  else
    let w := eltBits (matElt c)
    BitVec.ofNat 2048 (packE w (a.1 ++ b.1) + 2 ^ (64 * w) * (a.2.1 + 256 * b.2.1))

/-- Element i of two blocks of code c held in a vector register (VDQ). -/
def unpackBlock (c : Nat) (v : Vec) (i : Nat) : XVal :=
  if c = 15 then pf4Value (v.toNat / 2 ^ (144 * (i / 32)) % 2 ^ 144) (i % 32)
  else
    let w := eltBits (matElt c)
    mxValue c (v.toNat / 2 ^ (64 * w + 8 * (i / 32)) % 256) (elem w v.toNat i)

/-! ## Long accumulators (R133-R138) -/

/-- The signed value of V. -/
def lval (l : LAcc) : Int := l.v.toInt
/-- The finite range: bits 319 and 318 equal. -/
def lfits (x : Int) : Bool := -(2 ^ 318 : Int) ≤ x && x < (2 ^ 318 : Int)

/-- A value as a multiple of 2^−170, truncated toward zero (R134). -/
def toTerm (neg : Bool) (m : Nat) (e : Int) : Int :=
  let k : Int := e + 170
  let q : Nat := if 0 ≤ k then m * 2 ^ k.toNat else m / 2 ^ (-k).toNat
  if neg then -(q : Int) else (q : Int)

/-- Adds an exact integer multiple of 2^−170 (Table 5-8). -/
def ladd (l : LAcc) (x : Int) : LAcc :=
  if l.sp = .fin then
    let y := lval l + x
    if lfits y then { v := BitVec.ofInt 320 y, sp := .fin }
    else { v := 0, sp := if y < 0 then .ninf else .pinf }
  else l

/-- Adds a term (R134, Table 5-8). -/
def laddX (l : LAcc) (v : XVal) : LAcc :=
  match v with
  | .nan => { v := 0, sp := .nan }
  | .inf neg =>
    match l.sp with
    | .fin => { v := 0, sp := if neg then .ninf else .pinf }
    | .pinf => if neg then { v := 0, sp := .nan } else l
    | .ninf => if neg then l else { v := 0, sp := .nan }
    | .nan => l
  | .fin neg m e => ladd l (toTerm neg m e)

/-- The value an accumulator reads out as: an exact zero is +0 (R137). -/
def lread (l : LAcc) : XVal :=
  match l.sp with
  | .nan => .nan
  | .pinf => .inf false
  | .ninf => .inf true
  | .fin => .fin (decide (lval l < 0)) (lval l).natAbs (-170)

/-- The 40-byte long form (R138). -/
def lform (l : LAcc) : List Byte :=
  leBytes 40 (match l.sp with
    | .fin => l.v.toNat
    | .pinf => 2 ^ 318
    | .ninf => 2 ^ 318 + 2 ^ 316
    | .nan => 2 ^ 318 + 2 ^ 317)

/-- The accumulator a long form stands for (R138). -/
def lparse (bs : List Byte) : LAcc :=
  let n := leNat bs
  match elem 2 n 159, elem 2 n 158 with
  | 1, 0 => { v := 0, sp := .pinf }
  | 1, 1 => { v := 0, sp := .ninf }
  | 1, _ => { v := 0, sp := .nan }
  | 2, _ => { v := 0, sp := .nan }
  | _, _ => { v := BitVec.ofNat 320 n, sp := .fin }

/-- Adds a long-form addend (R138). -/
def laddL (l m : LAcc) : LAcc :=
  match m.sp with
  | .fin => ladd l (lval m)
  | .pinf => laddX l (.inf false)
  | .ninf => laddX l (.inf true)
  | .nan => laddX l .nan

end Sys2Proof.Machine
end

