-- ==== Sys2Proof/Machine/Tiles.lean ====
section
/-! DEFINITION. Tiles and the logical grid (04_tiles_and_grid): placement, tile states and commands,
launch, results in flight, traps, stops and drains, degraded rows and patch-tile engagement (R493). -/

namespace Sys2Proof.Machine

abbrev Res : Type := Host.Outcome State Fault Refusal

/-! ## Locks on page writes (R509) -/

/-- Whether the page of an instance is locked. -/
def State.locked (s : State) (blk inst : Nat) : Bool := (s.reg blk inst oPAGE_LOCK).getLsbD 0

/-- A write that a lock makes ignored. -/
def State.lockedWrite (s : State) (blk inst off : Nat) (v : W32) : State :=
  (s.count bERR 0 0xC40 1).raise bERR 0 6 (BitVec.ofNat 32 (rk blk inst off)) v

/-- A page write to a lockable offset: ignored under lock, else its effect. -/
def State.pageWrite (s : State) (blk inst off : Nat) (v : W32) (k : State → State) : State :=
  if s.locked blk inst then s.lockedWrite blk inst off v else k s

/-! ## Placement (R94-R96) -/

def tileRow (t : Nat) : Nat := t / 36
def tileCol (t : Nat) : Nat := t % 36
/-- Compute die, die row n = die × 20 + prow, and die column of a logical tile. -/
def tileDie (t : Nat) : Nat := tileRow t / 20 * 2 + tileCol t / 18
def tileN (t : Nat) : Nat := tileDie t * 20 + tileRow t % 20
def tileLc (t : Nat) : Nat := tileCol t % 18
/-- The fabric die that serves a tile: 0 for CD0 and CD1, 1 for CD2 and CD3. -/
def tileFd (t : Nat) : Nat := tileDie t / 2
/-- The logical tile at die row n and die column lc. -/
def tileAt (n lc : Nat) : Nat :=
  let die := n / 20
  (die / 2 * 20 + n % 20) * 36 + die % 2 * 18 + lc

/-- Retired column of a die row, 31 for none (Table 4-15), and the second. -/
def State.retired (s : State) (n : Nat) : Nat := mget 31 s.ident.map n
def State.second (s : State) (n : Nat) : Nat := mget 31 s.ident.second n
def State.degraded (s : State) (n : Nat) : Bool := s.second n != 31

/-- Physical column of a logical tile (R95). -/
def State.physCol (s : State) (t : Nat) : Nat :=
  if s.retired (tileN t) ≤ tileLc t then tileLc t + 1 else tileLc t
/-- TILE_PHYS and TEST_TILE_SEL layout of a physical tile. -/
def physCode (die row col : Nat) : W32 := BitVec.ofNat 32 (die + row * 4 + col * 128)
/-- Logical tiles available (R103). -/
def State.gridAvail (s : State) : Nat := 1440 - 18 * ((List.range 80).filter s.degraded).length

/-- Neighbour of a tile, if it has one there (R97). -/
def neighbour (t : Nat) : Dir → Option Nat
  | .north => if tileRow t = 0 then none else some (t - 36)
  | .south => if tileRow t = 39 then none else some (t + 36)
  | .west => if tileCol t = 0 then none else some (t - 1)
  | .east => if tileCol t = 35 then none else some (t + 1)
/-- The input a beat sent in a direction comes on. -/
def opposite : Dir → Dir
  | .north => .south | .south => .north | .east => .west | .west => .east
/-- Latency of a hop in GCLK (R97). -/
def hopLatency (t : Nat) (d : Dir) : Nat :=
  match neighbour t d with
  | some u => if tileDie u = tileDie t then 1 else 4
  | none => 1

/-! ## Owners and states -/

/-- Launch group (TILE_GROUP). -/
def State.tileGroup (s : State) (t : Nat) : Nat := s.fld bTILE t 0x054 0 11
/-- The tiles the module holds a record of, by index. -/
def State.tileIds (s : State) : List Nat := s.tiles.map Prod.fst
/-- The tiles of a launch group. -/
def State.groupTiles (s : State) (g : Nat) : List Nat :=
  s.tileIds.filter (fun t => s.tileGroup t == g && (s.tileOwner t).isSome)
/-- The tiles a partition holds, by index. -/
def State.partTiles (s : State) (p : Nat) : List Nat :=
  (List.range 1440).filter (fun t => s.tileOwner t == some p)

/-- Whether a test segment runs on the tile's silicon. -/
def State.testing (s : State) (t : Nat) : Bool := (s.ptest (tileN t) (s.physCol t)).segment.isSome

/-- Whether a tile's clocks are stopped in state M2 (R77, Table 4-6). -/
def State.gated (s : State) (t : Nat) : Bool :=
  let x := s.tile t
  s.pwr.state == 2 && (x.run == .idle || x.run == .done || x.run == .trapped) && !x.clearing &&
    !s.testing t

/-- RUNSTATE code (Table 4-6). -/
def runCode : Run → Nat
  | .idle => 0 | .armed => 1 | .running => 2 | .stopping => 3 | .stopped => 4 | .done => 5
  | .trapped => 6 | .gated => 7 | .held => 8 | .unavailable => 9

/-- TILE STATE (Table 4-9). -/
def State.tileState (s : State) (t : Nat) : W32 :=
  let x := s.tile t
  BitVec.ofNat 32 ((if s.gated t then 7 else runCode x.run) + 16 * x.mode.toNat
    + 32 * (x.waitExt && x.waitFor.isSome).toNat + 64 * x.clearing.toNat)

/-- States in which a group counts as active (R182, R187). -/
def activeRun (r : Run) : Bool := r == .armed || r == .running || r == .stopping || r == .held
/-- Whether a launch group has a tile armed, running, stopping or held. -/
def State.groupActive (s : State) (g : Nat) : Bool :=
  (s.groupTiles g).any (fun t => activeRun (s.tile t).run || (s.tile t).armPending)

/-- The count of GCLK edges begins when a group's last active tile leaves those states (R182); `was` is the
state before. -/
def State.noteGroup (s : State) (was : State) (g : Nat) : State :=
  if was.groupActive g && !s.groupActive g then
    s.setGroup g { s.group g with idle := some 0, part := ((s.groupTiles g).head?.bind s.tileOwner).getD (s.group g).part }
  else s
/-- Whether a group has no active tile and 512 GCLK have passed since the last of them left (R182, R200). -/
def State.groupQuiet (s : State) (g : Nat) : Bool :=
  !s.groupActive g && match (s.group g).idle with | some n => decide (512 ≤ n) | none => true

/-- A segment running on a tile's silicon is abandoned (R489). -/
def State.abandonTest (s : State) (t : Nat) : State :=
  if s.testing t then
    let r := s.ptest (tileN t) (s.physCol t)
    (s.setPtest (tileN t) (s.physCol t) { r with segment := none }).count bTEST 0 0xC18 1
  else s

/-! ## Results in flight (R145, R146) -/

/-- Order of landing: by ACLK, a clear before a set in the same ACLK (R149), then issue order. -/
def flightKey (f : Flight) : Nat :=
  match f.land with
  | .csrClear _ _ => 2 * f.due
  | _ => 2 * f.due + 1
/-- Puts a result in flight at its place. -/
def addFlight (f : Flight) : List Flight → List Flight
  | [] => [f]
  | g :: l => if flightKey f < flightKey g then f :: g :: l else g :: addFlight f l
/-- Puts a result in flight on a tile. -/
def Tile.fly (x : Tile) (due : Nat) (l : Land) : Tile := { x with flight := addFlight ⟨due, l⟩ x.flight }

/-- Per 256-byte line of a range from `a`, the old or the current bytes, free where they differ. -/
def State.eitherLines (s : State) (a k : Nat) (old cur : List Byte) : List Byte :=
  (old.zip cur).zipIdx.map (fun p =>
    if s.freeBit ((a + p.2) / 256 * 8 + k) then p.1.2 else p.1.1)

/-- Adds one instruction's products to L over blocks of 32 values of k (R130, R134). Within a block the sum
of the finite products is range-checked first, and the special products are applied after it (log entry 58). -/
def macAcc (l : LAcc) (av bv : Nat → XVal) (k : Nat) : LAcc :=
  let ps := (List.range k).map (fun i => (xmul (av i) (bv i)).1)
  let rec blocks : Nat → List XVal → LAcc → LAcc
    | 0, _, l => l
    | n + 1, ps, l =>
      let b := ps.take 32
      let fin := b.foldl (fun t v => match v with | .fin ng m e => t + toTerm ng m e | _ => t) (0 : Int)
      let l1 := if fin = 0 then l else ladd l fin
      blocks n (ps.drop 32) (b.foldl (fun l v => match v with | .fin _ _ _ => l | v => laddX l v) l1)
  blocks (k / 32 + 1) ps l

/-- L += A × B over all 4,096 elements. -/
def Tile.macAll (x : Tile) (av bv : Nat → Nat → XVal) (k : Nat) : Tile :=
  (List.range 4096).foldl (fun x e =>
    x.setLacc e (macAcc (x.lacc e) (av (e / 64)) (bv (e % 64)) k)) x

/-- Bytes of a tile's own SRAM. -/
def State.sram (s : State) (t a n : Nat) : List Byte := s.peek (sramAt t a) n

/-- One result lands on its tile. -/
def State.landFlight (s : State) (t : Nat) (l : Land) : State :=
  match l with
  | .s r v => s.updTile t (fun x => x.setS r v)
  | .v r v m => s.updTile t (fun x => x.setV r (merge (x.vreg r) v m))
  | .p r v => s.updTile t (fun x => x.setP r v)
  | .nstat f => s.updTile t (fun x => { x with nstat := x.nstat ||| f })
  | .csr 0 v => s.updTile t (fun x => { x with nstat := v.setWidth 5 })
  | .csr _ v => s.updTile t (fun x => { x with xerr := v.setWidth 17 })
  | .csrClear 0 v => s.updTile t (fun x => { x with nstat := x.nstat &&& ~~~(v.setWidth 5) })
  | .csrClear _ v => s.updTile t (fun x => { x with xerr := x.xerr &&& ~~~(v.setWidth 17) })
  | .tally k m own =>
    let s1 := s.updTile t (fun x =>
      let y := x.incTally k
      if m then { y with marks := mset false y.marks k true } else y)
    match own with
    | some o => s1.unsoft o
    | none => s1
  | .mem a bs => s.pokeMask a bs
  | .memBusy a bs => s.pokeMask a bs
  | .mma fa fb ab asc bb bsc k ao aso bo bso =>
    let get (i base : Nat) (old : List Byte) : Nat :=
      leNat (s.eitherLines base i old (s.sram t base old.length))
    let a := get 0 ab ao
    let as_ := get 1 asc aso
    let b := get 2 bb bo
    let bs := get 3 bsc bso
    (s.updTile t (fun x => x.macAll (fun i q => matValue fa a as_ i q) (fun j q => matValue fb b bs j q) k)).freshen
  | .mmavCut va nv => s.updTile t (fun x =>
    let now := (List.range nv).map (fun i => x.vreg (va + i))
    { x with flight := x.flight.map (fun f =>
        match f.land with
        | .mmav fa fb v n ao _ bb k bo => if v = va && n = nv then { f with land := .mmav fa fb v n ao (some now) bb k bo } else f
        | _ => f) })
  | .mmav fa fb va nv ao cut bb k bo =>
    let w := eltBits (matElt fa)
    let an := cut.getD ((List.range nv).map (fun i => (s.tile t).vreg (va + i)))
    let pack (l : List Vec) : Nat := packE 2048 (l.map BitVec.toNat)
    let oldA := pack ao
    let newA := if (s.tile t).mode then oldA else pack an
    let panel (q : Nat) : Nat := elem (64 * w) (if s.freeBit (q * 8 + 4) then newA else oldA) q
    let b := leNat (s.eitherLines bb 2 bo (s.sram t bb bo.length))
    (s.updTile t (fun x => x.macAll (fun i q => eltDecode (matElt fa) (elem w (panel q) i))
      (fun j q => matValue fb b 0 j q) k)).freshen

/-- Lands a list of results in order. -/
def State.landAllOf (s : State) (t : Nat) : List Flight → State
  | [] => s
  | f :: l => (s.landFlight t f.land).landAllOf t l

/-- Takes the results a condition picks out of flight and lands them in order. -/
def State.landIf (s : State) (t : Nat) (p : Flight → Bool) : State :=
  let x := s.tile t
  (s.setTile t { x with flight := x.flight.filter (fun f => !p f) }).landAllOf t (x.flight.filter p)

/-- Whether a result in flight is a tally's increment, a store's bytes. -/
def Flight.isTally (f : Flight) : Bool := match f.land with | .tally .. => true | _ => false
def Flight.isMem (f : Flight) : Bool := match f.land with | .mem .. => true | .memBusy .. => true | _ => false

/-- Lands every result due by an ACLK; an increment that arrives in that very ACLK waits for the operations
of the bundle that issues in it (R181). -/
def State.landUpTo (s : State) (t a : Nat) : State :=
  s.landIf t (fun f => if f.isTally then f.due < a else f.due ≤ a)
/-- The increments that arrive by an ACLK, that ACLK included (R181). -/
def State.landTallies (s : State) (t a : Nat) : State := s.landIf t (fun f => f.isTally && f.due ≤ a)
/-- The stores whose bytes are in tile SRAM by an ACLK. -/
def State.landMem (s : State) (t a : Nat) : State := s.landIf t (fun f => f.isMem && f.due ≤ a)

/-- Lands every result in flight (R171, R156). -/
def State.landRest (s : State) (t : Nat) : State := s.landIf t (fun _ => true)

/-! ## Traps (R171) -/

/-- A tile is held with no program running: TILE_STOP_PC names the bundle and EVENTS.STOPPED is set
(Tables 4-10 and 4-11). -/
def State.noteHeld (s : State) (t : Nat) : State :=
  (s.setReg bTILE t 0x060 (BitVec.ofNat 32 ((s.tile t).pc % 16384))).raise bTILE t 1

/-- A tile traps: results in flight still land, far loads of earlier bundles too, a pending STOP or hold
request ends, TILE_TRAP and EVENTS.TRAP are written. A tile with a pending engagement is held as it stands
(R493). -/
def State.trapTile (s : State) (t cause idx : Nat) : State :=
  let s1 := s.landRest t
  let x := s1.tile t
  let s2 := s1.setTile t { x with
    run := if x.holdReq then .held else .trapped, heldFrom := if x.holdReq then some .trapped else x.heldFrom,
    stopReq := false, holdReq := false, slots := [], waitFor := none, waitExt := false,
    sramPend := false }
  let s3 := (s2.setReg bTILE t 0x05C (BitVec.ofNat 32 (cause + idx % 16384 * 256))).raise bTILE t 2
    (BitVec.ofNat 32 (cause + idx % 16384 * 256))
  (if x.holdReq then s3.noteHeld t else s3).noteGroup s (s3.tileGroup t)

/-! ## Retirement (R101-R103, R491, R493) -/

/-- Holds a tile for engagement: at its next boundary when its program runs, else at once (R493). -/
def Tile.hold (x : Tile) : Tile :=
  match x.run with
  | .running => { x with holdReq := true }
  | .stopping => { x with holdReq := true }
  | .unavailable => x
  | .held => x
  | r => { x with heldFrom := some r, run := .held }
def State.holdTile (s : State) (t : Nat) : State :=
  let s1 := s.updTile t Tile.hold
  if (s.tile t).run != .held && (s1.tile t).run == .held then s1.noteHeld t else s1

/-- The tiles of a die row from a column on. -/
def rowTiles (n lc : Nat) : List Nat := (List.range 18).filter (lc ≤ ·) |>.map (tileAt n)

/-- A tile's program is stopped at its next boundary on account of a degraded row (R102). -/
def Tile.stopProg (x : Tile) : Tile :=
  if x.run = .running then { x with stopReq := true, run := .stopping } else x

/-- A die row becomes degraded: its tiles trap with cause 0x43 and become unavailable, the partitions
that hold them are stopped, and the row's second retired column is recorded (R102). -/
def State.degradeRow (s : State) (n col : Nat) : State :=
  let ts := rowTiles n 0
  let ps := ts.filterMap s.tileOwner
  let s1 := ({ s with ident := { s.ident with second := mset 31 s.ident.second n col } } : State).saveMap
  let s2 := ts.foldl (fun s t =>
    let r := (s.tile t).run
    let s := if r = .running || r = .stopping || r = .stopped || r = .armed || r = .held then
      s.trapTile t 0x43 (s.tile t).pc else s
    (s.updTile t (fun x => { x with run := .unavailable, heldFrom := none, holdReq := false })).noteGroup s
      (s.tileGroup t)) s1
  let s3 := s2.tileIds.foldl (fun s t =>
    if (ps.map some).contains (s.tileOwner t) then s.updTile t Tile.stopProg else s) s2
  let s4 := { s3 with test := { s3.test with patch := merase s3.test.patch n } }
  (ps.foldl (fun l p => if l.contains p then l else l ++ [p]) []).foldl
    (fun s p => s.raise bPART p 3 (BitVec.ofNat 32 n))
    ((s4.raise bGRID 0 0 (BitVec.ofNat 32 n)).raise bGRID 0 1 (BitVec.ofNat 32 n))

/-- A physical tile is condemned (R491, R493): a used column in a row with no retirement makes its
patch tile engage, an unused patch tile is retired as column 18, and a second retirement degrades the
row. -/
def State.condemn (s : State) (n col : Nat) : State :=
  let r := s.ptest n col
  if r.condemned || r.retired || s.degraded n then s
  else
    let s1 := (s.setPtest n col { r with condemned := true }).raise bTEST 0 1 (physCode (n / 20) (n % 20) col)
    if s.retired n != 31 || (mget (31, false) s.test.patch n).1 != 31 then
      (s1.setPtest n col { r with condemned := true, retired := true }).degradeRow n col
    else if col = 18 then
      let s2 := s1.setPtest n col { r with condemned := true, retired := true }
      ({ s2 with ident := { s2.ident with map := mset 31 s2.ident.map n 18 } } : State).saveMap.raise bGRID 0 0
        (BitVec.ofNat 32 n)
    else
      let s2 := { s1 with test := { s1.test with patch := mset (31, false) s1.test.patch n (col, false) } }
      (rowTiles n col).foldl (fun s t => (s.abandonTest t).holdTile t) s2

/-- Condemns the silicon of a logical tile. -/
def State.condemnTile (s : State) (t : Nat) : State := s.condemn (tileN t) (s.physCol t)

/-! ## Corrected errors of tile memory (R90, R93, R491) -/

/-- 24 hours in alignment periods. -/
def dayPeriods : Nat := 24 * 3600 * 168750000

/-- Notes a corrected error of a tile's memory in the 24-h record of its silicon (R491). -/
def State.noteTileCe (s : State) (t : Nat) (im : Bool) : State :=
  let r := s.ptest (tileN t) (s.physCol t)
  let add (l : List Nat) : List Nat := l.filter (fun a => s.align < a + dayPeriods) ++ [s.align]
  s.setPtest (tileN t) (s.physCol t) (if im then { r with imCe := add r.imCe } else { r with sramCe := add r.sramCe })

/-- A read corrects the SRAM word at physical address w: counted, captured, noted (R90). -/
def State.sramCe (s : State) (w : Nat) : State :=
  let t := sramTile w
  (((s.count bTILE t 0xC20 1).count bERR 0 0xC00 1).raise bTILE t 3 (BitVec.ofNat 32 ((w - sramBase0) % 0x800000))).noteTileCe
    t false

/-! ## Clearing, abort -/

/-- Clears a tile's SRAM, instruction memory, registers, accumulators and tallies (R105). -/
def State.clearTile (s : State) (t : Nat) : State :=
  let x := s.tile t
  let s1 := (s.wipe (sramAt t 0) (sramAt (t + 1) 0)).wipe (imAt t 0) (imAt (t + 1) 0)
  s1.setTile t { ({} : Tile) with
    run := match x.run with | .unavailable => .unavailable | .held => .held | _ => .idle
    heldFrom := if x.run = .held then some .idle else none
    clearing := true, phys := x.phys, outMsgs := x.outMsgs }

/-- A receiver of a mailbox direction is reset: an unread message is discarded and RRESET is set at the
sender (R412). -/
def State.resetReceiver (s : State) (ch : Chan) (toFw : Bool) : State :=
  let m := s.mb ch toFw
  if m.full then s.setMb ch toFw { m with full := false, rreset := true } else s

/-- A message whose first beats have left is discarded with the beats still to come (R108): those on their
way end where they arrive, uncounted. -/
def State.cutHead (s : State) (t : Nat) : State :=
  let x := s.tile t
  match x.injq with
  | m :: _ =>
    if m.sent = 0 then s
    else
      let away := s.beats.any (fun b => b.src == t && b.id == x.msgId)
      let l : Landing := { src := t, id := x.msgId, dst := 0, len := m.len, tally := m.tally, mark := false,
                           beats := [], left := 0, dead := some false }
      let s1 := s.updTile m.dstTile (fun y => { y with
        landing := y.landing.filter (fun l => !(l.src == t && l.id == x.msgId)) ++ (if away then [l] else []) })
      if away then s1.updTile t (fun y => { y with outMsgs := y.outMsgs + 1 }) else s1
  | [] => s

/-- ABORT on a tile (R108, R109): registers and tallies are cleared, the tile is idle; messages already
injected still land; accepted copy requests still complete, their increments discarded, and parked
ones fail at once. The program's results and stores still in flight, its pending XMOVs and far loads, the
messages not yet begun and the rest of the head message are discarded (log entry 52). A held tile ends idle
(Table 4-7). -/
def State.abortTile (s : State) (t : Nat) : State :=
  let x := s.tile t
  match x.run with
  | .unavailable => s.raise bTILE t 6
  | .idle => s
  | .gated => s
  | _ =>
    if s.gated t then s
    else
      let s1 := (s.abandonTest t).cutHead t
      let s2 := s1.setTile t { ({} : Tile) with
        run := .idle, phys := x.phys, measured := x.measured, outMsgs := (s1.tile t).outMsgs, landing := x.landing
        msgId := x.msgId + 1, lag := x.lag, eng := x.eng
        copies := (s1.jobs.filter (fun (j : CopyJob) => j.from_ = CopyFrom.tile t && !j.parked)).length }
      let js := s2.jobs.filterMap (fun (j : CopyJob) =>
          if j.from_ = CopyFrom.tile t then (if j.parked then none else some { j with tally := none }) else some j)
      let fs := s2.faults.map (fun (f : FaultEntry) =>
        { f with streams := f.streams.filter (fun q => match q with | .tileReq u _ => u != t | _ => true) })
      let ws := s2.faultWaits.filter (fun (f : FaultWait) => match f.st with | .tileReq u _ => u != t | _ => true)
      let s3 := { s2 with jobs := js, faults := fs, faultWaits := ws }
      (s3.resetReceiver (.tile t) false).noteGroup s (s3.tileGroup t)

/-! ## CTRL commands (R107, R108) -/

/-- Whether ARM is refused (R107). -/
def State.armRefused (s : State) (t : Nat) : Bool :=
  let x := s.tile t
  let g := s.tileGroup t
  !(x.run == .idle || x.run == .done || x.run == .trapped) || x.clearing || (s.tileOwner t).isNone ||
  s.tileIds.any (fun u => s.tileGroup u == g && s.tileOwner u != s.tileOwner t &&
    (s.tileOwner u).isSome && ((s.tile u).run == .armed || (s.tile u).run == .running))

/-- ARM: a gated tile starts ungating, else the tile is armed. -/
def State.armTile (s : State) (t : Nat) : State :=
  if s.armRefused t then s.raise bTILE t 6
  else
    let g := s.gated t
    let s1 := s.abandonTest t
    if g then s1.updTile t (fun x => { x with armPending := true })
    else s1.updTile t (fun x => { x with run := .armed, armPending := false })

/-- STOP (R108): in stopping, stopped or held it has no further effect. -/
def State.stopTile (s : State) (t : Nat) : State :=
  match (s.tile t).run with
  | .running => s.updTile t (fun x => { x with run := .stopping, stopReq := true })
  | .stopping => s
  | .stopped => s
  | .held => s
  | _ => s.raise bTILE t 6

/-- RESUME (R108, R197): the next bundle waits for the slot phase. -/
def State.resumeTile (s : State) (t : Nat) : State :=
  match (s.tile t).run with
  | .stopped => s.updTile t (fun x => { x with run := .running, stopReq := false, waitFor := some .phase })
  | _ => s.raise bTILE t 6

def execTileCtrlArm (t : Nat) (s : State) : Res :=
  .next (if tileOk t then s.pageWrite bTILE t oCTRL 1 (·.armTile t) else s)
def execTileCtrlStop (t : Nat) (s : State) : Res :=
  .next (if tileOk t then s.pageWrite bTILE t oCTRL 2 (·.stopTile t) else s)
def execTileCtrlResume (t : Nat) (s : State) : Res :=
  .next (if tileOk t then s.pageWrite bTILE t oCTRL 4 (·.resumeTile t) else s)
/-- CTRL.ABORT is never locked (R509). -/
def execTileCtrlAbort (t : Nat) (s : State) : Res :=
  .next (if tileOk t then s.abortTile t else s)

/-! ## Launch (R106, R185) -/

/-- Whether a tile takes part in its group's launch, the present one or the one to come. -/
def State.inLaunch (s : State) (t : Nat) : Bool :=
  let x := s.tile t
  activeRun x.run || x.run == .stopped || x.armPending
/-- Whether every tile that takes part in a group's launch has one TILE_MODE, which every link the group owns runs
in (R184). -/
def State.oneMode (s : State) (g : Nat) : Bool :=
  let mode (t : Nat) : Bool := (s.reg bTILE t 0x044).getLsbD 0
  match (s.groupTiles g).filter s.inLaunch with
  | [] => true
  | t :: ts =>
    ts.all (fun u => mode u == mode t) &&
    s.links.all (fun l => !(l.2.owned && l.2.group == g && some l.2.part == s.tileOwner t) || l.2.steady == mode t)

/-- GRID_LAUNCH names a group: one without an armed tile has no effect, and firmware launches only a group of
one mode (R107, R184). -/
def State.gridLaunch (s : State) (g : Nat) : State :=
  if !(s.groupTiles g).any (fun t => (s.tile t).run == .armed) then s.raise bGRID 0 2
  else if s.oneMode g then s.setGroup g { s.group g with launchAt := some s.align }
  else s

def execGridLaunch (v : W32) (s : State) : Res :=
  .next (s.pageWrite bGRID 0 0x184 v (·.gridLaunch (bitsAt v.toNat 0 11)))

/-- Ungating ends, and the pending ARM moves the tile to armed (R107). Firmware names the group of a TILE_LAUNCH
once one of its tiles is armed. -/
def execUngateDone (t : Nat) (s : State) : Res :=
  .next (if (s.tile t).armPending then
    let s1 := s.updTile t (fun x => { x with run := .armed, armPending := false })
    let g := s.group (s.tileGroup t)
    if g.entry.isSome && g.launchAt.isNone then s1.gridLaunch (s.tileGroup t) else s1
  else s)

/-- Lines still in the landing buffer from before a launch: those complete are written (R178). -/
def State.flushLanding (s : State) (t : Nat) : State :=
  (s.tile t).landing.foldl (fun s l =>
    l.lines.foldl (fun s n =>
      if n.full.isSome then n.cells.foldl (fun s c => s.poke (sramAt t c.1) [c.2]) s else s) s) s

/-- An armed tile begins its program: entry bundle next, the counters of the launch at 0. -/
def State.launchTile (s : State) (t : Nat) : State :=
  ((s.abandonTest t).flushLanding t).updTile t (fun x => { x with
    landing := x.landing.map (fun l => { l with lines := [], dead := some (l.dead.getD false) })
    soiled := false, lag := 0, eng := 0, joinG := 0, roomAt := 0
    run := .running, mode := (s.reg bTILE t 0x044).getLsbD 0, pc := s.fld bTILE t 0x040 0 14
    stepcnt := 0, sre := 0, cycle := 0, extwait := 0, aclk := 0, loops := [], flag := false
    flight := [], mbusy := 0, own0 := 0, ownW := 0, rp0 := [], rp1 := [], wp := [], mIss := 0, mc := 0
    mNext := 0, m0 := 0, m1 := 0, mg := 0, slots := [], waitFor := none, waitExt := false
    sramPend := false, stopReq := false })

/-- The group's launch: every armed tile issues its entry bundle in one period; its wave masks come into
force and its slot counter starts at 0. -/
def State.launchGroup (s : State) (g : Nat) : State :=
  let ts := (s.groupTiles g).filter (fun t => (s.tile t).run == .armed)
  let p := (ts.head?.bind s.tileOwner).getD 0
  let live := (List.range 16).foldl (fun m w => mset 0xF m w (s.wave p w)) []
  let s1 := s.setGroup g { s.group g with
    gclk := 0, counting := true, launchAt := none, part := p, live := live, idle := none }
  ts.foldl (fun s t => s.launchTile t) s1

/-! ## Drains, holds and engagement (R156, R197, R493) -/

/-- Whether everything a tile started has finished. -/
def Tile.drained (x : Tile) : Bool :=
  x.injq.isEmpty && x.outMsgs == 0 && x.copies == 0 && x.xmovs.isEmpty && x.far.isEmpty

/-- The drain after a boundary ends: the tile is held if an engagement waits for it, else stopped. -/
def State.drainDone (s : State) (t : Nat) : State :=
  let s1 := s.landRest t
  let x := s1.tile t
  let s2 := s1.setTile t { x with
    run := if x.holdReq then .held else .stopped
    heldFrom := if x.holdReq then some (if x.stopReq then .stopped else .running) else none
    holdReq := false, stopReq := false, waitFor := none, waitExt := false }
  (s2.noteHeld t).noteGroup s (s2.tileGroup t)

def execDrainDone (t : Nat) (s : State) : Res :=
  .next (if (s.tile t).waitFor == some .stepDrain && (s.tile t).drained then s.drainDone t else s)

/-- The shift of a row begins once every affected tile is held; one that has no program, as after an ABORT,
is held at once (R493). -/
def execPatchEngage (die row : Nat) (s : State) : Res :=
  let n := die * 20 + row
  let c := mget (31, false) s.test.patch n
  .next (if die < 4 && row < 20 && c.1 != 31 && !c.2 &&
      (rowTiles n c.1).all (fun t => (s.tile t).run != .running && (s.tile t).run != .stopping) then
    (rowTiles n c.1).foldl (fun s t => (s.abandonTest t).holdTile t)
      { s with test := { s.test with patch := mset (31, false) s.test.patch n (c.1, true) } } else s)

/-- The external flag is set (R188). -/
def Tile.setFlag (x : Tile) : Tile := { x with flag := true, soiled := true }

/-- A held tile goes on as it was: a running one waits for its slot phase with its external flag set. -/
def Tile.unhold (x : Tile) : Tile :=
  match x.run, x.heldFrom with
  | .held, some .running => { x.setFlag with run := .running, heldFrom := none, waitFor := some .phase }
  | .held, some r => { x with run := r, heldFrom := none }
  | _, _ => x
/-- A held tile whose state could not be read traps with cause 0x42 if it holds a program (R102). -/
def State.unholdLost (s : State) (t : Nat) : State :=
  let x := s.tile t
  match x.run, x.heldFrom with
  | .held, some r =>
    if r = .running || r = .stopped || r = .armed then
      ((s.updTile t (fun x => { x with heldFrom := none, holdReq := false })).trapTile t 0x42 x.pc)
    else s.updTile t Tile.unhold
  | _, _ => s

/-- The shift ends: repair map, GRID_ROW_MAP, TILE_PHYS and the signed record are written. -/
def execPatchMoveDone (die : Nat) (e : MoveEnd) (s : State) : Res :=
  let n := die * 20 + e.row
  let c := mget (31, false) s.test.patch n
  .next (if die < 4 && e.row < 20 && c.1 != 31 && c.2 then
    let r := s.ptest n c.1
    let s1 := s.setPtest n c.1 { r with retired := true }
    let s2 := ({ s1 with
      test := { s1.test with patch := merase s1.test.patch n }
      ident := { s1.ident with map := mset 31 s1.ident.map n c.1 } } : State).saveMap
    let s3 := (rowTiles n c.1).foldl (fun s t =>
      (if e.lost && tileLc t == c.1 then s.unholdLost t else s.updTile t Tile.unhold).raise bTILE t 7) s2
    s3.raise bGRID 0 0 (BitVec.ofNat 32 n) else s)

/-- A held or resumed tile may issue in a GCLK in which its group's slot counter equals its value at the hold
or stop: the interruption has lasted whole 256-GCLK periods (R197). -/
def execHoldRelease (t : Nat) (s : State) : Res :=
  let x := s.tile t
  let now := (s.group (s.tileGroup t)).gclk
  .next (if x.waitFor == some .phase && s.tileEdges t && now % 256 == x.slotHold % 256 then
    (s.landRest t).updTile t (fun y => { y with waitFor := none, lag := y.lag + (now - y.slotHold) }) else s)

end Sys2Proof.Machine
end

