-- ==== Sys2Proof/Machine/Slot.lean ====
section
/-! DEFINITION. What one slot of a bundle does (06_tile_instruction_set): its trap causes, the registers
it names, the SRAM ports it uses, its control transfer and its effect at issue; with the checks and the
result forms that many instructions share. -/

namespace Sys2Proof.Machine

/-- Where the tile goes after a bundle (R154-R156). -/
inductive Ctl where
  | seq
  | jump (target : Int)
  | loop (lvl len : Nat) (count : Nat)
  | step
  | endp
  deriving DecidableEq, Repr

/-- Registers by file: 0 scalar, 1 vector, 2 predicate, 3 control. -/
abbrev RegName := Nat × Nat

/-- One slot's meaning at issue. `act` is applied only when the bundle meets no trap. -/
structure SlotSem where
  causes : List Nat := []
  dest : List RegName := []
  srcs : List RegName := []
  isWait : Bool := false
  matrix : Bool := false
  /-- program accesses: port 0, 1 or 2 (write), SRAM address -/
  uses : List (Nat × Nat) := []
  inject : Bool := false
  copyReq : Bool := false
  ctl : Ctl := .seq
  act : State → State := id

/-! ## Checks -/

/-- A cause if a condition holds. -/
def when_ (b : Bool) (c : Nat) : List Nat := if b then [c] else []
/-- Reserved bits must be 0 (R144, cause 0x03). -/
def rsv (b : Bool) : List Nat := when_ b 0x03
/-- Rounding mode 5-7 (cause 0x04). -/
def rmBad (rm : BitVec 3) : List Nat := when_ (4 < rm.toNat) 0x04
/-- RM must be 0 where the instruction does not round under it (R144: 0x03). -/
def rmZero (rm : BitVec 3) : List Nat := when_ (rm != 0) 0x03
/-- A range of tile SRAM (R86, cause 0x06). -/
def inTile (a n : Nat) : Bool := n = 0 || a + n ≤ 0x800000
/-- An SRAM access of n bytes at an aligned address (causes 0x06 and 0x07). -/
def accessBad (a n : Nat) : List Nat := when_ (!(inTile a n)) 0x06 ++ when_ (a % n != 0) 0x07

/-! ## Reading through the program's own view -/

/-- Bytes an AST or MLST has not yet settled: per line, the prior or the written bytes (R165). -/
def State.busyByte (s : State) (t pa : Nat) (b : Byte) : Byte :=
  (s.tile t).flight.foldl (fun b f =>
    match f.land with
    | .memBusy a bs =>
      if a ≤ pa && pa < a + bs.length && s.freeBit (pa / 256 * 16 + 9) then ((bs.getD (pa - a) none).getD b) else b
    | _ => b) b

/-- Bytes from physical address pa as a read of the program finds them: those of an uncorrectable word are
free, the stored word or the code's best guess (R90). -/
def State.guessed (s : State) (pa : Nat) (bs : List Byte) : List Byte :=
  let ws := hits s.ue pa bs.length
  bs.zipIdx.map (fun p =>
    if ws.any (fun w => w ≤ pa + p.2 && pa + p.2 < w + 32) && s.freeBit (pa + p.2) then
      Config.freeByte s.fresh (pa + p.2) else p.1)

/-- Bytes a program load, a message or an XMOV reads from tile-local address a (R90, R165). -/
def State.progRead (s : State) (t a n : Nat) : List Byte :=
  let pa := sramAt t a
  s.guessed pa ((s.peek pa n).zipIdx.map (fun p => s.busyByte t (pa + p.2) p.1))

/-- Bytes an M-slot instruction reads from tile-local address a: it observes every effect of the M-slot
instructions before it (R165). -/
def State.matRead (s : State) (t a n : Nat) : List Byte :=
  let pa := sramAt t a
  s.guessed pa ((s.peek pa n).zipIdx.map (fun p =>
    (s.tile t).flight.foldl (fun b f =>
      match f.land with
      | .memBusy q bs => if q ≤ pa + p.2 && pa + p.2 < q + bs.length then (bs.getD (pa + p.2 - q) none).getD b else b
      | _ => b) p.1))

/-- What a program read leaves behind: a corrected word is counted, an uncorrectable one is captured,
makes the next boundary trap and condemns the tile (R90, R491). -/
def State.progReadMarks (s : State) (t a n : Nat) : State :=
  let pa := sramAt t a
  let s1 := (hits s.ce pa n).foldl State.sramCe s
  let s2 := if (hits s.ue pa n).isEmpty then s1
    else ((s1.updTile t (fun x => { x with sramPend := true })).raise bTILE t 4 (BitVec.ofNat 32 a)).condemnTile t
  s2.freshen

/-! ## Results -/

/-- Puts a result in flight with a latency from the present ACLK; in Steady mode a later write to a
register never lands before an earlier one (R145, R173). -/
def State.fly (s : State) (t lat : Nat) (l : Land) : State :=
  s.updTile t (fun x =>
    let due0 := x.aclk + lat
    let same (m : Land) : Bool :=
      match l, m with
      | .s a _, .s b _ => a == b
      | .v a _ _, .v b _ _ => a == b
      | .p a _, .p b _ => a == b
      | _, _ => false
    let due := if x.mode then x.flight.foldl (fun d f => if same f.land then max d f.due else d) due0 else due0
    x.fly due l)
/-- A scalar result. -/
def State.flyS (s : State) (t lat r : Nat) (v : W64) : State := s.fly t lat (.s r v)
/-- A vector result on the lanes of a mask. -/
def State.flyV (s : State) (t lat r : Nat) (v mask : Vec) : State := s.fly t lat (.v r v mask)
/-- A vector result of a floating-point operation: its flags reach NSTAT as it lands, whichever they are
(R158). -/
def State.flyVF (s : State) (t lat r : Nat) (v mask : Vec) (fl : Flags5) : State :=
  (s.flyV t lat r v mask).fly t lat (.nstat fl)
/-- A store: visible to a load that issues 2 or more ACLK later (R152). -/
def State.flyMem (s : State) (t a : Nat) (bs : List (Option Byte)) : State :=
  s.fly t 2 (.mem (sramAt t a) bs)

/-! ## Groups and stochastic indices -/

/-- A scalar group that runs past s63 (R148). -/
def groupBad (sn n : Nat) : List Nat := when_ (64 < sn + n) 0x0D
/-- The registers of a scalar group, as sources. -/
def groupSrc (sn n : Nat) : List RegName := (List.range n).map (fun i => (0, sn + i))

/-- The program seed (TILE_SEED_HI:TILE_SEED_LO). -/
def State.seed (s : State) (t : Nat) : W64 := s.reg bTILE t 0x050 ++ s.reg bTILE t 0x04C
/-- The draw of the k-th element an instruction rounds, counted from SRE as the instructions before it in its
bundle left it (R127, R161, log entry 53). -/
def State.drawOf (s : State) (t rm k : Nat) : Nat :=
  if rm = 4 then draw t (s.tile t).stepcnt (s.seed t) (((s.tile t).sre.toNat + k) % 2 ^ 32) else 0
/-- Takes n element indices, if the instruction rounds under SR (R161). -/
def State.takeSre (s : State) (t rm n : Nat) : State :=
  if rm = 4 then s.updTile t (fun x => { x with sre := x.sre + BitVec.ofNat 32 n }) else s

end Sys2Proof.Machine
end

