-- ==== Sys2Proof/Machine/Arbiter.lean ====
section
/-! DEFINITION. Shared arbiters (01_architecture R31-R36, Table 1-9): which of the requests that wait is granted.
The DRAM controller's is `Device.grant` and the port egress's `State.pickFrame`; the transport's grants are dealt
out by `grantTurn`, the epoch queue of the cipher engine by its order. Only one transaction is under way where a
command runs, so the crossbar's and the walkers' choices decide times alone (log entry 11). -/

namespace Sys2Proof.Machine

/-- A request that waits: its class, 0 the highest, its source, and the bytes it would move. -/
structure Request where
  cls : Nat
  src : Nat
  bytes : Nat := 0
  deriving DecidableEq, Repr

/-- The requests of the highest class that waits; no tenant enters the priority (R31). -/
def topClass (l : List Request) : List Request :=
  l.filter (fun r => l.all (fun x => r.cls ≤ x.cls))
/-- Oldest first within the highest class; the list is in order of arrival. -/
def grantOldest (l : List Request) : Option Request := (topClass l).head?
/-- Round robin over the sources of the highest class, `last` being that served before. -/
def grantTurn (last : Nat → Nat) (l : List Request) : Option Request :=
  let k := sortBy (fun a b => decide (a.src ≤ b.src)) (topClass l)
  (k.find? (fun r => last r.cls < r.src)).orElse (fun _ => k.head?)

/-- Fabric crossbar: ingress placement, egress read, copy, test; round robin over the requesting sources. -/
def crossbarGrant (last : Nat → Nat) (l : List Request) : Option Request := grantTurn last (l.filter (fun r => r.cls < 4))
/-- Translation walkers: 32 on a die, one class, round robin over the partitions with a pending miss. -/
def walkerGrant (busy last : Nat) (l : List Request) : Option Request :=
  if busy < 32 then grantTurn (fun _ => last) (l.map (fun r => { r with cls := 0 })) else none
/-- Cipher scheduler: root 0, line 1, other 2, oldest first. A line core takes line work before other work; the
reserved core takes root work, and a line job only while no root job waits and of at most 4 KiB (R35). -/
def cipherGrant (reserved : Bool) (l : List Request) : Option Request :=
  if reserved then
    if l.any (fun r => r.cls == 0) then l.find? (fun r => r.cls == 0) else l.find? (fun r => r.cls == 1 && r.bytes ≤ 4096)
  else grantOldest (l.filter (fun r => r.cls == 1 || r.cls == 2))

end Sys2Proof.Machine
end

