-- ==== Sys2Proof/Machine/Pool.lean ====
section
/-! DEFINITION. Receive pools and the pause frames their thresholds send (10_ethernet_ports R256-R259,
R267). -/

namespace Sys2Proof.Machine

/-- Size of a port's receive pool. -/
def poolSize (n : Nat) : Nat := if n < 24 then 2 * 1024 * 1024 else 256 * 1024
/-- Free space F of a pool, its headroom H and hysteresis X in bytes (R256). -/
def State.poolFreeSpace (s : State) (n : Nat) : Nat := poolSize n - (s.port n).pool
def State.headroom (s : State) (n : Nat) : Nat := s.fld bPORT n 0x054 0 16 * 1024
def State.hysteresis (s : State) (n : Nat) : Nat := s.fld bPORT n 0x054 16 16 * 1024
/-- Flow-control mode of a data port: 0 none, 1 priority flow control, 2 PAUSE; 3 counts as 0 (R258). -/
def State.fcMode (s : State) (n : Nat) : Nat :=
  if 24 ≤ n then 0 else if s.fld bPORT n 0x050 0 2 = 3 then 0 else s.fld bPORT n 0x050 0 2
/-- Whether a class is lossless on a port. -/
def State.lossless (s : State) (n cls : Nat) : Bool := Nat.testBit (s.fld bPORT n 0x050 8 8) cls

/-- Queues a pause frame, or a release, of the port's mode (R259); a port that is down transmits nothing (R253). -/
def State.sendPause (s : State) (n : Nat) (release : Bool) : State :=
  let x := s.port n
  let f := (s.fcMode n == 1, if release then 0 else s.fld bPORT n 0x058 0 16)
  s.setPort n { x with pausing := !release, pauseOut := if x.up0 || x.up1 then x.pauseOut ++ [f] else [] }

/-- The pool's occupancy becomes `used`; crossing a threshold sends a pause frame (R259). -/
def State.poolTo (s : State) (n used : Nat) : State :=
  let s1 := s.setPort n { s.port n with pool := used }
  let f := s1.poolFreeSpace n
  if s1.fcMode n = 0 then s1
  else if !(s1.port n).pausing && f ≤ s1.headroom n then s1.sendPause n false
  else if (s1.port n).pausing && s1.headroom n + s1.hysteresis n < f then s1.sendPause n true
  else s1

/-- The pool's occupancy changes while a packet passes from port to transport; `poolTo` looks at the
thresholds once it is settled. -/
def State.poolRaw (s : State) (n used : Nat) : State := s.setPort n { s.port n with pool := used }

/-- Pool space is freed. -/
def State.poolFree (s : State) (n len : Nat) : State := s.poolTo n ((s.port n).pool - len)

end Sys2Proof.Machine
end

