-- ==== Sys2Proof/Machine/Xlat.lean ====
section
/-! DEFINITION. Memory below the engines (09_memory_and_translation R212-R242): placement over devices,
data keys, reads and writes of the DRAM tier and of tile memory by engines, page-table walks, the
translation buffers, held runs, and dirty logging. -/

namespace Sys2Proof.Machine

/-! ## The DRAM tier -/

/-- Notes a line of a device in a sliding 24 h list (R495). -/
def noteLine (l : List (Nat × Nat)) (a now : Nat) : List (Nat × Nat) :=
  let l1 := l.filter (fun x => now < x.2 + dayPeriods && x.1 != a)
  l1 ++ [(a, now)]

/-- The devices on which free local slabs serve, and the first free pair (R495). -/
def State.freePair (s : State) (not_ : Nat) : Option (Nat × Nat) :=
  let used := s.slabs.filterMap (fun e =>
    if slabValid e.2.toNat then some (bitsAt e.2.toNat 8 4, bitsAt e.2.toNat 12 7) else none)
  let targets := s.devs.filterMap (fun d => d.2.evac.map (fun e => (e.dstDev, e.dstLocal)))
  let ds := (List.range 12).filter (fun d => d != not_ && (s.dev d).state == 0)
  (ds.flatMap (fun d => (List.range 72).map (fun l => (d, l)))).find? (fun x =>
    !used.contains x && !targets.contains x)

/-- Whether the lost-line log exists (R247). -/
def State.lostLog (s : State) : Nat := s.fld bDRAMC 0 0x06C 0 5

/-- Starts an evacuation of the slab's position on a device, or refuses it (R244, R247). -/
def State.evacStart (s : State) (d slab dstDev dstLocal : Nat) (auto : Bool) (cmd : Option Cmd := none) : State × Bool :=
  let e := s.slab slab
  let dst := (dstDev, dstLocal)
  let taken := s.slabs.any (fun x =>
    slabValid x.2.toNat && bitsAt x.2.toNat 8 4 == dstDev && bitsAt x.2.toNat 12 7 == dstLocal) ||
    s.devs.any (fun x => x.2.evac.any (fun v => (v.dstDev, v.dstLocal) == dst))
  let r := s.dev d
  if s.lostLog = 0 || taken || !slabValid e || bitsAt e 8 4 != d || r.evac.isSome || 11 < dstDev ||
      71 < dstLocal || (s.dev dstDev).state == 2 then
    ((s.setDev d { r with status := 3 }).raise bDRAMC d 4, false)
  else
    (s.setDev d { r with status := 1, state := 1, ptr := 0, lostRun := none, logWait := [],
                         evac := some { slab := slab, dstDev := dstDev, dstLocal := dstLocal, auto := auto, cmd := cmd } }, true)

/-- Firmware evacuates a suspect device, one position at a time in ascending slab order, to free local
slabs elsewhere; with none free it reports the device again (R495). -/
def State.autoEvac (s : State) (d : Nat) : State :=
  if (s.dev d).evac.isSome then s
  else
    match s.slabs.find? (fun e => slabValid e.2.toNat && bitsAt e.2.toNat 8 4 == d), s.freePair d with
    | some e, some x =>
      let r := s.evacStart d e.1 x.1 x.2 true
      if r.2 then r.1.raise bTEST 0 4 (BitVec.ofNat 32 d) else r.1.raise bTEST 0 3 (BitVec.ofNat 32 d)
    | some _, none => s.raise bTEST 0 3 (BitVec.ofNat 32 d)
    | none, _ => s

/-- The thresholds of a device after a new finding (Table 21-3). -/
def State.devThresholds (s : State) (d : Nat) : State :=
  let r := s.dev d
  let heavy := 65536 < r.ceLines.length || 16 < r.ueLines.length
  let light := 4096 < r.ceLines.length || 0 < r.ueLines.length
  if heavy && s.fld bTEST 0 0x040 4 1 = 1 then s.autoEvac d
  else if light then s.raise bTEST 0 3 (BitVec.ofNat 32 d)
  else s

/-- A read finds an uncorrectable line (R217). -/
def State.dramUe (s : State) (line : Nat) : State :=
  let d := s.devOf line
  let s1 := (s.count bDRAMC d 0xC08 1).raise bDRAMC d 1 (BitVec.ofNat 32 line) (BitVec.ofNat 32 (line / 2 ^ 32))
  let r := s1.dev d
  (s1.setDev d { r with ueLines := noteLine r.ueLines line s1.align }).devThresholds d
/-- A read corrects a line (R217). -/
def State.dramCe (s : State) (line : Nat) : State :=
  let d := s.devOf line
  let s1 := ((s.count bDRAMC d 0xC00 1).count bERR 0 0xC00 1).raise bDRAMC d 0
  let r := s1.dev d
  (s1.setDev d { r with ceLines := noteLine r.ceLines line s1.align }).devThresholds d

/-- Reads one line in a class, correcting what can be corrected; true: it cannot be read. -/
def State.readLine (s : State) (cls l : Nat) : State × Bool :=
  let s1 := s.lineRead cls l
  if s.ue.contains l || s.lost.contains l then (s1.dramUe l, true)
  else (if s.ce.contains l then s1.dramCe l else s1, false)

/-- Reads lines up to the first that cannot be read. -/
def State.readLines (s : State) (cls : Nat) : List Nat → State × Bool
  | [] => (s, false)
  | l :: ls =>
    let r := s.readLine cls l
    if r.2 then r else r.1.readLines cls ls

/-- A read of the DRAM tier under data key k of a partition, in a class: status and bytes (R217, R220). -/
def State.dramRead (s : State) (p k a n : Nat) (cls : Nat := 1) : State × Nat × List Byte :=
  if s.keyGone p then (s, 0x0008, [])
  else
    let r := s.readLines cls (linesOf a n)
    if r.2 then (r.1, 0x0006, []) else (r.1.freshen, 0, s.dramBytes (s.keyId p k) a n)

/-- Writes bytes that lie in one 64-byte line; true when the read of a partly written line fails (R217). -/
def State.writeLine (s : State) (id a : Nat) (bs : List Byte) (cls : Nat := 1) : State × Bool :=
  let l := a / 64 * 64
  if bs.length = 64 then
    let s0 := s.lineWrite cls l
    ({ s0.poke a bs with lineKey := mset 0 s0.lineKey (l / 64) id }, false)
  else
    let r := s.readLine cls l
    if r.2 then r
    else
      let c := r.1.lineWrite cls l
      if mget 0 s.lineKey (l / 64) = id then ({ c.poke a bs with ce := c.ce.filter (· != l) }, false)
      else
        let old := s.dramBytes id l 64
        let new := old.take (a - l) ++ bs ++ old.drop (a - l + bs.length)
        ({ c.poke l new with lineKey := mset 0 c.lineKey (l / 64) id }.freshen, false)

/-- Cuts bytes at line borders. -/
def lineChunks : Nat → Nat → List Byte → List (Nat × List Byte)
  | 0, _, _ => []
  | n + 1, a, bs =>
    if bs.isEmpty then []
    else
      let k := 64 - a % 64
      (a, bs.take k) :: lineChunks n (a + k) (bs.drop k)

/-- Writes line by line, up to the first line that fails: the status and the bytes written. -/
def State.writeLines (s : State) (id cls : Nat) : List (Nat × List Byte) → Nat → State × Nat × Nat
  | [], n => (s, 0, n)
  | c :: cs, n =>
    match s.writeLine id c.1 c.2 cls with
    | (s1, true) => (s1, 0x0006, n)
    | (s1, false) => s1.writeLines id cls cs (n + c.2.length)

/-- A write to the DRAM tier under data key k of a partition, in a class: the status, and the bytes written. -/
def State.dramPut (s : State) (p k a : Nat) (bs : List Byte) (cls : Nat := 1) : State × Nat × Nat :=
  if s.keyGone p then (s, 0x0008, 0)
  else s.writeLines (s.keyId p k) cls (lineChunks (bs.length / 64 + 2) a bs) 0
def State.dramWrite (s : State) (p k a : Nat) (bs : List Byte) (cls : Nat := 1) : State × Nat :=
  let r := s.dramPut p k a bs cls
  (r.1, r.2.1)

/-- A write of firmware or of the module's own structures, under partition 0's data key 0 (R219). -/
def State.put0 (s : State) (a : Nat) (bs : List Byte) (cls : Nat := 0) : State := (s.dramWrite 0 0 a bs cls).1
/-- A read of them: the little-endian number, or none where it cannot be read. -/
def State.load0 (s : State) (a n : Nat) (cls : Nat := 0) : State × Option Nat :=
  match s.dramRead 0 0 a n cls with
  | (s1, 0, bs) => (s1, some (leNat bs))
  | (s1, _, _) => (s1, none)

/-! ## Tile memory reached by engines (R20, R90, R92) -/

/-- An engine read of tile SRAM; an uncorrectable word fails the operation, is captured and condemns the
tile (R90, R491). -/
def State.sramRead (s : State) (a n : Nat) : State × Nat × List Byte :=
  match (hits s.ue a n).head? with
  | some w =>
    ((s.raise bTILE (sramTile w) 4 (BitVec.ofNat 32 ((w - sramBase0) % 0x800000))).condemnTile (sramTile w), 0x0006, [])
  | none => (((hits s.ce a n).foldl State.sramCe s).freshen, 0, s.peek a n)

/-- A physical read by an engine, of the DRAM tier in a class. -/
def State.physRead (s : State) (p k a n : Nat) (cls : Nat := 1) : State × Nat × List Byte :=
  if inDram a then s.dramRead p k a n cls else if inSram a then s.sramRead a n else (s, 0x0003, [])

/-- Keeps the prior bytes of a range for readers of a basted message (R313). -/
def State.bast (s : State) (owner a n : Nat) : State :=
  let old := (List.range n).map (fun i => (a + i, mget 0 s.mem (a + i)))
  match s.soft.find? (fun f => f.owner == owner) with
  | some f =>
    let fresh := old.filter (fun c => !f.cells.any (fun d => d.1 == c.1))
    { s with soft := s.soft.map (fun g => if g.owner = owner then { g with cells := g.cells ++ fresh } else g) }
  | none => { s with soft := s.soft ++ [{ owner := owner, grain := 1, cells := old }] }

/-- A write of instruction memory clears the measured mark of every tile it reaches (R461). -/
def State.unmeasure (s : State) (a n : Nat) : State :=
  (List.range ((a % 0x40000 + n + 0x3FFFF) / 0x40000)).foldl (fun s k =>
    s.updTile (imTile a + k) (fun x => { x with measured := none })) s

/-- A physical write by an engine: the status, and the bytes written. A basted write keeps the prior bytes
beside. -/
def State.physPut (s : State) (p k a : Nat) (bs : List Byte) (owner : Option Nat) (cls : Nat := 1) : State × Nat × Nat :=
  let r : State × Nat × Nat :=
    if inDram a then s.dramPut p k a bs cls
    else if inSram a then (s.poke a bs, 0, bs.length)
    else ((s.poke a bs).unmeasure a bs.length, 0, bs.length)
  match owner with
  | none => r
  | some w =>
    let f := (s.bast w a r.2.2).soft
    ({ r.1 with soft := if r.2.2 = 0 then r.1.soft else f }, r.2)
def State.physWrite (s : State) (p k a : Nat) (bs : List Byte) (owner : Option Nat) (cls : Nat := 1) : State × Nat :=
  let r := s.physPut p k a bs owner cls
  (r.1, r.2.1)

/-! ## Translation buffers (R231) -/

def TbEntry.pinned (e : TbEntry) : Bool := e.bits.getLsbD 6
/-- The buffer of a die, least recently used first. -/
def State.tbOf (s : State) (fd1 : Bool) : List TbEntry :=
  s.tb.filterMap (fun x => if x.1 = fd1 then some x.2 else none)
def State.setTb (s : State) (fd1 : Bool) (l : List TbEntry) : State :=
  { s with tb := s.tb.filter (fun x => x.1 != fd1) ++ l.map (fun e => (fd1, e)) }
/-- Whether an entry holds the page of an address. -/
def TbEntry.holds (e : TbEntry) (p va : Nat) : Bool := e.part == p && e.va ≤ va && va < e.va + e.n * e.size
/-- Whether two entries lie in one aligned group of 16 pages. -/
def sameRunGroup (e : TbEntry) (va size : Nat) : Bool :=
  e.size == size && e.va / (16 * size) == va / (16 * size)
/-- Removes the first entry of a kind. -/
def dropFirst (f : TbEntry → Bool) : List TbEntry → List TbEntry
  | [] => []
  | e :: l => if f e then l else e :: dropFirst f l
/-- Puts a page into a buffer: joined to a run it continues, else as a new entry; replacement is least
recently used among unpinned entries, with at most 2,048 pinned. -/
def tbInsert (l : List TbEntry) (e : TbEntry) : List TbEntry :=
  match l.find? (fun x => x.part == e.part && sameRunGroup x e.va e.size && x.bits == e.bits &&
      (x.va + x.n * x.size == e.va && x.pa + x.n * x.size == e.pa ||
       e.va + e.size == x.va && e.pa + e.size == x.pa)) with
  | some x => l.erase x ++ [{ x with va := min x.va e.va, pa := min x.pa e.pa, n := x.n + 1 }]
  | none =>
    let l1 := if e.pinned && 2048 ≤ (l.filter TbEntry.pinned).length then dropFirst TbEntry.pinned l else l
    let l2 := if 8192 ≤ l1.length then
        (if l1.any (fun x => !x.pinned) then dropFirst (fun x => !x.pinned) l1 else l1.drop 1) else l1
    l2 ++ [e]

/-! ## Translation (R229, R230, R233) -/

/-- A translation fault: its address, level, faulting range, reason and the rights needed. -/
structure Flt where
  va : Nat
  level : Nat
  lo : Nat
  size : Nat
  reason : Nat
  acc : Nat
  deriving DecidableEq, Repr

/-- The faulting range of R239: the entry's, or the whole space for reason 0x1. -/
def fltOf (va level reason acc : Nat) : Flt :=
  if reason = 1 then { va := va, level := level, lo := 0, size := 2 ^ 48, reason := 1, acc := acc }
  else { va := va, level := level, lo := va / lvSize level * lvSize level, size := lvSize level,
         reason := reason, acc := acc }

/-- Level of a page size. -/
def sizeLevel (size : Nat) : Nat := if size = lvSize 2 then 2 else if size = lvSize 3 then 3 else 4

/-- The run a holder keeps of a buffer entry. -/
def State.heldOf (s : State) (e : TbEntry) : Held :=
  { va := e.va, n := e.n * e.size, pa := e.pa, bits := e.bits, epoch := (s.part e.part).epoch
    dlog := (s.part e.part).rec_.dlog }

/-- A walk's reads of table entries, in the class of the stream it serves (R232). -/
def State.walkCost (s : State) (p va cls : Nat) : State :=
  if !(s.part p).rec_.en then s
  else (s.walkReads va 4 1 (s.part p).rec_.root).foldl (fun s a =>
    let l := a / 64 * 64
    let s1 := s.lineRead cls l
    if !s.bad l 64 && s.ce.contains l then s1.dramCe l else s1) s

/-- Translates an address for an access on a die: from the buffer or by a walk, which one being free
where they differ (R230); `va` counts in its low 48 bits. An access through a buffered translation to a slab
that is no longer mapped faults as a walk would (R213). -/
def State.xlate (s : State) (fd1 : Bool) (p va acc : Nat) (cls : Nat := 1) : State × (Flt ⊕ Held) :=
  let va := va % 2 ^ 48
  let i := dieInst fd1
  let hit := (s.tbOf fd1).find? (fun e => e.holds p va)
  let w := s.walk p va
  let same (e : TbEntry) : Bool :=
    match w with
    | .leaf lv base bits => e.size == lvSize lv && e.bits == bits && e.pa + (va - e.va) == base + va % lvSize lv
    | _ => false
  let use (s : State) (e : TbEntry) : State × (Flt ⊕ Held) :=
    if !s.reach (e.pa + (va - e.va)) then (s, .inl (fltOf va (sizeLevel e.size) 4 acc))
    else if rightsOk e.bits acc then (s, .inr (s.heldOf e))
    else (s, .inl (fltOf va (sizeLevel e.size) 2 acc))
  match hit with
  | some e =>
    if same e || s.freeBit 7 then
      use ((s.setTb fd1 ((s.tbOf fd1).erase e ++ [e])).count bXLAT i 0xC00 1).freshen e
    else miss (s.setTb fd1 ((s.tbOf fd1).erase e)).freshen i w use
  | none => miss s i w use
where
  miss (s : State) (i : Nat) (w : Walk) (use : State → TbEntry → State × (Flt ⊕ Held)) : State × (Flt ⊕ Held) :=
    let va := va % 2 ^ 48
    let s1 := ((s.count bXLAT i 0xC08 1).count bXLAT i 0xC10 1).walkCost p va cls
    match w with
    | .leaf lv base bits =>
      let e : TbEntry := { part := p, va := va / lvSize lv * lvSize lv, size := lvSize lv, n := 1, pa := base, bits := bits }
      if rightsOk bits acc then
        let l := tbInsert (s1.tbOf fd1) e
        use (s1.setTb fd1 l) (l.getLastD e)
      else (s1, .inl (fltOf va lv 2 acc))
    | .fault lv r => (s1, .inl (fltOf va lv r acc))
    | .ue lv a =>
      (((s1.dramUe a).raise bXLAT i 2 (BitVec.ofNat 32 a) (BitVec.ofNat 32 (a / 2 ^ 32))), .inl (fltOf va lv 6 acc))

/-- Whether a held run covers an address. -/
def Held.covers (r : Held) (va : Nat) : Bool := r.va ≤ va && va < r.va + r.n
/-- Where a run puts an address, and how many bytes of it are left there within one slab. -/
def Held.at_ (h : Held) (va : Nat) : Nat := h.pa + (va % 2 ^ 48 - h.va)
def Held.left (h : Held) (va : Nat) : Nat :=
  let n := h.n - (va % 2 ^ 48 - h.va)
  if inDram (h.at_ va) then min n (2 ^ 30 - h.at_ va % 2 ^ 30) else n
/-- The page size of a run of at most 16 pages. -/
def Held.page (h : Held) : Nat := if h.n < lvSize 3 then 4096 else if h.n < lvSize 2 then lvSize 3 else lvSize 2
/-- Translates for a holder: by a held run if one covers the address, else by a new one, which is held. A slab
that is no longer mapped faults through either (R213). -/
def State.xlHeld (s : State) (fd1 : Bool) (p va acc : Nat) (hs : List Held) (cls : Nat := 1) :
    State × (Flt ⊕ (Held × List Held)) :=
  let va := va % 2 ^ 48
  match hs.find? (fun r => r.covers va) with
  | some r => if s.reach (r.at_ va) then (s, .inr (r, hs)) else (s, .inl (fltOf va (sizeLevel r.page) 4 acc))
  | none =>
    match s.xlate fd1 p va acc cls with
    | (s1, .inl f) => (s1, .inl f)
    | (s1, .inr r) => (s1, .inr (r, hs ++ [r]))


/-- Data key selector of a run. -/
def Held.ksel (h : Held) : Nat := bitsAt h.bits.toNat 8 4
/-- The record of a held local run in descriptor bytes 48-63 (Table 9-5). -/
def runRecord (r : Held) (moved unit_ : Nat) : List Byte :=
  let code := if r.page = 4096 then 0 else if r.page = lvSize 3 then 1 else 2
  let w := 1 + code * 4 + bitsAt r.bits.toNat 2 4 * 16 + r.ksel * 256 + bitsAt r.pa 12 36 * 4096 +
    (r.n / r.page - 1) % 16 * 2 ^ 48
  leBytes 8 w ++ leBytes 4 moved ++ leBytes 2 r.epoch ++ leBytes 2 unit_

/-! ## Access through translation -/

/-- How an access through translation ends. -/
inductive VRes where
  | ok (bytes : List Byte) (hs : List Held)
  | fault (f : Flt) (done : Nat)
  | stat (code done : Nat)
  deriving DecidableEq, Repr

/-- Reads n bytes at a virtual address run by run; `fuel` bounds the runs. -/
def State.vread (s : State) (fd1 : Bool) (p acc : Nat) : Nat → Nat → Nat → List Held → List Byte → State × VRes
  | 0, _, _, h, l => (s, .ok l h)
  | fuel + 1, va, n, h, l =>
    if n = 0 then (s, .ok l h)
    else
      match s.xlHeld fd1 p va acc h with
      | (s1, .inl f) => (s1, .fault f l.length)
      | (s1, .inr (r, hs)) =>
        let k := min n (r.left va)
        match s1.physRead p r.ksel (r.at_ va) k with
        | (s2, 0, bs) => s2.vread fd1 p acc fuel (va + k) (n - k) hs (l ++ bs)
        | (s2, c, _) => (s2, .stat c l.length)

/-- Runs that n bytes may meet. -/
def runsOf (n : Nat) : Nat := n / 4096 + 2

/-- Reads n bytes for an access. -/
def State.vget (s : State) (fd1 : Bool) (p acc va n : Nat) (h : List Held) : State × VRes :=
  s.vread fd1 p acc (runsOf n) va n h []

/-- A line of a queue or of the bitmap is rewritten whole: QUEUE_UE with its address, partition and queue,
0xFFF for the bitmap (R475, Table 22-7). -/
def State.queueUe (s : State) (p q line : Nat) : State :=
  s.raise bERR 0 2 (BitVec.ofNat 32 line) (BitVec.ofNat 32 (bitsAt line 32 8 + p % 1024 * 2 ^ 8 + q % 4096 * 2 ^ 18))

/-- Bits of the dirty bitmap for a page (R242), set in the class of the stream that wrote it (R232); an
unreadable bitmap line becomes all ones (R475). -/
def State.dirtyPage (s : State) (p pa cls : Nat) : State :=
  let base := (s.reg bXLAT 0 0x048).toNat / 4096 * 4096 + s.fld bXLAT 0 0x04C 0 16 * 2 ^ 32
  let a := base + pa / 2 ^ 15
  let line := a / 64 * 64
  match s.load0 a 1 cls with
  | (s1, none) => (s1.put0 line (List.replicate 64 0xFF) cls).queueUe p 0xFFF line
  | (s1, some v) => s1.put0 a [BitVec.ofNat 8 v ||| BitVec.ofNat 8 (2 ^ (pa / 4096 % 8))] cls
/-- Marks the pages of a written range dirty. -/
def State.dirtyRange (s : State) (p : Nat) (x : Nat × Nat) (cls : Nat := 1) : State :=
  if inDram x.1 && x.2 != 0 then
    (List.range ((x.1 + x.2 - 1) / 4096 - x.1 / 4096 + 1)).foldl
      (fun s k => s.dirtyPage p ((x.1 / 4096 + k) * 4096) cls) s
  else s
/-- Whether writes through a run are logged: the partition logged as it was translated, and the leaf says so
(R242, R243). -/
def Held.logs (h : Held) : Bool := h.dlog && h.bits.getLsbD 7
/-- The part of a written run that is logged. -/
def Held.logged (h : Held) (pa n : Nat) : List (Nat × Nat) :=
  if h.logs && inDram pa && n != 0 then [(pa, n)] else []

/-- Writes bytes at a virtual address run by run; answers besides the ranges to log. `ok` tells which
physical addresses the engine may write. -/
def State.vwrite (s : State) (fd1 : Bool) (p acc : Nat) (ok : Nat → Bool) (owner : Option Nat) :
    Nat → Nat → List Byte → List Held → List (Nat × Nat) → Nat → State × VRes × List (Nat × Nat)
  | 0, _, _, h, d, _ => (s, .ok [] h, d)
  | fuel + 1, va, bs, h, d, n =>
    if bs.isEmpty then (s, .ok [] h, d)
    else
      match s.xlHeld fd1 p va acc h with
      | (s1, .inl f) => (s1, .fault f n, d)
      | (s1, .inr (r, hs)) =>
        let k := min bs.length (r.left va)
        if !ok (r.at_ va) then (s1, .stat 0x0003 n, d)
        else
          match s1.physPut p r.ksel (r.at_ va) (bs.take k) owner with
          | (s2, 0, _) => s2.vwrite fd1 p acc ok owner fuel (va + k) (bs.drop k) hs (d ++ r.logged (r.at_ va) k) (n + k)
          | (s2, c, m) => (s2, .stat c (n + m), d ++ r.logged (r.at_ va) m)

/-- What transport and control-structure writes may reach: the DRAM tier and tile SRAM (Table 1-8). -/
def dataOk (a : Nat) : Bool := inDram a || inSram a

/-- Writes bytes whose dirty pages are marked at once. -/
def State.vput (s : State) (fd1 : Bool) (p va : Nat) (bs : List Byte) (h : List Held) : State × VRes :=
  let r := s.vwrite fd1 p accW dataOk none (runsOf bs.length) va bs h [] 0
  (r.2.2.foldl (fun s x => s.dirtyRange p x) r.1, r.2.1)

/-- Translates a whole range ahead of any byte of it (R310, R351). -/
def State.vhold (s : State) (fd1 : Bool) (p acc : Nat) : Nat → Nat → Nat → List Held → State × (Flt ⊕ List Held)
  | 0, _, _, hs => (s, .inr hs)
  | fuel + 1, va, n, hs =>
    if n = 0 then (s, .inr hs)
    else
      match s.xlHeld fd1 p va acc hs with
      | (s1, .inl f) => (s1, .inl f)
      | (s1, .inr (r, hs)) =>
        let k := min n (r.left va)
        s1.vhold fd1 p acc fuel (va + k) (n - k) hs

/-- What a copy of len bytes is to write, by target address, as its source stands now where it can be read;
`side` places the tile side (R224). -/
def State.copyCells (s : State) (p : Nat) (spill : Bool) (lva len : Nat) (side : Nat → Option Nat) :
    List (Nat × Byte) :=
  if s.keyGone p then []
  else (List.range len).filterMap (fun i =>
    match s.pureLeaf p (lva + i) (if spill then accW else accR), side i with
    | some d, some t =>
      if !inDram d.1 then none
      else if spill then (if s.bad (t / 32 * 32) 32 then none else some (d.1, mget 0 s.mem t))
      else if s.bad (d.1 / 64 * 64) 64 then none
      else some (t, s.keyByte (s.keyId p d.2) d.1 (mget 0 s.mem d.1))
    | _, _ => none)

end Sys2Proof.Machine
end

