-- ==== Sys2Proof/Machine/Exchange.lean ====
section
/-! DEFINITION. The X slot (06_tile_instruction_set R168-R170, R174, R520, Table 6-8; 07_grid_messaging
R175-R183, R189, R194, R196). -/

namespace Sys2Proof.Machine

/-- A scalar register of a group as a number. -/
def Tile.sn (x : Tile) (r : Nat) : Nat := (x.sreg r).toNat

/-! ## Destinations of messages -/

/-- Whether two tiles belong to one launch group of one partition. -/
def State.sameGroup (s : State) (t u : Nat) : Bool :=
  tileOk u && (s.tileOwner t).isSome && s.tileOwner t == s.tileOwner u && s.tileGroup t == s.tileGroup u

/-- Whether the group of tile t owns a link (R182). -/
def State.ownsLink (s : State) (t from_ : Nat) (d : Dir) : Bool :=
  let l := s.link from_ d
  l.owned && l.part == (s.tileOwner t).getD 1024 && l.group == s.tileGroup t

/-- The next hop of the dimension-order path: along the row to the column, then along the column (R192). -/
def steadyHop (at_ dst : Nat) : Option Dir :=
  if tileCol at_ < tileCol dst then some .east
  else if tileCol dst < tileCol at_ then some .west
  else if tileRow at_ < tileRow dst then some .south
  else if tileRow dst < tileRow at_ then some .north
  else none

/-- Whether the group owns every link of the path; a path has at most 74 hops. -/
def State.steadyPath (s : State) (t dst : Nat) : Nat → Nat → Bool
  | 0, _ => true
  | n + 1, at_ =>
    match steadyHop at_ dst with
    | none => true
    | some d => s.ownsLink t at_ d && (match neighbour at_ d with | some u => s.steadyPath t dst n u | none => false)

/-- Cause 0x0E of a message: tallies, destination tile, group, and in Steady mode the path (R183). -/
def State.msgBad (s : State) (t word : Nat) (len : Nat) : List Nat :=
  let dst := bitsAt word 0 11
  let srct := bitsAt word 31 1 == 1
  rsv (bitsAt word 22 2 != 0 || bitsAt word 11 5 != 0 || bitsAt word 30 1 != 0) ++
  when_ (len = 0 || 65536 < len || 47 < bitsAt word 16 6 || (srct && 47 < bitsAt word 24 6) ||
    dst == t || !s.sameGroup t dst || ((s.tile t).mode && !s.steadyPath t dst 80 t)) 0x0E

/-- Queues a message (R176): the bytes of its source as it issues are kept beside it; its staging starts in
the next GCLK. The source tally of an XMSGV, whose register is read as it issues, counts in that GCLK (R177). -/
def State.queueMsg (s : State) (t : Nat) (vec : Bool) (src dst len word : Nat) (old : List Byte) : State :=
  let srct := bitsAt word 31 1 == 1
  s.updTile t (fun x =>
    let y := { x with
      injq := x.injq ++ [{ vec := vec, src := src, dstTile := bitsAt word 0 11, dst := dst, len := len,
                           tally := bitsAt word 16 6
                           srct := if srct then some (bitsAt word 24 6) else none
                           old := old, sent := 0, ready := x.aclk / 2 + 1 }] }
    if srct && vec then y.fly (2 * (x.aclk / 2 + 1)) (.tally (bitsAt word 24 6) false none) else y)

/-- XMSG. -/
def semXmsg (f : FmtXD) (s : State) (t : Nat) : SlotSem :=
  let x := s.tile t
  let n := f.sn.toNat
  let src := x.sn n
  let dst := x.sn (n + 1)
  let len := x.sn (n + 2)
  let w := x.sn (n + 3)
  { causes := rsv (f.rsv != 0) ++ (if 60 < n then [0x0D] else
      s.msgBad t w len ++ when_ (!inTile src len || !inTile dst len) 0x06)
    srcs := groupSrc n 4, inject := true
    act := fun s' => s'.queueMsg t false src dst len w (s.sram t src len) }

/-- XMSGV: the register is read as it issues. -/
def semXmsgv (f : FmtXV) (s : State) (t : Nat) : SlotSem :=
  let x := s.tile t
  let n := f.sn.toNat
  let dst := x.sn n
  let w := x.sn (n + 1)
  { causes := rsv (f.rsv != 0) ++ (if 62 < n then [0x0D] else
      s.msgBad t w 256 ++ when_ (!inTile dst 256) 0x06 ++ when_ (dst % 256 != 0) 0x07)
    srcs := groupSrc n 2 ++ [(1, f.v.toNat)], inject := true
    act := fun s' => s'.queueMsg t true 0 dst 256 w (vecBytes (x.vreg f.v.toNat)) }

/-- XMOV (R520): its lines move from the next GCLK on; one of length 0 with none pending counts in that GCLK. -/
def semXmov (f : FmtXD) (s : State) (t : Nat) : SlotSem :=
  let x := s.tile t
  let n := f.sn.toNat
  let src := x.sn n
  let dst := x.sn (n + 1)
  let len := x.sn (n + 2)
  let k := bitsAt (x.sn (n + 3)) 0 6
  { causes := rsv (f.rsv != 0) ++ (if 60 < n then [0x0D] else
      when_ (!inTile src len || !inTile dst len) 0x06 ++ when_ (src % 256 != 0 || dst % 256 != 0) 0x07
        ++ when_ (len % 256 != 0 || 47 < k) 0x0E)
    srcs := groupSrc n 4
    act := fun s' => s'.updTile t (fun y =>
      let g := y.aclk / 2 + 1
      if len = 0 && y.xmovs.isEmpty then y.fly (2 * g) (.tally k false none)
      else { y with xmovs := y.xmovs ++ [{ src := src, dst := dst, len := len, tally := k, ready := g }] }) }

/-- XWAIT (R181): subtracts at once if the tally, with the increments that arrive in its ACLK, allows, else
waits. -/
def semXwait (f : FmtXT) (s : State) (t : Nat) : SlotSem :=
  let n := ((s.tile t).sreg f.rs.toNat).toNat
  let k := f.t.toNat
  { causes := rsv (f.rsv != 0), srcs := [(0, f.rs.toNat)], isWait := true
    act := fun s' => (s'.landTallies t (s'.tile t).aclk).updTile t (fun y =>
      let marked := mget false y.marks k
      if n ≤ (y.tally k).toNat then
        { y.setTally k (BitVec.ofNat 32 ((y.tally k).toNat - n)) with marks := merase y.marks k }
      else
        let z := if 48 ≤ k || marked then y.setFlag else y
        { z with waitFor := some (.tally k n (48 ≤ k)), waitExt := 48 ≤ k || marked, waited := 0 }) }

/-- XTSET: the increments that arrive in its ACLK are added to what it stores (R181). -/
def semXtset (f : FmtXT) (s : State) (t : Nat) : SlotSem :=
  let v := (s.tile t).sreg f.rs.toNat
  { causes := rsv (f.rsv != 0), srcs := [(0, f.rs.toNat)]
    act := fun s' => (s'.updTile t (fun y => y.setTally f.t.toNat (v.setWidth 32))).landTallies t (s'.tile t).aclk }

/-- XTRD: latency 2; the count after the ACLK's operations (R181). -/
def semXtrd (f : FmtXT) (_ : State) (t : Nat) : SlotSem :=
  { causes := rsv (f.rsv != 0), dest := [(0, f.rs.toNat)]
    act := fun s' =>
      let s1 := s'.landTallies t (s'.tile t).aclk
      s1.flyS t 2 f.rs.toNat (((s1.tile t).tally f.t.toNat).setWidth 64) }

/-- Whether a tile lies in rectangle i of a partition (Table 16-5). -/
def State.inRect (s : State) (p i t : Nat) : Bool :=
  let r := (s.reg bPART p (0x040 + 4 * i)).toNat
  bitsAt r 31 1 == 1 && bitsAt r 0 6 ≤ tileRow t && tileRow t ≤ bitsAt r 6 6 &&
    bitsAt r 12 6 ≤ tileCol t && tileCol t ≤ bitsAt r 18 6

/-- Membership of a wave for the tiles of a group (R189): the masks in force since the group's launch. -/
def State.waveMember (s : State) (p g w t : Nat) : Bool :=
  s.tileOwner t == some p && s.tileGroup t == g &&
    (List.range 4).any (fun i => Nat.testBit (mget 0xF (s.group g).live w) i && s.inRect p i t)

/-- XSYNC: joins a wave and waits for its generation. -/
def semXsync (f : FmtXS) (s : State) (t : Nat) : SlotSem :=
  let w := f.wave.toNat
  { causes := rsv (f.rsv != 0 || f.rsv2 != 0)
      ++ when_ (!s.waveMember ((s.tileOwner t).getD 1024) (s.tileGroup t) w t) 0x14
    isWait := true
    act := fun s' => s'.updTile t (fun y => { y with
      waitFor := some (.wave w), waitExt := false, waited := 0, joinG := y.aclk / 2 + y.lag }) }

/-- The engine of a tile's fills or spills (R194, Table 1-3). -/
def copyEngine (t : Nat) (spill : Bool) : Nat :=
  tileFd t * 16 + (if spill then 8 else 0) + t % 8

/-- A tile's copy request is accepted by its engine (R194, R196). -/
def State.copyRequest (s : State) (t : Nat) (spill : Bool) (va tva len tally : Nat) (im : Bool) : State :=
  let p := (s.tileOwner t).getD 0
  let j : CopyJob :=
    { eng := copyEngine t spill, id := s.fresh, from_ := .tile t, part := p, spill := spill, lva := va
      tva := tva, im := im, len := len, tally := some tally, flags := 0, ctally := 0, epoch := (s.part p).epoch
      cells := s.copyCells p spill va len (fun i => some (if im then imAt t (tva + i) else sramAt t (tva + i))) }
  ({ s with jobs := s.jobs ++ [j] }.updTile t (fun x => { x with copies := x.copies + 1 })).freshen

/-- XFILL and XSPILL. -/
def semXcopy (spill : Bool) (f : FmtXD) (s : State) (t : Nat) : SlotSem :=
  let x := s.tile t
  let n := f.sn.toNat
  let va := x.sn n
  let a := x.sn (n + 1)
  let len := x.sn (n + 2)
  let w := x.sn (n + 3)
  let im := bitsAt w 8 1 == 1
  let k := bitsAt w 0 6
  { causes := rsv (f.rsv != 0) ++ (if 60 < n then [0x0D] else
      when_ (if im && !spill then !(len = 0 || a + len ≤ 0x40000) else !inTile a len) 0x06
        ++ when_ (len % 256 != 0 || 0x800000 < len || k < 48 || (spill && im) || (im && a % 16 != 0)) 0x0F)
    srcs := groupSrc n 4, copyReq := true
    act := fun s' => s'.copyRequest t spill va a len k im }

/-- XMBW: posts 1-8 words to the tile mailbox. -/
def semXmbw (f : FmtXB) (s : State) (t : Nat) : SlotSem :=
  let x := s.tile t
  let n := f.sn.toNat
  let c := f.cnt.toNat
  { causes := rsv (f.rsv != 0) ++ when_ (c = 0 || 8 < c) 0x05 ++ groupBad n c
    srcs := groupSrc n c
    act := fun s' => s'.setMb (.tile t) true
      ((s'.mb (.tile t) true).post ((List.range c).map (fun i => x.sreg (n + i))) false) }

/-- What register k of XMBR's eight receives: word k of the message, free where the message is shorter
(Table 6-8, R407, log entry 16). -/
def State.msgWord (s : State) (words : List W64) (k : Nat) : W64 :=
  words.getD k (BitVec.ofNat 64 (Config.freeNat s.fresh k))

/-- Takes the inbound message of a tile's mailbox into registers. -/
def State.takeTileMsg (s : State) (t sn : Nat) : State :=
  let m := s.mb (.tile t) false
  let s1 := s.setMb (.tile t) false { m with full := false }
  let s2 := (List.range 8).foldl (fun a k => a.flyS t 1 (sn + k) (s.msgWord m.words k)) s1
  s2.freshen.fwNext (.tile t)

/-- XMBR: takes an inbound message at once, or waits for one. -/
def semXmbr (f : FmtXB) (_ : State) (t : Nat) : SlotSem :=
  let n := f.sn.toNat
  { causes := rsv (f.rsv != 0 || f.cnt != 0) ++ groupBad n 8
    dest := (List.range 8).map (fun i => (0, n + i)), isWait := true
    act := fun s' =>
      if (s'.mb (.tile t) false).full then s'.takeTileMsg t n
      else s'.updTile t (fun y => { y.setFlag with waitFor := some (.mbox n), waitExt := true, waited := 0 }) }

/-- XFLD: a far load begins; an instruction that names v waits for the data (R174). -/
def semXfld (f : FmtXV) (s : State) (t : Nat) : SlotSem :=
  let x := s.tile t
  let va := x.sn f.sn.toNat
  { causes := rsv (f.rsv != 0) ++ when_ (va % 256 != 0) 0x07 ++ when_ (!x.mode) 0x11
    dest := [(1, f.v.toNat)], srcs := [(0, f.sn.toNat)], isWait := true
    act := fun s' => s'.updTile t (fun y => { y with
      far := y.far ++ [(f.v.toNat, va, (s'.part ((s'.tileOwner t).getD 0)).epoch)] }) }

end Sys2Proof.Machine
end

