-- ==== Sys2Proof/Machine/Matrix.lean ====
section
/-! DEFINITION. The M slot (06_tile_instruction_set R162-R167, R519, Tables 6-6 and 6-7). -/

namespace Sys2Proof.Machine

/-- The matrix unit is busy from the present ACLK for n ACLK. -/
def State.busyFor (s : State) (t n : Nat) : State :=
  s.updTile t (fun x => { x with
    mbusy := x.aclk + n, mIss := x.aclk, mc := 0, mNext := x.aclk / 2 + 1, m0 := 0, m1 := 0, mg := 0 })

/-- Lines a byte range meets. -/
def linesMet (a n : Nat) : Nat := if n = 0 then 0 else (a + n - 1) / 256 - a / 256 + 1
/-- Lines two ranges meet, each line once. -/
def lines2 (a n b m : Nat) : Nat :=
  let two := linesMet a n + linesMet b m
  if n = 0 || m = 0 then two
  else two - (min ((a + n - 1) / 256) ((b + m - 1) / 256) + 1 - max (a / 256) (b / 256))

/-- An MMA-like instruction begins: busy ceil(K / r) + 8, with its operand lines to fetch (R164, R166). -/
def State.beginMma (s : State) (t c n0 n1 : Nat) : State :=
  s.updTile t (fun x => { x with
    mbusy := x.aclk + c + 8, mIss := x.aclk, mc := c, mNext := x.aclk / 2 + 1, m0 := n0, m1 := n1, mg := 0 })

/-- Base of an operand's elements and of its scales. -/
def scaleBase (x : Tile) (c r : Nat) : Nat := if matMx c then (x.sreg (r + 1)).toNat else 0

/-- Alignment of an operand's bases (R163). -/
def baseBad (c base sc : Nat) : List Nat :=
  when_ (base % 32 != 0 || (matMx c && sc % 64 != 0)) 0x07

/-- MMA: L += A × B over K = s[sK], both from tile SRAM. -/
def semMma (f : FmtMM) (s : State) (t : Nat) : SlotSem :=
  let x := s.tile t
  let fa := f.fa.toNat
  let fb := f.fb.toNat
  let ra := f.sA.toNat
  let rb := f.sB.toNat
  let k := (x.sreg f.sK.toNat).toNat
  let a := (x.sreg ra).toNat
  let b := (x.sreg rb).toNat
  let sa := scaleBase x fa ra
  let sb := scaleBase x fb rb
  let la := matLen fa k
  let lb := matLen fb k
  let lsa := matScaleLen fa k
  let lsb := matScaleLen fb k
  { causes := when_ (k != 0 && !(inTile a la && inTile b lb && inTile sa lsa && inTile sb lsb)) 0x06
      ++ baseBad fa a sa ++ baseBad fb b sb
      ++ when_ ((matBlock fa || matBlock fb) && k % 32 != 0) 0x0B
      ++ (if matMx fa then groupBad ra 2 else []) ++ (if matMx fb then groupBad rb 2 else [])
    srcs := [(0, ra), (0, rb), (0, f.sK.toNat)] ++ (if matMx fa then [(0, ra + 1)] else [])
      ++ (if matMx fb then [(0, rb + 1)] else [])
    matrix := true
    act := fun s' =>
      let s1 := s'.beginMma t (matCycles fa fb k) (lines2 a la sa lsa) (lines2 b lb sb lsb)
      if k = 0 then s1
      else
        ((((s1.updTile t (fun y => y.fly y.mbusy (.mma fa fb a sa b sb k (s.matRead t a la) (s.matRead t sa lsa)
          (s.matRead t b lb) (s.matRead t sb lsb)))).progReadMarks t a la).progReadMarks t sa lsa).progReadMarks t b lb
            ).progReadMarks t sb lsb }

/-- MMAV: as MMA with A from nv vector registers from va. -/
def semMmav (f : FmtMV) (s : State) (t : Nat) : SlotSem :=
  let x := s.tile t
  let fa := f.fa.toNat
  let fb := f.fb.toNat
  let nv := if f.nv = 0 then 32 else f.nv.toNat
  let va := f.va.toNat
  let k := nv * 2048 / (64 * eltBits (matElt fa))
  let b := (x.sreg f.sB.toNat).toNat
  let lb := matLen fb k
  { causes := rsv (f.rsv != 0) ++ when_ (matBlock fa || matBlock fb) 0x0C
      ++ when_ (32 < va + nv) 0x0D
      ++ (if matBlock fb then [] else when_ (!inTile b lb) 0x06 ++ when_ (b % 32 != 0) 0x07)
    srcs := [(0, f.sB.toNat)] ++ (List.range nv).map (fun i => (1, va + i))
    matrix := true
    act := fun s' =>
      let s1 := s'.beginMma t (matCycles fa fb k) 0 (linesMet b lb)
      let now := (List.range nv).map (fun i => x.vreg (va + i))
      (s1.updTile t (fun y => (y.fly y.mbusy (.mmavCut va nv)).fly y.mbusy
        (.mmav fa fb va nv now none b k (s.matRead t b lb)))).progReadMarks t b lb }

/-- Changes every accumulator by its own index. -/
def Tile.mapL (x : Tile) (f : Nat → LAcc → LAcc) : Tile :=
  (List.range 4096).foldl (fun y e => y.setLacc e (f e (x.lacc e))) x

/-- MADD: adds the FP32 words of a bank exactly. -/
def semMadd (f : FmtMA) (_ : State) (t : Nat) : SlotSem :=
  { causes := rsv (f.rs != 0 || f.rsv != 0), matrix := true
    act := fun s' => (s'.updTile t (fun y => y.mapL (fun e l =>
      laddX l (f32 (y.bank f.bank.toNat (e / 64) (e % 64)).toNat)))).busyFor t 32 }

/-- MCLR. -/
def semMclr (f : FmtMA) (_ : State) (t : Nat) : SlotSem :=
  { causes := rsv (f.bank != 0 || f.rs != 0 || f.rsv != 0), matrix := true
    act := fun s' => (s'.updTile t (fun y => { y with acc := [] })).busyFor t 4 }

/-- MRD: reads L out into a bank, rounded once (R137, R135, R161). Its flags are in NSTAT for the next bundle
(log entry 54), and its draws follow those of a V-slot instruction of its bundle (log entry 53). -/
def semMrd (f : FmtMR) (s : State) (t : Nat) : SlotSem :=
  let x := s.tile t
  let el := mrdCode f.fmt.toNat
  { causes := rsv (f.rsv != 0) ++ rmBad f.rm ++ when_ el.isNone 0x05, matrix := true
    act := fun s' =>
      match el with
      | none => s'
      | some el =>
        let r := (List.range 4096).map (fun e =>
          let l := x.lacc e
          let q := roundTo el f.rm.toNat (s'.drawOf t f.rm.toNat e) f.sat (lread l)
          (q.1, if l.sp = .nan then q.2 ||| fNV else q.2))
        let fl := r.foldl (fun a p => a ||| p.2) (0 : Flags5)
        let s1 := s'.updTile t (fun y =>
          let y1 := r.zipIdx.foldl (fun y p =>
            y.setBank f.bank.toNat (p.2 / 64) (p.2 % 64) (BitVec.ofNat 32 p.1.1)) y
          { y1 with nstat := y1.nstat ||| fl, acc := if f.clr then [] else y1.acc })
        (s1.busyFor t 32).takeSre t f.rm.toNat 4096 }

/-- The 256-byte-aligned address of a bank or long-form access of n bytes. -/
def maBad (a n : Nat) : List Nat := when_ (!inTile a n) 0x06 ++ when_ (a % 256 != 0) 0x07

/-- ALD: bank ← 16 KiB of tile SRAM through read port 0, which it owns for its busy count. -/
def semAld (f : FmtMA) (s : State) (t : Nat) : SlotSem :=
  let a := ((s.tile t).sreg f.rs.toNat).toNat
  { causes := rsv (f.rsv != 0) ++ maBad a 16384, srcs := [(0, f.rs.toNat)], matrix := true
    act := fun s' =>
      let bs := s.matRead t a 16384
      let s1 := s'.updTile t (fun y =>
        let y1 := (List.range 4096).foldl (fun y e =>
          y.setBank f.bank.toNat (e / 64) (e % 64) (BitVec.ofNat 32 (leNat ((bs.drop (4 * e)).take 4)))) y
        { y1 with own0 := y1.aclk + 144 })
      (s1.busyFor t 144).progReadMarks t a 16384 }

/-- The bytes of a bank (R164). -/
def Tile.bankBytes (x : Tile) (b : Nat) : List Byte :=
  (List.range 4096).flatMap (fun e => leBytes 4 (x.bank b (e / 64) (e % 64)).toNat)

/-- AST: 16 KiB of tile SRAM ← bank through the write port, which it owns for its busy count (R165). -/
def semAst (f : FmtMA) (s : State) (t : Nat) : SlotSem :=
  let x := s.tile t
  let a := (x.sreg f.rs.toNat).toNat
  { causes := rsv (f.rsv != 0) ++ maBad a 16384, srcs := [(0, f.rs.toNat)], matrix := true
    act := fun s' => (s'.updTile t (fun y =>
      { y.fly (y.aclk + 162) (.memBusy (sramAt t a) ((x.bankBytes f.bank.toNat).map some)) with
        ownW := y.aclk + 160 })).busyFor t 160 }

/-- MLST: the long form of L to 160 KiB of tile SRAM (R138). -/
def semMlst (f : FmtMA) (s : State) (t : Nat) : SlotSem :=
  let x := s.tile t
  let a := (x.sreg f.rs.toNat).toNat
  { causes := rsv (f.bank != 0 || f.rsv != 0) ++ maBad a 163840, srcs := [(0, f.rs.toNat)], matrix := true
    act := fun s' => (s'.updTile t (fun y =>
      { y.fly (y.aclk + 1490) (.memBusy (sramAt t a)
          (((List.range 4096).flatMap (fun e => lform (x.lacc e))).map some)) with
        ownW := y.aclk + 1488 })).busyFor t 1488 }

/-- MLAD: L += the long-form array at s[rs]; NV if an element is NaN afterwards (R135), in NSTAT for the next
bundle (log entry 54). -/
def semMlad (f : FmtMA) (s : State) (t : Nat) : SlotSem :=
  let x := s.tile t
  let a := (x.sreg f.rs.toNat).toNat
  { causes := rsv (f.bank != 0 || f.rsv != 0) ++ maBad a 163840, srcs := [(0, f.rs.toNat)], matrix := true
    act := fun s' =>
      let bs := s.matRead t a 163840
      let s1 := s'.updTile t (fun y =>
        let y1 := y.mapL (fun e l => laddL l (lparse ((bs.drop (40 * e)).take 40)))
        let nan := y1.acc.any (fun c => c.2.sp == .nan)
        { y1 with own0 := y1.aclk + 1296, nstat := if nan then y1.nstat ||| fNV else y1.nstat })
      (s1.busyFor t 1296).progReadMarks t a 163840 }

/-- ARDV: v ← a bank row, result at 4. -/
def semArdv (f : FmtMX) (s : State) (t : Nat) : SlotSem :=
  let x := s.tile t
  let v := ofLanes ((List.range 64).map (fun j => (x.bank f.bank.toNat f.row.toNat j).toNat))
  { causes := rsv (f.rsv != 0), dest := [(1, f.v.toNat)], matrix := true
    act := fun s' => (s'.flyV t 4 f.v.toNat v (BitVec.allOnes 2048)).busyFor t 2 }

/-- AWRV: a bank row ← v. -/
def semAwrv (f : FmtMX) (s : State) (t : Nat) : SlotSem :=
  let x := s.tile t
  let v := x.vreg f.v.toNat
  { causes := rsv (f.rsv != 0), srcs := [(1, f.v.toNat)], matrix := true
    act := fun s' => (s'.updTile t (fun y => (List.range 64).foldl (fun y j =>
      y.setBank f.bank.toNat f.row.toNat j (BitVec.ofNat 32 (lane v j))) y)).busyFor t 2 }

end Sys2Proof.Machine
end

