-- ==== Sys2Proof/Machine/Engine.lean ====
section
/-! DEFINITION. What a tile's ports do GCLK by GCLK beside its program (06_tile_instruction_set R152, R166,
R520; 07_grid_messaging R176-R180, R185, R186): landing lines, operand fetch, staging of messages, XMOV and
the beats that leave; and the advance of a tile's ACLK, which carries them along. -/

namespace Sys2Proof.Machine

def allDirs : List Dir := [.north, .east, .south, .west]

/-! ## Operand fetch (R166) -/

/-- One GCLK of operand fetch: each port that is free reads one line; a GCLK the fetcher takes on read port 1
is noted as used, with a bank that no line is in. -/
def fetchGclk (x : Tile) (g : Nat) : Tile :=
  let free0 := x.m0 != 0 && !x.rp0.any (fun u => u.1 == g)
  let free1 := x.m1 != 0 && g % 8 != 7 && !x.rp1.any (fun u => u.1 == g)
  { x with
    m0 := if free0 then x.m0 - 1 else x.m0, m1 := if free1 then x.m1 - 1 else x.m1
    mg := if free0 || free1 then max x.mg (g - x.mIss / 2) else x.mg, mNext := g + 1
    rp1 := if free1 then x.rp1 ++ [(g, 32)] else x.rp1 }

/-- ACLK at which the matrix unit takes its next instruction, once its lines are read: the busy count and
the end wait max(0, 2 g − c) (R166). -/
def Tile.mEnd (x : Tile) : Nat := x.mbusy + (2 * x.mg - x.mc)

/-- An MMA's products land no earlier than its end. -/
def delayMma (x : Tile) (a : Nat) : Tile :=
  let d := if x.m0 = 0 && x.m1 = 0 then x.mEnd else max (a + 1) x.mEnd
  let isMma (l : Land) : Bool := match l with | .mma .. => true | .mmav .. => true | _ => false
  let late := x.flight.filter (fun f => isMma f.land && f.due < d)
  let rest := x.flight.filter (fun f => !(isMma f.land && f.due < d))
  { x with flight := late.foldl (fun l f => addFlight { f with due := d } l) rest }

/-! ## Increments of grid tallies (R178, R181) -/

/-- A grid tally is incremented in GCLK g: in the first ACLK of it when a program runs, at once otherwise. -/
def State.tallyAt (s : State) (t g k : Nat) (mark : Bool) (own : Option Nat) : State :=
  let r := (s.tile t).run
  if r = .running || r = .stopping then s.updTile t (fun x => x.fly (2 * g) (.tally k mark own))
  else s.landFlight t (.tally k mark own)

/-! ## Messages that end without landing (R102, R108, R179, R186) -/

/-- Whether message `id` of tile `src` still has beats to come from its tile. -/
def State.injecting (s : State) (src id : Nat) : Bool :=
  (s.tile src).msgId == id && ((s.tile src).injq.head?.map (fun m => decide (0 < m.sent))).getD false

/-- A message that has left its tile whole has landed or been discarded. -/
def State.msgGone (s : State) (src : Nat) : State :=
  s.updTile src (fun x => { x with outMsgs := x.outMsgs - 1 })

/-- The record of a message at its destination. -/
def State.landingOf (s : State) (b : Beat) : Option Landing :=
  (s.tile b.dstTile).landing.find? (fun l => l.src == b.src && l.id == b.id)
/-- Whether a message is already discarded, and whether its beats count. -/
def State.deadMsg (s : State) (b : Beat) : Option Bool := (s.landingOf b).bind Landing.dead

/-- A discarded message is forgotten once no beat of it is left anywhere. -/
def State.settleDead (s : State) (src id dst : Nat) : State :=
  if !s.injecting src id && !s.beats.any (fun b => b.src == src && b.id == id) then
    (s.updTile dst (fun x => { x with
      landing := x.landing.filter (fun l => !(l.src == src && l.id == id)) })).msgGone src
  else s

/-- Beats of a landing message of which some byte is still in the buffer. -/
def Landing.buffered (l : Landing) : Nat :=
  (l.beats.filter (fun j => l.lines.any (fun n => n.cells.any (fun c =>
    l.dst + 64 * j ≤ c.1 && c.1 < l.dst + 64 * j + 64)))).length

/-- A beat is discarded with its message; under R179 and R186 it counts, and with it the beats of the message
that wait in the landing buffer. -/
def State.discardBeat (s : State) (b : Beat) (others : List Beat) (counts : Bool) : State :=
  let n := match s.landingOf b with | some l => l.buffered | none => 0
  let l : Landing := { src := b.src, id := b.id, dst := 0, len := b.len, tally := b.tally, mark := false,
                       beats := [], left := 0, dead := some ((s.deadMsg b).getD counts) }
  let s1 : State := { s with beats := others }
  let s2 := if (s.deadMsg b).getD counts then s1.count bGRID 0 0xC00 (1 + n) else s1
  let s3 := s2.updTile b.dstTile (fun x => { x with
    landing := x.landing.filter (fun m => !(m.src == b.src && m.id == b.id)) ++ [l] })
  s3.settleDead b.src b.id b.dstTile

/-! ## Landing (R178-R180) -/

/-- Lines in a tile's landing buffer, and those of them that are complete before a GCLK. -/
def Tile.bufLines (x : Tile) : Nat := (x.landing.map (fun l => l.lines.length)).sum
def Tile.landLines (x : Tile) (g : Nat) : Nat :=
  (x.landing.map (fun l => (l.lines.filter (fun n => match n.full with | some f => decide (f < g) | none => false)).length)).sum

/-- The complete line that was complete first, with its message (R178). -/
def Tile.nextLine (x : Tile) (g : Nat) : Option (Landing × LandLine) :=
  (x.landing.flatMap (fun l => l.lines.map (fun n => (l, n)))).foldl (fun b c =>
    match c.2.full with
    | none => b
    | some f =>
      if g ≤ f then b
      else match b with
        | none => some c
        | some d => if f < d.2.full.getD 0 then some c else b) none

/-- Whether the write port is free of the program in GCLK g, and not reserved (R88). -/
def Tile.writeFree (x : Tile) (g : Nat) : Bool := g % 8 != 7 && !x.wp.any (fun u => u.1 == g)

/-- Owner of the unsettled bytes of a landing message (R180). -/
def landOwner (t src id : Nat) : Nat := 2 ^ 50 + (t * 2048 + src) * 65536 + id % 65536

/-- A destination line is written in GCLK g; after the last one of its message the tally is incremented in the
GCLK that follows, unless the tile's tallies were cleared by ABORT. -/
def State.landLine (s : State) (t : Nat) (l : Landing) (n : LandLine) (g : Nat) : State :=
  let lo := max l.dst (n.no * 256)
  let a := sramAt t lo
  let bs := (List.range n.want).map (fun i => ((n.cells.find? (fun c => c.1 == lo + i)).map Prod.snd).getD 0)
  let prior := (readBytes s.mem a n.want).zipIdx.map (fun p => (a + p.2, p.1))
  let own := landOwner t l.src l.id
  let s1 := s.poke a bs
  let s2 := ({ s1 with soft := s1.soft ++ [{ owner := own, grain := 256, cells := prior }] } : State).updTile t (fun x => { x with
    roomAt := if 16 ≤ x.bufLines then g else x.roomAt
    landing := x.landing.map (fun m =>
      if m.src = l.src && m.id = l.id then { m with lines := m.lines.erase n, left := m.left - 1 } else m) })
  if 1 < l.left then s2
  else
    let s3 := s2.updTile t (fun x => { x with landing := x.landing.filter (fun m => !(m.src == l.src && m.id == l.id)) })
    let r := (s3.tile t).run
    if r = .idle || r = .unavailable then s3.unsoft own else s3.tallyAt t (g + 1) l.tally l.mark (some own)

/-- Puts the bytes of a beat into the lines of a message's buffer. -/
def landCells (dst len g : Nat) (ls : List LandLine) (cs : List (Nat × Byte)) : List LandLine :=
  (cs.map (fun c => c.1 / 256)).eraseDups.foldl (fun ls no =>
    let mine := cs.filter (fun c => c.1 / 256 == no)
    let want := min (dst + len) (no * 256 + 256) - max dst (no * 256)
    let old := ((ls.find? (fun n => n.no == no)).map LandLine.cells).getD []
    let n : LandLine := { no := no, cells := old ++ mine, want := want
                          full := if (old ++ mine).length = want then some g else none }
    ls.filter (fun n => n.no != no) ++ [n]) ls

/-- A beat reaches its destination in the tile's GCLK g: it enters the landing buffer; the message has landed
with its last beat (R178). -/
def State.landBeat (s : State) (b : Beat) (others : List Beat) (g : Nat) : State :=
  let cs := b.bytes.zipIdx.map (fun p => (b.dst + 64 * b.j + p.2, p.1))
  let l : Landing := (s.landingOf b).getD { src := b.src, id := b.id, dst := b.dst, len := b.len, tally := b.tally,
                                            mark := false, beats := [], left := linesMet b.dst b.len }
  let l1 : Landing := { l with beats := l.beats ++ [b.j], mark := l.mark || b.mark, lines := landCells b.dst b.len g l.lines cs }
  let s1 := ({ s with beats := others } : State).updTile b.dstTile (fun x => { x with
    landing := x.landing.filter (fun m => !(m.src == b.src && m.id == b.id)) ++ [l1] })
  if l1.beats.length = (b.len + 63) / 64 then s1.msgGone b.src else s1

/-! ## Injection (R176, R177, R185, R188) -/

/-- Source lines of a message, and the tile-local range of line i. -/
def Msg.lineCount (m : Msg) : Nat := linesMet m.src m.len
def Msg.lineLo (m : Msg) (i : Nat) : Nat := max m.src ((m.src / 256 + i) * 256)
def Msg.lineHi (m : Msg) (i : Nat) : Nat := min (m.src + m.len) ((m.src / 256 + i + 1) * 256)
/-- First and last source line that beat j touches. -/
def Msg.beatLo (m : Msg) (j : Nat) : Nat := (m.src + 64 * j) / 256 - m.src / 256
def Msg.beatHi (m : Msg) (j : Nat) : Nat := (m.src + min m.len (64 * j + 64) - 1) / 256 - m.src / 256

/-- Whether a message stages its next line in GCLK g: at most two lines are staged at once. -/
def Msg.stages (m : Msg) (g : Nat) : Bool :=
  !m.vec && m.ready ≤ g && m.next < m.lineCount && m.lines.length < 2

/-- The GCLK from which the next beat may leave: the one after that in which the last line it touches was
staged. -/
def Msg.beatFrom (m : Msg) : Option Nat :=
  if m.vec then some m.ready
  else
    let need := (List.range (m.beatHi m.sent + 1)).filter (m.beatLo m.sent ≤ ·)
    if need.all (fun i => m.lines.any (fun l => l.1 == i)) then
      some ((m.lines.filter (fun l => need.contains l.1)).foldl (fun a l => max a (l.2.1 + 1)) 0)
    else none

/-- Reads the next source line of the i-th message of the queue in GCLK g. A line that the program has
rewritten since the message issued is carried as it stood then or as rewritten (R177); the source tally counts
in the GCLK after the last line is read. -/
def State.stageLine (s : State) (t i g : Nat) : State :=
  match (s.tile t).injq[i]? with
  | none => s
  | some m =>
    let lo := m.lineLo m.next
    let n := m.lineHi m.next - lo
    let bs := if s.freeBit (lo / 256 * 8 + 5) then (m.old.drop (lo - m.src)).take n else s.progRead t lo n
    let m1 := { m with lines := m.lines ++ [(m.next, g, bs)], next := m.next + 1 }
    let s1 := (s.updTile t (fun x => { x with injq := x.injq.set i m1 })).progReadMarks t lo n
    match m.srct with
    | some k => if m1.next = m.lineCount then s1.tallyAt t (g + 1) k false none else s1
    | none => s1

/-- The bytes of a message's next beat. -/
def Msg.beatBytes (m : Msg) : List Byte :=
  let n := min 64 (m.len - 64 * m.sent)
  if m.vec then (m.old.drop (64 * m.sent)).take n
  else (List.range n).map (fun k =>
    let a := m.src + 64 * m.sent + k
    match m.lines.find? (fun l => l.1 == a / 256 - m.src / 256) with
    | some l => l.2.2.getD (a - m.lineLo l.1) 0
    | none => 0)

/-- The head message after its next beat has left in GCLK g: lines no later beat touches are released. -/
def Msg.after (m : Msg) (g : Nat) (mark : Bool) : Msg :=
  { m with sent := m.sent + 1, mark := m.mark || mark, ready := max m.ready (g + 1)
           lines := m.lines.filter (fun l => m.beatLo (m.sent + 1) ≤ l.1) }

/-- The next beat of the head message leaves by an output in the tile's GCLK g. With the last one the message
is injected. A link into an unavailable tile carries nothing (R102). -/
def State.sendBeat (s : State) (t : Nat) (d : Dir) (g : Nat) : State :=
  let x := s.tile t
  match x.injq, neighbour t d with
  | m :: ms, some u =>
    let b : Beat := { src := t, id := x.msgId, dstTile := m.dstTile, dst := m.dst, len := m.len, tally := m.tally
                      j := m.sent, bytes := m.beatBytes, mark := x.flag, gclk := g + x.lag + hopLatency t d
                      at_ := u, input := opposite d }
    let last := decide (m.len ≤ 64 * (m.sent + 1))
    let s1 := s.updTile t (fun y =>
      if last then { y with injq := ms, msgId := y.msgId + 1, outMsgs := y.outMsgs + 1 }
      else { y with injq := m.after g x.flag :: ms })
    let s2 := if last && (m.mark || x.flag) then s1.count bGRID 0 0xC18 1 else s1
    let s3 : State := { s2 with beats := s2.beats ++ [b] }
    if (s.tile u).run = .unavailable then s3.discardBeat b s2.beats false
    else if (s3.deadMsg b).isSome && last then s3.settleDead t b.id b.dstTile else s3
  | _, _ => s

/-- The output whose slot table has local injection in the tile's GCLK g (R185, Table 7-1). -/
def State.injectOut (s : State) (t g : Nat) : Option Dir :=
  allDirs.find? (fun d => s.ownsLink t t d && !(s.link t d).steady &&
    mget 0 (s.link t d).table ((g + (s.tile t).lag) % 256) == 1)

/-- Exact mode: a local-injection entry takes the next beat if it is staged, else it is idle (R186). -/
def State.exactBeat (s : State) (t g : Nat) : State :=
  match (s.tile t).injq.head?.bind Msg.beatFrom, s.injectOut t g with
  | some r, some d => if r ≤ g then s.sendBeat t d g else s
  | _, _ => s

/-! ## XMOV (R520) -/

/-- An XMOV whose last line is written in GCLK g counts in the next; one of length 0 behind it does too. -/
def State.xmovEnds (s : State) (t g : Nat) : Nat → State
  | 0 => s
  | n + 1 =>
    match (s.tile t).xmovs with
    | m :: ms =>
      if m.len ≤ 256 * m.read && m.buf.isEmpty then
        ((s.updTile t (fun x => { x with xmovs := ms })).tallyAt t (g + 1) m.tally false none).xmovEnds t g n
      else s
    | [] => s

/-- XMOV reads its next source line. -/
def State.xmovRead (s : State) (t g : Nat) : State :=
  match (s.tile t).xmovs with
  | m :: ms =>
    if m.ready ≤ g && 256 * m.read < m.len then
      let a := m.src + 256 * m.read
      (s.updTile t (fun x => { x with xmovs :=
        { m with read := m.read + 1, buf := m.buf ++ [(g, s.progRead t a 256)] } :: ms })).progReadMarks t a 256
    else s
  | [] => s

/-- XMOV writes the line it read first, in a GCLK after its reading. -/
def State.xmovWrite (s : State) (t g : Nat) : State :=
  match (s.tile t).xmovs with
  | m :: ms =>
    match m.buf with
    | c :: cs =>
      if c.1 < g then
        let k := m.read - m.buf.length
        (((s.poke (sramAt t (m.dst + 256 * k)) c.2).updTile t (fun x => { x with xmovs := { m with buf := cs } :: ms })
          ).xmovEnds t g ((s.tile t).xmovs.length + 1))
      else s
    | [] => s
  | [] => s

/-! ## One GCLK of a tile's ports -/

/-- Whether a tile has nothing under way beside its program. -/
def Tile.engIdle (x : Tile) : Bool :=
  x.m0 == 0 && x.m1 == 0 && x.injq.isEmpty && x.xmovs.isEmpty && x.landing.isEmpty

/-- GCLK g of a tile's ports, the program's accesses in it being served (Table 4-2): the program comes before
the fetcher, the fetcher before the injector, the injector before XMOV on read port 1; the program before a
landing line, a landing line before XMOV on the write port (R152, R166, R178, R520). -/
def State.engGclk (s : State) (t g : Nat) : State :=
  let s0 := s.landMem t (2 * g + 1)
  let x := s0.tile t
  let free := x.writeFree g
  let line := if free then x.nextLine g else none
  let s1 := match line with | some c => s0.landLine t c.1 c.2 g | none => s0
  let fetches := (x.m0 != 0 || x.m1 != 0) && x.mNext ≤ g
  let s2 := if fetches then s1.updTile t (fun y => fetchGclk y g) else s1
  let port1 := g % 8 != 7 && !(s2.tile t).rp1.any (fun u => u.1 == g)
  let i := (s2.tile t).injq.findIdx? (fun m => m.stages g)
  let s3 := if port1 then (match i with | some i => s2.stageLine t i g | none => s2.xmovRead t g) else s2
  let s4 := if free && line.isNone then s3.xmovWrite t g else s3
  (s4.exactBeat t g).updTile t (fun y => { y with eng := g + 1 })

/-- The next n GCLKs of a tile's ports. -/
def State.engTo (s : State) (t : Nat) : Nat → State
  | 0 => s
  | n + 1 =>
    if (s.tile t).engIdle then s.updTile t (fun x => { x with eng := x.eng + (n + 1) })
    else (s.engGclk t (s.tile t).eng).engTo t n

/-! ## The advance of ACLK -/

/-- A tile's ACLK advances by n: CYCLE and TILE_CNT_ACLK count, its ports go on, due results land. -/
def State.advance (s : State) (t n : Nat) : State :=
  let a := (s.tile t).aclk + n
  let s1 := s.engTo t (a / 2 - (s.tile t).eng)
  let x := s1.tile t
  let keep (l : List (Nat × Nat)) := l.filter (fun u => a / 2 ≤ u.1)
  let x2 := { delayMma x a with
    aclk := a, cycle := x.cycle + BitVec.ofNat 64 n, rp0 := keep x.rp0, rp1 := keep x.rp1, wp := keep x.wp }
  ((s1.setTile t x2).count bTILE t 0xC00 n).landUpTo t a

/-- Cycles that hold a tile in a wait: they count as external-wait cycles when the wait is one (R169). -/
def State.hold (s : State) (t n : Nat) : State :=
  let x := s.tile t
  let s1 := (s.advance t n).updTile t (fun y => { y with waited := y.waited + n })
  if x.waitExt then
    (s1.updTile t (fun y => { y with extwait := y.extwait + BitVec.ofNat 64 n })).count bTILE t 0xC08 n
  else s1

/-- The wait of a matrix instruction for the fetch of the one before it, 2 ACLK at a time (R166). -/
def State.fetchWait (s : State) (t : Nat) : Nat → State
  | 0 => s
  | n + 1 =>
    let x := s.tile t
    if x.m0 = 0 && x.m1 = 0 then (if x.aclk < x.mEnd then s.advance t (x.mEnd - x.aclk) else s)
    else (s.advance t 2).fetchWait t n

/-! ## Ports of a tile whose program waits for the grid -/

/-- The ACLK at which increments in flight satisfy a wait on tally k for operand n; `none` if they do not. -/
def Tile.tallyDue (x : Tile) (k n : Nat) : Option Nat :=
  let rec go : List Flight → Nat → Option Nat
    | [], _ => none
    | f :: fs, c =>
      match f.land with
      | .tally j _ _ => if j = k then (if n ≤ c + 1 then some f.due else go fs (c + 1)) else go fs c
      | _ => go fs c
  go x.flight (x.tally k).toNat

/-- Whether GCLK g of a tile's ports may come to pass: it lies before the tile's own clock, or no bundle of the
program can issue before it, since the tile has none to issue or waits for the grid (log entry 2). -/
def Tile.mayRun (x : Tile) (g : Nat) : Bool :=
  match x.run with
  | .running => go
  | .stopping => go
  | _ => true
where
  go : Bool :=
    match x.waitFor with
    | some (.tally k n false) => (match x.tallyDue k n with | some d => decide (g < d / 2) | none => true)
    | some (.wave _) => true
    | some .inject => true
    | some .stepDrain => true
    | some .phase => true
    | _ => decide (g < x.aclk / 2)

/-- GCLKs of a tile's ports while a condition holds and they may come to pass. -/
def State.engWhile (s : State) (t : Nat) (go : Tile → Bool) : Nat → State
  | 0 => s
  | n + 1 =>
    let x := s.tile t
    if go x && x.mayRun x.eng then (s.engGclk t x.eng).engWhile t go n else s

end Sys2Proof.Machine
end

