-- ==== Sys2Proof/Machine/Bundle.lean ====
section
/-! DEFINITION. Bundles as instruction memory holds them (06_tile_instruction_set R143, R144, R151, Tables
6-2 to 6-8): the four slots of 16 bytes, the fields of each format, and the instruction a slot word is. -/

namespace Sys2Proof.Machine

/-- Slot words of a bundle's 16 bytes as one little-endian number: S, V, M, X (R143). -/
def bundleWord (b : BitVec 128) : Slot → W32
  | .S => b.extractLsb' 0 32
  | .V => b.extractLsb' 32 32
  | .M => b.extractLsb' 64 32
  | .X => b.extractLsb' 96 32

/-- n bits of a slot word from bit lo. -/
def fieldAt (w : W32) (lo n : Nat) : BitVec n := w.extractLsb' lo n

/-! ## The formats of Table 6-2 -/

def fmtSR (w : W32) : FmtSR := { rd := fieldAt w 20 6, rs1 := fieldAt w 14 6, rs2 := fieldAt w 8 6 }
def fmtSI (w : W32) : FmtSI := { rd := fieldAt w 20 6, rs1 := fieldAt w 14 6, imm := fieldAt w 0 14 }
def fmtSB (w : W32) : FmtSB := { rs1 := fieldAt w 20 6, rs2 := fieldAt w 14 6, off := fieldAt w 0 14 }
def fmtSU (w : W32) : FmtSU := { rd := fieldAt w 20 6, imm := fieldAt w 0 20 }
def fmtSL (w : W32) : FmtSL :=
  { lvl := fieldAt w 24 2, rs := fieldAt w 18 6, rsv := fieldAt w 14 4, len := fieldAt w 0 14 }
def fmtSC (w : W32) : FmtSC := { r := fieldAt w 20 6, rsv := fieldAt w 8 12, cr := fieldAt w 0 8 }
def fmtSP (w : W32) : FmtSP :=
  { pd := fieldAt w 23 3, pa := fieldAt w 20 3, pb := fieldAt w 17 3, rs := fieldAt w 11 6, func := fieldAt w 8 3
    rsv := fieldAt w 0 8 }
def fmtVR (w : W32) : FmtVR :=
  { vd := fieldAt w 21 5, va := fieldAt w 16 5, vb := fieldAt w 11 5, vc := fieldAt w 6 5, pred := fieldAt w 3 3
    rm := fieldAt w 0 3 }
def fmtVP (w : W32) : FmtVP :=
  { pd := fieldAt w 23 3, cond := fieldAt w 20 3, va := fieldAt w 15 5, vb := fieldAt w 10 5, rsv := fieldAt w 6 4
    pred := fieldAt w 3 3, rsv2 := fieldAt w 0 3 }
def fmtVS (w : W32) : FmtVS :=
  { v := fieldAt w 21 5, rs := fieldAt w 15 6, lane := fieldAt w 9 6, rsv := fieldAt w 6 3, pred := fieldAt w 3 3
    rsv2 := fieldAt w 0 3 }
def fmtVC (w : W32) : FmtVC :=
  { vd := fieldAt w 21 5, va := fieldAt w 16 5, sfmt := fieldAt w 12 4, dfmt := fieldAt w 8 4, sat := w.getLsbD 7
    pred := fieldAt w 4 3, rm := fieldAt w 1 3, rsv := fieldAt w 0 1 }
def fmtVM (w : W32) : FmtVM :=
  { v := fieldAt w 21 5, rs := fieldAt w 15 6, off := fieldAt w 3 12, pred := fieldAt w 0 3 }
def fmtMM (w : W32) : FmtMM :=
  { fa := fieldAt w 22 4, fb := fieldAt w 18 4, sA := fieldAt w 12 6, sB := fieldAt w 6 6, sK := fieldAt w 0 6 }
def fmtMV (w : W32) : FmtMV :=
  { fa := fieldAt w 22 4, fb := fieldAt w 18 4, va := fieldAt w 13 5, nv := fieldAt w 8 5, sB := fieldAt w 2 6
    rsv := fieldAt w 0 2 }
def fmtMR (w : W32) : FmtMR :=
  { bank := fieldAt w 24 2, fmt := fieldAt w 20 4, rm := fieldAt w 17 3, sat := w.getLsbD 16, clr := w.getLsbD 15
    rsv := fieldAt w 0 15 }
def fmtMA (w : W32) : FmtMA := { bank := fieldAt w 24 2, rs := fieldAt w 18 6, rsv := fieldAt w 0 18 }
def fmtMX (w : W32) : FmtMX :=
  { v := fieldAt w 21 5, bank := fieldAt w 19 2, row := fieldAt w 13 6, rsv := fieldAt w 0 13 }
def fmtXD (w : W32) : FmtXD := { sn := fieldAt w 20 6, rsv := fieldAt w 0 20 }
def fmtXV (w : W32) : FmtXV := { v := fieldAt w 21 5, sn := fieldAt w 15 6, rsv := fieldAt w 0 15 }
def fmtXT (w : W32) : FmtXT := { t := fieldAt w 20 6, rs := fieldAt w 14 6, rsv := fieldAt w 0 14 }
def fmtXS (w : W32) : FmtXS := { rsv := fieldAt w 24 2, wave := fieldAt w 20 4, rsv2 := fieldAt w 0 20 }
def fmtXB (w : W32) : FmtXB := { sn := fieldAt w 20 6, cnt := fieldAt w 16 4, rsv := fieldAt w 0 16 }

/-! ## The opcode tables -/

/-- SR instructions of opcode 0x01, by func (Table 6-3). -/
def decodeFunc (a : At) (w : W32) : Option Instr :=
  let f := fmtSR w
  match (fieldAt w 0 8).toNat with
  | 0x00 => some (.add a f) | 0x01 => some (.sub a f) | 0x02 => some (.and a f) | 0x03 => some (.or a f)
  | 0x04 => some (.xor a f) | 0x05 => some (.sll a f) | 0x06 => some (.srl a f) | 0x07 => some (.sra a f)
  | 0x08 => some (.slt a f) | 0x09 => some (.sltu a f) | 0x0A => some (.min a f) | 0x0B => some (.max a f)
  | 0x10 => some (.mul a f) | 0x11 => some (.mulhu a f)
  | _ => none

/-- S slot (Table 6-3). -/
def decodeS (a : At) (w : W32) : Option Instr :=
  match (fieldAt w 26 6).toNat with
  | 0x01 => decodeFunc a w
  | 0x02 => some (.addi a (fmtSI w)) | 0x03 => some (.andi a (fmtSI w)) | 0x04 => some (.ori a (fmtSI w))
  | 0x05 => some (.xori a (fmtSI w)) | 0x06 => some (.slli a (fmtSI w)) | 0x07 => some (.srli a (fmtSI w))
  | 0x08 => some (.srai a (fmtSI w)) | 0x09 => some (.slti a (fmtSI w)) | 0x0A => some (.lui a (fmtSU w))
  | 0x0B => some (.plog a (fmtSP w)) | 0x0C => some (.pset a (fmtSP w)) | 0x0D => some (.pget a (fmtSP w))
  | 0x10 => some (.ld a (fmtSI w)) | 0x11 => some (.lw a (fmtSI w))
  | 0x12 => some (.st a (fmtSB w)) | 0x13 => some (.sw a (fmtSB w))
  | 0x20 => some (.beq a (fmtSB w)) | 0x21 => some (.bne a (fmtSB w)) | 0x22 => some (.blt a (fmtSB w))
  | 0x23 => some (.bge a (fmtSB w)) | 0x24 => some (.bltu a (fmtSB w)) | 0x25 => some (.bgeu a (fmtSB w))
  | 0x27 => some (.jal a (fmtSU w)) | 0x28 => some (.jr a (fmtSI w)) | 0x2A => some (.loop a (fmtSL w))
  | 0x30 => some (.csrr a (fmtSC w)) | 0x31 => some (.csrw a (fmtSC w)) | 0x32 => some (.csrc a (fmtSC w))
  | 0x38 => some (.step a (fieldAt w 0 26)) | 0x39 => some (.endProg a (fieldAt w 0 26))
  | 0x3A => some (.trap a (fmtSU w)) | 0x3B => some (.waitt a (fmtSI w))
  | _ => none

/-- V slot (Table 6-4). -/
def decodeV (a : At) (w : W32) : Option Instr :=
  match (fieldAt w 26 6).toNat with
  | 0x01 => some (.vaddF a (fmtVR w)) | 0x02 => some (.vsubF a (fmtVR w)) | 0x03 => some (.vmulF a (fmtVR w))
  | 0x04 => some (.vfmaF a (fmtVR w)) | 0x05 => some (.vminF a (fmtVR w)) | 0x06 => some (.vmaxF a (fmtVR w))
  | 0x07 => some (.vfn a (fmtVR w)) | 0x08 => some (.vcmpF a (fmtVP w)) | 0x09 => some (.vaddI a (fmtVR w))
  | 0x0A => some (.vsubI a (fmtVR w)) | 0x0B => some (.vmulI a (fmtVR w)) | 0x0C => some (.vand a (fmtVR w))
  | 0x0D => some (.vor a (fmtVR w)) | 0x0E => some (.vxor a (fmtVR w)) | 0x0F => some (.vshl a (fmtVR w))
  | 0x10 => some (.vshr a (fmtVR w)) | 0x11 => some (.vsra a (fmtVR w)) | 0x12 => some (.vcmpI a (fmtVP w))
  | 0x13 => some (.vsel a (fmtVR w)) | 0x14 => some (.vbcast a (fmtVS w)) | 0x15 => some (.vext a (fmtVS w))
  | 0x16 => some (.vperm a (fmtVR w)) | 0x17 => some (.vredF a (fmtVR w)) | 0x18 => some (.vcvt a (fmtVC w))
  | 0x19 => some (.vqnt a (fmtVC w)) | 0x1A => some (.vdq a (fmtVC w)) | 0x20 => some (.vld a (fmtVM w))
  | 0x21 => some (.vst a (fmtVM w))
  | _ => none

/-- M slot (Table 6-7). -/
def decodeM (a : At) (w : W32) : Option Instr :=
  match (fieldAt w 26 6).toNat with
  | 0x01 => some (.mma a (fmtMM w)) | 0x02 => some (.mmav a (fmtMV w)) | 0x03 => some (.madd a (fmtMA w))
  | 0x04 => some (.mclr a (fmtMA w)) | 0x05 => some (.mrd a (fmtMR w)) | 0x06 => some (.ald a (fmtMA w))
  | 0x07 => some (.ast a (fmtMA w)) | 0x08 => some (.mlst a (fmtMA w)) | 0x09 => some (.mlad a (fmtMA w))
  | 0x0A => some (.ardv a (fmtMX w)) | 0x0B => some (.awrv a (fmtMX w))
  | _ => none

/-- X slot (Table 6-8). -/
def decodeX (a : At) (w : W32) : Option Instr :=
  match (fieldAt w 26 6).toNat with
  | 0x01 => some (.xmsg a (fmtXD w)) | 0x02 => some (.xmsgv a (fmtXV w)) | 0x03 => some (.xmov a (fmtXD w))
  | 0x08 => some (.xwait a (fmtXT w)) | 0x09 => some (.xtset a (fmtXT w)) | 0x0A => some (.xtrd a (fmtXT w))
  | 0x0C => some (.xsync a (fmtXS w)) | 0x10 => some (.xfill a (fmtXD w)) | 0x11 => some (.xspill a (fmtXD w))
  | 0x18 => some (.xmbw a (fmtXB w)) | 0x19 => some (.xmbr a (fmtXB w)) | 0x20 => some (.xfld a (fmtXV w))
  | _ => none

/-- The instruction a slot word is, by its slot's own table (R144); none for a NOP and for a word the table
does not assign. -/
def decodeSlot (a : At) (sl : Slot) (w : W32) : Option Instr :=
  match sl with
  | .S => decodeS a w
  | .V => decodeV a w
  | .M => decodeM a w
  | .X => decodeX a w

/-- Whether an S-slot word is a branch, jump, LOOP or END (R155). -/
def ctlWord (w : W32) : Bool :=
  match decodeS ⟨0, false⟩ w with
  | some (.beq _ _) => true | some (.bne _ _) => true | some (.blt _ _) => true | some (.bge _ _) => true
  | some (.bltu _ _) => true | some (.bgeu _ _) => true | some (.jal _ _) => true | some (.jr _ _) => true
  | some (.loop _ _) => true | some (.endProg _ _) => true
  | _ => false

end Sys2Proof.Machine
end

