-- ==== Sys2Proof/Machine/Scalar.lean ====
section
/-! DEFINITION. The S slot (06_tile_instruction_set R149-R157, Tables 6-1 and 6-3). -/

namespace Sys2Proof.Machine

/-- A register operation rd ← op(rs1, rs2) with a latency. -/
def semAlu (op : W64 → W64 → W64) (lat : Nat) (f : FmtSR) (s : State) (t : Nat) : SlotSem :=
  let x := s.tile t
  { dest := [(0, f.rd.toNat)], srcs := [(0, f.rs1.toNat), (0, f.rs2.toNat)]
    act := fun s' => s'.flyS t lat f.rd.toNat (op (x.sreg f.rs1.toNat) (x.sreg f.rs2.toNat)) }

/-- rd ← op(rs1, imm). -/
def semAluI (op : W64 → W64 → W64) (f : FmtSI) (s : State) (t : Nat) : SlotSem :=
  let x := s.tile t
  { dest := [(0, f.rd.toNat)], srcs := [(0, f.rs1.toNat)]
    act := fun s' => s'.flyS t 1 f.rd.toNat (op (x.sreg f.rs1.toNat) (sx f.imm)) }

/-- The low 6 bits of a shift amount. -/
def shamt (b : W64) : Nat := b.toNat % 64
def opAdd (a b : W64) : W64 := a + b
def opSub (a b : W64) : W64 := a - b
def opAnd (a b : W64) : W64 := a &&& b
def opOr (a b : W64) : W64 := a ||| b
def opXor (a b : W64) : W64 := a ^^^ b
def opSll (a b : W64) : W64 := a <<< shamt b
def opSrl (a b : W64) : W64 := a >>> shamt b
def opSra (a b : W64) : W64 := a.sshiftRight (shamt b)
def opSlt (a b : W64) : W64 := if a.slt b then 1 else 0
def opSltu (a b : W64) : W64 := if a.ult b then 1 else 0
def opMin (a b : W64) : W64 := if a.slt b then a else b
def opMax (a b : W64) : W64 := if a.slt b then b else a
def opMul (a b : W64) : W64 := a * b
def opMulhu (a b : W64) : W64 := BitVec.ofNat 64 (a.toNat * b.toNat / 2 ^ 64)

/-- LUI: rd ← imm << 14. -/
def semLui (f : FmtSU) (_ : State) (t : Nat) : SlotSem :=
  { dest := [(0, f.rd.toNat)]
    act := fun s' => s'.flyS t 1 f.rd.toNat (sx f.imm <<< 14) }

/-- PLOG: a logical function of predicates. -/
def semPlog (f : FmtSP) (s : State) (t : Nat) : SlotSem :=
  let x := s.tile t
  let a := x.preg f.pa.toNat
  let b := x.preg f.pb.toNat
  let v : W64 := match f.func.toNat with
    | 0 => a &&& b | 1 => a ||| b | 2 => a ^^^ b | 3 => a &&& ~~~b | _ => ~~~a
  { causes := rsv (f.rsv != 0) ++ when_ (4 < f.func.toNat) 0x05
    dest := [(2, f.pd.toNat)], srcs := [(2, f.pa.toNat), (2, f.pb.toNat)]
    act := fun s' => s'.fly t 1 (.p f.pd.toNat v) }

/-- PSET: pd ← s[rs]. -/
def semPset (f : FmtSP) (s : State) (t : Nat) : SlotSem :=
  let x := s.tile t
  { causes := rsv (f.rsv != 0)
    dest := [(2, f.pd.toNat)], srcs := [(0, f.rs.toNat)]
    act := fun s' => s'.fly t 1 (.p f.pd.toNat (x.sreg f.rs.toNat)) }

/-- PGET: s[rs] ← pa. -/
def semPget (f : FmtSP) (s : State) (t : Nat) : SlotSem :=
  let x := s.tile t
  { causes := rsv (f.rsv != 0)
    dest := [(0, f.rs.toNat)], srcs := [(2, f.pa.toNat)]
    act := fun s' => s'.flyS t 1 f.rs.toNat (x.preg f.pa.toNat) }

/-- A load of n bytes, zero-extended, through read port 0 (LD, LW). -/
def semLoad (n : Nat) (f : FmtSI) (s : State) (t : Nat) : SlotSem :=
  let a := ((s.tile t).sreg f.rs1.toNat + sx f.imm).toNat
  { causes := accessBad a n
    dest := [(0, f.rd.toNat)], srcs := [(0, f.rs1.toNat)], uses := [(0, a)]
    act := fun s' =>
      (s'.flyS t 4 f.rd.toNat (BitVec.ofNat 64 (leNat (s.progRead t a n)))).progReadMarks t a n }

/-- A store of the low n bytes of rs2 through the write port (ST, SW). -/
def semStore (n : Nat) (f : FmtSB) (s : State) (t : Nat) : SlotSem :=
  let x := s.tile t
  let a := (x.sreg f.rs1.toNat + sx f.off).toNat
  { causes := accessBad a n
    srcs := [(0, f.rs1.toNat), (0, f.rs2.toNat)], uses := [(2, a)]
    act := fun s' => s'.flyMem t a ((leBytes n (x.sreg f.rs2.toNat).toNat).map some) }

/-- The bundle index a signed offset from this bundle names. -/
def target (x : Tile) (off : Int) : Int := (x.pc : Int) + off
/-- A target outside 0-16383 (cause 0x08). -/
def targetBad (g : Int) : Bool := g < 0 || 16383 < g

/-- A conditional branch (R154). -/
def semBranch (cond : W64 → W64 → Bool) (f : FmtSB) (s : State) (t : Nat) : SlotSem :=
  let x := s.tile t
  let taken := cond (x.sreg f.rs1.toNat) (x.sreg f.rs2.toNat)
  let g := target x f.off.toInt
  { causes := when_ (taken && targetBad g) 0x08
    srcs := [(0, f.rs1.toNat), (0, f.rs2.toNat)]
    ctl := if taken then .jump g else .seq }

/-- JAL (R154). -/
def semJal (f : FmtSU) (s : State) (t : Nat) : SlotSem :=
  let x := s.tile t
  let g := target x f.imm.toInt
  { causes := when_ (targetBad g) 0x08
    dest := [(0, f.rd.toNat)]
    ctl := .jump g
    act := fun s' => s'.flyS t 1 f.rd.toNat (BitVec.ofNat 64 (x.pc + 1)) }

/-- JR (R154). -/
def semJr (f : FmtSI) (s : State) (t : Nat) : SlotSem :=
  let g := ((s.tile t).sreg f.rs1.toNat).toNat
  { causes := rsv (f.rd != 0 || f.imm != 0) ++ when_ (16383 < g) 0x08
    srcs := [(0, f.rs1.toNat)]
    ctl := .jump g }

/-- A bundle as a fetch finds it: for one full alignment period after a write its old or its new contents
(R92). -/
def State.imBundle (s : State) (t idx : Nat) : List Byte :=
  s.imOld.foldl (fun b w =>
    if w.1 = imAt t (idx * 16) && s.align ≤ w.2.1 + 1 && s.freeBit (w.1 * 8 + 7) then w.2.2 else b)
    (s.peek (imAt t (idx * 16)) 16)
/-- The S slot of the bundle at an index; a NOP beyond the last. -/
def State.imS (s : State) (t idx : Nat) : W32 :=
  if 16383 < idx then 0 else bundleWord (BitVec.ofNat 128 (leNat (s.imBundle t idx))) .S

/-- LOOP (R155): errors at the LOOP, and the count of iterations. The body's last bundle is looked at as a
fetch at the LOOP's issue would find it: for one full alignment period after a write, old or new (R92, log
entry 57). -/
def semLoop (f : FmtSL) (s : State) (t : Nat) : SlotSem :=
  let x := s.tile t
  let n := f.len.toNat
  let last := x.pc + n
  let bad := n = 0 || x.loops.any (fun l => l.lvl == f.lvl.toNat) ||
    x.loops.any (fun l => l.last < last) || ctlWord (s.imS t last)
  { causes := rsv (f.rsv != 0) ++ when_ bad 0x09
    srcs := [(0, f.rs.toNat)]
    ctl := .loop f.lvl.toNat n (x.sreg f.rs.toNat).toNat }

/-- Control-register value (Table 6-1). -/
def State.csr (s : State) (t cr : Nat) : Option W64 :=
  let x := s.tile t
  let w (n : Nat) : Option W64 := some (BitVec.ofNat 64 n)
  match cr with
  | 0x00 => w x.nstat.toNat
  | 0x01 => some x.stepcnt
  | 0x02 => w x.sre.toNat
  | 0x03 => w (t + tileRow t * 2 ^ 16 + tileCol t * 2 ^ 24)
  | 0x04 => w ((s.tileOwner t).getD 0)
  | 0x05 => w x.mode.toNat
  | 0x06 => some x.cycle
  | 0x07 => some x.extwait
  | 0x08 => some s.timeWord
  | 0x09 => some (s.seed t)
  | 0x0A => w x.xerr.toNat
  | 0x0B =>
    let i := s.mb (.tile t) false
    let o := s.mb (.tile t) true
    w (i.full.toNat + 2 * o.full.toNat + 4 * (i.collision || o.collision).toNat + 8 * o.rreset.toNat)
  | n =>
    if 0x10 ≤ n && n ≤ 0x13 then
      some (match x.loops.find? (fun l => l.lvl == n - 0x10) with
        | some l => BitVec.ofNat 64 l.left | none => 0)
    else none

/-- Whether a control register may be written. -/
def crRW (cr : Nat) : Bool := cr == 0x00 || cr == 0x0A

/-- CSRR: rd ← control register. -/
def semCsrr (f : FmtSC) (s : State) (t : Nat) : SlotSem :=
  let v := s.csr t f.cr.toNat
  { causes := rsv (f.rsv != 0) ++ when_ v.isNone 0x05
    dest := [(0, f.r.toNat)], srcs := [(3, f.cr.toNat)]
    act := fun s' => s'.flyS t 1 f.r.toNat (v.getD 0) }

/-- CSRW and CSRC: a write, or a clear of the bits set in rs. -/
def semCsrW (clear : Bool) (f : FmtSC) (s : State) (t : Nat) : SlotSem :=
  let x := s.tile t
  let v := x.sreg f.r.toNat
  { causes := rsv (f.rsv != 0) ++ when_ (s.csr t f.cr.toNat).isNone 0x05
      ++ when_ ((s.csr t f.cr.toNat).isSome && !crRW f.cr.toNat) 0x10
    dest := [(3, f.cr.toNat)], srcs := [(0, f.r.toNat)]
    act := fun s' => s'.fly t 1 (if clear then .csrClear f.cr.toNat v else .csr f.cr.toNat v) }

/-- STEP and END (R156). -/
def semStep (r : BitVec 26) (_ : State) (_ : Nat) : SlotSem := { causes := rsv (r != 0), ctl := .step }
def semEnd (r : BitVec 26) (_ : State) (_ : Nat) : SlotSem := { causes := rsv (r != 0), ctl := .endp }

/-- TRAP: cause 0x30 + imm[3:0]. -/
def semTrap (f : FmtSU) (_ : State) (_ : Nat) : SlotSem :=
  { causes := rsv (f.rd != 0 || 16 ≤ f.imm.toNat) ++ [0x30 + f.imm.toNat % 16] }

/-- ACLK by which the next bundle would be held to fall at GCLK 0 of an alignment period. -/
def phaseGap (a : Nat) : Nat := (16 - (a + 1) % 16) % 16

/-- WAITT (R157): waits for a time word; a time already past releases at the next alignment period. -/
def semWaitt (f : FmtSI) (s : State) (t : Nat) : SlotSem :=
  let v := (s.tile t).sreg f.rs1.toNat
  { causes := rsv (f.rd != 0 || f.imm != 0)
    srcs := [(0, f.rs1.toNat)], isWait := true
    act := fun s' => s'.updTile t (fun x => { x with waitFor := some (.time v), waitExt := true, waited := 0 }) }

end Sys2Proof.Machine
end

