-- ==== Sys2Proof/Machine/Vector.lean ====
section
/-! DEFINITION. The V slot (06_tile_instruction_set R158-R161, Table 6-4). -/

namespace Sys2Proof.Machine

/-- Enabled lanes of a predicate register. -/
def Tile.on (x : Tile) (p : BitVec 3) (i : Nat) : Bool := (x.preg p.toNat).getLsbD i

/-- Per-lane results with flags, merged over 64 lanes: masked lanes give nothing and set no flag. -/
def lanes64 (on : Nat → Bool) (f : Nat → Nat × Flags5) : Vec × Flags5 :=
  let r := (List.range 64).map (fun i => if on i then f i else (0, 0))
  (ofLanes (r.map Prod.fst), r.foldl (fun a p => a ||| p.2) 0)

/-- Sources and destination of a VR instruction. -/
def vrSrc (f : FmtVR) (useB useC : Bool) : List RegName :=
  [(1, f.va.toNat)] ++ (if useB then [(1, f.vb.toNat)] else []) ++ (if useC then [(1, f.vc.toNat)] else [])
    ++ [(2, f.pred.toNat)]

/-- A floating-point VR instruction that rounds under RM (R139, R161). -/
def semVF (lat : Nat) (fma : Bool) (op : Nat → Nat → Nat → Nat → Nat → Nat × Flags5) (f : FmtVR)
    (s : State) (t : Nat) : SlotSem :=
  let x := s.tile t
  let a := x.vreg f.va.toNat
  let b := x.vreg f.vb.toNat
  let c := x.vreg f.vc.toNat
  let r := lanes64 (x.on f.pred) (fun i =>
    op f.rm.toNat (s.drawOf t f.rm.toNat i) (lane a i) (lane b i) (lane c i))
  { causes := rsv (!fma && f.vc != 0) ++ when_ (4 < f.rm.toNat) 0x04
    dest := [(1, f.vd.toNat)], srcs := vrSrc f true fma
    act := fun s' => (s'.flyVF t lat f.vd.toNat r.1 (laneMask (x.preg f.pred.toNat)) r.2).takeSre t f.rm.toNat 64 }

/-- VFN: the function numbered by vb (R141). -/
def semVfn (f : FmtVR) (s : State) (t : Nat) : SlotSem :=
  let x := s.tile t
  let a := x.vreg f.va.toNat
  let r := lanes64 (x.on f.pred) (fun i => f32Fn f.vb.toNat (lane a i))
  { causes := rmZero f.rm ++ when_ (7 < f.vb.toNat) 0x05
    dest := [(1, f.vd.toNat)], srcs := vrSrc f false false
    act := fun s' => s'.flyVF t 12 f.vd.toNat r.1 (laneMask (x.preg f.pred.toNat)) r.2 }

/-- A VR instruction on lanes that sets no flag and does not round (RM = 0). -/
def semVI (lat : Nat) (op : Nat → Nat → Nat) (f : FmtVR) (s : State) (t : Nat) : SlotSem :=
  let x := s.tile t
  let a := x.vreg f.va.toNat
  let b := x.vreg f.vb.toNat
  let r := ofLanes ((List.range 64).map (fun i => op (lane a i) (lane b i)))
  { causes := rmZero f.rm
    dest := [(1, f.vd.toNat)], srcs := vrSrc f true false
    act := fun s' => s'.flyV t lat f.vd.toNat r (laneMask (x.preg f.pred.toNat)) }

/-- 32-bit lane operations. -/
def w32 (n : Nat) : W32 := BitVec.ofNat 32 n
def lAdd (a b : Nat) : Nat := (w32 a + w32 b).toNat
def lSub (a b : Nat) : Nat := (w32 a - w32 b).toNat
def lMul (a b : Nat) : Nat := (w32 a * w32 b).toNat
def lAnd (a b : Nat) : Nat := (w32 a &&& w32 b).toNat
def lOr (a b : Nat) : Nat := (w32 a ||| w32 b).toNat
def lXor (a b : Nat) : Nat := (w32 a ^^^ w32 b).toNat
def lShl (a b : Nat) : Nat := (w32 a <<< (b % 32)).toNat
def lShr (a b : Nat) : Nat := (w32 a >>> (b % 32)).toNat
def lSra (a b : Nat) : Nat := ((w32 a).sshiftRight (b % 32)).toNat

/-- INT32 conditions of VCMP.I. -/
def i32Cmp (cond a b : Nat) : Bool :=
  match cond with
  | 0 => w32 a == w32 b
  | 1 => w32 a != w32 b
  | 2 => (w32 a).slt (w32 b)
  | 3 => (w32 a).sle (w32 b)
  | _ => (w32 a).ult (w32 b)

/-- A compare of lanes into a predicate: masked lanes give 0. -/
def semVcmp (badCond : Nat → Bool) (op : Nat → Nat → Nat → Bool) (f : FmtVP) (s : State) (t : Nat) : SlotSem :=
  let x := s.tile t
  let a := x.vreg f.va.toNat
  let b := x.vreg f.vb.toNat
  let v := ofBits ((List.range 64).map (fun i => x.on f.pred i && op f.cond.toNat (lane a i) (lane b i)))
  { causes := rsv (f.rsv != 0 || f.rsv2 != 0) ++ when_ (badCond f.cond.toNat) 0x05
    dest := [(2, f.pd.toNat)], srcs := [(1, f.va.toNat), (1, f.vb.toNat), (2, f.pred.toNat)]
    act := fun s' => s'.fly t 2 (.p f.pd.toNat v) }

/-- VSEL: va where the predicate is 1, else vb; every lane written. -/
def semVsel (f : FmtVR) (s : State) (t : Nat) : SlotSem :=
  let x := s.tile t
  let m := laneMask (x.preg f.pred.toNat)
  { causes := rmZero f.rm
    dest := [(1, f.vd.toNat)], srcs := vrSrc f true false
    act := fun s' => s'.flyV t 1 f.vd.toNat (merge (x.vreg f.vb.toNat) (x.vreg f.va.toNat) m) (BitVec.allOnes 2048) }

/-- VBCAST. -/
def semVbcast (f : FmtVS) (s : State) (t : Nat) : SlotSem :=
  let x := s.tile t
  { causes := rsv (f.lane != 0 || f.rsv != 0 || f.rsv2 != 0)
    dest := [(1, f.v.toNat)], srcs := [(0, f.rs.toNat), (2, f.pred.toNat)]
    act := fun s' => s'.flyV t 2 f.v.toNat
      (ofLanes (List.replicate 64 ((x.sreg f.rs.toNat).toNat % 2 ^ 32))) (laneMask (x.preg f.pred.toNat)) }

/-- VEXT: one lane, zero-extended. -/
def semVext (f : FmtVS) (s : State) (t : Nat) : SlotSem :=
  let x := s.tile t
  { causes := rsv (f.pred != 0 || f.rsv != 0 || f.rsv2 != 0)
    dest := [(0, f.rs.toNat)], srcs := [(1, f.v.toNat)]
    act := fun s' => s'.flyS t 2 f.rs.toNat (BitVec.ofNat 64 (lane (x.vreg f.v.toNat) f.lane.toNat)) }

/-- VPERM: lane i from the lane of va that vb's lane i names. -/
def semVperm (f : FmtVR) (s : State) (t : Nat) : SlotSem :=
  let x := s.tile t
  let a := x.vreg f.va.toNat
  let b := x.vreg f.vb.toNat
  { causes := rmZero f.rm
    dest := [(1, f.vd.toNat)], srcs := vrSrc f true false
    act := fun s' => s'.flyV t 3 f.vd.toNat (ofLanes ((List.range 64).map (fun i => lane a (lane b i % 64))))
      (laneMask (x.preg f.pred.toNat)) }

/-- One level of VRED.F's tree: lane i plus lane i + d for i < d; `k` is the index of its first draw. -/
def redLevel (rm : Nat) (dr : Nat → Nat) (d k : Nat) (v : List Nat) : List Nat × Flags5 :=
  let r := (List.range d).map (fun i => f32Add rm (dr (k + i)) (v.getD i 0) (v.getD (i + d) 0))
  (r.map Prod.fst, r.foldl (fun a p => a ||| p.2) 0)
/-- The levels with d = 32, 16, 8, 4, 2, 1 (R159). -/
def redTree (rm : Nat) (dr : Nat → Nat) : List Nat → Nat → List Nat → Flags5 → Nat × Flags5
  | [], _, v, fl => (v.getD 0 0, fl)
  | d :: ds, k, v, fl =>
    let r := redLevel rm dr d k v
    redTree rm dr ds (k + d) r.1 (fl ||| r.2)

/-- VRED.F: masked lanes enter as +0; result in lane 0, other lanes +0. -/
def semVred (f : FmtVR) (s : State) (t : Nat) : SlotSem :=
  let x := s.tile t
  let a := x.vreg f.va.toNat
  let v := (List.range 64).map (fun i => if x.on f.pred i then lane a i else 0)
  let r := redTree f.rm.toNat (s.drawOf t f.rm.toNat) [32, 16, 8, 4, 2, 1] 0 v 0
  { causes := rmBad f.rm
    dest := [(1, f.vd.toNat)], srcs := vrSrc f false false
    act := fun s' => (s'.flyVF t 24 f.vd.toNat (ofLanes [r.1]) (BitVec.allOnes 2048) r.2).takeSre t f.rm.toNat 63 }

/-- Bits of the elements a predicate enables, at width w; when all are, the whole register is written. -/
def eltMask (w : Nat) (p : W64) : Vec :=
  if p = BitVec.allOnes 64 then BitVec.allOnes 2048
  else BitVec.ofNat 2048 (packE w ((List.range 64).map (fun i => if p.getLsbD i then 2 ^ w - 1 else 0)))

/-- VCVT (R160, R142). -/
def semVcvt (f : FmtVC) (s : State) (t : Nat) : SlotSem :=
  let x := s.tile t
  let a := (x.vreg f.va.toNat).toNat
  let sf := eltCode f.sfmt.toNat
  let df := eltCode f.dfmt.toNat
  { causes := rsv (f.rsv != 0) ++ rmBad f.rm ++ when_ (sf.isNone || df.isNone) 0x05
    dest := [(1, f.vd.toNat)], srcs := [(1, f.va.toNat), (2, f.pred.toNat)]
    act := fun s' =>
      match sf, df with
      | some sf, some df =>
        let w := eltBits df
        let r := (List.range 64).map (fun i =>
          if x.on f.pred i then
            roundTo df f.rm.toNat (s.drawOf t f.rm.toNat i) f.sat (eltDecode sf (elem (eltBits sf) a i))
          else (0, 0))
        (s'.flyVF t 3 f.vd.toNat (BitVec.ofNat 2048 (packE w (r.map Prod.fst)))
          (eltMask w (x.preg f.pred.toNat)) (r.foldl (fun a p => a ||| p.2) 0)).takeSre t f.rm.toNat 64
      | _, _ => s' }

/-- VQNT (R121, R160): two blocks of 32 lanes; masked lanes enter as zero. -/
def semVqnt (f : FmtVC) (s : State) (t : Nat) : SlotSem :=
  let x := s.tile t
  let a := x.vreg f.va.toNat
  let c := f.dfmt.toNat
  let el (i : Nat) : XVal × Nat :=
    if x.on f.pred i then (f32 (lane a i), s.drawOf t f.rm.toNat i) else (.fin false 0 0, 0)
  let b0 := quantBlock c f.rm.toNat ((List.range 32).map el)
  let b1 := quantBlock c f.rm.toNat ((List.range 32).map (fun i => el (32 + i)))
  { causes := rsv (f.rsv != 0) ++ rmBad f.rm ++ when_ (f.sfmt != 0 || c < 9) 0x05
    dest := [(1, f.vd.toNat)], srcs := [(1, f.va.toNat), (2, f.pred.toNat)]
    act := fun s' => (s'.flyVF t 8 f.vd.toNat (packBlocks c b0 b1) (BitVec.allOnes 2048)
      (b0.2.2.2 ||| b1.2.2.2)).takeSre t f.rm.toNat 64 }

/-- VDQ (R142, R160): exact decoding, RM = 0 and SAT = 0. -/
def semVdq (f : FmtVC) (s : State) (t : Nat) : SlotSem :=
  let x := s.tile t
  let a := x.vreg f.va.toNat
  let c := f.sfmt.toNat
  let r := lanes64 (x.on f.pred) (fun i => roundTo .fp32 0 0 false (unpackBlock c a i))
  { causes := rsv (f.rsv != 0 || f.sat) ++ rmZero f.rm ++ when_ (f.dfmt != 0 || c < 9) 0x05
    dest := [(1, f.vd.toNat)], srcs := [(1, f.va.toNat), (2, f.pred.toNat)]
    act := fun s' => s'.flyVF t 4 f.vd.toNat r.1 (laneMask (x.preg f.pred.toNat)) r.2 }

/-- Address of a VLD or VST: s[rs] + off × 256. -/
def vmAddr (x : Tile) (f : FmtVM) : Nat := (x.sreg f.rs.toNat + (sx f.off <<< 8)).toNat

/-- VLD: a 256-byte line through read port 1. -/
def semVld (f : FmtVM) (s : State) (t : Nat) : SlotSem :=
  let x := s.tile t
  let a := vmAddr x f
  { causes := accessBad a 256
    dest := [(1, f.v.toNat)], srcs := [(0, f.rs.toNat), (2, f.pred.toNat)], uses := [(1, a)]
    act := fun s' => (s'.flyV t 6 f.v.toNat (ofBytes (s.progRead t a 256)) (laneMask (x.preg f.pred.toNat))
      ).progReadMarks t a 256 }

/-- VST: the enabled lanes of a register to a line. -/
def semVst (f : FmtVM) (s : State) (t : Nat) : SlotSem :=
  let x := s.tile t
  let a := vmAddr x f
  { causes := accessBad a 256
    srcs := [(0, f.rs.toNat), (1, f.v.toNat), (2, f.pred.toNat)], uses := [(2, a)]
    act := fun s' => s'.flyMem t a ((vecBytes (x.vreg f.v.toNat)).zipIdx.map (fun p =>
      if x.on f.pred (p.2 / 4) then some p.1 else none)) }

end Sys2Proof.Machine
end

