-- ==== Sys2Proof/Machine/Issue.lean ====
section
/-! DEFINITION. The issue of bundles (06_tile_instruction_set R143-R147, R152, R154-R157, R165, R166,
R171, R173, R196): the meaning of each slot, composition, port stalls, waits, loops and boundaries. -/

namespace Sys2Proof.Machine

/-! ## Slots -/

/-- Slot order within a bundle (R146). -/
def slotNo : Slot → Nat
  | .S => 0 | .V => 1 | .M => 2 | .X => 3

/-- A slot word that no instruction of the slot's table is: NOP, a NOP with a bit set, an opcode or, in the S
slot under opcode 0x01, a function the table does not assign (R144, Table 6-3). -/
def semNop (sl : Slot) (w : W32) : SlotSem :=
  let op := (fieldAt w 26 6).toNat
  if w = 0 then {}
  else if op = 0 then { causes := [0x03] }
  else if sl = .S && op = 1 then { causes := [0x05] }
  else { causes := [0x01] }

/-- Branch conditions (Table 6-3). -/
def brEq (a b : W64) : Bool := a == b
def brNe (a b : W64) : Bool := a != b
def brLt (a b : W64) : Bool := a.slt b
def brGe (a b : W64) : Bool := !a.slt b
def brLtu (a b : W64) : Bool := a.ult b
def brGeu (a b : W64) : Bool := !a.ult b

/-- Two-operand forms of the floating-point lane operations. -/
def opF32Add (rm r a b _c : Nat) : Nat × Flags5 := f32Add rm r a b
def opF32Sub (rm r a b _c : Nat) : Nat × Flags5 := f32Sub rm r a b
def opF32Mul (rm r a b _c : Nat) : Nat × Flags5 := f32Mul rm r a b

/-- The meaning of an instruction of a slot; a command that is no slot of a bundle has none. -/
def instrSem (i : Instr) (s : State) (t : Nat) : SlotSem :=
  match i with
  | .nop _ sl w => semNop sl w
  | .add _ f => semAlu opAdd 1 f s t
  | .sub _ f => semAlu opSub 1 f s t
  | .and _ f => semAlu opAnd 1 f s t
  | .or _ f => semAlu opOr 1 f s t
  | .xor _ f => semAlu opXor 1 f s t
  | .sll _ f => semAlu opSll 1 f s t
  | .srl _ f => semAlu opSrl 1 f s t
  | .sra _ f => semAlu opSra 1 f s t
  | .slt _ f => semAlu opSlt 1 f s t
  | .sltu _ f => semAlu opSltu 1 f s t
  | .min _ f => semAlu opMin 1 f s t
  | .max _ f => semAlu opMax 1 f s t
  | .mul _ f => semAlu opMul 3 f s t
  | .mulhu _ f => semAlu opMulhu 3 f s t
  | .addi _ f => semAluI opAdd f s t
  | .andi _ f => semAluI opAnd f s t
  | .ori _ f => semAluI opOr f s t
  | .xori _ f => semAluI opXor f s t
  | .slli _ f => semAluI opSll f s t
  | .srli _ f => semAluI opSrl f s t
  | .srai _ f => semAluI opSra f s t
  | .slti _ f => semAluI opSlt f s t
  | .lui _ f => semLui f s t
  | .plog _ f => semPlog f s t
  | .pset _ f => semPset f s t
  | .pget _ f => semPget f s t
  | .ld _ f => semLoad 8 f s t
  | .lw _ f => semLoad 4 f s t
  | .st _ f => semStore 8 f s t
  | .sw _ f => semStore 4 f s t
  | .beq _ f => semBranch brEq f s t
  | .bne _ f => semBranch brNe f s t
  | .blt _ f => semBranch brLt f s t
  | .bge _ f => semBranch brGe f s t
  | .bltu _ f => semBranch brLtu f s t
  | .bgeu _ f => semBranch brGeu f s t
  | .jal _ f => semJal f s t
  | .jr _ f => semJr f s t
  | .loop _ f => semLoop f s t
  | .csrr _ f => semCsrr f s t
  | .csrw _ f => semCsrW false f s t
  | .csrc _ f => semCsrW true f s t
  | .step _ rsv => semStep rsv s t
  | .endProg _ rsv => semEnd rsv s t
  | .trap _ f => semTrap f s t
  | .waitt _ f => semWaitt f s t
  | .vaddF _ f => semVF 4 false opF32Add f s t
  | .vsubF _ f => semVF 4 false opF32Sub f s t
  | .vmulF _ f => semVF 4 false opF32Mul f s t
  | .vfmaF _ f => semVF 4 true f32Fma f s t
  | .vminF _ f => semVI 2 f32Min f s t
  | .vmaxF _ f => semVI 2 f32Max f s t
  | .vfn _ f => semVfn f s t
  | .vcmpF _ f => semVcmp (fun c => 4 < c) f32Cmp f s t
  | .vaddI _ f => semVI 1 lAdd f s t
  | .vsubI _ f => semVI 1 lSub f s t
  | .vmulI _ f => semVI 3 lMul f s t
  | .vand _ f => semVI 1 lAnd f s t
  | .vor _ f => semVI 1 lOr f s t
  | .vxor _ f => semVI 1 lXor f s t
  | .vshl _ f => semVI 1 lShl f s t
  | .vshr _ f => semVI 1 lShr f s t
  | .vsra _ f => semVI 1 lSra f s t
  | .vcmpI _ f => semVcmp (fun c => c = 4 || 5 < c) i32Cmp f s t
  | .vsel _ f => semVsel f s t
  | .vbcast _ f => semVbcast f s t
  | .vext _ f => semVext f s t
  | .vperm _ f => semVperm f s t
  | .vredF _ f => semVred f s t
  | .vcvt _ f => semVcvt f s t
  | .vqnt _ f => semVqnt f s t
  | .vdq _ f => semVdq f s t
  | .vld _ f => semVld f s t
  | .vst _ f => semVst f s t
  | .mma _ f => semMma f s t
  | .mmav _ f => semMmav f s t
  | .madd _ f => semMadd f s t
  | .mclr _ f => semMclr f s t
  | .mrd _ f => semMrd f s t
  | .ald _ f => semAld f s t
  | .ast _ f => semAst f s t
  | .mlst _ f => semMlst f s t
  | .mlad _ f => semMlad f s t
  | .ardv _ f => semArdv f s t
  | .awrv _ f => semAwrv f s t
  | .xmsg _ f => semXmsg f s t
  | .xmsgv _ f => semXmsgv f s t
  | .xmov _ f => semXmov f s t
  | .xwait _ f => semXwait f s t
  | .xtset _ f => semXtset f s t
  | .xtrd _ f => semXtrd f s t
  | .xsync _ f => semXsync f s t
  | .xfill _ f => semXcopy false f s t
  | .xspill _ f => semXcopy true f s t
  | .xmbw _ f => semXmbw f s t
  | .xmbr _ f => semXmbr f s t
  | .xfld _ f => semXfld f s t
  | _ => {}

/-- The meaning of a slot command: a slot given as its word means what its slot's table makes of it (R144). -/
def slotSem (i : Instr) (s : State) (t : Nat) : SlotSem :=
  match i with
  | .nop a sl w => instrSem ((decodeSlot a sl w).getD i) s t
  | _ => instrSem i s t

/-- The slot a command issues in. -/
def slotOf : Instr → Slot
  | .nop _ sl _ => sl
  | .vaddF _ _ => .V
  | .vsubF _ _ => .V
  | .vmulF _ _ => .V
  | .vfmaF _ _ => .V
  | .vminF _ _ => .V
  | .vmaxF _ _ => .V
  | .vfn _ _ => .V
  | .vcmpF _ _ => .V
  | .vaddI _ _ => .V
  | .vsubI _ _ => .V
  | .vmulI _ _ => .V
  | .vand _ _ => .V
  | .vor _ _ => .V
  | .vxor _ _ => .V
  | .vshl _ _ => .V
  | .vshr _ _ => .V
  | .vsra _ _ => .V
  | .vcmpI _ _ => .V
  | .vsel _ _ => .V
  | .vbcast _ _ => .V
  | .vext _ _ => .V
  | .vperm _ _ => .V
  | .vredF _ _ => .V
  | .vcvt _ _ => .V
  | .vqnt _ _ => .V
  | .vdq _ _ => .V
  | .vld _ _ => .V
  | .vst _ _ => .V
  | .mma _ _ => .M
  | .mmav _ _ => .M
  | .madd _ _ => .M
  | .mclr _ _ => .M
  | .mrd _ _ => .M
  | .ald _ _ => .M
  | .ast _ _ => .M
  | .mlst _ _ => .M
  | .mlad _ _ => .M
  | .ardv _ _ => .M
  | .awrv _ _ => .M
  | .xmsg _ _ => .X
  | .xmsgv _ _ => .X
  | .xmov _ _ => .X
  | .xwait _ _ => .X
  | .xtset _ _ => .X
  | .xtrd _ _ => .X
  | .xsync _ _ => .X
  | .xfill _ _ => .X
  | .xspill _ _ => .X
  | .xmbw _ _ => .X
  | .xmbr _ _ => .X
  | .xfld _ _ => .X
  | _ => .S

/-! ## Port service (R88, R89, R152, R165, R178) -/

/-- SRAM bank of an address (R87). -/
def bankOf (a : Nat) : Nat := a / 256 % 32
/-- Whether a port can serve an address in GCLK g. -/
def Tile.canServe (x : Tile) (port a g g0 : Nat) : Bool :=
  let hit (l : List (Nat × Nat)) : Bool := l.any (fun u => u.1 == g)
  let clash (l : List (Nat × Nat)) : Bool := l.any (fun u => u.1 == g && u.2 == bankOf a)
  match port with
  | 0 => !hit x.rp0 && !clash x.rp1
  | 1 => !hit x.rp1 && !clash x.rp0 && g % 8 != 7
  | _ => !hit x.wp && g % 8 != 7 && !(g == g0 && 16 ≤ x.landLines g)
/-- The first GCLK from g that serves the access. -/
def Tile.serveAt (x : Tile) (port a g0 : Nat) : Nat → Nat → Nat
  | 0, g => g
  | n + 1, g => if x.canServe port a g g0 then g else x.serveAt port a g0 n (g + 1)
/-- Serves the accesses of a bundle in slot order from ACLK a: the tile, the ACLK of stall, and the GCLKs that
count in TILE_CNT_BANK_STALL. An access to an owned port waits for the end of the owner's count (R165). -/
def Tile.serve (x : Tile) (a : Nat) : List (Nat × Nat) → Nat → Nat → Tile × Nat × Nat
  | [], st, cnt => (x, st, cnt)
  | (port, adr) :: us, st, cnt =>
    let own := if port = 0 then x.own0 else if port = 2 then x.ownW else 0
    let a1 := max a own
    let g1 := a1 / 2
    let g := x.serveAt port adr (a / 2) 16 g1
    let x1 := match port with
      | 0 => { x with rp0 := x.rp0 ++ [(g, bankOf adr)] }
      | 1 => { x with rp1 := x.rp1 ++ [(g, bankOf adr)] }
      | _ => { x with wp := x.wp ++ [(g, bankOf adr)] }
    x1.serve a us (max st (a1 - a + 2 * (g - g1))) (max cnt (g - g1))

/-! ## Composition and interlocks -/

/-- Whether a list names something twice. -/
def hasDup {α : Type} [DecidableEq α] : List α → Bool
  | [] => false
  | a :: l => l.contains a || hasDup l

/-- Bundle composition (R147): s0 and p0 are exempt. -/
def compositionBad (ss : List SlotSem) : Bool :=
  let ds := (ss.flatMap (·.dest)).filter (fun r => r != (0, 0) && r != (2, 0))
  hasDup ds || 2 ≤ (ss.filter (·.isWait)).length ||
    (ss.any (·.isWait) && ss.any (fun m => m.ctl == .step || m.ctl == .endp))

/-- Whether a result in flight is for a register. -/
def landsIn (l : Land) (r : RegName) : Bool :=
  match l with
  | .s k _ => r == (0, k)
  | .v k _ _ => r == (1, k)
  | .p k _ => r == (2, k)
  | .csr k _ => r == (3, k)
  | .csrClear k _ => r == (3, k)
  | .nstat _ => r == (3, 0)
  | _ => false
/-- The ACLK until which Steady mode holds a bundle: a source with a write still pending, or the matrix
unit busy (R173). -/
def steadyUntil (x : Tile) (ss : List SlotSem) : Nat :=
  let srcs := ss.flatMap (·.srcs)
  let d := x.flight.foldl (fun d f => if srcs.any (landsIn f.land) then max d f.due else d) x.aclk
  if ss.any (·.matrix) then max d x.mbusy else d

/-! ## After a bundle -/

/-- The bundle after one that goes on in sequence, with the loops it leaves or repeats (R155). -/
def seqNext (pc : Nat) : List LoopRec → List LoopRec × Nat
  | [] => ([], pc + 1)
  | l :: ls =>
    if pc = l.last then
      (if 1 < l.left then ({ l with left := l.left - 1 } :: ls, l.first) else seqNext pc ls)
    else (l :: ls, pc + 1)

/-- Control after a bundle: loops, next index, and the bubble of a taken transfer (R154, R155). Where the body
that a count of 0 skips ends where an outer body ends, the outer loop goes on as at a sequential end (log
entry 55). -/
def ctlNext (x : Tile) : Ctl → List LoopRec × Nat × Nat
  | .jump g =>
    let n := g.toNat
    (x.loops.dropWhile (fun l => n < l.first || l.last < n), n, 1)
  | .loop lvl len count =>
    if count = 0 then
      let r := seqNext (x.pc + len) (x.loops)
      (r.1, r.2, 1)
    else ({ lvl := lvl, first := x.pc + 1, last := x.pc + len, left := count } :: x.loops, x.pc + 1, 0)
  | _ =>
    let r := seqNext x.pc x.loops
    (r.1, r.2, 0)

/-- The step boundary (R156, R170, R109). -/
def State.stepBoundary (s : State) (t : Nat) : State :=
  let s1 := (s.updTile t (fun x => { x with stepcnt := x.stepcnt + 1, sre := 0 })).count bTILE t 0xC10 1
  let x := s1.tile t
  if x.xerr.getLsbD 16 then s1.trapTile t 0x13 x.pc
  else if x.sramPend then s1.trapTile t 0x40 x.pc
  else if x.stopReq || x.holdReq then
    s1.updTile t (fun x => { x with run := .stopping, waitFor := some .stepDrain, waitExt := false
                                    slotHold := (s1.group (s1.tileGroup t)).gclk })
  else s1

/-- The program ends (R156, R109): done, STOP cleared; a pending engagement holds the tile as done. -/
def State.endTile (s : State) (t : Nat) : State :=
  let s1 := s.landRest t
  let held := (s1.tile t).holdReq
  let s2 := s1.updTile t (fun x => { x with
    run := if x.holdReq then .held else .done, heldFrom := if x.holdReq then some .done else x.heldFrom
    stopReq := false, holdReq := false, waitFor := none, waitExt := false, sramPend := false })
  let s3 := s2.raise bTILE t 0
  (if held then s3.noteHeld t else s3).noteGroup s (s2.tileGroup t)

/-- END's drain: at once when nothing is outstanding, else an external wait. -/
def State.beginEnd (s : State) (t : Nat) : State :=
  if (s.tile t).drained then s.endTile t
  else s.updTile t (fun x => { x.setFlag with waitFor := some .endDrain, waitExt := true, waited := 0 })

/-- WAITT whose time has passed: the next bundle issues at GCLK 0 of the next alignment period, and the
ACLK it is held are external-wait cycles (R157, R169). -/
def State.settleTime (s : State) (t : Nat) : State :=
  match (s.tile t).waitFor with
  | some (.time v) =>
    if v.toNat ≤ s.timeWord.toNat then
      let n := (16 - (s.tile t).aclk % 16) % 16
      let s1 := s.hold t n
      s1.updTile t (fun x => { (if n = 0 then x else x.setFlag) with waitFor := none, waitExt := false })
    else s.updTile t Tile.setFlag
  | _ => s

/-- What follows the effects of a bundle. -/
def State.afterBundle (s : State) (t stall cnt : Nat) (ctl : Ctl) : State :=
  let x := s.tile t
  let c := ctlNext x ctl
  let s1 := s.setTile t { x with loops := c.1, pc := c.2.1 }
  let s2 := s1.advance t (1 + c.2.2 + stall)
  let s3 := if cnt = 0 then s2 else s2.count bTILE t 0xC18 cnt
  if ctl = .endp then s3.beginEnd t
  else
    let s4 := if ctl = .step then s3.stepBoundary t else s3.settleTime t
    if 16383 < c.2.1 && (s4.tile t).run != .trapped then s4.trapTile t 0x08 16383 else s4

/-! ## Issue -/

/-- The lowest of a list of causes. -/
def lowest : List Nat → Nat
  | [] => 0
  | [c] => c
  | c :: cs => min c (lowest cs)

/-- An uncorrectable fetch: event, condemnation, and a trap before the bundle issues (R93, R491); where the
condemnation makes the row degraded its trap stands (R102). -/
def State.fetchUe (s : State) (t : Nat) : State :=
  let pc := (s.tile t).pc
  let s1 := (s.raise bTILE t 5).condemnTile t
  if (s1.tile t).run = .unavailable then s1 else s1.trapTile t 0x41 pc

/-- Whether the bundle names a register a far load has not filled, or transfers to a wait of its own. -/
def farBlocked (x : Tile) (ss : List SlotSem) : Bool :=
  x.far.any (fun f => (ss.flatMap (fun m => m.srcs ++ m.dest)).contains (1, f.1))

/-- The bundle held in `slots` is kept until a wait ends. -/
def State.park (s : State) (t : Nat) (w : Wait) (ext : Bool) : State :=
  s.updTile t (fun x => { (if ext then x.setFlag else x) with waitFor := some w, waitExt := ext, waited := 0 })

/-- What the slots of a tile's bundle mean in a state. -/
def State.bundleSem (s : State) (t : Nat) : List SlotSem := (s.tile t).slots.map (fun i => slotSem i s t)

/-- The bundle issues: its sources are read, its accesses served and its effects taken, unless it traps. -/
def State.enact (s : State) (t : Nat) : State :=
  let x := s.tile t
  let ss := s.bundleSem t
  let causes := ss.flatMap (·.causes) ++ when_ (compositionBad ss) 0x02
  if !causes.isEmpty then s.trapTile t (lowest causes) x.pc
  else if ss.any (·.inject) && 8 ≤ x.injq.length then
    (s.park t .inject false).updTile t (fun y => { y with waitExt := y.flag })
  else if ss.any (·.copyReq) && 16 ≤ x.copies then s.park t .copies true
  else
    let v := x.serve x.aclk (ss.flatMap (·.uses)) 0 0
    let s1 := s.setTile t { v.1 with slots := [] }
    let s2 := ss.foldl (fun s m => m.act s) s1
    s2.afterBundle t v.2.1 v.2.2 ((ss.head?.map (·.ctl)).getD .seq)

/-- A bundle whose slots have been fetched: it waits for a far load it names, in Steady mode for its sources
and the matrix unit (R173, R174), and for the end wait of an MMA before it (R166); in Exact mode a busy matrix
unit traps it (R165). -/
def State.tryIssue (s : State) (t : Nat) : State :=
  let x := s.tile t
  let ss := s.bundleSem t
  if farBlocked x ss then s.park t .far true
  else
    let until_ := if x.mode then steadyUntil x ss else x.aclk
    let s1 := if x.aclk < until_ then s.advance t (until_ - x.aclk) else s
    let y := s1.tile t
    if !ss.any (·.matrix) then s1.enact t
    else if !y.mode && y.aclk < y.mbusy then
      let sb := s1.bundleSem t
      s1.trapTile t (lowest (sb.flatMap (·.causes) ++ when_ (compositionBad sb) 0x02 ++ [0x0A])) y.pc
    else (s1.fetchWait t (y.m0 + 2 * y.m1 + 16)).enact t

/-- Issues the bundle a tile has assembled: it is fetched, a corrected fetch being counted once (R93). -/
def State.issueBundle (s : State) (t : Nat) : State :=
  let s0 := (s.abandonTest t).landUpTo t (s.tile t).aclk
  let ima := imAt t ((s0.tile t).pc * 16)
  if !(hits s0.ue ima 16).isEmpty then s0.fetchUe t
  else
    let s1 := if (hits s0.ce ima 16).isEmpty then s0 else ((s0.count bTILE t 0xC28 1).count bERR 0 0xC00 1).noteTileCe t true
    s1.tryIssue t

/-- Whether a tile takes slots: running or stopping, its clocks having edges, nothing waited for. -/
def State.canIssue (s : State) (t : Nat) : Bool :=
  let x := s.tile t
  tileOk t && (x.run == .running || x.run == .stopping) && x.waitFor.isNone && s.tileEdges t

/-- A slot arrives: slots come in the order S, V, M, X; the last one of its bundle issues it. -/
def State.slot (s : State) (a : At) (i : Instr) : State :=
  let x := s.tile a.tile
  if s.canIssue a.tile && x.slots.all (fun j => slotNo (slotOf j) < slotNo (slotOf i)) then
    let s1 := s.updTile a.tile (fun x => { x with slots := x.slots ++ [i] })
    if a.more then s1 else s1.issueBundle a.tile
  else s

/-- A parked bundle issues once its wait has ended. -/
def State.unpark (s : State) (t : Nat) : State :=
  ((s.updTile t (fun x => { x with waitFor := none, waitExt := false })).landUpTo t (s.tile t).aclk).tryIssue t

/-! ## The slot commands, in the table's order -/

def execNop (a : At) (slot : Slot) (w : W32) (s : State) : Res := .next (s.slot a (.nop a slot w))
/-- ADD. -/
def execAdd (a : At) (f : FmtSR) (s : State) : Res := .next (s.slot a (.add a f))
/-- SUB. -/
def execSub (a : At) (f : FmtSR) (s : State) : Res := .next (s.slot a (.sub a f))
/-- AND. -/
def execAnd (a : At) (f : FmtSR) (s : State) : Res := .next (s.slot a (.and a f))
/-- OR. -/
def execOr (a : At) (f : FmtSR) (s : State) : Res := .next (s.slot a (.or a f))
/-- XOR. -/
def execXor (a : At) (f : FmtSR) (s : State) : Res := .next (s.slot a (.xor a f))
/-- SLL. -/
def execSll (a : At) (f : FmtSR) (s : State) : Res := .next (s.slot a (.sll a f))
/-- SRL. -/
def execSrl (a : At) (f : FmtSR) (s : State) : Res := .next (s.slot a (.srl a f))
/-- SRA. -/
def execSra (a : At) (f : FmtSR) (s : State) : Res := .next (s.slot a (.sra a f))
/-- SLT. -/
def execSlt (a : At) (f : FmtSR) (s : State) : Res := .next (s.slot a (.slt a f))
/-- SLTU. -/
def execSltu (a : At) (f : FmtSR) (s : State) : Res := .next (s.slot a (.sltu a f))
/-- MIN. -/
def execMin (a : At) (f : FmtSR) (s : State) : Res := .next (s.slot a (.min a f))
/-- MAX. -/
def execMax (a : At) (f : FmtSR) (s : State) : Res := .next (s.slot a (.max a f))
/-- MUL. -/
def execMul (a : At) (f : FmtSR) (s : State) : Res := .next (s.slot a (.mul a f))
/-- MULHU. -/
def execMulhu (a : At) (f : FmtSR) (s : State) : Res := .next (s.slot a (.mulhu a f))
/-- ADDI. -/
def execAddi (a : At) (f : FmtSI) (s : State) : Res := .next (s.slot a (.addi a f))
/-- ANDI. -/
def execAndi (a : At) (f : FmtSI) (s : State) : Res := .next (s.slot a (.andi a f))
/-- ORI. -/
def execOri (a : At) (f : FmtSI) (s : State) : Res := .next (s.slot a (.ori a f))
/-- XORI. -/
def execXori (a : At) (f : FmtSI) (s : State) : Res := .next (s.slot a (.xori a f))
/-- SLLI. -/
def execSlli (a : At) (f : FmtSI) (s : State) : Res := .next (s.slot a (.slli a f))
/-- SRLI. -/
def execSrli (a : At) (f : FmtSI) (s : State) : Res := .next (s.slot a (.srli a f))
/-- SRAI. -/
def execSrai (a : At) (f : FmtSI) (s : State) : Res := .next (s.slot a (.srai a f))
/-- SLTI. -/
def execSlti (a : At) (f : FmtSI) (s : State) : Res := .next (s.slot a (.slti a f))
/-- LUI. -/
def execLui (a : At) (f : FmtSU) (s : State) : Res := .next (s.slot a (.lui a f))
/-- PLOG. -/
def execPlog (a : At) (f : FmtSP) (s : State) : Res := .next (s.slot a (.plog a f))
/-- PSET. -/
def execPset (a : At) (f : FmtSP) (s : State) : Res := .next (s.slot a (.pset a f))
/-- PGET. -/
def execPget (a : At) (f : FmtSP) (s : State) : Res := .next (s.slot a (.pget a f))
/-- LD. -/
def execLd (a : At) (f : FmtSI) (s : State) : Res := .next (s.slot a (.ld a f))
/-- LW. -/
def execLw (a : At) (f : FmtSI) (s : State) : Res := .next (s.slot a (.lw a f))
/-- ST. -/
def execSt (a : At) (f : FmtSB) (s : State) : Res := .next (s.slot a (.st a f))
/-- SW. -/
def execSw (a : At) (f : FmtSB) (s : State) : Res := .next (s.slot a (.sw a f))
/-- BEQ. -/
def execBeq (a : At) (f : FmtSB) (s : State) : Res := .next (s.slot a (.beq a f))
/-- BNE. -/
def execBne (a : At) (f : FmtSB) (s : State) : Res := .next (s.slot a (.bne a f))
/-- BLT. -/
def execBlt (a : At) (f : FmtSB) (s : State) : Res := .next (s.slot a (.blt a f))
/-- BGE. -/
def execBge (a : At) (f : FmtSB) (s : State) : Res := .next (s.slot a (.bge a f))
/-- BLTU. -/
def execBltu (a : At) (f : FmtSB) (s : State) : Res := .next (s.slot a (.bltu a f))
/-- BGEU. -/
def execBgeu (a : At) (f : FmtSB) (s : State) : Res := .next (s.slot a (.bgeu a f))
/-- JAL. -/
def execJal (a : At) (f : FmtSU) (s : State) : Res := .next (s.slot a (.jal a f))
/-- JR. -/
def execJr (a : At) (f : FmtSI) (s : State) : Res := .next (s.slot a (.jr a f))
/-- LOOP. -/
def execLoop (a : At) (f : FmtSL) (s : State) : Res := .next (s.slot a (.loop a f))
/-- CSRR. -/
def execCsrr (a : At) (f : FmtSC) (s : State) : Res := .next (s.slot a (.csrr a f))
/-- CSRW. -/
def execCsrw (a : At) (f : FmtSC) (s : State) : Res := .next (s.slot a (.csrw a f))
/-- CSRC. -/
def execCsrc (a : At) (f : FmtSC) (s : State) : Res := .next (s.slot a (.csrc a f))
/-- STEP. -/
def execStep (a : At) (rsv : BitVec 26) (s : State) : Res := .next (s.slot a (.step a rsv))
/-- END. -/
def execEndProg (a : At) (rsv : BitVec 26) (s : State) : Res := .next (s.slot a (.endProg a rsv))
/-- TRAP. -/
def execTrap (a : At) (f : FmtSU) (s : State) : Res := .next (s.slot a (.trap a f))
/-- WAITT. -/
def execWaitt (a : At) (f : FmtSI) (s : State) : Res := .next (s.slot a (.waitt a f))
/-- VADD_F. -/
def execVaddF (a : At) (f : FmtVR) (s : State) : Res := .next (s.slot a (.vaddF a f))
/-- VSUB_F. -/
def execVsubF (a : At) (f : FmtVR) (s : State) : Res := .next (s.slot a (.vsubF a f))
/-- VMUL_F. -/
def execVmulF (a : At) (f : FmtVR) (s : State) : Res := .next (s.slot a (.vmulF a f))
/-- VFMA_F. -/
def execVfmaF (a : At) (f : FmtVR) (s : State) : Res := .next (s.slot a (.vfmaF a f))
/-- VMIN_F. -/
def execVminF (a : At) (f : FmtVR) (s : State) : Res := .next (s.slot a (.vminF a f))
/-- VMAX_F. -/
def execVmaxF (a : At) (f : FmtVR) (s : State) : Res := .next (s.slot a (.vmaxF a f))
/-- VFN. -/
def execVfn (a : At) (f : FmtVR) (s : State) : Res := .next (s.slot a (.vfn a f))
/-- VCMP_F. -/
def execVcmpF (a : At) (f : FmtVP) (s : State) : Res := .next (s.slot a (.vcmpF a f))
/-- VADD_I. -/
def execVaddI (a : At) (f : FmtVR) (s : State) : Res := .next (s.slot a (.vaddI a f))
/-- VSUB_I. -/
def execVsubI (a : At) (f : FmtVR) (s : State) : Res := .next (s.slot a (.vsubI a f))
/-- VMUL_I. -/
def execVmulI (a : At) (f : FmtVR) (s : State) : Res := .next (s.slot a (.vmulI a f))
/-- VAND. -/
def execVand (a : At) (f : FmtVR) (s : State) : Res := .next (s.slot a (.vand a f))
/-- VOR. -/
def execVor (a : At) (f : FmtVR) (s : State) : Res := .next (s.slot a (.vor a f))
/-- VXOR. -/
def execVxor (a : At) (f : FmtVR) (s : State) : Res := .next (s.slot a (.vxor a f))
/-- VSHL. -/
def execVshl (a : At) (f : FmtVR) (s : State) : Res := .next (s.slot a (.vshl a f))
/-- VSHR. -/
def execVshr (a : At) (f : FmtVR) (s : State) : Res := .next (s.slot a (.vshr a f))
/-- VSRA. -/
def execVsra (a : At) (f : FmtVR) (s : State) : Res := .next (s.slot a (.vsra a f))
/-- VCMP_I. -/
def execVcmpI (a : At) (f : FmtVP) (s : State) : Res := .next (s.slot a (.vcmpI a f))
/-- VSEL. -/
def execVsel (a : At) (f : FmtVR) (s : State) : Res := .next (s.slot a (.vsel a f))
/-- VBCAST. -/
def execVbcast (a : At) (f : FmtVS) (s : State) : Res := .next (s.slot a (.vbcast a f))
/-- VEXT. -/
def execVext (a : At) (f : FmtVS) (s : State) : Res := .next (s.slot a (.vext a f))
/-- VPERM. -/
def execVperm (a : At) (f : FmtVR) (s : State) : Res := .next (s.slot a (.vperm a f))
/-- VRED_F. -/
def execVredF (a : At) (f : FmtVR) (s : State) : Res := .next (s.slot a (.vredF a f))
/-- VCVT. -/
def execVcvt (a : At) (f : FmtVC) (s : State) : Res := .next (s.slot a (.vcvt a f))
/-- VQNT. -/
def execVqnt (a : At) (f : FmtVC) (s : State) : Res := .next (s.slot a (.vqnt a f))
/-- VDQ. -/
def execVdq (a : At) (f : FmtVC) (s : State) : Res := .next (s.slot a (.vdq a f))
/-- VLD. -/
def execVld (a : At) (f : FmtVM) (s : State) : Res := .next (s.slot a (.vld a f))
/-- VST. -/
def execVst (a : At) (f : FmtVM) (s : State) : Res := .next (s.slot a (.vst a f))
/-- MMA. -/
def execMma (a : At) (f : FmtMM) (s : State) : Res := .next (s.slot a (.mma a f))
/-- MMAV. -/
def execMmav (a : At) (f : FmtMV) (s : State) : Res := .next (s.slot a (.mmav a f))
/-- MADD. -/
def execMadd (a : At) (f : FmtMA) (s : State) : Res := .next (s.slot a (.madd a f))
/-- MCLR. -/
def execMclr (a : At) (f : FmtMA) (s : State) : Res := .next (s.slot a (.mclr a f))
/-- MRD. -/
def execMrd (a : At) (f : FmtMR) (s : State) : Res := .next (s.slot a (.mrd a f))
/-- ALD. -/
def execAld (a : At) (f : FmtMA) (s : State) : Res := .next (s.slot a (.ald a f))
/-- AST. -/
def execAst (a : At) (f : FmtMA) (s : State) : Res := .next (s.slot a (.ast a f))
/-- MLST. -/
def execMlst (a : At) (f : FmtMA) (s : State) : Res := .next (s.slot a (.mlst a f))
/-- MLAD. -/
def execMlad (a : At) (f : FmtMA) (s : State) : Res := .next (s.slot a (.mlad a f))
/-- ARDV. -/
def execArdv (a : At) (f : FmtMX) (s : State) : Res := .next (s.slot a (.ardv a f))
/-- AWRV. -/
def execAwrv (a : At) (f : FmtMX) (s : State) : Res := .next (s.slot a (.awrv a f))
/-- XMSG. -/
def execXmsg (a : At) (f : FmtXD) (s : State) : Res := .next (s.slot a (.xmsg a f))
/-- XMSGV. -/
def execXmsgv (a : At) (f : FmtXV) (s : State) : Res := .next (s.slot a (.xmsgv a f))
/-- XMOV. -/
def execXmov (a : At) (f : FmtXD) (s : State) : Res := .next (s.slot a (.xmov a f))
/-- XWAIT. -/
def execXwait (a : At) (f : FmtXT) (s : State) : Res := .next (s.slot a (.xwait a f))
/-- XTSET. -/
def execXtset (a : At) (f : FmtXT) (s : State) : Res := .next (s.slot a (.xtset a f))
/-- XTRD. -/
def execXtrd (a : At) (f : FmtXT) (s : State) : Res := .next (s.slot a (.xtrd a f))
/-- XSYNC. -/
def execXsync (a : At) (f : FmtXS) (s : State) : Res := .next (s.slot a (.xsync a f))
/-- XFILL. -/
def execXfill (a : At) (f : FmtXD) (s : State) : Res := .next (s.slot a (.xfill a f))
/-- XSPILL. -/
def execXspill (a : At) (f : FmtXD) (s : State) : Res := .next (s.slot a (.xspill a f))
/-- XMBW. -/
def execXmbw (a : At) (f : FmtXB) (s : State) : Res := .next (s.slot a (.xmbw a f))
/-- XMBR. -/
def execXmbr (a : At) (f : FmtXB) (s : State) : Res := .next (s.slot a (.xmbr a f))
/-- XFLD. -/
def execXfld (a : At) (f : FmtXV) (s : State) : Res := .next (s.slot a (.xfld a f))

end Sys2Proof.Machine
end

