-- ==== Sys2Proof/Machine/Grid.lean ====
section
/-! DEFINITION. The grid (07_grid_messaging R175-R193, R197-R199; 06 R156, R157, R520): beats between tiles,
landing, tallies, sync waves, links and slot tables, and the ends of a tile's waits. A beat carries the GCLK
in which it reaches its next tile; the commands of one launch group come in the order of their GCLKs (log
entry 5). -/

namespace Sys2Proof.Machine

/-! ## Beats that leave a tile (R176, R185, R192) -/

/-- Table 7-1 code that forwards an input. -/
def inputCode : Dir → Nat
  | .north => 2 | .east => 3 | .south => 4 | .west => 5

/-- Beats on their way to an input of a tile or waiting at it: its router holds 8 (R192). -/
def State.atInput (s : State) (t : Nat) (d : Dir) : List Beat := s.beats.filter (fun b => b.at_ == t && b.input == d)

/-- A beat leaves an input of tile t in GCLK g: a full buffer has room from then on. -/
def State.leaveInput (s : State) (t : Nat) (input : Dir) (g : Nat) : State :=
  match neighbour t input with
  | some u =>
    if 8 ≤ (s.atInput t input).length then
      s.setLink u (opposite input) { s.link u (opposite input) with room := max g (s.link u (opposite input)).room }
    else s
  | none => s

/-- Beats that ask for an output of a tile in Steady mode, by input code, 4 being the tile's own injector, with
the GCLK from which each asks. -/
def State.asking (s : State) (t : Nat) (d : Dir) : List (Nat × Nat) :=
  allDirs.filterMap (fun i =>
    match s.beats.find? (fun b => b.at_ == t && b.input == i) with
    | some b => if b.dstTile ≠ t && steadyHop t b.dstTile = some d then some (dirCode i, b.gclk) else none
    | none => none) ++
  (match (s.tile t).injq.head? with
    | some m =>
      match m.beatFrom with
      | some r => if steadyHop t m.dstTile = some d then [(4, r + (s.tile t).lag)] else []
      | none => []
    | none => [])

/-- The grant of a Steady-mode output: one beat per GCLK, round robin from the pointer over the inputs that hold
a beat for it, where the next router has a credit left. Answers the input and the GCLK (R192). -/
def State.routerGrant (s : State) (t : Nat) (d : Dir) : Option (Nat × Nat) :=
  let l := s.link t d
  let rs := s.asking t d
  match rs, neighbour t d with
  | r :: rest, some u =>
    if 8 ≤ (s.atInput u (opposite d)).length then none
    else
      let g := max (max l.free l.room) (rest.foldl (fun a x => min a x.2) r.2)
      let turn (i : Nat) : Nat := (i + 5 - l.ptr) % 5
      (rs.filter (fun x => x.2 ≤ g)).foldl (fun b x =>
        match b with
        | none => some (x.1, g)
        | some y => if turn x.1 < turn y.1 then some (x.1, g) else b) none
  | _, _ => none

/-- The output serves an input in GCLK g: its pointer moves past it, and the GCLKs the beat waited count. -/
def State.granted (s : State) (t : Nat) (d : Dir) (i g asked : Nat) : State :=
  (s.setLink t d { s.link t d with ptr := (i + 1) % 5, free := g + 1 }).count bGRID 0 0xC10 (g - asked)

/-- GCLKs of its ports that one MESSAGE_INJECT looks at: more than a slot table's period and the staging of a
beat's lines take. -/
abbrev injectSpan : Nat := 1024

/-- A beat of the head message leaves: in Exact mode in the first GCLK in which it is staged and an output's
table has local injection, in Steady mode when its output grants it. -/
def State.injectNext (s : State) (t : Nat) : State :=
  let x := s.tile t
  match x.injq with
  | [] => s
  | m :: _ =>
    match steadyHop t m.dstTile with
    | none => s
    | some d =>
      if (s.link t d).steady && s.ownsLink t t d then
        let s1 := s.engWhile t (fun y => (y.injq.head?.bind Msg.beatFrom).isNone) injectSpan
        match s1.routerGrant t d, (s1.tile t).injq.head?.bind Msg.beatFrom with
        | some (i, g), some r =>
          if i = 4 then (s1.granted t d 4 g (r + x.lag)).sendBeat t d (g - x.lag) else s1
        | _, _ => s1
      else s.engWhile t (fun y => y.msgId == x.msgId && (y.injq.head?.map Msg.sent) == some m.sent) injectSpan

/-- MESSAGE_INJECT (R175-R177, R185, R188): one beat of the head message leaves. A bundle that waited for an
entry of the queue issues in the GCLK after the last beat of a message has left (R176). The link and the slot
index that the command names are where the beat is seen to leave; the tile's own queue and tables decide them. -/
def execMessageInject (t : Nat) (_out : Dir) (_idx : Nat) (s : State) : Res :=
  .next (if !(tileOk t && s.tileEdges t) then s
  else
    let s1 := s.injectNext t
    let x := s1.tile t
    if x.waitFor = some .inject && x.injq.length < 8 then (s1.hold t (2 * x.eng - x.aclk)).unpark t else s1)

/-! ## Beats that reach a tile (R178, R179, R186, R192, R193, R197) -/

/-- Whether a tile is held, or waits for its slot phase after a hold or a stop. -/
def Tile.heldRouter (x : Tile) : Bool := x.run == .held || x.waitFor == some .phase

/-- A beat waits in the router before a held tile and is marked, and the tile's external flag is set (R197). -/
def State.holdBeat (s : State) (t : Nat) (b : Beat) : State :=
  let now := (s.group (s.tileGroup b.src)).gclk
  ({ s with beats := s.beats.map (fun c =>
      if c = b then { c with mark := true, heldAt := some (c.heldAt.getD now) } else c) } : State).updTile t Tile.setFlag

/-- The GCLK in which a beat that may have waited before a held tile goes on: whole 256-GCLK periods later, at
the same slot index (R197). -/
def State.beatGclk (s : State) (b : Beat) : Nat :=
  match b.heldAt with
  | some h => b.gclk + ((s.group (s.tileGroup b.src)).gclk - h + 255) / 256 * 256
  | none => b.gclk

/-- A beat reaches its destination. For an idle tile the message is discarded and counts there once (R108).
A full landing buffer discards it in Exact mode (R179) and makes it wait in Steady mode (R193). -/
def State.beatArrives (s : State) (b : Beat) (steady : Bool) (g : Nat) : State :=
  let t := b.dstTile
  let others := s.beats.erase b
  let r := (s.tile t).run
  if r = .unavailable then s.discardBeat b others false
  else if r = .idle then (s.count bTILE t 0xC30 1).discardBeat b others false
  else
    let s1 := s.engWhile t (fun x => x.eng < g - x.lag) injectSpan
    let x := s1.tile t
    let gl := g - x.lag
    if steady then
      if 16 ≤ x.bufLines then s1
      else
        let gs := max gl x.roomAt
        (s1.leaveInput t b.input (gs + x.lag)).landBeat b others gs
    else if 16 ≤ x.bufLines && !(x.writeFree gl && (x.nextLine gl).isSome) then s1.discardBeat b others true
    else s1.landBeat b others gl

/-- The output of an Exact-mode tile whose table forwards an input at a slot index, for the sender's group. -/
def State.forwardOut (s : State) (b : Beat) (t : Nat) (input : Dir) (g : Nat) : Option Dir :=
  allDirs.find? (fun d => s.ownsLink b.src t d && mget 0 (s.link t d).table (g % 256) == inputCode input)

/-- A beat leaves tile t by output d in GCLK g; a link into an unavailable tile carries nothing (R102). -/
def State.moveBeat (s : State) (b : Beat) (t : Nat) (d : Dir) (g : Nat) : State :=
  let others := s.beats.erase b
  match neighbour t d with
  | none => s.discardBeat b others true
  | some u =>
    if (s.tile u).run = .unavailable then s.discardBeat b others false
    else { s with beats := others ++ [{ b with at_ := u, input := opposite d, gclk := g + hopLatency t d, heldAt := none }] }

/-- A Steady-mode beat on its way asks its output for a grant: it moves when it is its input's turn. -/
def State.routeBeat (s : State) (b : Beat) (t : Nat) (input : Dir) (g : Nat) : State :=
  match steadyHop t b.dstTile with
  | none => s
  | some d =>
    if !s.ownsLink b.src t d then s.discardBeat b (s.beats.erase b) true
    else
      match s.routerGrant t d with
      | some (i, gg) =>
        if i = dirCode input then ((s.leaveInput t input gg).granted t d i gg g).moveBeat b t d gg else s
      | none => s

/-- What becomes of a sound beat at a tile. -/
def State.passBeat (s : State) (b : Beat) (t : Nat) (input : Dir) (steady : Bool) : State :=
  if (s.tile t).heldRouter then s.holdBeat t b
  else
    let g := s.beatGclk b
    let b1 := { b with gclk := g, heldAt := none }
    let s1 : State := { s with beats := s.beats.map (fun c => if c = b then b1 else c) }
    if b.dstTile = t then s1.beatArrives b1 steady g
    else if (s.tile t).run = .unavailable then s1.discardBeat b1 (s1.beats.erase b1) false
    else if steady then s1.routeBeat b1 t input g
    else
      match s1.forwardOut b1 t input g with
      | some d => s1.moveBeat b1 t d g
      | none => s1.discardBeat b1 (s1.beats.erase b1) true

/-- BEAT_FORWARD: the first beat at a tile's input lands, is forwarded, waits, or is discarded with its
message. `err` 1: its code cannot correct it; it is discarded in Exact mode and retried 12 GCLK later in
Steady mode (R208); `err` 2: a Steady-mode beat has failed 1,000 retries, which condemns the receiving tile
(Table 20-5). -/
def execBeatForward (t : Nat) (input : Dir) (err : Nat) (s : State) : Res :=
  .next <|
    match s.beats.find? (fun b => b.at_ == t && b.input == input) with
    | none => s
    | some b =>
      let others := s.beats.erase b
      let steady := match neighbour t input with | some u => (s.link u (opposite input)).steady | none => false
      let ueInfo : W32 := BitVec.ofNat 32 (t + dirCode input * 2 ^ 11)
      if !s.tileEdges t then s
      else if (s.deadMsg b).isSome then s.discardBeat b others true
      else if err = 1 && !steady then (s.raise bERR 0 1 ueInfo).discardBeat b others true
      else if err = 1 then
        ({ s with beats := s.beats.map (fun c => if c = b then { c with gclk := c.gclk + 12 } else c) } : State).count
          bERR 0 0xC08 1
      else if err = 2 && steady then (s.raise bERR 0 1 ueInfo).condemnTile t
      else s.passBeat b t input steady

/-- GCLKs of its ports that one MESSAGE_LAND looks at: 256 lines at seven in eight GCLKs. -/
abbrev landSpan : Nat := 512

/-- MESSAGE_LAND (R178, R180, R188): the lines of the messages in the landing buffer are written until one of
them is whole, and its destination tally counts in the next GCLK. -/
def execMessageLand (t : Nat) (s : State) : Res :=
  .next (if tileOk t && s.tileEdges t && (s.tile t).landing.any (fun l => 0 < l.lines.length) then
    let n := (s.tile t).landing.length
    s.engWhile t (fun x => x.landing.length == n && 0 < x.bufLines) landSpan
  else s)

/-! ## Ends of waits -/

/-- XMOV_DONE (R520): the lines of the oldest XMOV move until its last one is written; its tally counts in the
next GCLK. -/
def execXmovDone (t : Nat) (s : State) : Res :=
  .next (if tileOk t && s.tileEdges t then
    match (s.tile t).xmovs with
    | [] => s
    | m :: ms => s.engWhile t (fun x => x.xmovs.length == ms.length + 1) (m.len / 64 + injectSpan)
  else s)

/-- The next bundle issues in the ACLK after the first one of the GCLK in which an increment is made (R181):
ACLK from the present one, where that GCLK is the present one or the next. -/
def seenIn (a : Nat) : Nat := if a % 2 = 0 then 1 else 2

/-- The wait on a tally ends after n more ACLK: they are external-wait cycles on an external tally or a marked
grid tally (R169, R188); the operand is subtracted and the mark cleared. -/
def State.endTallyWait (s : State) (t k n op : Nat) (marked : Bool) : State :=
  let s1 := s.updTile t (fun x => { x with waitExt := 48 ≤ k || marked })
  (((s1.abandonTest t).hold t n).landTallies t ((s.tile t).aclk + n)).updTile t (fun y =>
    let z := y.setTally k (BitVec.ofNat 32 ((y.tally k).toNat - op))
    { (if marked then z.setFlag else z) with marks := merase y.marks k, waitFor := none, waitExt := false })

/-- TALLY_WAIT_RELEASE (R181, R188): the tally, with the increments that have arrived, satisfies the wait. -/
def execTallyWaitRelease (t : Nat) (s : State) : Res :=
  .next <|
    match (s.tile t).waitFor with
    | some (.tally k n _) =>
      let x := s.tile t
      let mark (d : Nat) : Bool := mget false x.marks k || x.flight.any (fun f =>
        match f.land with | .tally j m _ => j == k && m && f.due ≤ d | _ => false)
      if !s.tileEdges t then s
      else if n ≤ (x.tally k).toNat then s.endTallyWait t k (seenIn x.aclk) n (mark x.aclk)
      else
        match x.tallyDue k n with
        | some d => s.endTallyWait t k (if d < x.aclk then seenIn x.aclk else d + 1 - x.aclk) n (mark d)
        | none => s
    | _ => s

/-- WAITT_RELEASE (R157): network time has reached the target. -/
def execWaittRelease (t : Nat) (s : State) : Res :=
  .next <|
    match (s.tile t).waitFor with
    | some (.time v) =>
      if v.toNat ≤ s.timeWord.toNat && s.tileEdges t then
        let s1 := (s.abandonTest t).hold t ((16 - (s.tile t).aclk % 16) % 16)
        s1.updTile t (fun x => { x with waitFor := none, waitExt := false })
      else s
    | _ => s

/-- END_DONE (R156). -/
def execEndDone (t : Nat) (s : State) : Res :=
  .next (if (s.tile t).waitFor == some .endDrain && (s.tile t).drained && s.tileEdges t then s.endTile t else s)

/-- A member of a generation goes on in GCLK g: its wait counts as external, and its flag stays set, if a member
joined with its flag set since its latest XSYNC; the next XSYNC clears it (R188, log entry 56). -/
def State.endWave (s : State) (t g : Nat) (ext : Bool) : State :=
  let s1 := s.updTile t (fun x => { x with waitExt := ext })
  (s1.hold t (2 * (g - (s.tile t).lag) - (s.tile t).aclk)).updTile t (fun x => { x with
    waitFor := none, waitExt := false, flag := ext, soiled := false })

/-- WAVE_COMPLETE (R189, R190, R188): every member has joined or is done; each member's next bundle issues in
the first ACLK of the GCLK 64 after that of the last join. -/
def execWaveComplete (p w g : Nat) (s : State) : Res :=
  let ms := (List.range 1440).filter (s.waveMember p g w)
  let waiting := ms.filter (fun t => (s.tile t).waitFor == some (.wave w))
  .next (if !waiting.isEmpty && ms.all (fun t => (s.tile t).waitFor == some (.wave w) || (s.tile t).run == .done)
      && waiting.all s.tileEdges then
    let ext := waiting.any (fun t => (s.tile t).soiled)
    let rel := waiting.foldl (fun m t => max m ((s.tile t).joinG + 64)) 0
    waiting.foldl (fun s t => s.endWave t rel ext) (s.count bGRID 0 0xC08 1)
  else s)

/-! ## Links and slot tables -/

/-- Sets GRID_ST_CTRL.STATUS. -/
def State.stStatus (s : State) (v : Nat) : State := s.setReg bGRID 0 0x204 (BitVec.ofNat 32 (v * 4))

/-- Tile and output selected by GRID_ST_SEL or GRID_LINK_SEL. -/
def State.gridSel (s : State) (off : Nat) : Nat × Dir := (s.fld bGRID 0 off 0 11, dirOf (s.fld bGRID 0 off 11 2))

/-- Entry i of the window. -/
def State.window4 (s : State) (i : Nat) : Nat := s.fld bGRID 0 (0x280 + 4 * (i / 8)) (4 * (i % 8)) 4

/-- The direction an entry takes its input from. -/
def entryDir : Nat → Option Dir
  | 2 => some .north | 3 => some .east | 4 => some .south | 5 => some .west | _ => none

/-- Whether an entry of an output of tile t is refused (R187). -/
def State.entryBad (s : State) (t : Nat) (out : Dir) (i e : Nat) : Bool :=
  let l := s.link t out
  if 5 < e then true
  else if e = 0 then false
  else
    (match entryDir e with
      | none => false
      | some d =>
        match neighbour t d with
        | none => true
        | some u =>
          let m := s.link u (opposite d)
          !(m.owned && m.part == l.part && m.group == l.group)) ||
    allDirs.any (fun o => o != out && mget 0 (s.link t o).table i == e)

/-- LOAD (R187): STATUS 1 ownership, 2 group active, 3 entry conflict or reserved value. -/
def State.stLoad (s : State) : State :=
  let sel := s.gridSel 0x200
  let l := s.link sel.1 sel.2
  if !l.owned then s.stStatus 1
  else if s.groupActive l.group then s.stStatus 2
  else if (List.range 256).any (fun i => s.entryBad sel.1 sel.2 i (s.window4 i)) then s.stStatus 3
  else
    let tb := (List.range 256).foldl (fun m i => mset 0 m i (s.window4 i)) []
    (s.setLink sel.1 sel.2 { l with table := tb }).stStatus 0

def execGridStLoad (s : State) : Res := .next (s.pageWrite bGRID 0 0x204 1 State.stLoad)

/-- READ copies the selected table into the window. -/
def State.stRead (s : State) : State :=
  let sel := s.gridSel 0x200
  let tb := (s.link sel.1 sel.2).table
  (List.range 32).foldl (fun s k =>
    s.setReg bGRID 0 (0x280 + 4 * k) (BitVec.ofNat 32 (packE 4 ((List.range 8).map (fun i => mget 0 tb (8 * k + i)))))) s

def execGridStRead (s : State) : Res := .next (s.pageWrite bGRID 0 0x204 2 State.stRead)

/-- Whether a link's present owner lets it change: its group is not active and 512 GCLK have passed since its
last active tile left (R182). -/
def State.linkFree (s : State) (l : Link) : Bool := !l.owned || s.groupQuiet l.group

/-- Whether a launch group is one of a partition's (R385, PART_GROUPS). -/
def State.partGroup (s : State) (p g : Nat) : Bool :=
  s.fld bPART p 0x050 0 11 ≤ g && g < s.fld bPART p 0x050 0 11 + s.fld bPART p 0x050 16 12

/-- GRID_LINK_OWNER (R182, R198): a link that changes its owner has no slot table loaded. -/
def State.linkOwner (s : State) (v : W32) : State :=
  let sel := s.gridSel 0x300
  let n := v.toNat
  let l := s.link sel.1 sel.2
  let p := bitsAt n 0 10
  let g := bitsAt n 10 11
  let own := bitsAt n 31 1 == 1
  match neighbour sel.1 sel.2 with
  | none => s.stStatus 1
  | some u =>
    if !(tileOk sel.1) || !s.linkFree l ||
        (own && !(s.tileOwner sel.1 = some p && s.tileOwner u = some p && s.partGroup p g)) then s.stStatus 1
    else (s.setLink sel.1 sel.2 { owned := own, part := p, group := g, steady := bitsAt n 30 1 == 1 }).stStatus 0

def execGridLinkOwnerWrite (v : W32) (s : State) : Res := .next (s.pageWrite bGRID 0 0x304 v (·.linkOwner v))

end Sys2Proof.Machine
end

