-- ==== Sys2Proof/Machine/Entries.lean ====
section
/-! DEFINITION. Tallies (13_remote_operations R339-R343), queue control blocks, completion and
notification records (15_queues_and_notifications R366-R383), streams that park, and fault records
(09_memory_and_translation R237-R241). -/

namespace Sys2Proof.Machine

/-! ## Control blocks (R366-R369) -/

/-- The control block as the module would write it whole (R475). -/
def cbImage (x : Queue) : List Byte :=
  leBytes 4 x.p ++ leBytes 4 x.c ++ leBytes 4 x.h ++ leBytes 2 x.qstate ++ leBytes 2 x.nfail ++
  leBytes 2 x.ncount ++ leBytes 2 x.ntimer ++ leBytes 4 x.nkind ++ leBytes 4 x.ndest ++ leBytes 4 x.nkey.toNat ++
  leBytes 8 x.naddr ++ List.replicate 24 0

/-- A control block or ring entry whose line cannot be read is rewritten whole (R475). -/
def State.cbRepair (s : State) (p q : Nat) : State :=
  let va := (s.queue p q).cb
  ((s.vput false p va (cbImage (s.queue p q)) []).1).queueUe p q ((s.pureXl p va accR).getD 0)

/-- The module writes bytes 4-15 of the control block, as one write (R369). -/
def State.publish (s : State) (p q : Nat) : State :=
  let x := s.queue p q
  match s.vput false p (x.cb + 4) (((cbImage x).drop 4).take 12) [] with
  | (s1, .stat 6 _) => s1.cbRepair p q
  | (s1, _) => s1

def State.updQueue (s : State) (p q : Nat) (f : Queue → Queue) : State := s.setQueue p q (f (s.queue p q))

/-- Virtual address of ring entry i (R367). -/
def Queue.slotVa (x : Queue) (i : Nat) : Nat := x.ring + i % 2 ^ x.sizeLog2 * 64

/-- Difference of free-running 32-bit indices. -/
def idxDiff (a b : Nat) : Nat := (a + 2 ^ 32 - b % 2 ^ 32) % 2 ^ 32

/-- Writes the record of a ring entry's local run into its descriptor, with the bytes moved and the engine
instance (R233). -/
def State.putRun (s : State) (p q idx : Nat) (r : Held) (moved unit_ : Nat) : State :=
  (s.vput false p ((s.queue p q).slotVa idx + 48) (runRecord r moved unit_) []).1
def State.recordRun (s : State) (o : Origin) (r : Held) (moved unit_ : Nat) : State :=
  match o with
  | .entry p q idx => s.putRun p q idx r moved unit_
  | _ => s

/-! ## Messages into a connection's transmit order -/

/-- A message enters a connection's transmit order. -/
def State.connPush (s : State) (cid : Nat) (m : TxMsg) : State :=
  let c := s.conn cid
  s.setConn cid { c with txq := c.txq ++ [m] }

/-- Whether a write lies in one 64-byte line and is small (R315). -/
def smallWrite (va len : Nat) : Bool := 1 ≤ len && len ≤ 64 && va / 64 == (va + len - 1) / 64

/-! ## Notification records (R380-R382) -/

/-- The 16 bytes of a record (Table 15-6). -/
def recordBytes (x : Queue) (q : Nat) (shut overrun : Bool) : List Byte :=
  leBytes 4 x.h ++ leBytes 4 x.c ++ leBytes 2 q ++
  [BitVec.ofNat 8 (x.err.toNat + 2 * shut.toNat + 4 * overrun.toNat), 0] ++ leBytes 4 x.seq.toNat

/-- Counts a record that was not delivered, stopping at 0xFFFF. -/
def State.nfail (s : State) (p q : Nat) : State :=
  (s.updQueue p q (fun x => { x with nfail := min (x.nfail + 1) 0xFFFF })).publish p q

/-- Forms and sends a record as NKIND says; moderation restarts. -/
def State.notify (s : State) (p q : Nat) (shut overrun : Bool) : State :=
  let x := s.queue p q
  if x.nkind = 0 || x.ncount = 0 then s
  else
    let bs := recordBytes x q shut overrun
    let w0 : W64 := BitVec.ofNat 64 (leNat (bs.take 8))
    let w1 : W64 := BitVec.ofNat 64 (leNat (bs.drop 8))
    let s1 := s.setQueue p q { x with count := 0, err := false, timer := false, seq := x.seq + 1 }
    match x.nkind with
    | 1 =>
      let c := s1.conn x.ndest
      if c.state = .open_ && c.part == p && x.naddr % 16 == 0 then
        let m : TxMsg := { org := .notify p q, op := 0x01, msgId := 0, len := 16, lva := 0
                           rva := BitVec.ofNat 64 x.naddr, key := x.nkey, imm := 0, fence := false, small := true
                           data := bs, first := none, sent := 0, unsol := 0, granted := 0, d := {} }
        s1.connPush x.ndest m
      else s1.nfail p q
    | 2 => (s1.setMb (.part p) true ((s1.mb (.part p) true).post [w0, w1] true)).chanStatus p
    | _ =>
      if tileOk x.ndest && s1.tileOwner x.ndest == some p then
        s1.setMb (.tile x.ndest) false ((s1.mb (.tile x.ndest) false).post [w0, w1] true)
      else s1.nfail p q

/-! ## Completion (R377, R378) -/

/-- H passes every finished entry in ring order; answers the queue and whether H moved. -/
def passEntries : Nat → Queue → Queue × Bool
  | 0, x => (x, false)
  | n + 1, x =>
    match x.entries with
    | [] => (x, false)
    | e :: es =>
      match e.done with
      | none => (x, false)
      | some st =>
        ((passEntries n { x with entries := es, h := (x.h + 1) % 2 ^ 32, count := x.count + 1
                                 err := x.err || st != 0 }).1, true)

/-- A queue that is shutting down and has nothing left becomes shut, with a record (R379). -/
def State.tryShut (s : State) (p q : Nat) : State :=
  let x := s.queue p q
  if x.qstate = 4 && x.entries.isEmpty then
    let s1 := (((s.setQueue p q { x with qstate := 5 }).publish p q).notify p q true false).updQueue p q
      (fun y => { y with used := false, cmd := none })
    match x.cmd with
    | some c => s1.finish c 0
    | none => s1
  else s

/-- Publishes what H has passed and forms a record when moderation says so. -/
def State.advanceH (s : State) (p q : Nat) : State :=
  let x := s.queue p q
  let r := passEntries x.entries.length x
  if r.2 then
    let s1 := (s.setQueue p q { r.1 with timer := true }).publish p q
    let y := s1.queue p q
    let s2 := if y.err || (y.ncount != 0 && y.ncount ≤ y.count) then s1.notify p q false false else s1
    s2.tryShut p q
  else s.tryShut p q

/-- Writes a status into bytes 2-3 of a ring entry. -/
def State.putStatus (s : State) (p q idx st : Nat) : State :=
  if st = 0 then s else (s.vput false p ((s.queue p q).slotVa idx + 2) (leBytes 2 st) []).1

/-- Whether an opcode is a transfer, whose flag [1] is CTALLY (R324). -/
def isTransfer (op : Nat) : Bool := 1 ≤ op && op ≤ 8

/-- A stream leaves the pending-fault entry it joined and the faults that wait (R379, R239). -/
def State.leaveFaults (s : State) (f : Stream → Bool) : State :=
  { s with
    faults := s.faults.map (fun (e : FaultEntry) => { e with streams := e.streams.filter (fun x => !f x) })
    faultWaits := s.faultWaits.filter (fun (w : FaultWait) => !f w.st) }

/-- An entry completes: its status is written, its CTALLY tally counts, H goes on. -/
def State.complete (s : State) (p q idx st : Nat) : State :=
  match (s.queue p q).entries.find? (fun e => e.idx == idx && e.done.isNone) with
  | none => s
  | some e =>
    let s1 := s.putStatus p q idx st
    let s2 := s1.updQueue p q (fun x => { x with
      entries := x.entries.map (fun y => if y.idx = idx then { y with done := some st, parked := false } else y)
      qstate := if e.parked && x.qstate = 2 then 0 else x.qstate })
    let s3 := s2.leaveFaults (fun x => match x with
      | .queue a b i => a == p && b == q && i == idx | _ => false)
    let s4 := if (isTransfer e.op && e.d.flags.getLsbD 1) || e.op = 0x35 then s3.incTally p e.d.tally else s3
    s4.advanceH p q

/-- Pseudo queue number of operations that are part of no ring. -/
abbrev noRing : Nat := 4096

/-- The end of an operation by where it came from: a ring entry completes; a fired operation writes only
a failing status, into its embedded descriptor, and its CTALLY tally counts (R343). -/
def State.finishOrg (s : State) (o : Origin) (d : Desc) (transfer : Bool) (st : Nat) : State :=
  match o with
  | .entry p q idx => s.complete p q idx st
  | .armed p pa k dl =>
    let s1 := if st = 0 then s
      else
        let r := s.physWrite p k (pa + 2) (leBytes 2 st) none
        if dl && r.2 = 0 then r.1.dirtyRange p (pa + 2, 2) else r.1
    if transfer && d.flags.getLsbD 1 then s1.incTally p d.tally else s1
  | .notify p q => if st = 0 then s else s.nfail p q
  | _ => s

/-! ## Streams that park (R237) -/

/-- Changes the jobs a test picks. -/
def State.updJobs (s : State) (f : CopyJob → Bool) (g : CopyJob → CopyJob) : State :=
  { s with jobs := s.jobs.map (fun j => if f j then g j else j) }

/-- The jobs of a stream. -/
def jobOf (st : Stream) (j : CopyJob) : Bool :=
  match st, j.from_ with
  | .queue p q i, .entry a b k => a == p && b == q && k == i
  | .queue p q i, .armed a pa _ _ => q == noRing && a == p && pa == i
  | .tileReq t sp, .tile u => t == u && j.spill == sp
  | _, _ => false

/-- The first job of a stream. -/
def State.headJob (s : State) (st : Stream) : Option CopyJob := s.jobs.find? (jobOf st)

/-- A stream parks: its descriptor or request, and with it the queue or the requests behind it. -/
def State.parkStream (s : State) (st : Stream) : State :=
  let s1 := match s.headJob st with
    | some j => (s.updJobs (fun x => x.eng == j.eng && x.id == j.id) (fun x => { x with parked := true })).raise bCOPY j.eng 1
    | none => s
  match st with
  | .queue p q i =>
    if q = noRing then s1
    else (s1.updQueue p q (fun x => { x with
      qstate := if x.qstate = 4 then 4 else 2
      parked := x.parked || !x.entries.any (fun e => e.idx == i)
      entries := x.entries.map (fun e => if e.idx = i then { e with parked := true } else e) })).publish p q
  | .tileReq _ _ => s1
  | .conn cid => s1.setConn cid { s1.conn cid with parked := true }

/-! ## Fault queues (R238-R240) -/

/-- Base of a partition's fault queue, and its size. -/
def State.fqBase (s : State) (p : Nat) : Nat := (s.part p).rec_.fqBase
def State.fqSize (s : State) (p : Nat) : Nat := 2 ^ (s.part p).rec_.fqLog2
/-- The producer index where the fault queue has a free record; none where it is full or its control block
cannot be read (log entry 61). -/
def State.fqRoom (s : State) (p cls : Nat) : State × Option Nat :=
  match s.load0 (s.fqBase p) 4 cls with
  | (s1, none) => (s1, none)
  | (s1, some a) =>
    match s1.load0 (s.fqBase p + 4) 4 cls with
    | (s2, none) => (s2, none)
    | (s2, some b) => (s2, if s.fqSize p ≤ idxDiff a b then none else some a)

/-- The DRAM class of a stream, in which its walks and fault records are made (R232): Q2 of a copy engine, Q1
of the transport. -/
def State.streamCls (s : State) (st : Stream) : Nat :=
  match st with
  | .queue p q _ => if q = noRing then (if (s.headJob st).isSome then 2 else 1) else if (s.queue p q).kind = 1 then 2 else 1
  | .tileReq _ _ => 2
  | .conn _ => 1
def State.faultCls (s : State) (e : FaultEntry) : Nat := (e.streams.head?.map s.streamCls).getD 1

/-- Stream kind of a record (Table 9-7); a command queue's is not stated and is free (log entry 4). -/
def State.streamKind (s : State) (st : Stream) : Nat :=
  match st with
  | .queue p q _ => if q = noRing then s.freeIn 3 0 1 else
      match (s.queue p q).kind with | 0 => 1 | 1 => 0 | _ => s.freeIn 3 0 15
  | .tileReq _ _ => 2
  | .conn _ => 3

/-- The 32 bytes of a record. -/
def State.faultBytes (s : State) (e : FaultEntry) : List Byte :=
  [BitVec.ofNat 8 (e.reason + e.level * 16 + e.fd1.toNat * 128), e.acc.setWidth 8] ++
  leBytes 2 (min e.streams.length 0xFFFF) ++ leBytes 2 e.part ++
  leBytes 2 ((e.streams.head?.map s.streamKind).getD 0) ++ leBytes 8 e.va ++ leBytes 8 e.time.toNat ++
  leBytes 4 e.token ++ leBytes 4 0

/-- Adds to a little-endian counter of a control block. -/
def State.bump0 (s : State) (a n : Nat) (up : Bool) (cls : Nat := 1) : State :=
  match s.load0 a n cls with
  | (s1, some v) => s1.put0 a (leBytes n (if up then v + 1 else v - 1)) cls
  | (s1, none) => s1

/-- Writes an entry's record at the producer index, advances the index and sets EVENTS.FAULT (R238). -/
def State.faultRecord (s : State) (e : FaultEntry) (prod : Nat) : State :=
  let b := s.fqBase e.part
  let c := s.faultCls e
  let k := prod % s.fqSize e.part
  let s1 := (s.put0 (b + 64 + k * 32) (s.faultBytes e) c).freshen
  let s2 := s1.put0 b (leBytes 4 ((prod + 1) % 2 ^ 32)) c
  let s3 := { s2 with faults := s2.faults.map (fun (f : FaultEntry) => if f.token = e.token then { f with slot := some k } else f) }
  s3.raise bXLAT (dieInst e.fd1) 0

/-- A stream parks without a record (R240). -/
def State.noRecord (s : State) (fd1 : Bool) (p : Nat) : State :=
  ((s.bump0 (s.fqBase p + 8) 8 true).bump0 (s.fqBase p + 16) 4 true).raise bXLAT (dieInst fd1) 1 (BitVec.ofNat 32 p)

/-- A fault joins an entry; the waiter count of a written record counts up (R239). -/
def State.faultJoin (s : State) (e : FaultEntry) (st : Stream) : State :=
  let e1 := { e with streams := e.streams ++ [st] }
  let s1 := { s with faults := s.faults.map (fun (f : FaultEntry) => if f.token = e.token then e1 else f) }.count bXLAT (dieInst e.fd1) 0xC20 1
  match e.slot with
  | some k =>
    let a := s1.fqBase e.part + 64 + k * 32 + 2
    match s1.load0 a 2 (s.streamCls st) with
    | (s2, some v) => s2.put0 a (leBytes 2 (min (v + 1) 0xFFFF)) (s.streamCls st)
    | (s2, none) => s2
  | none => s1

/-- The entry of a die on whose range an address of a partition falls. -/
def State.faultAt (s : State) (fd1 : Bool) (p va : Nat) : Option FaultEntry :=
  s.faults.find? (fun e => e.fd1 == fd1 && e.part == p && e.lo ≤ va && va < e.lo + e.size)

/-- Takes a new table entry; its token names the die in bit 0 (log entry 17). -/
def State.faultNew (s : State) (w : FaultWait) : State × FaultEntry :=
  let n := s.token + 1
  let e : FaultEntry := { token := n * 2 + dieInst w.fd1, fd1 := w.fd1, part := w.part, level := w.level
                          lo := w.lo, size := w.size, reason := w.reason, acc := w.acc, va := w.va
                          time := w.time, slot := none, streams := [w.st], seq := w.seq }
  ({ s with token := n, faults := s.faults ++ [e] }, e)

/-- Number of the next fault to occur. -/
def State.faultSeq (s : State) : Nat :=
  (s.faults.map (fun (e : FaultEntry) => e.seq) ++ s.faultWaits.map (fun (w : FaultWait) => w.seq)).foldl max 0 + 1
/-- Whether faults of a partition wait for space of any kind. -/
def State.faultsWait (s : State) (p : Nat) : Bool :=
  s.faults.any (fun e => e.part == p && e.slot.isNone) || s.faultWaits.any (fun w => w.part == p)

/-- A translation fault parks its stream and is reported (R237-R240); a record waits behind those that wait. -/
def State.fault (s : State) (fd1 : Bool) (p : Nat) (f : Flt) (st : Stream) : State :=
  let s0 := (s.parkStream st).count bXLAT (dieInst fd1) 0xC18 1
  let w : FaultWait := { fd1 := fd1, part := p, level := f.level, lo := f.lo, size := f.size, reason := f.reason
                         acc := BitVec.ofNat 4 f.acc, va := f.va, time := s.timeWord, st := st, seq := s.faultSeq }
  match s0.faultAt fd1 p f.va with
  | some e => s0.faultJoin e st
  | none =>
    if 4096 ≤ (s0.faults.filter (fun e => e.fd1 == fd1)).length then
      ({ s0 with faultWaits := s0.faultWaits ++ [w] }).noRecord fd1 p
    else
      let r := s0.faultNew w
      if s0.faultsWait p then r.1.noRecord fd1 p
      else
        match r.1.fqRoom p (s.streamCls st) with
        | (s1, none) => s1.noRecord fd1 p
        | (s1, some prod) => s1.faultRecord r.2 prod

/-- Waiting faults take table entries as they free, in the order they occurred (R240). -/
def State.faultAdmit (s : State) : List FaultWait → State
  | [] => s
  | w :: ws =>
    match s.faultAt w.fd1 w.part w.va with
    | some e => ((s.faultJoin e w.st).bump0 (s.fqBase w.part + 16) 4 false).faultAdmit ws
    | none =>
      if 4096 ≤ (s.faults.filter (fun e => e.fd1 == w.fd1)).length then
        ({ s with faultWaits := s.faultWaits ++ [w] }).faultAdmit ws
      else (s.faultNew w).1.faultAdmit ws

/-- Writes records of a partition while its fault queue has space. -/
def State.fqWrite (s : State) (p : Nat) : List FaultEntry → State
  | [] => s
  | e :: es =>
    match s.fqRoom p (s.faultCls e) with
    | (s1, some prod) => ((s1.faultRecord e prod).bump0 (s.fqBase p + 16) 4 false).fqWrite p es
    | (s1, none) => s1

/-- The records of a partition that wait for space, in the order their faults occurred. -/
def State.recordsWaiting (s : State) (p : Nat) : List FaultEntry :=
  sortBy (fun a b => decide (a.seq ≤ b.seq)) (s.faults.filter (fun e => e.part == p && e.slot.isNone))

/-- The consumer index is re-read and what waits is written (R240). -/
def State.fqService (s : State) (p : Nat) : State :=
  let s1 := ({ s with faultWaits := [] }).faultAdmit s.faultWaits
  s1.fqWrite p (s1.recordsWaiting p)

end Sys2Proof.Machine
end

