-- ==== Sys2Proof/Machine/Conn.lean ====
section
/-! DEFINITION. Connections, the sending side (12_kvt_transport R284-R306): contexts, path labels,
protection under epochs, packets on the wire, control packets, connection errors (20_errors R477, R478)
and the collective failures they cause (14_collectives R361). -/

namespace Sys2Proof.Machine

/-! ## PSNs and MSG_IDs -/

/-- Difference of 24-bit PSNs (R300). -/
def psnDiff (a b : Nat) : Nat := (a + 2 ^ 24 - b % 2 ^ 24) % 2 ^ 24
def psnAdd (a n : Nat) : Nat := (a + n) % 2 ^ 24
/-- Packets of a message (R286). -/
def pktsOf (len mtu : Nat) : Nat := max 1 ((len + mtu - 1) / mtu)
/-- Packets a message of an opcode travels as; READ_REQ and the atomics are one packet. -/
def msgPkts (op len mtu : Nat) : Nat := if op = 0x03 || op = 0x06 || op = 0x07 || op = 0x32 then 1 else pktsOf len mtu
/-- Opcodes that consume a PSN, carry the extension, carry UNSOL (Tables 12-4, 12-5). -/
def opPsn (op : Nat) : Bool := (1 ≤ op && op ≤ 8) || op == 0x20 || op == 0x21 || op == 0x32
def opExt (op : Nat) : Bool := op == 1 || op == 2 || op == 3 || op == 6 || op == 8
def opUnsol (op : Nat) : Bool := op == 1 || op == 2 || op == 5 || op == 8 || op == 4 || op == 0x20 || op == 0x21
def opKnown (op : Nat) : Bool :=
  (1 ≤ op && op ≤ 8) || (0x10 ≤ op && op ≤ 0x13) || op == 0x20 || op == 0x21 ||
    (0x30 ≤ op && op ≤ 0x32) || op == 0x3F
/-- FLAGS bits (Table 12-3). -/
def flagsOf (first last small fence solicit enc echo retx : Bool) : BitVec 16 :=
  BitVec.ofNat 16 (first.toNat + 2 * last.toNat + 4 * small.toNat + 8 * fence.toNat + 16 * solicit.toNat +
    32 * enc.toNat + 64 * echo.toNat + 128 * retx.toNat)
/-- The MTU an offer stands for (Table 12-7). -/
def mtuOf (offer : BitVec 2) : Nat := 1024 * 2 ^ offer.toNat

/-! ## Contexts (R295, R296) -/

def kvtInst (c : Conn) : Nat := dieInst c.home
/-- Whether a connection's context is cached on its home die. -/
def State.cached (s : State) (cid : Nat) : Bool := (s.kvtDie (s.conn cid).home).cached.contains cid
/-- Puts a context at the recent end of its die's cache; the least recently used unpinned one gives way. -/
def State.cacheTouch (s : State) (cid : Nat) : State :=
  let fd := (s.conn cid).home
  let d := s.kvtDie fd
  let l := d.cached.filter (· != cid)
  let l1 := if 16384 ≤ l.length then
      match l.find? (fun c => !(s.conn c).pin) with
      | some v => l.erase v
      | none => l
    else l
  s.setKvtDie fd { d with cached := l1 ++ [cid] }
/-- A context leaves the cache for good, and with it its entries of the epoch queue. -/
def State.cacheDrop (s : State) (cid : Nat) : State :=
  let fd := (s.conn cid).home
  let d := s.kvtDie fd
  let s1 : State := { s with ciph := { s.ciph with epochQ := s.ciph.epochQ.filter (fun x => x.1 != cid) } }
  s1.setKvtDie fd { d with cached := d.cached.filter (· != cid), misses := d.misses.filter (fun m => m.1 != cid) }

/-- Connections that count as open in a partition (R294). -/
def isOpen (c : Conn) : Bool :=
  c.state == .connecting || c.state == .open_ || c.state == .closing || c.state == .error || c.state == .frozen
def State.partConns (s : State) (p : Nat) : List Nat :=
  s.conns.filterMap (fun c => if c.2.part == p && isOpen c.2 then some c.1 else none)

/-! ## Path labels (R297-R299) -/

/-- Egress links that are up, ascending, half 0 before half 1. -/
def State.egress (s : State) : List (Nat × Bool) :=
  (List.range 24).flatMap (fun n =>
    let x := s.port n
    if s.fld bPORT n 0x044 0 1 = 1 then
      (if x.up0 then [(n, false)] else []) ++ (if x.up1 then [(n, true)] else [])
    else if x.up0 then [(n, false)] else [])
/-- Egress link of label k of a connection. -/
def State.linkOf (s : State) (cid k : Nat) : Option (Nat × Bool) :=
  let l := s.egress
  if l.isEmpty then none else l[(k + cid) % l.length]?
/-- UDP source port of a label. -/
def State.labelPort (s : State) (cid k : Nat) : Nat :=
  (s.fld bKVT 0 0x058 0 16 + (cid * 64 + k) % 16384) % 65536
/-- The next healthy label from a position on; every label when all are suspect. -/
def Conn.nextLabel (c : Conn) : Nat :=
  ((List.range 64).map (fun i => (c.label + i) % 64)).find? (fun k => !c.suspect.contains k) |>.getD (c.label % 64)

/-! ## Protection (R292, R429, R430) -/

/-- Bytes of a packet's frame (Table 12-1). -/
def frameLen (v4 enc ext : Bool) (payload : Nat) : Nat :=
  18 + (if v4 then 20 else 40) + 8 + 32 + (if enc then 8 + 16 else 4) + (if ext then 16 else 0) + payload + 4

/-- Prepares the counter of the sending key for one packet: the epoch advances at the invocation limit,
and with the next key not derived the packet is held. True: the packet may go. -/
def Conn.protect (c : Conn) : Conn × Bool × Bool :=
  if !c.enc then (c, true, false)
  else
    let m := 2 ^ c.txLog2
    if c.txCtr < m then
      let n := c.txCtr + 1
      ({ c with txCtr := n, stall := false, txAsked := c.txAsked || m / 2 ≤ n }, true, false)
    else if c.txNext then
      ({ c with
          txEpoch := c.txEpoch + 1, txCtr := 1, txLog2 := c.txNextLog2, txNext := false, stall := false
          txAsked := false }, true, true)
    else ({ c with stall := true }, false, false)

/-- A send is held for a key: each hold counts once; after the last epoch no key follows (R430). -/
def State.epochStall (s : State) (cid : Nat) : State :=
  let c := s.conn cid
  let s1 := s.setConn cid { c with stall := true }
  if c.stall || c.txEpoch = 0xFFFFFFFF then s1 else s1.count bCIPH (kvtInst c) 0xC18 1

/-- The derivation of a direction's next wire key joins the epoch queue, once (R423). -/
def State.askKey (s : State) (cid : Nat) (tx : Bool) : State :=
  if s.ciph.epochQ.contains (cid, tx) then s
  else { s with ciph := { s.ciph with epochQ := s.ciph.epochQ ++ [(cid, tx)] } }

/-- A packet goes out on a label of its connection: queued on the label's egress link. -/
def State.txPkt (s : State) (cid op : Nat) (k : Pkt) (label : Nat) : State :=
  let c := s.conn cid
  let i := kvtInst c
  match c.protect with
  | (_, false, _) => s.epochStall cid
  | (c1, true, adv) =>
    let k1 : Pkt := { k with
      src := c.localAddr, dst := c.peerAddr, counter := BitVec.ofNat 64 (c1.txCtr - 1), keyPhase := if c.enc then BitVec.ofNat 2 c1.txEpoch else 0
      cid := BitVec.ofNat 20 c.peerCid, tc := BitVec.ofNat 3 c.cls
      flags := k.flags ||| (if c.enc then 0x20 else 0), udpSrc := s.labelPort cid label, udpDst := c.peerPort }
    let s1 := if c1.txAsked && !c.txAsked then (s.setConn cid c1).askKey cid true else s.setConn cid c1
    let s2 := if c.enc then s1.count bCIPH i 0xC00 1 else s1
    let s3 := if adv then s2.count bCIPH i 0xC10 1 else s2
    match s3.linkOf cid label with
    | none => s3
    | some l =>
      let s3 := s3.count bKVT i 0xC00 1
      let x := s3.port l.1
      let f : TxFrame := { half1 := l.2, cls := c.cls
                           len := frameLen (isV4 c.peerAddr) c.enc (opExt op) k.payload.length
                           pkt := some (op, k1) }
      s3.setPort l.1 { x with txq := x.txq ++ [f] }

/-- A control packet, on the connection's present label. -/
def State.txCtl (s : State) (cid op : Nat) (k : Pkt) : State := s.txPkt cid op k (s.conn cid).nextLabel

/-! ## Control packets (R302, R304, R307, Table 12-5) -/

/-- The lowest first PSN of an unhemmed FENCE message below E, or E. -/
def Conn.ackLimit (c : Conn) : Nat :=
  c.rxq.foldl (fun e m => if m.fence && !m.ended && psnDiff e m.firstPsn < 2 ^ 23 then m.firstPsn else e) c.e

/-- Whether an ACK carrying e covers a PSN. -/
def ackCovers (e p : Nat) : Bool := p != e && 2 ^ 23 ≤ psnDiff p e

/-- Sends the cumulative ACK; ECN_ECHO speaks of the packets it newly covers. -/
def State.sendAck (s : State) (cid : Nat) : State :=
  let c := s.conn cid
  let e := c.ackLimit
  let k : Pkt := { flags := flagsOf false false false false false false (c.ce.any (ackCovers e)) false
                   op24 := BitVec.ofNat 32 (e * 256)
                   op28 := BitVec.ofNat 32 ((c.hemNext - 1).toNat * 65536) }
  let s1 := s.setConn cid { c with
    accepted := 0, ce := c.ce.filter (fun p => !ackCovers e p), solicits := c.solicits.filter (fun p => !ackCovers e p) }
  s1.txCtl cid 0x10 k

/-- Sends a NAK. -/
def State.sendNak (s : State) (cid reason psn : Nat) (msgId : BitVec 16) : State :=
  (s.count bKVT (kvtInst (s.conn cid)) 0xC18 1).txCtl cid 0x11
    { op24 := BitVec.ofNat 32 (psn * 256 + reason), op28 := BitVec.ofNat 32 (msgId.toNat * 65536), msgId := msgId }

/-- Sends a message's granted offset. -/
def State.sendGrant (s : State) (cid : Nat) (m : RxMsg) : State :=
  let s1 := s.txCtl cid 0x12
    { op24 := BitVec.ofNat 32 m.granted, op28 := BitVec.ofNat 32 (m.msgId.toNat * 65536), msgId := m.msgId }
  let c := s1.conn cid
  s1.setConn cid { c with rxq := c.rxq.map (fun x => if x.msgId = m.msgId then { x with grantSent := m.granted } else x) }

/-! ## Basted ranges of messages -/

/-- Owner number of a message's basted range. -/
def bastOwner (cid : Nat) (msgId : BitVec 16) : Nat := cid * 65536 + msgId.toNat
/-- After its hem a message's bytes are settled. -/
def State.unbast (s : State) (owner : Nat) : State := s.unsoft owner
/-- At abandonment each byte keeps one of the values R313 allows, which one being free (R316). -/
def State.abandonBytes (s : State) (owner : Nat) : State :=
  let cs := (s.soft.filter (fun f => f.owner == owner)).flatMap (fun f => f.cells)
  let keep := cs.filter (fun c => s.freeBit (c.1 * 8 + 1))
  let s1 := s.unbast owner
  { s1 with mem := writeCells s1.mem keep }.freshen

/-- Basted ranges of a connection: those left over are of messages of which no packet has passed its check. -/
def State.bastOwners (s : State) (cid : Nat) : List Nat :=
  ((s.soft.map (fun f => f.owner)).filter (fun o => o / 65536 == cid)).eraseDups

/-- A message being received is abandoned: nothing of it is signalled, its placed pages are logged. -/
def State.abandonRx (s : State) (cid : Nat) (m : RxMsg) : State :=
  let s1 := s.abandonBytes (bastOwner cid m.msgId)
  let s2 := m.dirty.foldl (fun s x => s.dirtyRange (s.conn cid).part x) s1
  m.pool.foldl (fun s x => s.poolFree x.1 x.2) s2

/-! ## Connection errors (R305, R477, R478) -/

/-- The status an unfinished message's entry gets: E if a packet of it was sent, else flushed; under an
uncorrectable source read only the failing entry gets E and the others aborted. -/
def errStatus (e : Nat) (src : Option (BitVec 16)) (m : TxMsg) : Nat :=
  if m.sent = 0 then 0x0002
  else match src with
    | none => e
    | some id => if m.msgId = id then e else 0x0001

/-- Opcodes of messages whose entry completes at acknowledgement. -/
def doneAtAck (op : Nat) : Bool := op == 1 || op == 2 || op == 5 || op == 8

/-- The connection enters error: one CLOSE with abort goes out unless no key remains to protect it, what
it was sending and receiving ends, and its receives are flushed. Its pending control of collectives is
`connError`'s. -/
def State.connErrorBase (s : State) (cid e : Nat) (src : Option (BitVec 16)) (close : Bool) : State :=
  let c := s.conn cid
  if !(c.state == .open_ || c.state == .closing || c.state == .frozen || c.state == .connecting) then s
  else
    let i := kvtInst c
    let s1 := (s.count bKVT i 0xC68 1).raise bKVT i 0 (BitVec.ofNat 32 cid) (BitVec.ofNat 32 e)
    let s2 := if e = 7 then s1.raise bCIPH i 4 (BitVec.ofNat 32 cid) else s1
    let k : Pkt := { psn := BitVec.ofNat 24 c.nMax, msgId := c.nextMsg, op24 := 1
                     flags := flagsOf true true false false true false false false }
    let s3 := if close && !(c.enc && e = 8) then s2.txCtl cid 0x32 k else s2
    let s3a := c.rxq.foldl (fun s m => s.abandonRx cid m) s3
    let s4 := (s3a.bastOwners cid).foldl State.abandonBytes s3a
    let s5 := s4.setConn cid { s4.conn cid with
      state := .error, cause := e, txq := [], rxq := [], sent := [], awaits := [], recvs := [], solicits := []
      parked := false, parkMsg := none, txParked := false, probing := [] }
    let s5a := match c.cmd with
      | some x => (s5.setConn cid { s5.conn cid with cmd := none }).finish x 0x0004
      | none => s5
    let s6 := (c.txq.filter (fun m => !m.acked && !m.ended && !((m.op = 3 || m.op = 6) && 0 < m.sent))).foldl
      (fun s m => s.finishOrg m.org m.d true (errStatus e src m)) s5a
    let s7 := c.awaits.foldl (fun s a => s.finishOrg a.org a.d true (if src.isSome then 0x0001 else e)) s6
    let recvs := c.recvs ++ c.rxq.filterMap RxMsg.recv
    let s8 := recvs.foldl (fun s r => s.complete r.p r.q r.idx 0x0002) s7
    s8.leaveFaults (fun x => match x with | .conn d => d == cid | _ => false)

/-! ## Failure of a collective run (R361) -/

/-- The edge connections of a group: the parent first, then the children. -/
def collEdges (d : CollDef) : List Nat := d.parent.toList ++ d.children.map (fun x => x.cid)

/-- Owner number of the result bytes that a group's run has written (R360). -/
def collOwner (h : Nat) : Nat := 2 ^ 40 + h

/-- A run fails: its result range keeps what R360 allows, the group is failed, every edge is closed with abort, the COLL_START completes. An idle
group whose edge is lost becomes failed with no run to report (log entry 18). -/
def State.collFail (s : State) (h st : Nat) : State :=
  let g := s.coll h
  let i := dieInst g.d.home
  match g.state with
  | .undef => s
  | .failed => s
  | _ =>
    let s1 := (s.abandonBytes (collOwner h)).setColl h { g with state := .failed, run := none, later := [] }
    let s2 := { s1 with collWait := s1.collWait.filter (· != h) }
    let s3 := (collEdges g.d).foldl (fun s c => s.connErrorBase c 0x0001 none true) s2
    (g.run.toList ++ g.later).foldl (fun s (r : CollRun) =>
      ((s.complete r.p r.q r.idx st).count bCOLL i 0xC08 1).raise bCOLL i 0 (BitVec.ofNat 32 h) (BitVec.ofNat 32 st)) s3

/-- A connection enters error, and with it the run of the group it is an edge of. -/
def State.connError (s : State) (cid e : Nat) (src : Option (BitVec 16) := none) (close : Bool := true) : State :=
  let c := s.conn cid
  let s1 := s.connErrorBase cid e src close
  match c.edge with
  | some h => s1.collFail h e
  | none => s1

/-- A send that needs an epoch beyond the last ends its connection with key exhausted (R430). -/
def State.exhaust (s : State) (cid : Nat) : State :=
  let c := s.conn cid
  if c.enc && c.stall && c.txEpoch = 0xFFFFFFFF then s.connError cid 0x0007 else s

/-! ## Sending data (R300, R306, R326) -/

/-- The die-side parameters of a message's packet i: offset and bytes. -/
def TxMsg.span (m : TxMsg) (mtu i : Nat) : Nat × Nat :=
  if msgPkts m.op m.len mtu = 1 && (m.op = 0x03) then (0, 0)
  else (i * mtu, min mtu (m.len - i * mtu))

/-- Big-endian form of the 64-bit operands of an atomic. -/
def beWords (l : List Byte) : List Byte := (l.take 8).reverse ++ (l.drop 8).reverse

/-- How the read of a packet's source ended. -/
inductive SrcRead where
  | ok (bytes : List Byte) (runs : List Held)
  | fault (f : Flt)
  | bad (st : Nat)
  deriving DecidableEq, Repr

/-- Reads the source bytes of a packet (R301, R326, R329). -/
def State.srcRead (s : State) (cid : Nat) (m : TxMsg) (off n : Nat) : State × SrcRead :=
  let c := s.conn cid
  if !m.data.isEmpty || n = 0 then (s, .ok ((m.data.drop off).take n) m.runs)
  else
    let va := match m.org with | .readResp _ => m.rva.toNat | _ => m.lva
    match s.vget c.home c.part accR (va + off) n m.runs with
    | (s1, .ok bs hs) =>
      let s2 := if m.runs.length < hs.length then
          (match hs.getLast? with | some r => s1.recordRun m.org r off (dieInst c.home) | none => s1) else s1
      (s2, .ok (if m.op = 0x06 then beWords bs else bs) hs)
    | (s1, .fault f _) => (s1, .fault f)
    | (s1, .stat st _) => (s1, .bad st)

/-- The stream of a message's source (R237). -/
def TxMsg.stream (m : TxMsg) (cid : Nat) : Stream :=
  match m.org with
  | .entry p q i => .queue p q i
  | .armed p pa _ _ => .queue p noRing pa
  | _ => .conn cid

/-- Whether a message's own stream is parked on a fault, or its descriptor stands behind a parked one of its
queue (R237). -/
def State.msgParked (s : State) (cid : Nat) (m : TxMsg) : Bool :=
  let st := m.stream cid
  s.faults.any (fun e => e.streams.contains st) || s.faultWaits.any (fun w => w.st == st) ||
  (match m.org with
    | .entry p q i => ((s.queue p q).entries.takeWhile (fun e => e.idx != i)).any (fun e => e.parked && e.done.isNone)
    | _ => false)

/-- The message a new packet would come from: the one begun unless its stream is parked, else the first
whose stream is not parked. -/
def State.nextMsg (s : State) (cid : Nat) : Option TxMsg :=
  let c := s.conn cid
  let left := c.txq.filter (fun m => !m.ended && m.sent < msgPkts m.op m.len c.mtu)
  match left.find? (fun m => 0 < m.sent) with
  | some m => if s.msgParked cid m then none else some m
  | none => left.find? (fun m => !s.msgParked cid m)

/-- Changes the first message of a connection's transmit order that a test picks. -/
def mapFirst {α : Type} (f : α → Bool) (g : α → α) : List α → List α
  | [] => []
  | x :: l => if f x then g x :: l else x :: mapFirst f g l
def dropFirstOf {α : Type} (f : α → Bool) : List α → List α
  | [] => []
  | x :: l => if f x then l else x :: dropFirstOf f l

/-- The packet of a message at an offset. -/
def TxMsg.pkt (m : TxMsg) (mtu psn off : Nat) (bs : List Byte) (last solicit retx : Bool) : Pkt :=
  { flags := flagsOf (off == 0) last m.small m.fence solicit false false retx
    psn := BitVec.ofNat 24 psn, msgId := m.msgId, pktIndex := BitVec.ofNat 16 (off / mtu), offset := BitVec.ofNat 32 off, length := BitVec.ofNat 32 m.len
    op24 := match m.org with
      | .readResp r => BitVec.ofNat 32 (r.toNat * 65536)
      | .atomicResp r _ => BitVec.ofNat 32 (r.toNat * 65536)
      | .close => BitVec.ofNat 32 0
      | _ => 0
    op28 := if opUnsol m.op then BitVec.ofNat 32 m.unsol else 0
    rva := m.rva, key := m.key, imm := m.imm, payload := bs }

/-- A source read failed (R326): before the first packet the message is not sent and its entry, or the
READ_REQ it answers, gets the status; after it the connection enters error. -/
def State.srcFail (s : State) (cid : Nat) (m : TxMsg) (st : Nat) : State :=
  if m.sent = 0 then
    let c := s.conn cid
    let s1 := s.setConn cid { c with txq := dropFirstOf (fun x => x == m) c.txq }
    match m.org with
    | .readResp r => s1.sendNak cid (if st = 8 then 0x08 else 0x07) c.e r
    | o => s1.finishOrg o m.d true st
  else s.connError cid st (some m.msgId)

/-- Sends the next new packet of a message. -/
def State.sendNew (s : State) (cid : Nat) (m : TxMsg) : State :=
  let c := s.conn cid
  let unsol := if m.sent != 0 then m.unsol
    else if m.op = 0x20 || m.op = 0x21 then min m.len c.mtu
    else if opUnsol m.op then min m.len c.uc else m.len
  let granted := if m.sent != 0 then m.granted else unsol
  let off := (m.span c.mtu m.sent).1
  let n := (m.span c.mtu m.sent).2
  if (m.op != 0x03 && max unsol granted < off + n) || (m.op = 0x32 && !c.rxq.isEmpty) then s
  else
    match s.srcRead cid m off n with
    | (s1, .fault f) => s1.fault c.home c.part f (m.stream cid)
    | (s1, .bad st) => s1.srcFail cid m st
    | (s1, .ok bs hs) =>
      let c1 := s1.conn cid
      match c1.protect with
      | (_, false, _) => s1.epochStall cid
      | _ =>
        let psn := c1.nMax
        let id := if m.sent = 0 then c1.nextMsg else m.msgId
        let m1 := { m with msgId := id, first := some (m.first.getD psn), unsol := unsol, granted := granted
                           sent := m.sent + 1, runs := hs }
        let last := msgPkts m.op m.len c.mtu ≤ m.sent + 1
        let k := m1.pkt c.mtu psn off bs last (last || psnDiff psn c1.a = 192) false
        let lab := c1.nextLabel
        let aw : List Await := if m.op = 3 || m.op = 6 then
            [{ org := m.org, msgId := id, op := m.op, len := m.len, lva := m.lva, d := m.d, runs := hs }] else []
        let s2 := s1.setConn cid { c1 with
          awaits := c1.awaits ++ aw, nextMsg := if m.sent = 0 then c1.nextMsg + 1 else c1.nextMsg
          n := psnAdd psn 1, nMax := psnAdd psn 1, label := (lab + 1) % 64
          txq := mapFirst (fun x => x == m) (fun _ => m1) c1.txq
          sent := c1.sent ++ [{ psn := psn, msgId := id, off := off, label := lab }] }
        s2.txPkt cid m.op k lab

/-- Resends the packet at N (R303). -/
def State.resend (s : State) (cid : Nat) : State :=
  let c := s.conn cid
  match c.sent.find? (fun x => x.psn == c.n) with
  | none => s.setConn cid { c with n := psnAdd c.n 1 }
  | some x =>
    match c.txq.find? (fun m => m.msgId == x.msgId && m.first.isSome) with
    | none => s.setConn cid { c with n := psnAdd c.n 1 }
    | some m =>
      if m.ended then s.setConn cid { c with n := psnAdd c.n 1 } else if s.msgParked cid m then s else
      let i := if c.mtu = 0 then 0 else x.off / c.mtu
      match s.srcRead cid m x.off (m.span c.mtu i).2 with
      | (s1, .fault f) => s1.fault c.home c.part f (m.stream cid)
      | (s1, .bad st) => s1.connError cid st (some m.msgId)
      | (s1, .ok bs hs) =>
        let c1 := s1.conn cid
        match c1.protect with
        | (_, false, _) => s1.epochStall cid
        | _ =>
          let last := msgPkts m.op m.len c.mtu ≤ i + 1
          let k := m.pkt c.mtu x.psn x.off bs last (last || psnDiff x.psn c1.a = 192) true
          let lab := c1.nextLabel
          let s2 := s1.setConn cid { c1 with
            n := psnAdd c1.n 1, label := (lab + 1) % 64
            txq := mapFirst (fun y => y == m) (fun y => { y with runs := hs }) c1.txq
            sent := c1.sent.map (fun y => if y.psn = x.psn then { y with label := lab } else y) }
          (s2.txPkt cid m.op k lab).count bKVT (kvtInst c) 0xC10 1

/-- A data packet goes out, if the window, the allowance or a grant permits (R300). -/
def State.sendNext (s : State) (cid : Nat) : State :=
  let c := s.conn cid
  if !(c.state == .open_ || c.state == .closing) || c.txParked || !s.cached cid then s
  else if c.enc && 2 ^ c.txLog2 ≤ c.txCtr && c.txEpoch = 0xFFFFFFFF then s.connError cid 0x0007
  else if c.n != c.nMax then s.resend cid
  else if 256 ≤ psnDiff c.nMax c.a then s
  else
    match s.nextMsg cid with
    | none => s
    | some m => s.sendNew cid m

end Sys2Proof.Machine
end

