-- ==== Sys2Proof/Machine/Combine.lean ====
section
/-! DEFINITION. The arithmetic of REDUCE (13_remote_operations R332, Table 13-4) and of the collective
fold (14_collectives R357, R358), on bytes as they lie in memory and on the wire. -/

namespace Sys2Proof.Machine

/-- Bytes of n elements of a type: 0 FP32, 1 BF16, 2 FP16, 3 and 4 MXFP8 in blocks of 33, 5 INT32. -/
def tyBytes (ty n : Nat) : Nat :=
  match ty with
  | 0 => 4 * n | 1 => 2 * n | 2 => 2 * n | 3 => n / 32 * 33 | 4 => n / 32 * 33 | _ => 4 * n
/-- Bytes of one unit: an element, or an MXFP8 block; and the elements it holds. -/
def unitBytes (ty : Nat) : Nat := if ty = 3 || ty = 4 then 33 else tyBytes ty 1
def unitElems (ty : Nat) : Nat := if ty = 3 || ty = 4 then 32 else 1
def isMx (ty : Nat) : Bool := ty == 3 || ty == 4
/-- Operand code of the MX types. -/
def mxCode (ty : Nat) : Nat := if ty = 3 then 9 else 10
/-- Element format of the plain types. -/
def tyElt (ty : Nat) : Elt := match ty with | 0 => .fp32 | 1 => .bf16 | _ => .fp16

/-- A value as FP32: exact below 2^128, infinite at or above it, NaN canonical (R142). -/
def asF32 (v : XVal) : Nat := (roundTo .fp32 0 0 false v).1

/-- Elements of a unit as FP32 encodings; INT32 stays INT32. -/
def unitVals (ty : Nat) (bs : List Byte) : List Nat :=
  if isMx ty then
    let sc := (bs.getD 32 0).toNat
    (bs.take 32).map (fun b => asF32 (mxValue (mxCode ty) sc b.toNat))
  else if ty = 5 then [leNat bs]
  else [asF32 (eltDecode (tyElt ty) (leNat bs))]

/-- A unit from FP32 values, rounded once to the type with RNE and SAT = 0; MXFP8 requantised. -/
def unitPack (ty : Nat) (l : List Nat) : List Byte :=
  if isMx ty then
    let q := quantBlock (mxCode ty) 0 (l.map (fun w => (f32 w, 0)))
    q.1.map (fun x => BitVec.ofNat 8 x) ++ [BitVec.ofNat 8 q.2.1]
  else if ty = 5 then leBytes 4 (l.headD 0)
  else leBytes (tyBytes ty 1) (roundTo (tyElt ty) 0 0 false (f32 (l.headD 0))).1

/-- Signed value of a 32-bit word. -/
def s32 (x : Nat) : Int := (BitVec.ofNat 32 x).toInt
/-- One fold step: 0 sum, 1 minimum, 2 maximum. -/
def foldOp (ty op a b : Nat) : Nat :=
  if ty = 5 then
    match op with
    | 0 => (a + b) % 2 ^ 32
    | 1 => if s32 b < s32 a then b else a
    | _ => if s32 a < s32 b then b else a
  else
    match op with
    | 0 => (f32Add 0 0 a b).1
    | 1 => f32Min a b
    | _ => f32Max a b

/-- The element-wise fold of two lists. -/
def foldVals (ty op : Nat) (a b : List Nat) : List Nat := (a.zip b).map (fun x => foldOp ty op x.1 x.2)

/-- Cuts bytes into units. -/
def unitsOf (n : Nat) : Nat → List Byte → List (List Byte)
  | 0, _ => []
  | k + 1, bs => if bs.isEmpty || n = 0 then [] else bs.take n :: unitsOf n k (bs.drop n)

/-- REDUCE's combine of one unit of memory with one of the payload (Table 13-4): BF16 and FP16 sums are
the exact sum rounded once. -/
def reduceUnit (ty op : Nat) (old new : List Byte) : List Byte :=
  if (ty = 1 || ty = 2) && op = 0 then
    let f := tyElt ty
    leBytes 2 (roundTo f 0 0 false (xadd 0 (eltDecode f (leNat old)) (eltDecode f (leNat new))).1).1
  else unitPack ty (foldVals ty op (unitVals ty old) (unitVals ty new))

/-- Combines payload bytes into memory bytes, whole units each. -/
def reduceBytes (ty op : Nat) (old new : List Byte) : List Byte :=
  let n := unitBytes ty
  ((unitsOf n new.length old).zip (unitsOf n new.length new)).flatMap (fun x => reduceUnit ty op x.1 x.2)

/-! ## The collective fold -/

/-- Values of a chunk in a wire form: element type, or FP32. -/
def wireVals (ty form : Nat) (bs : List Byte) : List Nat :=
  if form = 1 then (unitsOf 4 bs.length bs).map leNat
  else (unitsOf (unitBytes ty) bs.length bs).flatMap (unitVals ty)

/-- Packs values into units of the element type. -/
def packVals (ty : Nat) (l : List Nat) : List Byte :=
  let rec go : Nat → List Nat → List Byte
    | 0, _ => []
    | n + 1, l => if l.isEmpty then [] else unitPack ty (l.take (unitElems ty)) ++ go n (l.drop (unitElems ty))
  go (l.length + 1) l

/-- Long accumulators of a contribution (R358), and of a partial on the wire (R138). -/
def exactOwn (ty : Nat) (bs : List Byte) : List LAcc :=
  (wireVals ty 0 bs).map (fun w => laddX {} (f32 w))
def exactWire (bs : List Byte) : List LAcc := (unitsOf 40 bs.length bs).map lparse
def exactAdd (a b : List LAcc) : List LAcc := (a.zip b).map (fun x => laddL x.1 x.2)
/-- The root's one rounding (R358). -/
def exactRound (ty : Nat) (l : List LAcc) : List Byte :=
  if isMx ty then packVals ty (l.map (fun a => asF32 (lread a)))
  else l.flatMap (fun a => leBytes (tyBytes ty 1) (roundTo (tyElt ty) 0 0 false (lread a)).1)

/-- A node's fold of a chunk: its own contribution, then each child's partial in rank order. Answers the
partial in the wire form, and the result in the element type. -/
def foldChunk (ty op form : Nat) (own : List Byte) (kids : List (List Byte)) : List Byte × List Byte :=
  if form = 2 then
    let a := kids.foldl (fun a k => exactAdd a (exactWire k)) (exactOwn ty own)
    (a.flatMap lform, exactRound ty a)
  else
    let v := kids.foldl (fun v k => foldVals ty op v (wireVals ty form k)) (wireVals ty 0 own)
    let r := packVals ty v
    (if form = 1 then v.flatMap (fun w => leBytes 4 w) else r, r)

end Sys2Proof.Machine
end

