-- ==== Sys2Proof/Machine/Collective.lean ====
section
/-! DEFINITION. Collectives (14_collectives): starting a run, slots, chunks, the combine of a chunk, down
chunks, and the end of a run. Their packets are received in Receive.lean. -/

namespace Sys2Proof.Machine

/-! ## Shape of a run -/

/-- Elements of a full chunk (R353, Table 14-3). -/
def chunkElems (kind ty form : Nat) : Nat :=
  if kind != 1 && form = 2 then 1632
  else if kind != 1 && form = 1 then 16352
  else if ty = 0 || ty = 5 then 16352
  else if isMx ty then 63488 else 32736
/-- Elements of this member's up-phase array: its subtree's for an all-gather (Table 14-2). -/
def upElems (d : CollDef) (r : CollRun) : Nat := if r.kind = 4 then (d.last - d.rank + 1) * r.len else r.len
/-- Elements of the down-phase array. -/
def downElems (d : CollDef) (r : CollRun) : Nat := if r.kind = 4 then d.size * r.len else r.len
def runC (r : CollRun) : Nat := chunkElems r.kind r.ty r.form
def chunksOf (n c : Nat) : Nat := (n + c - 1) / c
/-- First element and count of chunk n of an array. -/
def chunkSpan (len c n : Nat) : Nat × Nat := (n * c, min c (len - n * c))
/-- Bytes of m elements on the wire in the up phase. -/
def upBytes (r : CollRun) (m : Nat) : Nat :=
  if r.kind = 1 || r.kind = 4 || r.form = 0 then tyBytes r.ty m else if r.form = 1 then 4 * m else 40 * m
def isRoot (d : CollDef) : Bool := d.rank == 0
/-- Elements of a reduce-scatter segment. -/
def segElems (d : CollDef) (r : CollRun) : Nat := r.len / d.size
/-- Whether a chunk of the down array concerns the ranks first to last. -/
def wants (d : CollDef) (r : CollRun) (n first last : Nat) : Bool :=
  if r.kind = 3 then
    let x := chunkSpan (downElems d r) (runC r) n
    let g := segElems d r
    first * g < x.1 + x.2 && x.1 < (last + 1) * g
  else true
/-- Down chunks this member receives. -/
def downWanted (d : CollDef) (r : CollRun) : List Nat :=
  (List.range (chunksOf (downElems d r) (runC r))).filter (fun n => wants d r n d.rank d.last)
/-- Whether the collective has an up phase, a down phase (Table 14-2). -/
def hasUp (kind : Nat) : Bool := kind != 1
def hasDown (kind : Nat) : Bool := kind != 0
/-- Slots a run needs (R351). -/
def slotsNeeded (d : CollDef) (kind : Nat) : Nat :=
  2 * ((if hasUp kind then d.children.length else 0) + (if d.parent.isSome && hasDown kind then 1 else 0) + 1)
/-- Free slots of a die's buffer. -/
def State.slotsFree (s : State) (fd1 : Bool) : Nat :=
  512 - s.colls.foldl (fun n c =>
    match c.2.run with
    | some r => if c.2.d.home == fd1 && !r.waiting then n + r.slots else n
    | none => n) 0

/-- The collective header (Table 14-4). -/
def collHeader (tag : W32) (r : CollRun) (chunk rank elems : Nat) : List Byte :=
  beBytes 4 tag.toNat ++ beBytes 4 r.number ++ beBytes 4 chunk ++ beBytes 2 rank ++
  [BitVec.ofNat 8 (r.kind + r.op * 16), BitVec.ofNat 8 (r.ty + r.form * 16)] ++
  beBytes 4 r.len ++ beBytes 4 elems ++ List.replicate 8 0

/-- A COLL message into an edge's transmit order. -/
def State.collSend (s : State) (h cid op chunk : Nat) (bytes : List Byte) : State :=
  s.connPush cid { org := .coll h chunk, op := op, msgId := 0, len := bytes.length, lva := 0, rva := 0, key := 0
                   imm := 0, fence := false, small := false, data := bytes, first := none, sent := 0, unsol := 0
                   granted := 0, d := {} }

/-! ## Start (R350-R352) -/

/-- The fields of a COLL_START descriptor. -/
def csHandle (d : Desc) : Nat := bitsAt d.imm.toNat 0 12
def csKind (d : Desc) : Nat := bitsAt d.imm.toNat 12 4
def csOp (d : Desc) : Nat := bitsAt d.imm.toNat 16 4
def csTy (d : Desc) : Nat := bitsAt d.imm.toNat 20 4
def csForm (d : Desc) : Nat := bitsAt d.imm.toNat 24 2

/-- Form permitted for the type and operation (Table 14-3); an all-gather combines nothing (R352). -/
def formOk (kind op ty form : Nat) : Bool :=
  if kind = 4 then form == 0 && op == 0
  else match form with
    | 0 => true
    | 1 => 1 ≤ ty && ty ≤ 4
    | _ => op == 0 && ty ≤ 4

/-- Checks of a COLL_START: the failing status, or 0. -/
def State.collCheck (s : State) (p : Nat) (d : Desc) : Nat :=
  let g := s.coll (csHandle d)
  let k := csKind d
  let len := d.len.toNat
  if 4 < k || 2 < csOp d || 5 < csTy d || 2 < csForm d then 0x0009
  else if !formOk k (csOp d) (csTy d) (csForm d) then 0x0009
  else if isMx (csTy d) && len % 32 != 0 then 0x0009
  else if g.state = .undef || g.d.part != p || g.state = .failed then 0x0003
  else if !s.tallyOk p d.tally then 0x0003
  else if k = 3 && (len % g.d.size != 0 || (isMx (csTy d) && len / g.d.size % 32 != 0)) then 0x0009
  else 0

/-- Whether every run of a range is pinned DRAM (R236). -/
def pinnedRuns (l : List Held) : Bool := l.all (fun r => r.bits.getLsbD 6 && inDram r.pa)

/-- Bytes this member contributes, and is owed. -/
def srcBytes (d : CollDef) (r : CollRun) : Nat :=
  if r.kind = 1 && !isRoot d then 0 else tyBytes r.ty r.len
def dstBytes (d : CollDef) (r : CollRun) : Nat :=
  match r.kind with
  | 0 => if isRoot d then tyBytes r.ty r.len else 0
  | 1 => if isRoot d then 0 else tyBytes r.ty r.len
  | 2 => tyBytes r.ty r.len
  | 3 => tyBytes r.ty (segElems d r)
  | _ => tyBytes r.ty (d.size * r.len)

/-- Runs behind the present one go on, once it has ended. -/
def State.collNext (s : State) (h : Nat) : State :=
  let g := s.coll h
  match g.run, g.later with
  | none, r :: rs =>
    let busy := s.collWait.any (fun k => (s.coll k).d.home == g.d.home)
    let i := dieInst g.d.home
    if busy || s.slotsFree g.d.home < r.slots then
      ({ s with collWait := s.collWait ++ [h] }.setColl h
        { g with state := .running, run := some { r with waiting := true }, later := rs }).count bCOLL i 0xC20 1
    else s.setColl h { g with state := .running, run := some r, later := rs }
  | _, _ => s

/-- A COLL_START is consumed: answers its status if it completes now, else starts or queues the run. -/
def State.collStart (s : State) (p q idx : Nat) (d : Desc) : State × Option Nat :=
  let st := s.collCheck p d
  if st != 0 then (s, some st)
  else
    let h := csHandle d
    let g := s.coll h
    let r : CollRun :=
      { p := p, q := q, idx := idx, number := (g.number + 1) % 2 ^ 32, len := d.len.toNat, src := d.lva.toNat
        dst := d.rva.toNat, kind := csKind d, op := csOp d, ty := csTy d, form := csForm d, tally := d.tally
        slots := slotsNeeded g.d (csKind d), waiting := false }
    if r.len = 0 then ((s.setColl h { g with number := r.number }).incTally p d.tally, some 0)
    else
      let nb := srcBytes g.d r
      match s.vhold g.d.home p accRD (runsOf nb) r.src nb [] with
      | (s1, .inl _) => (s1, some 0x0005)
      | (s1, .inr hs) =>
        let mb := dstBytes g.d r
        match s1.vhold g.d.home p accW (runsOf mb) r.dst mb [] with
        | (s2, .inl _) => (s2, some 0x0005)
        | (s2, .inr ht) =>
          if !pinnedRuns hs || !pinnedRuns ht then (s2, some 0x0005)
          else
            let first := (downWanted g.d r).headD 0
            let src0 := match s2.vget g.d.home p accRD r.src nb hs with | (_, .ok bs _) => bs | _ => []
            let r1 := { r with srcRuns := hs, dstRuns := ht, downNext := first, src0 := src0 }
            let s3 := s2.setColl h { g with number := r.number, later := g.later ++ [r1] }
            (s3.collNext h, none)

/-! ## Data -/

/-- Bytes of a child's array from element lo to hi, if its chunks have come; chunks hold C elements. -/
def kidBytes (r : CollRun) (kid lo hi : Nat) : Option (List Byte) :=
  let c := runC r
  let need := (List.range (chunksOf hi c)).filter (fun k => lo < (k + 1) * c && k * c < hi)
  let parts := need.map (fun k =>
    (r.got.find? (fun x => x.1 == kid && x.2.1 == k)).map (fun x =>
      let a := max lo (k * c) - k * c
      let b := min hi ((k + 1) * c) - k * c
      (x.2.2.drop (tyBytes r.ty a)).take (tyBytes r.ty (b - a))))
  (allSome parts).map List.flatten

/-- Where each child's array begins in the subtree's, in elements. -/
def kidBase (d : CollDef) (r : CollRun) (e : CollEdge) : Nat := (e.first - d.rank) * r.len

/-- The pieces of an all-gather chunk that come from the children, if all have come. -/
def gatherKids (d : CollDef) (r : CollRun) (a b : Nat) : Option (List Byte) :=
  (allSome (d.children.zipIdx.map (fun e =>
    let lo := kidBase d r e.1
    let hi := lo + (e.1.last - e.1.first + 1) * r.len
    if max a lo < min b hi then kidBytes r e.2 (max a lo - lo) (min b hi - lo) else some []))).map List.flatten

/-- Writes result bytes of a run, which until its completion read as they were or as written (R360); a failing
write fails the run. -/
def State.collWrite (s : State) (h : Nat) (r : CollRun) (off : Nat) (bs : List Byte) : State × Nat :=
  let w := s.vwrite (s.coll h).d.home r.p accW dataOk (some (collOwner h)) (runsOf bs.length) (r.dst + off) bs r.dstRuns [] 0
  let s1 := w.2.2.foldl (fun s x => s.dirtyRange r.p x) w.1
  match w.2.1 with
  | .ok _ _ => (s1, 0)
  | .stat c _ => (s1, c)
  | .fault _ _ => (s1, 0x0005)

/-- Own bytes at an offset of the contribution as a combine takes them: where software has changed them since the
run began, each element is old or new, which being free (R360). -/
def State.collOwn (s : State) (r : CollRun) (off : Nat) (now : List Byte) : State × List Byte :=
  let old := (r.src0.drop off).take now.length
  if old = now || old.length != now.length then (s, now)
  else
    let u := unitBytes r.ty
    (s.freshen, now.zipIdx.map (fun b => if s.freeBit (b.2 / u) then old.getD b.2 0 else b.1))

/-- The part of a down chunk this member is owed, with its place in the result range. -/
def ownPart (d : CollDef) (r : CollRun) (n : Nat) (bs : List Byte) : Nat × List Byte :=
  let x := chunkSpan (downElems d r) (runC r) n
  if r.kind = 3 then
    let g := segElems d r
    let lo := max x.1 (d.rank * g)
    let hi := min (x.1 + x.2) ((d.rank + 1) * g)
    if lo < hi then (tyBytes r.ty (lo - d.rank * g), (bs.drop (tyBytes r.ty (lo - x.1))).take (tyBytes r.ty (hi - lo)))
    else (0, [])
  else (tyBytes r.ty x.1, bs)

/-- Forwards a down chunk to the children whose ranks it concerns (R352). -/
def State.collForward (s : State) (h : Nat) (r : CollRun) (n : Nat) (bs : List Byte) : State :=
  let g := s.coll h
  let x := chunkSpan (downElems g.d r) (runC r) n
  (g.d.children.filter (fun e => wants g.d r n e.first e.last)).foldl (fun s e =>
    s.collSend h e.cid 0x21 n (collHeader g.d.tag r n g.d.rank x.2 ++ bs)) s

/-- Whether a message of this group's run at a chunk is still being sent. -/
def State.collSending (s : State) (h op n : Nat) : Bool :=
  (collEdges (s.coll h).d).any (fun c => (s.conn c).txq.any (fun m =>
    m.org == .coll h n && m.op == op && m.sent < pktsOf m.len (s.conn c).mtu))
/-- Whether a message of this group is still unacknowledged. -/
def State.collUnacked (s : State) (h : Nat) : Bool :=
  (collEdges (s.coll h).d).any (fun c => (s.conn c).txq.any (fun m =>
    match m.org with | .coll k _ => k == h | _ => false))

/-- A run ends when every result byte owed is written and every message sent is acknowledged (R360). -/
def State.collTryDone (s : State) (h : Nat) : State :=
  let g := s.coll h
  match g.run with
  | none => s
  | some r =>
    let upDone := (r.kind = 1 && !isRoot g.d) || chunksOf (upElems g.d r) (runC r) ≤ r.upNext
    let downDone := isRoot g.d || r.kind = 0 || (downWanted g.d r).all (fun n => n < r.downNext)
    if !r.waiting && upDone && downDone && !s.collUnacked h then
      let s1 := (s.unsoft (collOwner h)).setColl h { g with state := .idle, run := none }
      let s2 := (s1.incTally r.p r.tally).count bCOLL (dieInst g.d.home) 0xC00 1
      (s2.complete r.p r.q r.idx 0).collNext h
    else s

/-- Stores a run's progress. -/
def State.setRun (s : State) (h : Nat) (r : CollRun) : State :=
  s.setColl h { s.coll h with run := some r }

/-- The bytes of the next chunk to combine, if all have come: own bytes, and the children's. -/
def State.chunkKids (s : State) (h : Nat) (r : CollRun) (n : Nat) : Option (List (List Byte)) :=
  let d := (s.coll h).d
  if r.kind = 1 then some []
  else allSome (d.children.zipIdx.map (fun e =>
    (r.got.find? (fun x => x.1 == e.2 && x.2.1 == n)).map (fun x => x.2.2)))

/-- Drops the children's chunks that are combined: slots become free (R355). -/
def dropGot (d : CollDef) (r : CollRun) (n : Nat) : List (Nat × Nat × List Byte) :=
  if r.kind = 4 then
    let done := (n + 1) * runC r
    r.got.filter (fun x =>
      match d.children[x.1]? with
      | some e =>
        let lo := kidBase d r e
        let hi := lo + (e.last - e.first + 1) * r.len
        done < min hi (lo + (x.2.1 + 1) * runC r)
      | none => false)
  else r.got.filter (fun x => x.2.1 != n)

/-- The chunk's bytes go onward: up to the parent, or at the root into its result and down (R357, R360). -/
def State.collOnward (s : State) (h : Nat) (r : CollRun) (n m : Nat) (wire result : List Byte) : State :=
  let g := s.coll h
  let d := g.d
  let i := dieInst d.home
  let r1 := { r with upNext := n + 1, got := dropGot d r n }
  let s1 := if hasUp r.kind then (s.setRun h r1).count bCOLL i 0xC10 1 else s.setRun h r1
  match d.parent with
  | some c =>
    if isRoot d then s1 else s1.collSend h c 0x20 n (collHeader d.tag r n d.rank m ++ wire)
  | none =>
    let o := ownPart d r n result
    let w := if r.kind = 1 || o.2.isEmpty then (s1, 0) else s1.collWrite h r1 o.1 o.2
    if w.2 != 0 then w.1.collFail h w.2
    else if hasDown r.kind then
      ((w.1.collForward h r1 n result).setRun h { r1 with downNext := n + 1 }).count bCOLL i 0xC18 1
    else w.1

/-- COLL_CHUNK_COMBINE's effect on a group: the next chunk, when its inputs are there and its slot for the
chunk two before is free. -/
def State.collCombine (s : State) (h : Nat) : State :=
  let g := s.coll h
  match g.run with
  | none => s
  | some r =>
    let d := g.d
    let n := r.upNext
    let len := upElems d r
    let x := chunkSpan len (runC r) n
    if r.waiting || chunksOf len (runC r) ≤ n || (r.kind = 1 && !isRoot d) ||
        (2 ≤ n && (s.collSending h 0x20 (n - 2) || s.collSending h 0x21 (n - 2))) then s
    else if r.kind = 4 then
      let hi := min (x.1 + x.2) r.len
      match gatherKids d r x.1 (x.1 + x.2) with
      | none => s
      | some kids =>
        let nb := tyBytes r.ty (hi - x.1)
        match s.vget d.home r.p accRD (r.src + tyBytes r.ty x.1) nb r.srcRuns with
        | (s1, .ok now _) =>
          let own := s1.collOwn r (tyBytes r.ty x.1) now
          (own.1.collOnward h r n x.2 (own.2 ++ kids) (own.2 ++ kids)).collTryDone h
        | (s1, .stat c _) => s1.collFail h c
        | (s1, .fault _ _) => s1.collFail h 0x0005
    else
      match s.chunkKids h r n with
      | none => s
      | some kids =>
        match s.vget d.home r.p accRD (r.src + tyBytes r.ty x.1) (tyBytes r.ty x.2) r.srcRuns with
        | (s1, .ok now _) =>
          let own := s1.collOwn r (tyBytes r.ty x.1) now
          let f := if r.kind = 1 then (own.2, own.2) else foldChunk r.ty r.op r.form own.2 kids
          (own.1.collOnward h r n x.2 f.1 f.2).collTryDone h
        | (s1, .stat c _) => s1.collFail h c
        | (s1, .fault _ _) => s1.collFail h 0x0005

/-! ## Messages that have hemmed (R354-R356) -/

/-- Which neighbour an edge connection leads to: 0 the parent, k the k-th child. -/
def edgeIdx (d : CollDef) (cid : Nat) : Option Nat :=
  if d.parent = some cid then some 0
  else ((d.children.zipIdx.find? (fun e => e.1.cid == cid)).map (fun e => e.2 + 1))

/-- Whether the slot of a chunk on an edge is still occupied, or the run has none yet (R355). -/
def State.slotBusy (s : State) (h cid op n : Nat) : Bool :=
  let g := s.coll h
  match g.run, edgeIdx g.d cid with
  | some r, some 0 => r.waiting || (op == 0x21 && 2 ≤ n && s.collSending h 0x21 (n - 2))
  | some r, some (k + 1) => r.waiting || (2 ≤ n && r.got.any (fun x => x.1 == k && x.2.1 + 2 == n))
  | _, _ => true

/-- Whether a header agrees with the member's own run and its neighbour. -/
def headerOk (d : CollDef) (r : CollRun) (edge op : Nat) (hd : List Byte) : Bool :=
  let chunk := beNat ((hd.drop 8).take 4)
  let rank := beNat ((hd.drop 12).take 2) % 2 ^ 14
  let kindOp := (hd.getD 14 0).toNat
  let tyForm := (hd.getD 15 0).toNat % 64
  let down := op == 0x21
  let c := runC r
  let kid := d.children[edge - 1]?
  let len := if down then downElems d r else
    match kid with
    | some e => if r.kind = 4 then (e.last - e.first + 1) * r.len else r.len
    | none => r.len
  beNat (hd.take 4) == d.tag.toNat && beNat ((hd.drop 4).take 4) == r.number &&
  kindOp == r.kind + r.op * 16 && tyForm == r.ty + r.form * 16 &&
  beNat ((hd.drop 16).take 4) == r.len && chunk < chunksOf len c &&
  beNat ((hd.drop 20).take 4) == (chunkSpan len c chunk).2 &&
  (if down then edge == 0 && hasDown r.kind && rank < d.rank
   else 0 < edge && hasUp r.kind && (kid.map (fun e => e.first == rank)).getD false)

/-- A COLL message hems: its header is checked; an up chunk is kept for the combine, a down chunk is
written and forwarded. -/
def State.collHem (s : State) (cid op : Nat) (bytes : List Byte) : State :=
  match (s.conn cid).edge with
  | none => s
  | some h =>
    let g := s.coll h
    match g.run, edgeIdx g.d cid with
    | some r, some e =>
      let chunk := beNat ((bytes.drop 8).take 4)
      let want := if op = 0x21 then tyBytes r.ty (chunkSpan (downElems g.d r) (runC r) chunk).2
        else upBytes r (beNat ((bytes.drop 20).take 4))
      if !headerOk g.d r e op bytes || bytes.length != 32 + want then
        (s.raise bCOLL (dieInst g.d.home) 2 (BitVec.ofNat 32 cid)).collFail h 0x0003
      else if op = 0x20 then s.setRun h { r with got := r.got ++ [(e - 1, chunk, bytes.drop 32)] }
      else
        let data := bytes.drop 32
        let o := ownPart g.d r chunk data
        let w := if o.2.isEmpty then (s, 0) else s.collWrite h r o.1 o.2
        if w.2 != 0 then w.1.collFail h w.2
        else
          let s1 := (w.1.collForward h r chunk data).setRun h { r with downNext := chunk + 1 }
          (s1.count bCOLL (dieInst g.d.home) 0xC18 1).collTryDone h
    | _, _ => s

/-- Free slots go to the first run that waits on a die (R351). -/
def State.grantSlots (s : State) (fd1 : Bool) : State :=
  match s.collWait.find? (fun h => (s.coll h).d.home == fd1) with
  | none => s
  | some h =>
    let g := s.coll h
    match g.run with
    | none => { s with collWait := s.collWait.erase h }
    | some r =>
      if s.slotsFree fd1 < r.slots then s
      else ({ s with collWait := s.collWait.erase h }).setColl h { g with run := some { r with waiting := false } }

end Sys2Proof.Machine
end

