-- ==== Sys2Proof/Machine/Copy.lean ====
section
/-! DEFINITION. Copy engines (09_memory_and_translation R222-R224, 06 R170, 07 R194): moving a request's
bytes run by run, its end, and the checks and start of FILL and SPILL. -/

namespace Sys2Proof.Machine

/-- The stream of a job (Table 9-6). -/
def CopyJob.stream (j : CopyJob) : Stream :=
  match j.from_ with
  | .tile t => .tileReq t j.spill
  | .entry p q i => .queue p q i
  | .armed p pa _ _ => .queue p noRing pa

/-- The source bytes of a piece: where the source has changed since the engine took the job, the old or
the present byte, free line by line. -/
def State.pieceBytes (s : State) (j : CopyJob) (ta : Nat) (bs : List Byte) : List Byte :=
  bs.zipIdx.map (fun p =>
    match j.cells.find? (fun c => c.1 == ta + p.2) with
    | some c => if s.freeBit ((ta + p.2) / 64 * 8 + 2) then c.2 else p.1
    | none => p.1)

/-- Where the tile side of a job's byte at an offset lies, how many bytes of the run are left there, and
the runs held (R223, R233). -/
def State.tileSide (s : State) (j : CopyJob) (off : Nat) : State × (Flt ⊕ (Nat × Nat × List Held)) :=
  match j.from_ with
  | .tile t => (s, .inr (if j.im then imAt t (j.tva + off) else sramAt t (j.tva + off), j.len - off, []))
  | _ =>
    match s.xlHeld (j.eng / 16 == 1) j.part (j.tva + off) (if j.spill then accR else accW) j.truns 2 with
    | (s1, .inl f) => (s1, .inl f)
    | (s1, .inr (r, hs)) => (s1, .inr (r.at_ (j.tva + off), r.left (j.tva + off), hs))

/-- How a job's movement ends: with a status, or at a fault. -/
inductive MoveEnd where
  | done (st : Nat)
  | fault (f : Flt)
  deriving DecidableEq, Repr

/-- Tiles whose SRAM or instruction memory n bytes from a physical address reach. -/
def tilesOf (a n : Nat) : List Nat :=
  if n = 0 then []
  else if inSram a then (List.range (sramTile (a + n - 1) - sramTile a + 1)).map (sramTile a + ·)
  else if inIm a then (List.range (imTile (a + n - 1) - imTile a + 1)).map (imTile a + ·)
  else []
/-- The tiles a translated tile-side run of a job names, within the job's range (R223). -/
def CopyJob.name (j : CopyJob) (ta n : Nat) : CopyJob := { j with tiles := (j.tiles ++ tilesOf ta n).eraseDups }
/-- Whether the tile side of a job may lie at a physical address (R223). -/
def CopyJob.sideOk (j : CopyJob) (ta : Nat) : Bool := inSram ta || (!j.spill && inIm ta)

/-- A newly held local run of a descriptor goes into its bytes 48-63 (R233). -/
def State.recordNew (s : State) (j : CopyJob) (hs : List Held) : State :=
  match j.from_, hs.getLast? with
  | .entry p q i, some r => if j.runs.length < hs.length then s.putRun p q i r j.moved j.eng else s
  | _, _ => s

/-- Moves a job's bytes run by run, in class Q2; `fuel` bounds the pieces. -/
def State.moveJob (s : State) : Nat → CopyJob → State × CopyJob × MoveEnd
  | 0, j => (s, j, .done 0)
  | fuel + 1, j =>
    if j.len ≤ j.moved then (s, j, .done 0)
    else
      let fd := j.eng / 16 == 1
      match s.xlHeld fd j.part (j.lva + j.moved) (if j.spill then accW else accR) j.runs 2 with
      | (s1, .inl f) => (s1, j, .fault f)
      | (s1, .inr (r, hs)) =>
        match (s1.recordNew j hs).tileSide { j with runs := hs } j.moved with
        | (s2, .inl f) => (s2, { j with runs := hs }, .fault f)
        | (s2, .inr (ta, tl, ht)) =>
          let la := r.at_ (j.lva + j.moved)
          let k := min (j.len - j.moved) (min (r.left (j.lva + j.moved)) tl)
          let j1 := { j with runs := hs, truns := ht }.name ta (min tl (j.len - j.moved))
          if !inDram la || !j.sideOk ta then (s2, j1, .done 0x0003)
          else
            let src := if j.spill then s2.physRead j.part 0 ta k 2 else s2.physRead j.part r.ksel la k 2
            match src with
            | (s3, 0, bs) =>
              let at_ := if j.spill then la else ta
              let w := if j.spill then s3.physPut j.part r.ksel la (s3.pieceBytes j la bs) none 2
                else s3.physPut j.part 0 ta (s3.pieceBytes j ta bs) none 2
              let n := w.2.2
              let s4 := if j.spill then (r.logged la n).foldl (fun s x => s.dirtyRange j.part x 2) w.1 else w.1
              let j2 := { j1 with moved := j.moved + n, cells := j.cells.filter (fun c => c.1 < at_ || at_ + n ≤ c.1) }
              if w.2.1 != 0 then ((s4.count bCOPY j.eng 0xC00 n).freshen, j2, .done w.2.1)
              else (s4.count bCOPY j.eng 0xC00 n).freshen.moveJob fuel j2
            | (s3, c, _) => (s3, j1, .done c)

/-- Lines of a failed fill that were not delivered hold their prior contents or the data read, free line
by line (R170). -/
def State.undelivered (s : State) (j : CopyJob) : State :=
  if j.spill then s
  else
    let keep := j.cells.filter (fun c => s.freeBit (c.1 / 256 * 8 + 3))
    { s with mem := writeCells s.mem keep }.freshen

/-- A request of an engine has ended with a status: counted, and reported if it failed (R251). -/
def State.copyCount (s : State) (eng st : Nat) : State :=
  let s1 := s.count bCOPY eng 0xC08 1
  if st = 0 then s1 else (s1.count bCOPY eng 0xC10 1).raise bCOPY eng 0 (BitVec.ofNat 32 st)

/-- A job leaves its engine with a status: counted, its tally and its entry follow. -/
def State.jobEnd (s : State) (j : CopyJob) (st : Nat) : State :=
  let s0 := { s with jobs := s.jobs.filter (fun x => !(x.eng == j.eng && x.id == j.id)) }
  let s2 := (if st = 0 then s0 else s0.undelivered j).copyCount j.eng st
  let tall (s : State) : State :=
    if tnEn j.ctally then j.tiles.foldl (fun s t => s.updTile t (fun x => x.incTally (bitsAt j.ctally.toNat 0 6))) s else s
  match j.from_ with
  | .tile t =>
    let s3 := s2.updTile t (fun x =>
      let x1 := match j.tally with | some k => x.incTally k | none => x
      { x1 with
        copies := x1.copies - 1
        xerr := if st != 0 && !x1.xerr.getLsbD 16 && j.tally.isSome then BitVec.ofNat 17 (st + 65536) else x1.xerr
        measured := if j.im then none else x1.measured })
    s3
  | .entry p q i => (tall s2).complete p q i st
  | .armed p pa k dl => (tall s2).finishOrg (.armed p pa k dl) {} false st

/-- COPY_COMPLETE's effect: the job moves what is left of it, and ends or parks (R224, R237). -/
def State.jobRun (s : State) (j : CopyJob) : State :=
  let s0 := { s with jobs := s.jobs.map (fun (x : CopyJob) => if x.eng = j.eng && x.id = j.id then { x with cells := [] } else x) }
  match s0.moveJob (2 * runsOf j.len) j with
  | (s1, j1, .done st) => s1.jobEnd j1 st
  | (s1, j1, .fault f) =>
    let s2 := s1.updJobs (fun x => x.eng == j.eng && x.id == j.id) (fun _ => j1)
    s2.fault (j.eng / 16 == 1) j.part f j.stream

/-- Tiles the rest of a tile-side range lies in, as the page tables stand. -/
def State.jobTiles (s : State) (j : CopyJob) : List Nat :=
  ((List.range ((j.len - j.moved + 4095) / 4096 + 1)).filterMap (fun k =>
    (s.pureXl j.part (j.tva + j.moved + min (4096 * k) (j.len - j.moved - 1)) (if j.spill then accR else accW)).map (fun a =>
      if inIm a then imTile a else sramTile a))).eraseDups

/-- Whether a job may end before the jobs ahead of it: requests of one tile to one engine end in issue
order, and what a parked stream holds waits (R194, R237). -/
def State.jobFree (s : State) (j : CopyJob) : Bool :=
  let ahead := s.jobs.takeWhile (fun x => !(x.eng == j.eng && x.id == j.id))
  !j.parked && match j.from_ with
  | .tile t => !ahead.any (fun x => x.from_ == .tile t && (x.eng == j.eng || x.parked))
  | .entry p q _ => !ahead.any (fun x => x.parked && (match x.from_ with | .entry a b _ => a == p && b == q | _ => false))
  | .armed _ _ _ _ => true

/-! ## FILL and SPILL (R223) -/

/-- Checks of a FILL or SPILL: the failing status, or 0. -/
def copyCheck (d : Desc) : Nat :=
  let len := d.len.toNat
  if len = 0 || len % 64 != 0 || d.lva.toNat % 64 != 0 || d.rva.toNat % 64 != 0 then 0x0009
  else if tnEn d.tally && bitsAt d.tally.toNat 0 6 < 48 then 0x0003
  else 0

/-- How the start of an operation ends: begun, done with a status, parked on a fault, or to be tried
again when what it waits for is there. -/
inductive Start where
  | begun (epoch : Option Nat)
  | done (st : Nat)
  | wait
  | fault (fd1 : Bool) (f : Flt)
  deriving DecidableEq, Repr

/-- The engine a FILL or SPILL goes to: that of the first tile of its tile-side range (R222); where that range
does not begin in a tile, one of its kind, free (log entry 62). -/
def State.copyEng (s : State) (p : Nat) (spill : Bool) (tva : Nat) : Nat :=
  match (s.pureXl p tva (if spill then accR else accW)).bind (fun a => (tilesOf a 1).head?) with
  | some t => copyEngine t spill
  | none =>
    let i := s.freeIn 0 0 15
    i / 8 * 16 + spill.toNat * 8 + i % 8

/-- Replaces a job. -/
def State.setJob (s : State) (j : CopyJob) : State :=
  s.updJobs (fun x => x.eng == j.eng && x.id == j.id) (fun _ => j)

/-- A job's first runs are translated, the tile side first, checked, and recorded (R223, R233). -/
def State.jobFirst (s : State) (j : CopyJob) : State :=
  let fd := j.eng / 16 == 1
  match s.xlHeld fd j.part j.tva (if j.spill then accR else accW) [] 2 with
  | (s1, .inl f) => s1.fault fd j.part f j.stream
  | (s1, .inr (tr, ht)) =>
    let j1 := { j with truns := ht }.name (tr.at_ j.tva) (min (tr.left j.tva) j.len)
    if !j.sideOk (tr.at_ j.tva) then (s1.setJob j1).jobEnd j1 0x0003
    else
      match (s1.setJob j1).xlHeld fd j.part j.lva (if j.spill then accW else accR) [] 2 with
      | (s2, .inl f) => s2.fault fd j.part f j.stream
      | (s2, .inr (_, hs)) =>
        (s2.setJob { j1 with
          runs := hs
          cells := s2.copyCells j.part j.spill j.lva j.len (fun i =>
            s2.pureXl j.part (j.tva + i) (if j.spill then accR else accW)) }).recordNew j1 hs

/-- A FILL or SPILL goes to its engine (R222, R223); one that breaks the checks ends there. -/
def State.startCopy (s : State) (p : Nat) (from_ : CopyFrom) (spill : Bool) (d : Desc) : State × Start :=
  let eng := s.copyEng p spill d.rva.toNat
  if copyCheck d != 0 then ((s.copyCount eng (copyCheck d)).freshen, .done (copyCheck d))
  else
    let j : CopyJob :=
      { eng := eng, id := s.fresh, from_ := from_, part := p, spill := spill, lva := d.lva.toNat, tva := d.rva.toNat
        im := false, len := d.len.toNat, tally := none, flags := d.flags, ctally := d.tally, epoch := (s.part p).epoch }
    ({ s with jobs := s.jobs ++ [j] }.freshen.jobFirst j, .begun none)

end Sys2Proof.Machine
end

