-- ==== Sys2Proof/Machine/Ports.lean ====
section
/-! DEFINITION. Ethernet ports, flow control and network time (10_ethernet_ports R252-R269): links,
received frames, pauses, timestamps and the network clock. -/

namespace Sys2Proof.Machine

/-! ## Which ports there are -/

/-- Ports a TV4812-N16 does not have (R6). -/
def State.portGone (s : State) (n : Nat) : Bool :=
  s.ident.n16 && ((8 ≤ n && n ≤ 11) || (20 ≤ n && n ≤ 23))
/-- Whether an index names a port of this module; data ports are 0-23, MP0 and MP1 are 24 and 25. -/
def State.portOk (s : State) (n : Nat) : Bool := n < 26 && !s.portGone n
def State.dataPort (s : State) (n : Nat) : Bool := n < 24 && !s.portGone n
/-- Whether a port is in mode 1, two halves (R252). -/
def State.halves (s : State) (n : Nat) : Bool := n < 24 && s.fld bPORT n 0x044 0 1 == 1
/-- Whether the port or half is up. -/
def State.halfUp (s : State) (n : Nat) (half1 : Bool) : Bool :=
  if half1 then s.halves n && (s.port n).up1 else (s.port n).up0
/-- Whether any part of a port is up. -/
def State.portUp (s : State) (n : Nat) : Bool := s.halfUp n false || s.halfUp n true
/-- Whether rails beyond VAUX are on, or coming up. -/
def State.powered (s : State) : Bool := s.pwr.phase != .off

/-! ## Links (R253) -/

/-- A port or half that was up goes down: its queued frames are discarded. -/
def State.linkLost (s : State) (n : Nat) (half1 : Bool) : State :=
  if s.halfUp n half1 then
    let x := s.port n
    let y := { x with
      up0 := x.up0 && half1, up1 := x.up1 && !half1, training := s.fld bPORT n 0x040 0 1 == 1
      txq := x.txq.filter (fun f => f.half1 != half1)
      pauseOut := if s.halfUp n (!half1) then x.pauseOut else [] }
    let x2 := s.sched n
    let s1 := if n < 24 then
        s.setSched n { x2 with guarded := x2.guarded.filter (fun c => (c / 8 == 1) != half1) } else s
    ((s1.setPort n y).count bPORT n 0xCA0 1).raise bPORT n 0
  else s

def execPortEnable (n : Nat) (s : State) : Res :=
  .next (if s.portOk n then
    s.pageWrite bPORT n 0x040 1 (fun s =>
      if s.fld bPORT n 0x040 0 1 = 1 then s
      else (s.setReg bPORT n 0x040 1).setPort n { s.port n with training := true })
  else s)

/-- Clearing EN takes both halves down at once. -/
def execPortDisable (n : Nat) (s : State) : Res :=
  .next (if s.portOk n then
    s.pageWrite bPORT n 0x040 0 (fun s =>
      let s1 := ((s.setReg bPORT n 0x040 0).linkLost n false).linkLost n true
      s1.setPort n { s1.port n with training := false, txq := [], pauseOut := [] })
  else s)

/-- PORT_MODE, ignored while EN is 1 (R252). -/
def execPortModeWrite (n : Nat) (v : W32) (s : State) : Res :=
  .next (if s.dataPort n then
    s.pageWrite bPORT n 0x044 v (fun s =>
      if s.fld bPORT n 0x040 0 1 = 1 then s.raise bPORT n 4
      else s.setReg bPORT n 0x044 (v &&& 1))
  else s)

/-- Whether a port may come up: one that is enabled; a management port also while no firmware has yet enabled
ports, for it carries traffic in every power state (R42, R253). -/
def State.portLive (s : State) (n : Nat) : Bool :=
  (s.powered && s.fld bPORT n 0x040 0 1 == 1) || (24 ≤ n && s.pwr.vaux && (!s.powered || s.ident.stage < 8))

/-- A port or half comes up. -/
def execLinkUp (n : Nat) (half1 : Bool) (s : State) : Res :=
  .next (if s.portOk n && s.portLive n && (!half1 || s.halves n) &&
      !s.halfUp n half1 then
    let x := s.port n
    let y := { x with up0 := x.up0 || !half1, up1 := x.up1 || half1 }
    (s.setPort n { y with training := s.halves n && !(y.up0 && y.up1) }).raise bPORT n 1
  else s)

def execLinkDown (n : Nat) (half1 : Bool) (s : State) : Res :=
  .next (if s.portOk n then s.linkLost n half1 else s)

/-! ## Network time (R262-R266) -/

/-- Seconds, nanoseconds and sub-nanoseconds of a time in 2^-32 ns. -/
def timeOf (n : Nat) (x : NetTime) : NetTime :=
  { x with sec := n / 2 ^ 32 / 1000000000 % 2 ^ 48, ns := n / 2 ^ 32 % 1000000000, sub := n % 2 ^ 32 }
/-- Network time in 2^-32 ns. -/
def NetTime.fine (x : NetTime) : Nat := (x.sec * 1000000000 + x.ns) * 2 ^ 32 + x.sub
/-- `k` NCLK edges pass. -/
def State.nclk (s : State) (k : Nat) : State :=
  { s with time := timeOf (s.time.fine + k * (s.reg bPTP 0 0x048).toNat) s.time }
/-- The fraction of a nanosecond, bits [31:16] of the sum. -/
def NetTime.frac (x : NetTime) : Nat := x.sub / 65536 % 65536

/-- Whether network time is locked. -/
def State.timeLocked (s : State) : Bool := (s.reg bPTP 0 0x044).getLsbD 0
/-- Stores PTP_STATUS.LOCKED. -/
def State.setLocked (s : State) (b : Bool) : State :=
  s.setReg bPTP 0 0x044 (BitVec.ofNat 32 ((s.reg bPTP 0 0x044).toNat / 2 * 2 + b.toNat))

/-- Lock is gained; NOLOCK clears (R459). -/
def State.gainLock (s : State) : State :=
  if s.timeLocked then s
  else { (s.setLocked true).raise bPTP 0 0 with ident := { s.ident with nolock := false } }
/-- Lock is lost; MOD_PPS_OUT is held low (R51). -/
def State.loseLock (s : State) : State :=
  if s.timeLocked then
    let s1 := (s.setLocked false).raise bPTP 0 1
    let s2 := { s1 with time := { s1.time with inLock := 0, outLock := 0 } }
    if s2.tray.ppsOut then
      { s2 with tray := { s2.tray with ppsOut := false, ppsLeft := 0 } }.emit (.pps false)
    else s2
  else s

/-- A sync message gives the servo an offset in nanoseconds (R265). -/
def State.syncOffset (s : State) (off : Int) : State :=
  let s1 := s.count bPTP 0 0xC00 1
  let x := s1.time
  let near := -100 ≤ off && off ≤ 100
  let far := off < -500 || 500 < off
  let y := { x with inLock := if near then min (x.inLock + 1) 16 else 0
                    outLock := if far then min (x.outLock + 1) 4 else 0 }
  let s2 := { s1 with time := y }
  if !s2.timeLocked && 16 ≤ y.inLock then s2.gainLock
  else if s2.timeLocked && 4 ≤ y.outLock then s2.loseLock
  else s2

/-- The clock's port. -/
def State.clockPort (s : State) : Nat := s.fld bPTP 0 0x040 0 5

/-! ## Timestamps (R264) -/

/-- Network time at the MDI: the port's calibration applied, within ±2 ns, free (R264). -/
def State.mdiTime (s : State) (n : Nat) (rx : Bool) : NetTime :=
  let x : Int := (s.time.fine : Int) + mget 0 s.ident.asym (2 * n + rx.toNat) + (s.freeIn 0 0 (2 ^ 34) : Int) - 2 ^ 33
  timeOf (x % ((2 ^ 48 * 1000000000 * 2 ^ 32 : Nat) : Int)).toNat s.time
/-- A timestamp of an event message, tagged with its sequence ID and type. -/
def State.stampNow (s : State) (n : Nat) (rx half1 : Bool) (e : BitVec 16 × BitVec 4) : Stamp :=
  let x := s.mdiTime n rx
  { sec := x.sec, ns := x.ns, frac := x.frac, seq := e.1, kind := e.2, half1 := half1 }
def State.stampRx (s : State) (n : Nat) (half1 : Bool) (e : BitVec 16 × BitVec 4) : State :=
  let x := s.port n
  if 16 ≤ x.tsRx.length then s.count bPORT n 0xCA8 1
  else (s.setPort n { x with tsRx := x.tsRx ++ [s.stampNow n true half1 e] }).freshen
def State.stampTx (s : State) (n : Nat) (half1 : Bool) (e : BitVec 16 × BitVec 4) : State :=
  let x := s.port n
  if 16 ≤ x.tsTx.length then s.count bPORT n 0xCA8 1
  else (s.setPort n { x with tsTx := x.tsTx ++ [s.stampNow n false half1 e] }).freshen

/-- Puts a popped timestamp, or none, into PORT_TS_DATA and TS_CTRL. -/
def State.tsShow (s : State) (n : Nat) (x : Option Stamp) : State :=
  match x with
  | none => s.setReg bPORT n 0x068 0
  | some t =>
    ((((s.setReg bPORT n 0x068 0x100).setReg bPORT n 0x070 (BitVec.ofNat 32 t.sec)).setReg bPORT n 0x074
      (BitVec.ofNat 32 (t.sec / 2 ^ 32 % 65536 + t.seq.toNat * 65536))).setReg bPORT n 0x078
      (BitVec.ofNat 32 t.ns)).setReg bPORT n 0x07C
      (BitVec.ofNat 32 (t.frac + t.kind.toNat * 65536 + t.half1.toNat * 2 ^ 20))

def execTsPopRx (n : Nat) (s : State) : Res :=
  .next (if s.portOk n then
    s.pageWrite bPORT n 0x068 1 (fun s =>
      let x := s.port n
      (s.setPort n { x with tsRx := x.tsRx.drop 1 }).tsShow n x.tsRx.head?)
  else s)
def execTsPopTx (n : Nat) (s : State) : Res :=
  .next (if s.portOk n then
    s.pageWrite bPORT n 0x068 2 (fun s =>
      let x := s.port n
      (s.setPort n { x with tsTx := x.tsTx.drop 1 }).tsShow n x.tsTx.head?)
  else s)

/-- Whether the clock uses the peer-to-peer delay mechanism; the gPTP profile has no other (R265). -/
def State.peerDelay (s : State) : Bool := s.fld bPTP 0 0x040 5 1 == 1 || s.fld bPTP 0 0x040 6 1 == 1
/-- Message types of IEEE 1588-2019; those below 8 are event messages. -/
abbrev mDelayReq : BitVec 4 := 1
abbrev mPdelayReq : BitVec 4 := 2
abbrev mPdelayResp : BitVec 4 := 3
abbrev mPdelayFollowUp : BitVec 4 := 0xA

/-- Firmware queues a message of the clock in TC7, on a half that is up; its length is that of its body, header,
tag and FCS (log entry 30). -/
def State.clockSend (s : State) (n : Nat) (kind : BitVec 4) (seq : BitVec 16) : State :=
  if !s.portUp n then s
  else
    let x := s.port n
    let f : TxFrame :=
      { half1 := !s.halfUp n false, cls := 7, len := max 64 ((if kind = mDelayReq then 62 else 72) + (if n < 24 then 4 else 0))
        ptp := some (seq, kind) }
    s.setPort n { x with txq := x.txq ++ [f] }

/-- The clock's answer to a peer's Pdelay_Req. -/
def State.delayAnswer (s : State) (n : Nat) (e : BitVec 16 × BitVec 4) : State :=
  if e.2 = mPdelayReq && n = s.clockPort && s.peerDelay then s.clockSend n mPdelayResp e.1 else s
/-- The clock measures the delay of its path: one request of its mechanism for each sync message. -/
def State.delayRequest (s : State) (n : Nat) : State :=
  { s.clockSend n (if s.peerDelay then mPdelayReq else mDelayReq) s.time.reqSeq with
    time := { s.time with reqSeq := s.time.reqSeq + 1 } }
/-- Operation is two-step: a Pdelay_Resp that has been sent is followed up (R264). -/
def State.followUp (s : State) (n : Nat) (e : BitVec 16 × BitVec 4) : State :=
  if e.2 = mPdelayResp then s.clockSend n mPdelayFollowUp e.1 else s

/-! ## Meters (R279-R281) -/

/-- Key of a meter. -/
def meterKey (fd1 : Bool) (p cls : Nat) : Nat := (dieInst fd1 * 1024 + p) * 8 + cls
/-- An address of a partition, as its four words hold bytes 0 to 15. -/
def State.partIp (s : State) (p i : Nat) : Nat :=
  beNat ((List.range 4).flatMap (fun k => leBytes 4 (s.reg bPART p (0x0A0 + 16 * i + 4 * k)).toNat))
/-- Partitions that exist: partition 0 and every tenant not free. -/
def State.livePart (s : State) (p : Nat) : Bool := p == 0 || (s.part p).lstate != .free
/-- The partition that owns a destination address; partition 0 where no tenant does. -/
def State.ownerOf (s : State) (a : BitVec 128) : Nat :=
  if a = 0 then 0
  else (s.parts.find? (fun x => s.livePart x.1 && (List.range 4).any (fun i => s.partIp x.1 i == a.toNat))).elim 0 Prod.fst

/-- Colours: 0 green, 1 yellow, 2 red. A bucket counts units of 1/2025 byte. -/
def Meter.colour (m : Meter) (len : Nat) (yellowIn : Bool) : Meter × Nat :=
  let b := len * 2025
  if !m.cfg.en then (m, 0)
  else if !m.cfg.alg then
    if !yellowIn && b ≤ m.tc then ({ m with tc := m.tc - b }, 0)
    else if b ≤ m.tx then ({ m with tx := m.tx - b }, 1)
    else (m, 2)
  else if m.tx < b then (m, 2)
  else if yellowIn || m.tc < b then ({ m with tx := m.tx - b }, 1)
  else ({ m with tc := m.tc - b, tx := m.tx - b }, 0)

/-- Refill of a meter's buckets, committed values taking effect (R278, R280). -/
def Meter.refill (m : Meter) : Meter :=
  let c := if m.pend then m.staged else m.cfg
  let capC := c.cbs * 2025
  let capX := c.xbs * 2025
  let tc := m.tc + 16 * c.cir
  if !c.alg then
    { m with cfg := c, pend := false, tc := min tc capC, tx := min (m.tx + (tc - capC)) capX }
  else
    { m with cfg := c, pend := false, tc := min tc capC, tx := min (m.tx + 16 * c.pir) capX }

/-- A frame of a data port meets its meter; true: it passes. -/
def State.meterFrame (s : State) (n cls : Nat) (f : RxFrame) : State × Bool :=
  let fd1 := 12 ≤ n
  let i := dieInst fd1
  let k := meterKey fd1 (s.ownerOf f.dst) cls
  let m := s.meter k
  let r := m.colour f.len (m.cfg.aware && f.tagged && f.dei)
  match r.2 with
  | 0 => ((s.setMeter k r.1).count bMETER i 0xC00 1, true)
  | 1 =>
    let s1 := (s.setMeter k { r.1 with yellow := r.1.yellow + 1 }).count bMETER i 0xC08 1
    (if f.ecn = 1 || f.ecn = 2 then s1.count bMETER i 0xC10 1 else s1, true)
  | _ =>
    (((s.setMeter k { r.1 with red := r.1.red + 1 }).count bMETER i 0xC18 1).count bMETER i 0xC20 f.len, false)

def execMeterCommit (fd1 : Bool) (s : State) : Res :=
  let i := dieInst fd1
  let k := meterKey fd1 (s.fld bMETER i 0x040 0 10) (s.fld bMETER i 0x040 16 3)
  .next (s.pageWrite bMETER i 0x058 1 (fun s => s.setMeter k { s.meter k with pend := true }))
/-- Every meter of a die refills. -/
def execMeterRefill (fd1 : Bool) (s : State) : Res :=
  .next ((s.meters.map Prod.fst).foldl (fun s k =>
    if (k / 8192 == 1) == fd1 then s.setMeter k (s.meter k).refill else s) s)

/-! ## Received frames (R254-R258, R264, R267) -/

/-- Class of a received frame (R255). -/
def frameCls (f : RxFrame) : Nat :=
  if f.tagged then f.pcp.toNat else if f.isIp then f.dscp.toNat / 8 else 0

/-- Whether a frame is admitted at its first byte (R256, R267). -/
def State.admits (s : State) (n cls len : Nat) : Bool :=
  let f := s.poolFreeSpace n
  if 24 ≤ n then len ≤ f else 9216 ≤ f && (s.lossless n cls || s.headroom n < f)

/-- What an admitted good frame means to the port: its meter, its timestamp, its sync offset. -/
def State.goodFrame (s : State) (n cls : Nat) (f : RxFrame) : State :=
  let r := if f.metered && n < 24 then s.meterFrame n cls f else (s, true)
  if !r.2 then r.1.poolFree n f.len
  else
    let s1 := match f.ptpEvent with
      | some e => (r.1.stampRx n f.half1 e).delayAnswer n e
      | none => r.1
    let s2 := match f.sync with
      | some o => if n = s1.clockPort then (s1.syncOffset o).delayRequest n else s1
      | none => s1
    if f.kvt then s2 else s2.poolFree n f.len

/-- The FEC codewords of a frame: how many of them it corrected, or could not correct, is free (log entry 64). -/
def State.fecCount (s : State) (n : Nat) (f : RxFrame) : State :=
  let k := f.len / 642 + 2
  ((s.count bPORT n 0xC78 (s.freeIn 0 0 k)).count bPORT n 0xC80 (if f.fcsOk then 0 else s.freeIn 1 0 k)).freshen

/-- A frame at the port: its length, its admission, and how it ends (R254, R256, R257). The bytes of a KVT frame
have passed to the transport, which the pool tells of a failed FCS; the packet holds its space till the transport
has consumed it. -/
def State.frameIn (s : State) (n : Nat) (f : RxFrame) : State :=
  let cls := frameCls f
  if f.len < 64 || 9216 < f.len then s.count bPORT n 0xC68 1
  else if !s.admits n cls f.len then s.count bPORT n (0xC20 + 8 * cls) 1
  else
    let s1 := (((s.count bPORT n 0xC00 1).count bPORT n 0xC10 f.len)).poolTo n ((s.port n).pool + f.len)
    let drop (s : State) : State := if f.kvt then s else s.poolFree n f.len
    if f.poolUe then drop ((s1.count bPORT n 0xC70 1).raise bPORT n 3)
    else if !f.fcsOk then drop (s1.count bPORT n 0xC60 1)
    else s1.goodFrame n cls f

def execFrameReceive (n : Nat) (f : RxFrame) (s : State) : Res :=
  .next (if s.portOk n && s.halfUp n f.half1 then (s.fecCount n f).frameIn n f else s)

/-! ## Pauses (R258-R261) -/

/-- A class is paused for a time, or released at 0. -/
def Port.pause (x : Port) (cls q : Nat) : Port := { x with paused := mset 0 x.paused cls q }

def State.pauseIn (s : State) (n : Nat) (pfc : Bool) (classes : Byte) (quanta : List (BitVec 16)) : State :=
  if s.fcMode n != (if pfc then 1 else 2) then s.count bPORT n 0xC98 1
  else
    let s1 := s.count bPORT n 0xC88 1
    if pfc then
      (List.range 8).foldl (fun s c =>
        if !classes.getLsbD c then s
        else if s.lossless n c then s.setPort n ((s.port n).pause c (quanta.getD c 0).toNat)
        else s.count bPORT n 0xC98 1) s1
    else
      (List.range 8).foldl (fun s c => s.setPort n ((s.port n).pause c (quanta.headD 0).toNat)) s1

def execPauseReceive (n : Nat) (pfc : Bool) (classes : Byte) (quanta : List (BitVec 16)) (s : State) : Res :=
  .next (if s.portOk n && s.portUp n then s.pauseIn n pfc classes quanta else s)
def execPauseExpire (n cls : Nat) (s : State) : Res :=
  .next (if s.portOk n then s.setPort n ((s.port n).pause cls 0) else s)
def execPauseRefresh (n : Nat) (s : State) : Res :=
  .next (if s.dataPort n && (s.port n).pausing && s.fcMode n != 0 &&
      s.poolFreeSpace n ≤ s.headroom n + s.hysteresis n then s.sendPause n false else s)
def execPfcStorm (n cls : Nat) (s : State) : Res :=
  .next (if s.dataPort n && mget 0 (s.port n).paused cls != 0 && s.fld bPORT n 0x05C 0 16 != 0 then
    s.raise bPORT n 2 (BitVec.ofNat 32 cls) else s)

/-! ## The clock (R263, R265, R266, R269) -/

/-- The present time in three registers: seconds, [47:32] with the fraction, nanoseconds. -/
def State.timeRegs (s : State) (off : Nat) : State :=
  let x := s.time
  ((s.setReg bPTP 0 off (BitVec.ofNat 32 x.sec)).setReg bPTP 0 (off + 4)
    (BitVec.ofNat 32 (x.sec / 2 ^ 32 % 65536 + x.frac * 65536))).setReg bPTP 0 (off + 8) (BitVec.ofNat 32 x.ns)

def execPtpLatch (s : State) : Res := .next (s.pageWrite bPTP 0 0x04C 2 (·.timeRegs 0x058))

def execPtpSyncTimeout (s : State) : Res :=
  .next { s.loseLock with time := { s.loseLock.time with inLock := 0, outLock := 0 } }

/-- The lowest-numbered port that is up. -/
def State.lowestUp (s : State) : Option Nat := (List.range 26).find? (fun n => s.portOk n && s.portUp n)

def execPtpPortMove (s : State) : Res :=
  .next (if s.portUp s.clockPort then s
    else match s.lowestUp with
    | some n => (s.setReg bPTP 0 0x040 (BitVec.ofNat 32 ((s.reg bPTP 0 0x040).toNat / 32 * 32 + n))).raise bPTP 0 3
    | none => s)

/-- A rising edge of MOD_PPS_IN: captured whatever the source, counted when more than 1 µs from a whole
second (R51, R266). -/
def execPpsInEdge (s : State) : Res :=
  .next (if s.powered then
    let s1 := (s.timeRegs 0x064).raise bPTP 0 4
    if 1000 < s.time.ns && s.time.ns < 999999000 then s1.count bPTP 0 0xC10 1 else s1
  else s)

end Sys2Proof.Machine
end

