-- ==== Sys2Proof/Machine/Sched.lean ====
section
/-! DEFINITION. Gates, shapers and the choice of the next frame (11_traffic_scheduling R270-R278), and
what a network-time step does to them (R276). -/

namespace Sys2Proof.Machine

/-! ## Gate lists (R271, R272) -/

/-- The entries that run in a cycle: index, offset from the cycle's start, mask. An entry of interval 0 is
skipped, one beyond the cycle's end is not reached; with none left the last entry holds. -/
def GateList.runs (g : GateList) : List (Nat × Nat × Byte) :=
  let words : List (Nat × W32) := (List.range g.len).map (fun i => (i, mget (0xFFFFFFFF : W32) g.entries i))
  let l := (words.foldl (fun (a : Nat × List (Nat × Nat × Byte)) (x : Nat × W32) =>
    let d := (x.2 >>> 8).toNat
    (a.1 + d, if d = 0 || g.cycle ≤ a.1 then a.2 else a.2 ++ [(x.1, a.1, x.2.setWidth 8)])) (0, [])).2
  if l.isEmpty then [(g.len - 1, 0, (mget (0xFFFFFFFF : W32) g.entries (g.len - 1)).setWidth 8)] else l
/-- Sum of the intervals. -/
def GateList.total (g : GateList) : Nat :=
  ((List.range g.len).map (fun i => (mget (0xFFFFFFFF : W32) g.entries i >>> 8).toNat)).foldl (· + ·) 0

/-- The earliest start n ≥ 0 of a cycle at or after a time (R273). -/
def firstStart (base : Int) (cycle : Nat) (now : Int) : Int :=
  if now ≤ base then base else base + (now - base + cycle - 1) / cycle * cycle

/-- Puts a list at its first entry, its cycle having begun at `at_`. -/
def Sched.begin_ (x : Sched) (at_ : Int) : Sched :=
  let e := x.act.runs.headD (0, 0, 0xFF)
  { x with start := some at_, going := true, entry := e.1, mask := e.2.2 }

/-- A requested swap is made at a cycle boundary (R274): the former active list becomes the shadow. -/
def Sched.swapNow (x : Sched) : Sched :=
  { x with act := x.shadow, shadow := x.act, swapPend := false, which := !x.which }
def State.gateSwapDue (s : State) (n : Nat) (boundary : Int) : State :=
  let x := s.sched n
  if x.swapPend && x.swapAt ≤ boundary then
    ((s.setSched n x.swapNow).count bSCHED n 0xC10 1).raise bSCHED n 0
  else s

/-- The boundary of the active list, after the start of the cycle in progress, at which a requested swap falls due
(R274). -/
def Sched.swapBoundary (x : Sched) (t : Int) : Int :=
  t + max 1 ((x.swapAt - t + x.act.cycle - 1) / x.act.cycle) * x.act.cycle

/-- The list is placed at the cycle and entry a time selects (R276); a swap whose boundary a step has jumped past is
made, the new list's cycles counting from that boundary (R274, log entry 65). -/
def State.gatePlace (s : State) (n : Nat) : State :=
  let x := s.sched n
  let now := s.timeNs
  match x.active, x.start with
  | true, some t =>
    if !x.going && now < t then s
    else
      let b := x.swapBoundary t
      let swaps := x.swapPend && b ≤ now
      let s1 := if swaps then s.gateSwapDue n b else s
      let y := s1.sched n
      let t1 := if swaps then b else t
      let boundary := t1 + ((now - t1) / y.act.cycle) * y.act.cycle
      let off := (now - boundary).toNat
      let e := (y.act.runs.filter (fun e => e.2.1 ≤ off)).getLastD (y.act.runs.headD (0, 0, 0xFF))
      s1.setSched n { y with start := some boundary, going := true, entry := e.1, mask := e.2.2 }
  | _, _ => s

/-- SCHED_CTRL.GATE_EN (R273). -/
def execGateEnable (n : Nat) (s : State) : Res :=
  .next (if s.dataPort n then
    s.pageWrite bSCHED n 0x040 1 (fun s =>
      if s.fld bSCHED n 0x040 0 1 = 1 then s
      else
        let x := s.sched n
        let base := time3 (s.reg bSCHED n 0x054) (s.reg bSCHED n 0x058) (s.reg bSCHED n 0x05C)
        let v := (s.reg bSCHED n 0x040) ||| 1
        (s.setReg bSCHED n 0x040 v).setSched n
          { x with active := true, going := false, act := x.shadow, mask := 0xFF, entry := 0
                   start := some (firstStart base x.shadow.cycle s.timeNs) })
  else s)

/-- SCHED_CTRL.SWAP (R274). -/
def execGateSwap (n : Nat) (s : State) : Res :=
  .next (if s.dataPort n then
    s.pageWrite bSCHED n 0x040 4 (fun s =>
      let x := s.sched n
      if !x.active then s.raise bSCHED n 1
      else s.setSched n { x with
        swapPend := true
        swapAt := time3 (s.reg bSCHED n 0x060) (s.reg bSCHED n 0x064) (s.reg bSCHED n 0x068) })
  else s)

/-- The next entry after the one in force, if the cycle has one. -/
def Sched.nextEntry (x : Sched) : Option (Nat × Nat × Byte) :=
  x.act.runs.find? (fun e => x.entry < e.1)

/-- A boundary of the active list falls due (R272, R274). -/
def State.gateBoundary (s : State) (n : Nat) : State :=
  let x := s.sched n
  match x.start with
  | none => s
  | some t =>
    if !x.going then s.setSched n (x.begin_ t)
    else match x.nextEntry with
    | some e => s.setSched n { x with entry := e.1, mask := e.2.2 }
    | none =>
      let b := t + x.act.cycle
      let s1 := if x.act.cycle < x.act.total then (s.count bSCHED n 0xC08 1).raise bSCHED n 2 else s
      let s2 := s1.gateSwapDue n b
      s2.setSched n ((s2.sched n).begin_ b)

def execGateEntryBoundary (n : Nat) (s : State) : Res :=
  .next (if s.dataPort n && (s.sched n).active then s.gateBoundary n else s)

/-! ## Shapers (R277, R278) -/

def execShpCommit (n : Nat) (s : State) : Res :=
  .next (if s.dataPort n then
    s.pageWrite bSCHED n 0x040 8 (fun s => s.setSched n { s.sched n with shpPend := true })
  else s)

/-- One refill of every class, committed values taking effect. -/
def Sched.refill (x : Sched) (ovh : Int) : Sched :=
  let y := if x.shpPend then { x with shp := x.staged, ovh := ovh, shpPend := false } else x
  { y with tokens := (List.range 8).foldl (fun m c =>
      let g := mget {} y.shp c
      mset 0 m c (min (mget 0 m c + 16 * (min g.rate 800000 : Nat)) (g.burst * 2025 : Nat))) y.tokens }
/-- The staged per-frame overhead. -/
def State.stagedOvh (s : State) (n : Nat) : Int := ((s.reg bSCHED n 0x048).setWidth 8).toInt

def execShaperRefill (n : Nat) (s : State) : Res :=
  .next (if s.dataPort n then s.setSched n ((s.sched n).refill (s.stagedOvh n)) else s)

/-- Whether a class's shaper lets a frame start. -/
def Sched.eligible (x : Sched) (c : Nat) : Bool := !(mget {} x.shp c).en || 0 ≤ mget 0 x.tokens c
/-- Starting a frame draws on the bucket of an enabled shaper. -/
def Sched.spend (x : Sched) (c len : Nat) : Sched :=
  if (mget {} x.shp c).en then
    { x with tokens := mset 0 x.tokens c (mget 0 x.tokens c - max 0 ((len : Int) + x.ovh) * 2025) }
  else x

/-! ## The next frame (R270, R275) -/

/-- Whether the present time lies in the last G of the entry in force; times in 1/100 ns. -/
def State.inGuard (s : State) (n : Nat) : Bool :=
  let x := s.sched n
  match x.start with
  | some t =>
    let stop : Int := match x.nextEntry with
      | some e => t + e.2.1
      | none => t + x.act.cycle
    let left := (stop - s.timeNs) * 100 - (s.time.sub * 100 / 2 ^ 32 : Nat)
    left ≤ (if s.halves n then 18472 else 9236)
  | none => false
/-- Mask of the entry that follows. -/
def Sched.nextMask (x : Sched) : Byte :=
  match x.nextEntry with
  | some e => e.2.2
  | none => (x.act.runs.headD (0, 0, 0xFF)).2.2
/-- Whether the guard band forbids a class now. -/
def State.guarded (s : State) (n c : Nat) : Bool :=
  let x := s.sched n
  s.fld bSCHED n 0x040 1 1 == 1 && x.active && x.going && s.inGuard n &&
    (List.range 8).any (fun h => c < h && x.nextMask.getLsbD h && !x.mask.getLsbD h)

/-- Whether a class may start a frame but for the guard band. -/
def State.openFor (s : State) (n c : Nat) : Bool :=
  let x := s.sched n
  (24 ≤ n || (x.mask.getLsbD c && x.eligible c)) && mget 0 (s.port n).paused c == 0

/-- The first frame of a class queued on a half. -/
def Port.head (x : Port) (half1 : Bool) (c : Nat) : Option TxFrame :=
  x.txq.find? (fun f => f.half1 == half1 && f.cls == c)

/-- The guard band's note of the frame that waits first in a class of a half. -/
def guardKey (half1 : Bool) (c : Nat) : Nat := c + 8 * half1.toNat

/-- Counts a frame the guard band defers, once. -/
def State.noteGuard (s : State) (n : Nat) (half1 : Bool) : State :=
  (List.range 8).foldl (fun s c =>
    if ((s.port n).head half1 c).isSome && s.openFor n c && s.guarded n c &&
        !(s.sched n).guarded.contains (guardKey half1 c) then
      (s.setSched n { s.sched n with guarded := (s.sched n).guarded ++ [guardKey half1 c] }).count bSCHED n 0xC00 1
    else s) s

/-- The frame that may start now: of the highest class that qualifies. -/
def State.pickFrame (s : State) (n : Nat) (half1 : Bool) : Option TxFrame :=
  [7, 6, 5, 4, 3, 2, 1, 0].findSome? (fun c =>
    if s.openFor n c && !(n < 24 && s.guarded n c) then (s.port n).head half1 c else none)

/-- The IP fields of a sent packet: ECT(0), 64 hops; IPv6 has the path label for its flow label (R284). -/
def ipOf (k : Pkt) : IpHdr :=
  let v4 := isV4 k.dst
  { v4 := v4, dscp := 8 * k.tc.toNat, ecn := 2, hops := 64, df := v4, flow := if v4 then 0 else k.udpSrc, summed := !v4 }

/-- A frame starts. -/
def State.startFrame (s : State) (n : Nat) (f : TxFrame) : State :=
  let x := s.port n
  let s1 := s.setPort n { x with txq := x.txq.erase f }
  let y := s1.sched n
  let s2 := if n < 24 then
      s1.setSched n { y.spend f.cls f.len with guarded := y.guarded.filter (· != guardKey f.half1 f.cls) }
    else s1
  let vid := if n < 24 then some (s.fld bPORT n 0x04C 0 12) else none
  let s3 := ((s2.count bPORT n 0xC08 1).count bPORT n 0xC18 f.len).emit (.frame n f.half1 f.cls vid f.len f.pkt (f.pkt.map (fun x => ipOf x.2)))
  match f.ptp with
  | some e => if e.2 < 8 then (s3.stampTx n f.half1 e).followUp n e else s3
  | none => s3

/-- The wire of a port or half is free: at most one frame starts, a pause frame first. -/
def State.wireFree (s : State) (n : Nat) (half1 : Bool) : State :=
  let x := s.port n
  match x.pauseOut with
  | (pfc, q) :: rest =>
    let mask : Byte := if pfc then BitVec.ofNat 8 (s.fld bPORT n 0x050 8 8) else 0xFF
    (((s.setPort n { x with pauseOut := rest }).count bPORT n 0xC90 1).count bPORT n 0xC08 1 |>.count bPORT n 0xC18 64).emit
      (.pause n pfc mask q)
  | [] =>
    let s1 := if n < 24 then s.noteGuard n half1 else s
    match s1.pickFrame n half1 with
    | some f => s1.startFrame n f
    | none => s1

def execFrameTransmit (n : Nat) (half1 : Bool) (s : State) : Res :=
  .next (if s.portOk n && s.halfUp n half1 then s.wireFree n half1 else s)

/-! ## Time steps (R263, R276) -/

/-- Network time after a signed step. -/
def NetTime.step (x : NetTime) (secs ns : Int) : NetTime :=
  let now : Int := (x.sec * 1000000000 + x.ns : Nat)
  let dest := (now + secs * 1000000000 + ns) % (2 ^ 48 * 1000000000 : Nat)
  { x with sec := (dest / 1000000000).toNat, ns := (dest % 1000000000).toNat }

/-- A step of network time, to every reader: gates are placed anew. -/
def State.timeStep (s : State) : State :=
  let a := (s.reg bPTP 0 0x050).toInt
  let b := (s.reg bPTP 0 0x054).toInt
  let s1 := { s with time := s.time.step a b }
  let s2 := (s1.count bPTP 0 0xC08 1).raise bPTP 0 2
  (List.range 24).foldl State.gatePlace s2

end Sys2Proof.Machine
end

