-- ==== Sys2Proof/Machine/Receive.lean ====
section
/-! DEFINITION. The receiving side of the transport (12_kvt_transport R290-R320, 13_remote_operations
R327-R338): header checks, the first-packet check, placement, hemming, grants, and the hem of each kind
of message. -/

namespace Sys2Proof.Machine

/-! ## Answers that are rate-limited -/

/-- 10 µs in alignment periods, rounded up. -/
def tenMicros : Nat := 1688

def State.updConn (s : State) (cid : Nat) (f : Conn → Conn) : State := s.setConn cid (f (s.conn cid))

/-- Runs an answer at most once per 10 µs for a connection (R304, R320, R397). -/
def State.limited (s : State) (cid : Nat) (f : State → State) : State :=
  let due : Bool := match (s.conn cid).nakAt with
    | some t => decide (t + tenMicros ≤ s.align)
    | none => true
  if due then f (s.updConn cid (fun c => { c with nakAt := some s.align })) else s

/-- Bytes a packet took of its port's pool. -/
def pktLen (op : Nat) (k : Pkt) : Nat := frameLen (isV4 k.src) (k.flags.getLsbD 5) (opExt op) k.payload.length

/-! ## Header and phase (R290, R431) -/

/-- Packets that carry message data, whose offsets R290 checks. -/
def isData (op : Nat) : Bool := (1 ≤ op && op ≤ 8) || op == 0x20 || op == 0x21

/-- Whether a small write breaks R315. -/
def smallBad (op : Nat) (k : Pkt) : Bool :=
  let fits := (op == 1 || op == 2) && smallWrite k.rva.toNat k.length.toNat
  k.flags.getLsbD 2 && !(fits && k.offset == 0 && k.flags.getLsbD 1)

/-- Whether a packet's header breaks R290. -/
def headerBad (c : Conn) (op : Nat) (k : Pkt) : Bool :=
  let n := k.payload.length
  k.version != 1 || !opKnown op || (isData op && (
    k.length.toNat < k.offset.toNat + n || k.offset.toNat % c.mtu != 0 ||
    (n != c.mtu && !k.flags.getLsbD 1) || smallBad op k ||
    (opUnsol op && (k.length.toNat < k.op28.toNat || 65536 < k.op28.toNat ||
      c.rxq.any (fun m => m.msgId == k.msgId && m.unsol != k.op28.toNat)))))

/-- A packet that fails R290. -/
def State.badHeader (s : State) (i : Nat) : State := (s.count bKVT i 0xC48 1).raise bKVT i 2

/-- How a packet's protection comes out: verified, failed, or of a phase no key serves. -/
inductive Verify where
  | good (epoch : Nat)
  | failed (epoch : Nat)
  | phase
  deriving DecidableEq, Repr

/-- The epoch a packet's KEY_PHASE selects, and whether its tag verifies (R431). -/
def verify (c : Conn) (k : Pkt) : Verify :=
  if !c.enc then (if k.trailerOk && !k.flags.getLsbD 5 then .good 0 else .failed 0)
  else if !k.flags.getLsbD 5 then .failed c.rxEpoch
  else
    let e := c.rxEpoch
    let ph := k.keyPhase.toNat
    let use (x : Nat) : Verify := if k.trailerOk then .good x else .failed x
    if ph = e % 4 then use e
    else if ph = (e + 1) % 4 then use (e + 1)
    else if c.rxPrev && ph = (e + 3) % 4 then use (e - 1)
    else .phase

/-- The limit of tag failures under one key (R431, R443). -/
def State.failLimit (s : State) : Nat := 2 ^ s.fld bCIPH 0 0x040 8 6

/-- A trailer failed: counted, and on an encrypted connection toward the limit of the key it was checked with. -/
def State.trailerFail (s : State) (cid epoch : Nat) : State :=
  let c := s.conn cid
  let i := kvtInst c
  if !c.enc then s.count bKVT i 0xC38 1
  else
    let n := mget 0 c.tagFails epoch + 1
    let s1 := ((s.count bKVT i 0xC40 1).raise bKVT i 3 (BitVec.ofNat 32 cid)).setConn cid
      { c with tagFails := mset 0 c.tagFails epoch n }
    if s.failLimit ≤ n then s1.connError cid 0x0007 else s1

/-- A packet verified under an epoch: a new one becomes the highest, and the key before the last goes (R431). -/
def Conn.sawEpoch (c : Conn) (e : Nat) : Conn :=
  if c.enc && e = c.rxEpoch + 1 then
    { c with rxEpoch := e, rxPrev := true, tagFails := c.tagFails.filter (fun x => e ≤ x.1 + 1) }
  else c
/-- The first packet verified under the highest epoch has the next key derived (R431). -/
def State.rxKeyDue (s : State) (cid : Nat) : State :=
  let c := s.conn cid
  if c.enc && c.rxAsked ≤ c.rxEpoch then (s.setConn cid { c with rxAsked := c.rxEpoch + 1 }).askKey cid false else s

/-! ## Windows (R337, R372) -/

/-- The right of Table 13-1 a message of an opcode needs: bit 0 read, 1 write, 2 atomic, 3 reduce. -/
def winRight (op : Nat) : Nat := match op with | 3 => 0 | 6 => 2 | 8 => 3 | _ => 1
/-- Whether an opcode names a window. -/
def opWindow (op : Nat) : Bool := op == 1 || op == 2 || op == 3 || op == 6 || op == 8

/-- Whether an index lies in a partition's range (R335). -/
def State.winOwned (s : State) (p i : Nat) : Bool :=
  let lo := s.fld bPART p 0x06C 0 24
  lo ≤ i && i < lo + s.fld bPART p 0x070 0 25

/-- Table 13-5: the NAK of the first check that fails, or 0. -/
def State.winCheck (s : State) (p op : Nat) (key : W32) (va len : Nat) : Nat :=
  let i := key.toNat / 256
  let w := s.window i
  if !w.ever || !s.winOwned p i then 0x03
  else if !w.open_ || w.gen != key.setWidth 8 then 0x04
  else if !w.rights.getLsbD (winRight op) then 0x03
  else if va < w.base then 0x03
  else if w.base + w.len < va + len then 0x02
  else 0

/-- Whether a key is the partition's doorbell window (R372). -/
def State.isDbKey (s : State) (p : Nat) (key : W32) : Bool :=
  key != 0 && s.reg bPART p 0x07C == key

/-- The check of a message through the doorbell window: NAK or 0. -/
def State.dbCheck (s : State) (p op va len : Nat) : Nat :=
  if !(s.part p).dbLive then 0x04
  else if op != 1 then 0x03
  else if len != 8 then 0x02
  else if va % 8 != 0 || 0x7FF8 < va then 0x03
  else 0

/-! ## Receive state of a message -/

/-- Offset bytes of a message received and verified, of which `fresh` beyond a bound. -/
def RxMsg.bytesOf (m : RxMsg) (mtu off : Nat) : Nat := min mtu (m.len - off)
/-- Bytes granted and not yet arrived (R307). -/
def RxMsg.pendingGrant (m : RxMsg) (mtu : Nat) : Nat :=
  let came := m.got.foldl (fun n off => n + (off + m.bytesOf mtu off - max off m.unsol)) 0
  (m.granted - m.unsol) - came

/-- Whether every packet of a message has been received and verified. -/
def RxMsg.complete (m : RxMsg) (mtu : Nat) : Bool := msgPkts m.op m.len mtu ≤ m.got.length

/-- Changes the receive state of one message. -/
def State.updMsg (s : State) (cid : Nat) (id : BitVec 16) (f : RxMsg → RxMsg) : State :=
  s.updConn cid (fun c => { c with rxq := c.rxq.map (fun m => if m.msgId = id then f m else m) })

/-- Frees the pool space of a message's held packets. -/
def State.msgPool (s : State) (m : RxMsg) : State := m.pool.foldl (fun s x => s.poolFree x.1 x.2) s

/-- E passes every PSN received contiguously (R301). -/
def advanceE : Nat → Nat → List Nat → Nat × List Nat
  | 0, e, got => (e, got)
  | n + 1, e, got =>
    if got.contains e then advanceE n (psnAdd e 1) (got.filter (· != e)) else (e, got)
def Conn.advance (c : Conn) : Conn :=
  let r := advanceE c.got.length c.e c.got
  { c with e := r.1, got := r.2 }

/-- Every PSN of a message counts as received (R304). -/
def Conn.countAll (c : Conn) (m : RxMsg) : Conn :=
  let ps := (List.range (msgPkts m.op m.len c.mtu)).map (fun i => psnAdd m.firstPsn i)
  { c with got := c.got ++ ps.filter (fun p => psnDiff p c.e < 2 ^ 23 && !c.got.contains p) }

/-- A message being received is ended with a NAK: abandoned, its PSNs count as received. -/
def State.endMsg (s : State) (cid reason : Nat) (m : RxMsg) : State :=
  let s1 := s.abandonRx cid m
  let dead := { m with ended := true, held := [], pool := [], runs := [], got := [], dirty := [] }
  let s2 := s1.updConn cid (fun c =>
    let l := if c.rxq.any (fun x => x.msgId == m.msgId)
      then c.rxq.map (fun x => if x.msgId = m.msgId then dead else x) else c.rxq ++ [dead]
    let c1 := { c with rxq := l }
    (c1.countAll m).advance)
  s2.sendNak cid reason m.firstPsn m.msgId

/-! ## Placement (R311) -/

/-- Places bytes of a message at an offset of its target. -/
def State.place_ (s : State) (cid : Nat) (m : RxMsg) (off : Nat) (bs : List Byte) (basted : Bool) :
    State × VRes × List (Nat × Nat) :=
  let c := s.conn cid
  s.vwrite c.home c.part accW dataOk (if basted then some (bastOwner cid m.msgId) else none)
    (runsOf bs.length) (m.rva.toNat + off) bs m.runs [] 0

/-- The NAK that answers a status of a target access. -/
def nakOf (st : Nat) : Nat := match st with | 6 => 0x07 | 8 => 0x08 | _ => 0x03

/-- Places a packet as it arrives; a failing write ends the message. Its translation is held already. -/
def State.placeNow (s : State) (cid : Nat) (id : BitVec 16) (off : Nat) (bs : List Byte) : State :=
  match (s.conn cid).rxq.find? (fun m => m.msgId == id) with
  | none => s
  | some m =>
    if bs.isEmpty then s
    else
      match s.place_ cid m off bs true with
      | (s1, .ok _ hs, d) => s1.updMsg cid id (fun x => { x with runs := hs, dirty := x.dirty ++ d })
      | (s1, .stat st _, d) => s1.endMsg cid (nakOf st) { m with dirty := m.dirty ++ d }
      | (s1, .fault _ _, d) => s1.endMsg cid 0x06 { m with dirty := m.dirty ++ d }

/-- Whether a message's payload is placed as it arrives. -/
def RxMsg.direct (m : RxMsg) : Bool :=
  !m.small && m.db.isNone && (m.op == 1 || m.op == 2 || m.op == 4 || (m.op == 5 && m.recv.isSome))

/-! ## First-packet checks (R310) -/

/-- Access a message makes to its target. -/
def rxAcc (op : Nat) : Nat := match op with | 3 => accR | 6 => accAT | 8 => accRD | _ => accW

/-- Checks of a message's own fields: NAK or 0. An edge connection carries only collective messages (R348). -/
def State.fieldCheck (s : State) (c : Conn) (op : Nat) (k : Pkt) : Nat :=
  let imm := k.imm.toNat
  if c.edge.isSome && op != 0x20 && op != 0x21 then 0x03
  else match op with
  | 6 =>
    let o := imm % 16
    if !(o = 1 || o = 2) then 0x03
    else if k.length.toNat != 8 * o then 0x02
    else if k.rva.toNat % 8 != 0 then 0x03
    else 0
  | 8 => if 2 < imm % 16 || 5 < imm / 16 % 16 then 0x03
      else if k.length.toNat % unitBytes (imm / 16 % 16) != 0 then 0x02
      else 0
  | 4 => if c.awaits.any (fun a => a.op == 3 && a.msgId == k.op24.extractLsb' 16 16 && a.len == k.length.toNat) then 0 else 0x03
  | 7 => if c.awaits.any (fun a => a.op == 6 && a.msgId == k.op24.extractLsb' 16 16) && k.length = 8 then 0 else 0x03
  | 0x20 => if (c.edge.bind (fun h => edgeIdx (s.coll h).d k.cid.toNat)).isSome then 0 else 0x03
  | 0x21 => if (c.edge.bind (fun h => edgeIdx (s.coll h).d k.cid.toNat)).isSome then 0 else 0x03
  | _ => 0

/-- The receive state a first packet begins. -/
def newMsg (c : Conn) (op : Nat) (k : Pkt) : RxMsg :=
  { op := op, msgId := k.msgId, len := k.length.toNat
    firstPsn := psnAdd k.psn.toNat (2 ^ 24 - (k.offset.toNat / c.mtu) % 2 ^ 24)
    rva := k.rva, key := k.key, imm := k.imm, fence := k.flags.getLsbD 3 || op == 0x32
    small := k.flags.getLsbD 2
    unsol := if opUnsol op then k.op28.toNat else k.length.toNat
    granted := if opUnsol op then k.op28.toNat else k.length.toNat
    grantSent := if opUnsol op then k.op28.toNat else k.length.toNat
    arrived := 0, got := [], held := [], recv := none, win := none
    ofMsg := k.op24.extractLsb' 16 16, db := none }

/-- How a first packet's checks end: the message, a NAK that ends it, or a fault that parks. -/
inductive First where
  | ok (m : RxMsg)
  | nak (reason : Nat)
  | fault (f : Flt)
  deriving DecidableEq, Repr

/-- Whether the runs of a target suit the opcode (R330, R332, Table 1-8). -/
def targetOk (op : Nat) (l : List Held) : Bool :=
  l.all (fun r => if op = 6 || op = 8 then inDram r.pa else dataOk r.pa)

/-- Checks, in order: the message's fields, its window, its translation. -/
def State.firstCheck (s : State) (cid op : Nat) (k : Pkt) : State × First :=
  let c := s.conn cid
  let m := newMsg c op k
  let p := c.part
  let f := s.fieldCheck c op k
  if f != 0 then (s, .nak f)
  else if opWindow op && s.isDbKey p k.key then
    let r := s.dbCheck p op k.rva.toNat k.length.toNat
    if r != 0 then (s, .nak r) else (s, .ok { m with db := some (k.rva.toNat / 8) })
  else
    let r := if opWindow op then s.winCheck p op k.key k.rva.toNat k.length.toNat else 0
    if r != 0 then (s, .nak r)
    else
      let aw := c.awaits.find? (fun a => a.msgId == m.ofMsg && (a.op == 3) == (op == 4))
      let va := if op = 4 || op = 7 then (aw.map (fun a => a.lva)).getD 0 else k.rva.toNat
      let n := if op = 6 then 8 else m.len
      let held := if op = 4 || op = 7 then (aw.map (fun a => a.runs)).getD [] else []
      if !(opWindow op || op = 4 || op = 7) then (s, .ok m)
      else
        match s.vhold c.home p (rxAcc op) (runsOf n) va n held with
        | (s1, .inl f) => (s1, .fault f)
        | (s1, .inr hs) =>
          if n != 0 && !targetOk op hs then (s1, .nak 0x03)
          else (s1, .ok { m with rva := BitVec.ofNat 64 va, runs := hs, epoch := (s1.part p).epoch
                                 win := if opWindow op then some (k.key.toNat / 256) else none })

/-! ## Receives (R328) -/

/-- Places the held packets of a SEND once its receive is translated. -/
def State.placeHeld (s : State) (cid : Nat) (id : BitVec 16) : State :=
  match (s.conn cid).rxq.find? (fun m => m.msgId == id) with
  | none => s
  | some m =>
    let s1 := (s.msgPool m).updMsg cid id (fun x => { x with held := [], pool := [] })
    m.held.foldl (fun s h => s.placeNow cid id h.1 h.2) s1

/-- A SEND or WRITE_IMM that finds no receive is not received: it will be sent again (NAK 0x05). -/
def State.noReceive (s : State) (cid : Nat) (m : RxMsg) : State :=
  let s1 := s.abandonRx cid m
  let ps := (List.range (msgPkts m.op m.len (s.conn cid).mtu)).map (fun i => psnAdd m.firstPsn i)
  (s1.updConn cid (fun c => { c with
    rxq := c.rxq.filter (fun x => x.msgId != m.msgId), got := c.got.filter (fun p => !ps.contains p)
    solicits := c.solicits.filter (fun p => !ps.contains p) })).sendNak cid 0x05 m.firstPsn m.msgId

/-- Gives receives to messages in MSG_ID order, while a packet of every earlier one has been seen. -/
def State.assign (s : State) (cid : Nat) : Nat → BitVec 16 → State
  | 0, _ => s
  | n + 1, id =>
    let c := s.conn cid
    match c.rxq.find? (fun m => m.msgId == id) with
    | none => s
    | some m =>
      if !(m.op = 5 || m.op = 2) || m.ended || m.recv.isSome || m.db.isSome then s.assign cid n (id + 1)
      else
        match c.recvs with
        | [] => s.noReceive cid m
        | r :: rs =>
          if m.op = 5 && r.d.len.toNat < m.len then (s.endMsg cid 0x02 m).assign cid n (id + 1)
          else if m.op = 2 then
            ((s.setConn cid { c with recvs := rs }).updMsg cid id (fun x => { x with recv := some r })).assign cid n (id + 1)
          else
            match s.vhold c.home c.part accW (runsOf m.len) r.d.lva.toNat m.len [] with
            | (s1, .inl f) =>
              (s1.updConn cid (fun c => { c with parkMsg := some m })).fault c.home c.part f (.conn cid)
            | (s1, .inr hs) =>
              if m.len != 0 && !hs.all (fun r => dataOk r.pa) then (s1.endMsg cid 0x03 m).assign cid n (id + 1)
              else
                let s2 := (s1.updConn cid (fun c => { c with recvs := rs })).updMsg cid id (fun x => { x with
                  recv := some r, rva := r.d.lva, runs := hs, epoch := (s1.part c.part).epoch })
                (s2.placeHeld cid id).assign cid n (id + 1)

/-- Messages the receiver knows of. -/
def State.assignAll (s : State) (cid : Nat) : State :=
  let c := s.conn cid
  s.assign cid (c.rxq.length + 1) c.hemNext

/-! ## The hem (R312-R314) -/

/-- The steps of a consuming message's hem: record, tally, completion; false: the record's write parked
the receive's queue. -/
def State.recvDone (s : State) (m : RxMsg) (r : Recv) : State × Bool :=
  let a := r.d.rva.toNat
  let bs := leBytes 4 m.len ++ leBytes 4 (if m.op = 2 then m.imm.toNat else 0) ++
    [BitVec.ofNat 8 m.op] ++ List.replicate 7 0
  let fin (s : State) (st : Nat) : State × Bool := ((s.incTally r.p r.d.tally).complete r.p r.q r.idx st, true)
  if a = 0 then fin s 0
  else
    match s.vput false r.p a bs [] with
    | (s1, .ok _ _) => fin s1 0
    | (s1, .stat st _) => fin s1 st
    | (s1, .fault f _) => (s1.fault false r.p f (.queue r.p r.q r.idx), false)

/-- Whether the receive's own entry is still to complete. -/
def State.recvOpen (s : State) (r : Recv) : Bool :=
  (s.queue r.p r.q).entries.any (fun e => e.idx == r.idx && e.done.isNone)

/-- One indivisible read-modify-write of an atomic (R330); answers the old value or a status. -/
def State.atomicApply (s : State) (cid : Nat) (m : RxMsg) : State × (Nat ⊕ W64) :=
  let c := s.conn cid
  match m.runs.find? (fun r => r.covers m.rva.toNat) with
  | none => (s, .inl 3)
  | some r =>
    let pa := r.at_ m.rva.toNat
    match s.dramRead c.part r.ksel pa 8 with
    | (s1, 0, bs) =>
      let old := leNat bs
      let args := (m.held.headD (0, [])).2
      let a := beNat (args.take 8)
      let new := if m.imm.toNat % 16 = 1 then (old + a) % 2 ^ 64
        else if old = a then beNat ((args.drop 8).take 8) else old
      match s1.dramWrite c.part r.ksel pa (leBytes 8 new) with
      | (s2, 0) => ((r.logged pa 8).foldl (fun s x => s.dirtyRange c.part x) s2, .inr (BitVec.ofNat 64 old))
      | (s2, st) => (s2, .inl st)
    | (s1, st, _) => (s1, .inl st)

/-- Contiguous payload of a REDUCE from its start. -/
def contiguous (l : List (Nat × List Byte)) : Nat → Nat → List Byte
  | 0, _ => []
  | n + 1, at_ =>
    match l.find? (fun x => x.1 == at_) with
    | some x => if x.2.isEmpty then [] else x.2 ++ contiguous l n (at_ + x.2.length)
    | none => []

/-- Combines what of a REDUCE is next in sequence, whole units only (R332); a failing access ends it. -/
def State.reduceApply (s : State) (cid : Nat) (m : RxMsg) : State :=
  let c := s.conn cid
  let ty := m.imm.toNat / 16 % 16
  let u := unitBytes ty
  let all := contiguous m.held (m.held.length + 1) 0
  let n := (all.length / u * u) - m.applied
  if n = 0 then s
  else
    let new := (all.drop m.applied).take n
    let va := m.rva.toNat + m.applied
    match s.vget c.home c.part accRD va n m.runs with
    | (s1, .ok old hs) =>
      let r := s1.vwrite c.home c.part accRD inDram none (runsOf n) va (reduceBytes ty (m.imm.toNat % 16) old new) hs [] 0
      match r.2.1 with
      | .ok _ _ => r.1.updMsg cid m.msgId (fun x => { x with applied := m.applied + n, dirty := x.dirty ++ r.2.2 })
      | .stat st _ => r.1.endMsg cid (nakOf st) { m with dirty := m.dirty ++ r.2.2 }
      | .fault _ _ => r.1.endMsg cid 0x06 m
    | (s1, .stat st _) => s1.endMsg cid (nakOf st) m
    | (s1, .fault _ _) => s1.endMsg cid 0x06 m

/-- The answer of a target: a READ_RESP or ATOMIC_RESP in its own direction. -/
def respMsg (org : Origin) (op len : Nat) (m : RxMsg) (data : List Byte) : TxMsg :=
  { org := org, op := op, msgId := 0, len := len, lva := 0, rva := m.rva, key := 0, imm := 0, fence := false
    small := false, data := data, first := none, sent := 0, unsol := 0, granted := 0, d := {}
    win := m.win, runs := m.runs }

/-- Whether a doorbell for a queue is discarded (R372, R404). -/
def State.bellLost (s : State) (p q : Nat) : Bool :=
  let x := s.queue p q
  let l := (s.part p).lstate
  !x.used || x.qstate = 5 || (p != 0 && !(l = .active || l = .freezing || l = .frozen || l = .restoring))
/-- A doorbell hems: its queue's pending mark is set, or it is discarded and counted (R372, R373). -/
def State.bell (s : State) (p q : Nat) : State :=
  if s.bellLost p q then s.count bPART p 0xC08 1
  else s.updQueue p q (fun x => { x with pend := true })

/-- Marks the logged pages of a message at its hem (R314), and settles its bytes. -/
def State.settleMsg (s : State) (cid : Nat) (m : RxMsg) : State :=
  let p := (s.conn cid).part
  m.dirty.foldl (fun s x => s.dirtyRange p x) (s.unbast (bastOwner cid m.msgId))

/-- The message at the head of the order is done with: later ones may hem. -/
def State.hemmed (s : State) (cid : Nat) (m : RxMsg) : State :=
  (s.msgPool m).updConn cid (fun c => { c with
    hemNext := m.msgId + 1, rxq := c.rxq.filter (fun x => x.msgId != m.msgId) })

/-- A request of this module is answered: it leaves the list of those awaited. -/
def State.answered (s : State) (cid : Nat) (a : Await) (st : Nat) : State :=
  (s.updConn cid (fun c => { c with awaits := c.awaits.filter (fun x => x.msgId != a.msgId) })).finishOrg a.org a.d true st

/-- The context of a closed connection is freed; a CONN_CLOSE that waits for it gets its final reply. -/
def State.connFree (s : State) (cid : Nat) : State :=
  let c := s.conn cid
  let s1 := (s.cacheDrop cid).setConn cid {}
  match c.cmd with
  | some x => s1.finish x 0
  | none => s1

/-- Small writes and the consuming step of WRITE and WRITE_IMM. -/
def State.hemWrite (s : State) (cid : Nat) (m : RxMsg) : State :=
  let p := (s.conn cid).part
  match m.db with
  | some q => s.bell p q
  | none =>
    if m.small then
      let r := s.place_ cid m 0 (m.held.headD (0, [])).2 false
      r.2.2.foldl (fun s x => s.dirtyRange p x) r.1
    else s.settleMsg cid m

/-- The hem of one complete message: the state, and whether it hemmed or has to wait. -/
def State.hemOne (s : State) (cid : Nat) (m : RxMsg) : State × Bool :=
  let c := s.conn cid
  match m.op with
  | 1 => ((s.hemWrite cid m).hemmed cid m, true)
  | 2 =>
    match m.recv with
    | none => (s, false)
    | some r =>
      if !s.recvOpen r then ((s.hemWrite cid m).hemmed cid m, true)
      else
        let x := s.recvDone m r
        if x.2 then ((x.1.hemWrite cid m).hemmed cid m, true) else (x.1, false)
  | 5 =>
    match m.recv with
    | none => (s, false)
    | some r =>
      if !s.recvOpen r then ((s.settleMsg cid m).hemmed cid m, true)
      else
        let x := s.recvDone m r
        if x.2 then ((x.1.settleMsg cid m).hemmed cid m, true) else (x.1, false)
  | 3 => ((s.hemmed cid m).connPush cid (respMsg (.readResp m.msgId) 0x04 m.len m []), true)
  | 4 =>
    let s1 := (s.settleMsg cid m).hemmed cid m
    match c.awaits.find? (fun a => a.msgId == m.ofMsg && a.op == 3) with
    | some a => (s1.answered cid a 0, true)
    | none => (s1, true)
  | 6 =>
    match s.atomicApply cid m with
    | (s1, .inl st) =>
      ((s1.sendNak cid (nakOf st) m.firstPsn m.msgId).hemmed cid m, true)
    | (s1, .inr v) =>
      ((s1.hemmed cid m).connPush cid (respMsg (.atomicResp m.msgId v) 0x07 8 m (beBytes 8 v.toNat)), true)
  | 7 =>
    let bs := (m.held.headD (0, [])).2
    match c.awaits.find? (fun a => a.msgId == m.ofMsg && a.op == 6) with
    | some a =>
      let r := s.vwrite c.home c.part accW dataOk none (runsOf 8) a.lva bs.reverse m.runs [] 0
      let s1 := r.2.2.foldl (fun s x => s.dirtyRange c.part x) r.1
      let st := match r.2.1 with | .ok _ _ => 0 | .stat st _ => st | .fault _ _ => 5
      ((s1.hemmed cid m).answered cid a st, true)
    | none => (s.hemmed cid m, true)
  | 8 => ((s.settleMsg cid m).hemmed cid m, true)
  | 0x32 => (((s.hemmed cid m).sendAck cid).connFree cid, true)
  | op =>
    let h := c.edge.getD 0
    let bytes := contiguous m.held (m.held.length + 1) 0
    let chunk := beNat ((bytes.drop 8).take 4)
    if s.slotBusy h cid op chunk then (s, false)
    else ((s.hemmed cid m).collHem cid op bytes, true)

/-- Hems what may hem, in MSG_ID order; `n` bounds the messages. -/
def State.hemLoop (s : State) (cid : Nat) : Nat → State
  | 0 => s
  | n + 1 =>
    let c := s.conn cid
    match c.rxq.find? (fun m => m.msgId == c.hemNext) with
    | none => s
    | some m =>
      if m.ended then (s.hemmed cid m).hemLoop cid n
      else
        let s1 := if m.op = 8 then s.reduceApply cid m else s
        match (s1.conn cid).rxq.find? (fun x => x.msgId == m.msgId) with
        | none => s1
        | some y =>
          if y.ended then s1.hemLoop cid (n)
          else if !y.complete c.mtu || (s1.conn cid).parked then s1
          else
            let r := s1.hemOne cid y
            if r.2 then r.1.hemLoop cid n else r.1
def State.hemAll (s : State) (cid : Nat) : State := s.hemLoop cid (2 * (s.conn cid).rxq.length + 1)

/-! ## Acknowledgement (R302) -/

/-- Sends the ACK that is due: the count is reached, or E passed a solicited packet not yet covered. -/
def State.ackDue (s : State) (cid : Nat) : State :=
  let c := s.conn cid
  let lim := c.ackLimit
  if c.state = .free || c.state = .error then s
  else if s.fld bKVT 0 0x044 0 4 ≤ c.accepted || c.solicits.any (ackCovers lim) then s.sendAck cid
  else s

/-! ## Grants (R307) -/

/-- The module's grant budget B. -/
def State.grantBudget (s : State) : Int :=
  let reserve := s.fld bKVT 0 0x054 0 12 * 1024
  let pools := (List.range 24).foldl (fun (b : Int) n =>
    if s.portUp n then b + (poolSize n : Int) - (s.headroom n + reserve + (s.port n).pool : Nat) else b) 0
  let due : Nat := s.conns.foldl (fun n x => x.2.rxq.foldl (fun n m => n + if m.ended then 0 else m.pendingGrant x.2.mtu) n) 0
  pools - due

/-- The first message of a connection that may be granted a unit: demand left, and for a collective
chunk its slot free (R355). -/
def State.grantMsg (s : State) (cid : Nat) : Option RxMsg :=
  let c := s.conn cid
  if c.parked || !(c.state = .open_ || c.state = .closing) then none
  else
    let out := c.rxq.foldl (fun n m => n + if m.ended then 0 else m.pendingGrant c.mtu) 0
    if c.wc < out + 4096 then none
    else c.rxq.find? (fun m => !m.ended && m.granted < m.len &&
      !((m.op = 0x20 || m.op = 0x21) && s.slotBusy (c.edge.getD 0) cid m.op
        (beNat (((m.held.find? (fun h => h.1 == 0)).elim [] (fun h => h.2)).drop 8 |>.take 4))))

/-- The connection whose turn it is: highest class first, round robin within a class. -/
def State.grantNext (s : State) (fd1 : Bool) : Option (Nat × RxMsg) :=
  let l := s.conns.filterMap (fun x =>
    if x.2.home = fd1 && (s.grantMsg x.1).isSome then some { cls := 7 - x.2.cls, src := x.1 : Request } else none)
  (grantTurn (fun k => mget 0 (s.kvtDie fd1).rr (7 - k)) l).bind (fun r => (s.grantMsg r.src).map (fun m => (r.src, m)))

/-- Grants units while the budget lasts; `n` bounds them. -/
def State.grantLoop (s : State) (fd1 : Bool) : Nat → State
  | 0 => s
  | n + 1 =>
    if s.grantBudget < 4096 then s
    else
      match s.grantNext fd1 with
      | none => s
      | some (cid, m) =>
        let s1 := s.updMsg cid m.msgId (fun x => { x with granted := min x.len (x.granted + 4096) })
        ((s1.count bKVT (dieInst fd1) 0xC50 1).setKvtDie fd1 { s1.kvtDie fd1 with rr := mset 0 (s1.kvtDie fd1).rr (s.conn cid).cls cid }).grantLoop fd1 n

/-- Sends the grants of a connection whose unsent units total at least a bound. -/
def State.grantOut (s : State) (cid bound : Nat) : State :=
  ((s.conn cid).rxq.filter (fun m => !m.ended && m.grantSent < m.granted && (bound ≤ m.granted - m.grantSent))).foldl
    (fun s m => s.sendGrant cid m) s

/-- The grant scheduler of a die runs. -/
def State.grants (s : State) (fd1 : Bool) : State :=
  let s1 := s.grantLoop fd1 8192
  (s1.conns.map Prod.fst).foldl (fun s cid => if (s.conn cid).home = fd1 then s.grantOut cid 16384 else s) s1

/-! ## Data packets (R301, R310, R311) -/

/-- How far the run that a COLL packet names lies ahead of the present or latest one, modulo 2^32; without a
header in the packet, the present run, or the next where there is none. -/
def State.collAhead (s : State) (c : Conn) (op : Nat) (k : Pkt) : Nat :=
  match if op = 0x20 || op = 0x21 then c.edge else none with
  | none => 0
  | some h =>
    let g := s.coll h
    let now := (g.run.map (fun r => r.number)).getD g.number
    if k.offset = 0 then (beNat ((k.payload.drop 4).take 4) + 2 ^ 32 - now) % 2 ^ 32 else if g.run.isNone then 1 else 0
/-- Whether a COLL message names a run not yet started here (R356). -/
def State.collEarly (s : State) (c : Conn) (op : Nat) (k : Pkt) : Bool :=
  0 < s.collAhead c op k && s.collAhead c op k < 2 ^ 31
/-- Whether it names a run already completed here (R356). -/
def State.collOver (s : State) (c : Conn) (op : Nat) (k : Pkt) : Bool :=
  2 ^ 31 ≤ s.collAhead c op k || match if op = 0x20 || op = 0x21 then c.edge else none with
    | some h => s.collAhead c op k == 0 && (s.coll h).run.isNone
    | none => false

/-- NAK 0x09 to a packet that a parked or frozen receive side does not accept. -/
def State.nakParked (s : State) (cid : Nat) (k : Pkt) : State :=
  s.limited cid (fun s => s.sendNak cid 0x09 k.psn.toNat k.msgId)

/-- NAK 0x09 to a message of a run not yet started, counted on the group's home die (R356, R364). -/
def State.nakEarly (s : State) (cid : Nat) (k : Pkt) : State :=
  let home := ((s.conn cid).edge.map (fun h => (s.coll h).d.home)).getD false
  s.limited cid (fun s => (s.sendNak cid 0x09 k.psn.toNat k.msgId).count bCOLL (dieInst home) 0xC28 1)

/-- A verified data packet joins its message. -/
def State.acceptPkt (s : State) (cid op : Nat) (k : Pkt) (id : BitVec 16) : State :=
  let i := kvtInst (s.conn cid)
  let n := k.payload.length
  let s3 := (s.count bKVT i 0xC08 1).updConn cid (fun c => { c with
    accepted := c.accepted + 1, ce := if k.ce then c.ce ++ [k.psn.toNat] else c.ce
    got := c.got ++ [k.psn.toNat], solicits := if k.flags.getLsbD 4 then c.solicits ++ [k.psn.toNat] else c.solicits })
  match (s3.conn cid).rxq.find? (fun m => m.msgId == id) with
  | none => s3
  | some m =>
    let s4 := s3.updMsg cid id (fun x => { x with got := x.got ++ [k.offset.toNat], arrived := x.arrived + n })
    if m.ended || n = 0 then s4
    else if m.direct then s4.placeNow cid id k.offset.toNat k.payload
    else
      let len := pktLen op k
      (s4.updMsg cid id (fun x => { x with
        held := x.held ++ [(k.offset.toNat, k.payload)], pool := x.pool ++ [(k.port, len)] })).poolRaw k.port
          ((s4.port k.port).pool + len)

/-- What follows an accepted packet: receives, E, hems, grants, the ACK. -/
def State.afterPkt (s : State) (cid : Nat) : State :=
  let fd := (s.conn cid).home
  let s1 := s.assignAll cid
  let s2 := (s1.updConn cid Conn.advance).hemAll cid
  (s2.grants fd).ackDue cid

/-- Bytes of a packet whose check fails later: on a connection without encryption they are placed all the same,
and stay basted, where R301 takes the PSN and no verified packet has written; of a message not yet known, once
its first-packet checks pass (R310, R311). The packet counts as never received. -/
def State.placeFailed (s : State) (cid op : Nat) (k : Pkt) : State :=
  let c := s.conn cid
  let taken := decide (psnDiff k.psn.toNat c.e < 256) && !c.got.contains k.psn.toNat && !c.parked && !s.collEarly c op k
  if c.enc || !taken then s
  else
    match c.rxq.find? (fun m => m.msgId == k.msgId) with
    | some m => if m.direct && !m.ended && !m.got.contains k.offset.toNat then
        s.placeNow cid k.msgId k.offset.toNat k.payload else s
    | none =>
      match s.firstCheck cid op k with
      | (s1, .ok m) =>
        if m.direct && !k.payload.isEmpty then (s1.place_ cid m k.offset.toNat k.payload true).1 else s1
      | _ => s

/-- A data packet whose header and trailer are good. -/
def State.rxData (s : State) (cid op : Nat) (k : Pkt) : State :=
  let c := s.conn cid
  let psn := k.psn.toNat
  let d := psnDiff psn c.e
  if c.parked then s.nakParked cid k
  else if 2 ^ 23 ≤ d || c.got.contains psn then s.sendAck cid
  else if s.collEarly c op k then s.nakEarly cid k
  else if s.collOver c op k then s.sendAck cid
  else if 256 ≤ d then s
  else
    match c.rxq.find? (fun m => m.msgId == k.msgId) with
    | some m =>
      if opUnsol op && !m.ended && m.granted < k.offset.toNat + k.payload.length then s.count bKVT (kvtInst c) 0xC70 1
      else (s.acceptPkt cid op k k.msgId).afterPkt cid
    | none =>
      if opUnsol op && k.op28.toNat < k.offset.toNat + k.payload.length then s.count bKVT (kvtInst c) 0xC70 1
      else
        match s.firstCheck cid op k with
        | (s1, .nak r) => ((s1.endMsg cid r (newMsg c op k)).hemAll cid).ackDue cid
        | (s1, .fault f) =>
          ((s1.updConn cid (fun c => { c with parkMsg := some (newMsg c op k) })).fault c.home c.part f (.conn cid)).nakParked cid k
        | (s1, .ok m) =>
          ((s1.updConn cid (fun c => { c with rxq := c.rxq ++ [m] })).acceptPkt cid op k k.msgId).afterPkt cid

end Sys2Proof.Machine
end

