-- ==== Sys2Proof/Machine/Consume.lean ====
section
/-! DEFINITION. Descriptors and their consumption (13_remote_operations R324-R343, 15_queues_and_notifications
R365-R379): the start of each operation, passes over a ring, shutting down, and the rows of descriptors
and queues. -/

namespace Sys2Proof.Machine

/-! ## Descriptors (Table 15-4) -/

/-- A little-endian field of a list of bytes. -/
def field (bs : List Byte) (lo n : Nat) : Nat := leNat ((bs.drop lo).take n)

/-- Opcode and fields of 64 bytes. -/
def parseDesc (bs : List Byte) : Nat × Desc :=
  (field bs 0 1,
   { flags := BitVec.ofNat 8 (field bs 1 1), len := BitVec.ofNat 32 (field bs 4 4)
     lva := BitVec.ofNat 64 (field bs 8 8), rva := BitVec.ofNat 64 (field bs 16 8)
     key := BitVec.ofNat 32 (field bs 24 4), cid := BitVec.ofNat 20 (field bs 28 4)
     lap := BitVec.ofNat 2 (bitsAt (field bs 28 4) 28 2), imm := BitVec.ofNat 32 (field bs 32 4)
     tally := BitVec.ofNat 32 (field bs 36 4), cookie := BitVec.ofNat 64 (field bs 40 8) })

/-- Opcodes a queue kind accepts (Table 15-1). -/
def accepts (kind p op : Nat) : Bool :=
  op == 0x0F || match kind with
  | 0 => 1 ≤ op && op ≤ 8
  | 1 => op == 0x20 || op == 0x21
  | _ => (0x30 ≤ op && op ≤ 0x35) || (op == 0x36 && p == 0)

/-! ## Transfers (R323-R325) -/

/-- Length and alignment checks of R325 and R332: 0x0009 or 0. -/
def transferCheck (op : Nat) (d : Desc) : Nat :=
  let len := d.len.toNat
  let ty := bitsAt d.imm.toNat 4 4
  match op with
  | 5 => if d.rva.toNat % 16 != 0 then 0x0009 else 0
  | 6 => if len != 8 || d.rva.toNat % 8 != 0 || d.lva.toNat % 8 != 0 then 0x0009 else 0
  | 7 => if len != 16 || d.rva.toNat % 8 != 0 || d.lva.toNat % 8 != 0 then 0x0009 else 0
  | 8 =>
    if 2 < bitsAt d.imm.toNat 0 4 || 5 < ty then 0x0009
    else if len % unitBytes ty != 0 then 0x0009
    else if !isMx ty && d.rva.toNat % unitBytes ty != 0 then 0x0009
    else 0
  | _ => 0

/-- Whether the tally name of a transfer counts: RECV always, the others with CTALLY (Table 13-2). -/
def usesTally (op : Nat) (d : Desc) : Bool := op == 5 || d.flags.getLsbD 1

/-- All checks of a transfer: the failing status, or 0. -/
def State.transferStatus (s : State) (p op : Nat) (d : Desc) : Nat :=
  let c := s.conn d.cid.toNat
  if transferCheck op d != 0 then transferCheck op d
  else if usesTally op d && !s.tallyOk p d.tally then 0x0003
  else if c.state != .open_ || c.part != p then 0x000B
  else 0

/-- Access of a transfer to its local range. -/
def localAcc (op : Nat) : Nat := match op with | 3 => accW | 5 => accW | 6 => 3 | 7 => 3 | _ => accR
/-- KVT opcode of a transfer. -/
def kvtOp (op : Nat) : Nat := match op with | 4 => 5 | 7 => 6 | o => o

/-- The message of a transfer. -/
def transferMsg (o : Origin) (op : Nat) (d : Desc) (runs : List Held) : TxMsg :=
  { org := o, op := kvtOp op, msgId := 0, len := d.len.toNat, lva := d.lva.toNat, rva := d.rva, key := d.key
    imm := match op with | 2 => d.imm | 8 => d.imm &&& 0xFF | 6 => 1 | 7 => 2 | _ => 0
    fence := d.flags.getLsbD 0 && (op == 1 || op == 2 || op == 4 || op == 8)
    small := (op == 1 || op == 2) && smallWrite d.rva.toNat d.len.toNat
    data := [], first := none, sent := 0, unsol := 0, granted := 0, d := d, runs := runs }

/-- Begins the fetch of a context (R296). -/
def State.fetchCtx (s : State) (cid : Nat) : State :=
  let fd := (s.conn cid).home
  let k := s.kvtDie fd
  if k.fetch.contains cid then s
  else (s.setKvtDie fd { k with fetch := k.fetch ++ [cid] }).count bKVT (dieInst fd) 0xC28 1

/-- A transfer starts: its message enters its connection's transmit order, or its receive is posted. -/
def State.startTransfer (s : State) (p : Nat) (o : Origin) (op : Nat) (d : Desc) : State × Start :=
  let cid := d.cid.toNat
  let st := s.transferStatus p op d
  if st != 0 then (s, .done st)
  else if !s.cached cid then (s.fetchCtx cid, .wait)
  else
    let fd := (s.conn cid).home
    let go (s : State) (runs : List Held) : State × Start :=
      let ep := runs.head?.bind (fun r => if r.bits.getLsbD 6 then none else some r.epoch)
      if op = 5 then
        match o with
        | .entry a b i => ((s.updConn cid (fun c => { c with recvs := c.recvs ++ [{ p := a, q := b, idx := i, d := d }] })), .begun ep)
        | _ => (s, .done 0x0003)
      else (s.connPush cid (transferMsg o op d runs), .begun ep)
    if d.len = 0 then go s []
    else
      match s.xlate fd p d.lva.toNat (localAcc op) with
      | (s1, .inl f) => (s1, .fault fd f)
      | (s1, .inr r) => go (s1.recordRun o r 0 (dieInst fd)) [r]

/-! ## Windows, tallies, triggers (R336-R343) -/

/-- WINDOW_OPEN: the status. -/
def State.windowOpenStatus (s : State) (p : Nat) (d : Desc) : Nat :=
  let i := d.key.toNat / 256
  let w := s.window i
  if d.rva = 0 || 2 ^ 48 < d.lva.toNat + d.rva.toNat then 0x0009
  else if !s.winOwned p i || (w.ever && (w.open_ || w.gen = d.key.setWidth 8)) then 0x0003
  else 0
def State.openWindow (s : State) (p : Nat) (d : Desc) : State × Nat :=
  let st := s.windowOpenStatus p d
  if st != 0 then (s, st)
  else
    (s.setWindow (d.key.toNat / 256)
      { ever := true, open_ := true, part := p, gen := d.key.setWidth 8, base := d.lva.toNat
        len := d.rva.toNat, rights := d.imm.setWidth 4 }, 0)

/-- Messages admitted through a window that have not hemmed are abandoned with NAK 0x04 (R338). -/
def State.dropWindow (s : State) (win : Nat) : State :=
  s.conns.foldl (fun s x =>
    let hit := x.2.rxq.filter (fun m => m.win == some win && !m.ended)
    if hit.isEmpty then s else (hit.foldl (fun s m => s.endMsg x.1 0x04 m) s).hemAll x.1) s

/-- Whether a READ_RESP through a window is not yet acknowledged. -/
def State.windowRead (s : State) (win : Nat) : Bool :=
  s.conns.any (fun x => x.2.txq.any (fun m => m.win == some win))

/-- WINDOW_REVOKE: the window closes, or the doorbell window does (R338, R372). -/
def State.revokeWindow (s : State) (p q idx : Nat) (key : W32) : State × Start :=
  let i := key.toNat / 256
  let w := s.window i
  if s.isDbKey p key && (s.part p).dbLive then
    (s.setPart p { s.part p with dbLive := false }, .done 0)
  else if !(w.ever && w.open_ && w.part == p && w.gen == key.setWidth 8) then (s, .done 0x0004)
  else
    let s1 := (s.setWindow i { w with open_ := false }).dropWindow i
    ({ s1 with revokes := s1.revokes ++ [{ p := p, q := q, idx := idx, win := i }] }, .begun none)

/-- Opcodes an ARM may embed. -/
def armable (op : Nat) : Bool :=
  (1 ≤ op && op ≤ 8 && op != 5) || op == 0x20 || op == 0x21 || op == 0x33
/-- A tally name of KIND 0 with EN. -/
def kind0 (w : W32) : Bool := tnEn w && !tnTile w
/-- Checks of an embedded descriptor. -/
def State.embeddedOk (s : State) (p op : Nat) (d : Desc) : Bool :=
  armable op && (if op = 0x33 then kind0 d.tally
    else if op = 0x20 || op = 0x21 then copyCheck d == 0
    else s.transferStatus p op d == 0)
/-- Armed operations of a partition. -/
def State.armedCount (s : State) (p : Nat) : Nat :=
  (s.armed.filter (fun a => a.p == p)).length + (s.armedDue.filter (fun a => a.p == p)).length +
    (s.part p).held.length

/-- ARM. -/
def State.arm (s : State) (p : Nat) (d : Desc) : State × Start :=
  if d.lva.toNat % 64 != 0 then (s, .done 0x0009)
  else if !kind0 d.tally then (s, .done 0x0003)
  else if 16384 ≤ s.armedCount p then (s, .done 0x0009)
  else
    match s.xlate false p d.lva.toNat accR with
    | (s1, .inl f) => (s1, .fault false f)
    | (s1, .inr r) =>
      let pa := r.at_ d.lva.toNat
      match s1.physRead p r.ksel pa 64 with
      | (s2, 0, bs) =>
        let e := parseDesc bs
        if !s2.embeddedOk p e.1 e.2 then (s2, .done 0x0003)
        else
          let a : Armed := { p := p, tally := tnIdx d.tally, threshold := d.rva, embPa := pa, embK := r.ksel, embDl := r.logs
                             op := e.1, d := e.2, epoch := if r.bits.getLsbD 6 then none else some r.epoch }
          (({ s2 with armed := s2.armed ++ [a] }).armedCheck p a.tally, .done 0)
      | (s2, st, _) => (s2, .done st)

/-- TALLY_SET. -/
def State.tallySet (s : State) (p : Nat) (d : Desc) : State × Nat :=
  if kind0 d.tally then (s.setPTally p (tnIdx d.tally) d.rva, 0) else (s, 0x0003)

/-! ## Launches from queues (R371, R460, R461) -/

/-- The entries of a launch table: tile, entry bundle, mode, seed. -/
def launchRows (tbl : List Byte) : List (Nat × Nat × Bool × W64) :=
  (unitsOf 16 tbl.length tbl).map (fun e =>
    (bitsAt (field e 0 2) 0 11, bitsAt (field e 2 2) 0 14, (e.getD 4 0).getLsbD 0, BitVec.ofNat 64 (field e 8 8)))

/-- Checks of a launch (R371, R107, R184); it needs writes to pages that are not locked (R509). -/
def State.launchOk (s : State) (p g : Nat) (l : List (Nat × Nat × Bool × W64)) : Bool :=
  let ts := l.map Prod.fst
  let mode := (l.head?.map (fun x => x.2.2.1)).getD false
  let g0 := s.fld bPART p 0x050 0 11
  let gn := s.fld bPART p 0x050 16 12
  l.all (fun x => tileOk x.1 && s.tileOwner x.1 == some p && x.2.2.1 == mode &&
      (let r := (s.tile x.1).run; r == .idle || r == .done || r == .trapped)) &&
    ts.Nodup && g0 ≤ g && g < g0 + gn && !s.locked bGRID 0 && !ts.any (fun t => s.locked bTILE t) &&
    !s.tileIds.any (fun u => s.tileGroup u == g && (s.tileOwner u).isSome && s.tileOwner u != some p && activeRun (s.tile u).run) &&
    (s.groupTiles g).all (fun u => !s.inLaunch u || (s.reg bTILE u 0x044).getLsbD 0 == mode) &&
    !s.links.any (fun x => x.2.owned && x.2.group == g && x.2.steady != mode)

/-- Hashes a tile's instruction memory, if its mark is not set. -/
def State.measureTile (s : State) (t : Nat) : State :=
  match (s.tile t).measured with
  | some _ => s
  | none => s.updTile t (fun x => { x with measured := some (Config.sha384 (s.peek (imAt t 0) 0x40000)) })
/-- Bytes of a digest. -/
def digestBytes (d : BitVec 384) : List Byte := beBytes 48 d.toNat
/-- The launch digest (R460). -/
def State.launchDigest (s : State) (g : Nat) (tbl : List Byte) : BitVec 384 :=
  Config.sha384 (leBytes 2 g ++ (unitsOf 16 tbl.length tbl).flatMap (fun e =>
    e ++ digestBytes (((s.tile (bitsAt (field e 0 2) 0 11)).measured).getD 0)))

/-- Firmware writes the settings, extends PM, arms every tile and names the group to GRID_LAUNCH: at once if a tile of
it is armed, else when the first of them has been ungated (R107). -/
def State.launchGo (s : State) (p q idx g : Nat) (tbl : List Byte) : State :=
  let l := launchRows tbl
  let s1 := l.foldl (fun s x => s.measureTile x.1) s
  let y := s1.part p
  let s2 := s1.setPart p { y with
    pm := Config.sha384 (digestBytes y.pm ++ digestBytes (s1.launchDigest g tbl)), launches := y.launches + 1, launch := none }
  let s3 := l.foldl (fun s x =>
    let t := x.1
    let s1 := ((s.setReg bTILE t 0x040 (BitVec.ofNat 32 x.2.1)).setReg bTILE t 0x044 (BitVec.ofNat 32 x.2.2.1.toNat)).setReg
      bTILE t 0x04C (x.2.2.2.setWidth 32)
    let s2 := (s1.setReg bTILE t 0x050 ((x.2.2.2 >>> 32).setWidth 32)).setReg bTILE t 0x054 (BitVec.ofNat 32 g)
    s2.armTile t) s2
  let s4 := s3.setGroup g { s3.group g with entry := some (p * 4096 + q, idx) }
  if (s4.groupTiles g).any (fun t => (s4.tile t).run == .armed) then s4.gridLaunch g else s4

/-- Whether every tile of a launch is measured and none is clearing. -/
def State.launchReady (s : State) (l : List (Nat × Nat × Bool × W64)) : Bool :=
  l.all (fun x => (s.tile x.1).measured.isSome && !(s.tile x.1).clearing)

/-- TILE_LAUNCH is served, one at a time (R391). -/
def State.tileLaunch (s : State) (p q idx : Nat) (d : Desc) : State × Start :=
  let len := d.len.toNat
  let g := bitsAt d.imm.toNat 0 11
  if len % 16 != 0 || len = 0 || 16 * 1440 < len || d.lva.toNat % 16 != 0 then (s, .done 0x0009)
  else if !s.tallyOk p d.tally then (s, .done 0x0003)
  else if (s.part p).launch.isSome then (s, .wait)
  else
    match s.vget false p accR d.lva.toNat len [] with
    | (s1, .fault f _) => (s1, .fault false f)
    | (s1, .stat st _) => (s1, .done st)
    | (s1, .ok tbl _) =>
      let l := launchRows tbl
      if !s1.launchOk p g l then (s1, .done 0x0003)
      else if s1.launchReady l then (s1.launchGo p q idx g tbl, .begun none)
      else (s1.setPart p { s1.part p with launch := some (q, idx, g, tbl) }, .begun none)

/-! ## Translation fences (R234) -/

/-- XLAT_FENCE: the epoch advances and unpinned buffer entries go, on both dies. -/
def State.xlatFence (s : State) (q idx : Nat) (d : Desc) : State :=
  let p := bitsAt d.tally.toNat 0 10
  let x := s.part p
  let e := x.epoch + 1
  let s1 := s.setPart p { x with epoch := e }
  let s2 : State := { s1 with
    tb := s1.tb.filter (fun y => y.2.part != p || y.2.pinned)
    fences := s1.fences ++ [{ part := p, q := q, idx := idx, epoch := e }] }
  (s2.count bXLAT 0 0xC28 1).count bXLAT 1 0xC28 1

/-! ## Starting an entry -/

/-- Starts an entry by its opcode. -/
def State.startOp (s : State) (p q idx op : Nat) (d : Desc) : State × Start :=
  if !accepts (s.queue p q).kind p op then (s, .done 0x0003)
  else match op with
  | 0x20 => s.startCopy p (.entry p q idx) false d
  | 0x21 => s.startCopy p (.entry p q idx) true d
  | 0x30 => let r := s.openWindow p d; (r.1, .done r.2)
  | 0x31 => s.revokeWindow p q idx d.key
  | 0x32 => s.arm p d
  | 0x33 => let r := s.tallySet p d; (r.1, .done r.2)
  | 0x34 =>
    match s.collStart p q idx d with
    | (s1, some st) => (s1, .done st)
    | (s1, none) => (s1, .begun none)
  | 0x35 => s.tileLaunch p q idx d
  | 0x36 => (s.xlatFence q idx d, .begun none)
  | 0x0F => (s.updQueue p q (fun x => { x with fence := true }), .begun none)
  | _ => s.startTransfer p (.entry p q idx) op d

/-- Changes an entry of a queue. -/
def Queue.updEntry (x : Queue) (idx : Nat) (f : Entry → Entry) : Queue :=
  { x with entries := x.entries.map (fun e => if e.idx = idx then f e else e) }

/-- Starts an entry and acts on how that ended. -/
def State.startEntry (s : State) (p q idx op : Nat) (d : Desc) : State :=
  match s.startOp p q idx op d with
  | (s1, .begun ep) =>
    s1.updQueue p q (fun x => x.updEntry idx (fun e => { e with started := true, epoch := ep }))
  | (s1, .done st) => s1.complete p q idx st
  | (s1, .wait) => s1
  | (s1, .fault fd f) => s1.fault fd p f (.queue p q idx)

/-- Entries consumed that have not completed. -/
def Queue.live (x : Queue) : Nat := (x.entries.filter (fun e => e.done.isNone)).length
/-- The entry whose start is still to be made. -/
def Queue.unstarted (x : Queue) : Option Entry :=
  x.entries.find? (fun e => !e.started && e.done.isNone && !e.parked)

/-- Consumes entry C with the given opcode and fields. -/
def State.consume (s : State) (p q op : Nat) (d : Desc) : State :=
  let x := s.queue p q
  let e : Entry := { idx := x.c, op := op, d := d, started := false }
  let s1 := (s.setQueue p q { x with
    c := (x.c + 1) % 2 ^ 32, entries := x.entries ++ [e], qstate := if x.qstate = 1 then 0 else x.qstate }).publish p q
  s1.startEntry p q e.idx op d

/-- Whether a queue may consume now (R373, R375, R237, R334, R396). -/
def State.canConsume (s : State) (p q : Nat) : Bool :=
  let x := s.queue p q
  let l := (s.part p).lstate
  x.used && (x.qstate = 0 || x.qstate = 1) && !x.parked && !x.fence && x.unstarted.isNone &&
    !x.entries.any (fun e => e.parked) && x.live < 256 && !s.stopping && !(l = .freezing || l = .frozen || l = .restoring)

/-- Lap stamp of an index (R370). -/
def Queue.lapOf (x : Queue) (i : Nat) : Nat := i / 2 ^ x.sizeLog2 % 4

/-- A lap stamp that does not match stops the queue (R376). -/
def State.lapStop (s : State) (p q : Nat) : State :=
  (s.updQueue p q (fun x => { x with qstate := 1 })).publish p q

/-- Reads entry C and consumes it, or stops at it. -/
def State.takeEntry (s : State) (p q : Nat) : State :=
  let x := s.queue p q
  match s.vget false p accR (x.slotVa x.c) 64 [] with
  | (s1, .fault f _) => s1.fault false p f (.queue p q x.c)
  | (s1, .stat st _) =>
    let s2 := s1.setQueue p q { s1.queue p q with
      c := (x.c + 1) % 2 ^ 32, entries := x.entries ++ [{ idx := x.c, op := 0, d := {} }] }
    let s3 := if st = 6 then
        ((s2.vput false p (x.slotVa x.c) ([0, 0] ++ leBytes 2 6 ++ List.replicate 60 0) []).1).queueUe p q
          ((s2.pureXl p (x.slotVa x.c) accR).getD 0)
      else s2
    s3.complete p q x.c st
  | (s1, .ok bs _) =>
    let e := parseDesc bs
    if e.2.lap.toNat != x.lapOf x.c then s1.lapStop p q
    else s1.consume p q e.1 e.2

/-- Starts entries that waited, then consumes entries below P; `n` bounds both. -/
def State.qloop (s : State) (p q : Nat) : Nat → State
  | 0 => s
  | n + 1 =>
    let x := s.queue p q
    match x.unstarted with
    | some e =>
      if !x.used || x.parked || x.entries.any (fun y => y.parked) || 4 ≤ x.qstate then s
      else
        let s1 := s.startEntry p q e.idx e.op e.d
        if (s1.queue p q).unstarted == some e then s1 else s1.qloop p q n
    | none =>
      if !s.canConsume p q || x.p = x.c then s
      else
        let s1 := s.takeEntry p q
        if (s1.queue p q).c = x.c then s1 else s1.qloop p q n

/-- Consumption of a queue goes on. -/
def State.qgo (s : State) (p q : Nat) : State :=
  let x := s.queue p q
  s.qloop p q (min (idxDiff x.p x.c) (2 ^ x.sizeLog2) + x.entries.length + 1)

/-- Pseudo index of a fault on a queue's control block. -/
abbrev cbIdx : Nat := 2 ^ 32

/-- Fields of the control block as last read (Table 15-3). -/
def Queue.readCb (x : Queue) (bs : List Byte) : Queue :=
  { x with
    p := field bs 0 4, ncount := field bs 16 2, ntimer := clampN 1 1000 (field bs 18 2 % 1024), nkind := field bs 20 1 % 4
    ndest := if field bs 20 1 % 4 = 3 then field bs 24 4 % 2 ^ 11 else field bs 24 4 % 2 ^ 20
    nkey := BitVec.ofNat 32 (field bs 28 4), naddr := field bs 32 8 % 2 ^ 48 }

/-- A pass (R375): P is examined, then entries are consumed. -/
def State.qpass (s : State) (p q : Nat) : State :=
  let x := s.queue p q
  if 4 ≤ x.qstate || x.parked then s
  else
    let go (s : State) : State :=
      let x := s.queue p q
      if 2 ^ x.sizeLog2 < idxDiff x.p x.c then
        (if x.qstate = 2 then s else (s.setQueue p q { x with qstate := 3 }).publish p q).notify p q false true
      else
        let s1 := if x.qstate = 3 then (s.setQueue p q { x with qstate := 0 }).publish p q else s
        s1.qgo p q
    match s.vget false p accR x.cb 64 [] with
    | (s1, .fault f _) => s1.fault false p f (.queue p q cbIdx)
    | (s1, .stat 6 _) => go (s1.cbRepair p q)
    | (s1, .stat _ _) => s1
    | (s1, .ok bs _) => go (s1.updQueue p q (fun x => x.readCb bs))

/-- Queues whose consumption had to pause go on (R375). -/
def State.settle (s : State) : State :=
  s.queues.foldl (fun s x =>
    let p := x.1 / 4096
    let q := x.1 % 4096
    let y := s.queue p q
    if y.used && y.qstate = 0 && (y.p != y.c || y.unstarted.isSome) then s.qgo p q else s) s

/-- A doorbell is processed, or marks its queue (R373, R404). -/
def State.doorbell (s : State) (p q : Nat) : State :=
  if s.stopping then s
  else if s.bellLost p q then s.count bPART p 0xC08 1
  else
    let l := (s.part p).lstate
    let x := s.queue p q
    if x.qstate = 4 then s
    else if l = .freezing || l = .frozen || l = .restoring then s.setQueue p q { x with pend := true }
    else ((s.setQueue p q { x with pend := false }).count bPART p 0xC00 1).qpass p q

def execDoorbell (p q : Nat) (_fromFw : Bool) (s : State) : Res :=
  .next (if p < 1024 && q < 4096 then (s.doorbell p q).settle else s)

/-- The entry at a lap-stamp stop is read again. -/
def execLapReread (p q : Nat) (s : State) : Res :=
  .next (if (s.queue p q).qstate = 1 then (s.qgo p q).settle else s)

/-- The moderation timer ends. -/
def execNotifyTimer (p q : Nat) (s : State) : Res :=
  .next (if (s.queue p q).used && (s.queue p q).timer then s.notify p q false false else s)

/-! ## Descriptor rows -/

/-- The next entry of a ring carries this descriptor: the client has posted it and P covers it. -/
def State.post (s : State) (p q op : Nat) (d : Desc) : State :=
  let x := s.queue p q
  if !s.canConsume p q then s
  else
    let s1 := if x.p = x.c then s.setQueue p q { x with p := (x.c + 1) % 2 ^ 32 } else s
    (if d.lap.toNat != x.lapOf x.c then s1.lapStop p q else s1.consume p q op d).settle

def execWrite (p q : Nat) (d : Desc) (s : State) : Res := .next (s.post p q 0x01 d)
def execWriteImm (p q : Nat) (d : Desc) (s : State) : Res := .next (s.post p q 0x02 d)
def execRead (p q : Nat) (d : Desc) (s : State) : Res := .next (s.post p q 0x03 d)
def execSend (p q : Nat) (d : Desc) (s : State) : Res := .next (s.post p q 0x04 d)
def execRecv (p q : Nat) (d : Desc) (s : State) : Res := .next (s.post p q 0x05 d)
def execFadd (p q : Nat) (d : Desc) (s : State) : Res := .next (s.post p q 0x06 d)
def execCswap (p q : Nat) (d : Desc) (s : State) : Res := .next (s.post p q 0x07 d)
def execReduce (p q : Nat) (d : Desc) (s : State) : Res := .next (s.post p q 0x08 d)
def execFence (p q : Nat) (d : Desc) (s : State) : Res := .next (s.post p q 0x0F d)
def execFill (p q : Nat) (d : Desc) (s : State) : Res := .next (s.post p q 0x20 d)
def execSpill (p q : Nat) (d : Desc) (s : State) : Res := .next (s.post p q 0x21 d)
def execWindowOpen (p q : Nat) (d : Desc) (s : State) : Res := .next (s.post p q 0x30 d)
def execWindowRevoke (p q : Nat) (d : Desc) (s : State) : Res := .next (s.post p q 0x31 d)
def execArm (p q : Nat) (d : Desc) (s : State) : Res := .next (s.post p q 0x32 d)
def execTallySet (p q : Nat) (d : Desc) (s : State) : Res := .next (s.post p q 0x33 d)
def execCollStart (p q : Nat) (d : Desc) (s : State) : Res := .next (s.post p q 0x34 d)
def execTileLaunch (p q : Nat) (d : Desc) (s : State) : Res := .next (s.post p q 0x35 d)
def execXlatFence (q : Nat) (d : Desc) (s : State) : Res := .next (s.post 0 q 0x36 d)

/-- FENCE_DONE: every earlier entry has completed. -/
def execFenceDone (p q : Nat) (s : State) : Res :=
  let x := s.queue p q
  .next (match x.entries.find? (fun e => e.done.isNone) with
  | some e =>
    if x.fence && e.op = 0x0F then
      (((s.setQueue p q { x with fence := false }).complete p q e.idx 0).qgo p q).settle
    else s
  | none => s)

/-- WINDOW_REVOKE_DONE: no READ_RESP through the window is left to be acknowledged. -/
def execWindowRevokeDone (p q : Nat) (s : State) : Res :=
  .next (match s.revokes.find? (fun r => r.p == p && r.q == q && !s.windowRead r.win) with
  | some r => (({ s with revokes := s.revokes.erase r }).complete p q r.idx 0).settle
  | none => s)

/-- Whether a held run is of an earlier epoch and unpinned. -/
def oldRun (e : Nat) (r : Held) : Bool := r.epoch < e && !r.bits.getLsbD 6
/-- Whether anything of a partition still holds a run translated before an epoch (R234). -/
def State.holdsOld (s : State) (p e : Nat) : Bool :=
  s.queues.any (fun x => x.1 / 4096 == p && x.2.entries.any (fun y => y.done.isNone && (y.epoch.any (· < e)))) ||
  s.conns.any (fun x => x.2.part == p && (x.2.rxq.any (fun m => !m.ended && m.runs.any (oldRun e)) ||
    x.2.txq.any (fun m => m.runs.any (oldRun e)) || x.2.awaits.any (fun a => a.runs.any (oldRun e)))) ||
  s.colls.any (fun g => (g.2.run.toList ++ g.2.later).any (fun r => r.p == p && (r.srcRuns ++ r.dstRuns).any (oldRun e))) ||
  s.jobs.any (fun j => j.part == p && (j.runs ++ j.truns).any (oldRun e)) ||
  (s.armed ++ s.armedDue ++ (s.part p).held).any (fun a => a.p == p && a.epoch.any (· < e)) ||
  s.tileIds.any (fun t => s.tileOwner t == some p && (s.tile t).far.any (fun f => f.2.2 < e))

/-- XLAT_FENCE_DONE: the fences of a partition complete in the order accepted. -/
def execXlatFenceDone (p : Nat) (s : State) : Res :=
  .next (match s.fences.find? (fun f => f.part == p) with
  | some f => if s.holdsOld p f.epoch then s
      else (({ s with fences := s.fences.erase f }).complete 0 f.q f.idx 0).settle
  | none => s)

/-- A fired operation starts (R343). -/
def State.fire (s : State) (a : Armed) : State :=
  let o : Origin := .armed a.p a.embPa a.embK a.embDl
  let r : State × Start := match a.op with
    | 0x33 => let r := s.tallySet a.p a.d; (r.1, .done r.2)
    | 0x20 => s.startCopy a.p (.armed a.p a.embPa a.embK a.embDl) false a.d
    | 0x21 => s.startCopy a.p (.armed a.p a.embPa a.embK a.embDl) true a.d
    | op => s.startTransfer a.p o op a.d
  match r with
  | (s1, .begun _) => s1
  | (s1, .done st) => s1.finishOrg o a.d (isTransfer a.op) st
  | (s1, .wait) => { s1 with armedDue := a :: s1.armedDue }
  | (s1, .fault fd f) => { s1 with armedDue := { a with parked := true } :: s1.armedDue }.fault fd a.p f (.queue a.p noRing a.embPa)

/-- ARMED_FIRE: the first operation due of a partition. -/
def execArmedFire (p : Nat) (s : State) : Res :=
  .next (match s.armedDue.find? (fun a => a.p == p && !a.parked) with
  | some a => (({ s with armedDue := s.armedDue.erase a }).fire a).settle
  | none => s)

/-- LAUNCH_MEASURE_DONE: the hashes are taken and the launch goes on; the next one is served. -/
def execLaunchMeasureDone (p : Nat) (s : State) : Res :=
  .next (match (s.part p).launch with
  | some (q, idx, g, tbl) =>
    if (launchRows tbl).any (fun x => (s.tile x.1).clearing) then s
    else (s.launchGo p q idx g tbl).settle
  | none => s)

/-- LAUNCH_START: at an edge of them all, every armed tile of the group issues its entry bundle, and the
TILE_LAUNCH completes. -/
def execLaunchStart (g : Nat) (s : State) : Res :=
  .next (if (s.group g).launchAt.isSome && !(s.groupTiles g).any (fun t => (s.tile t).armPending)
      && (s.groupTiles g).all s.tileEdges then
    let s1 := s.launchGroup g
    match (s1.group g).entry with
    | some e => ((s1.setGroup g { s1.group g with entry := none }).complete (e.1 / 4096) (e.1 % 4096) e.2 0).settle
    | none => s1
  else s)

/-- Whether the tiles a job reads or writes have clock edges: their SRAM and instruction memory answer only at
one (R27, R28). -/
def State.jobEdges (s : State) (j : CopyJob) : Bool :=
  match j.from_ with
  | .tile t => s.tileEdges t
  | _ => (s.jobTiles j).all s.tileEdges

/-- COPY_COMPLETE: a fill or spill ends or parks; a tile whose bundle waits for a free request goes on. -/
def execCopyComplete (eng idx : Nat) (s : State) : Res :=
  .next (match (s.jobs.filter (fun j => j.eng == eng))[idx]? with
  | some j =>
    if s.jobFree j && s.jobEdges j then
      let s1 := s.jobRun j
      let s2 := match j.from_ with
        | .tile t => if (s1.tile t).waitFor == some Wait.copies && (s1.tile t).copies < 16 then s1.unpark t else s1
        | _ => s1
      s2.settle
    else s
  | none => s)

/-! ## Shutting down (R379) -/

/-- Entries below P that are not consumed are aborted unread. -/
def State.abortRest (s : State) (p q : Nat) : Nat → State
  | 0 => s
  | n + 1 =>
    let x := s.queue p q
    if x.p = x.c then s
    else
      let e : Entry := { idx := x.c, op := 0, d := {}, done := some 1 }
      ((s.setQueue p q { x with c := (x.c + 1) % 2 ^ 32, entries := x.entries ++ [e] }).putStatus p q x.c 1).abortRest p q n

/-- Entries not started or parked complete as aborted; their unsent messages and jobs go. -/
def State.abortHeld (s : State) (p q : Nat) : State :=
  let x := s.queue p q
  let hit := x.entries.filter (fun e => e.done.isNone && (!e.started || e.parked || e.op = 0x0F))
  hit.foldl (fun s e =>
    let s1 : State := { s with
      jobs := s.jobs.filter (fun (j : CopyJob) => j.from_ != CopyFrom.entry p q e.idx)
      conns := s.conns.map (fun (y : Nat × Conn) => (y.1, { y.2 with
        txq := y.2.txq.filter (fun (m : TxMsg) => !(m.org == Origin.entry p q e.idx && m.sent == 0))
        recvs := y.2.recvs.filter (fun (r : Recv) => !(r.p == p && r.q == q && r.idx == e.idx)) })) }
    s1.complete p q e.idx 1) s

/-- A queue shuts down. -/
def State.shutQueue (s : State) (p q : Nat) : State :=
  let x := s.queue p q
  if !x.used || 4 ≤ x.qstate then s
  else
    let s1 := s.setQueue p q { x with qstate := 4, fence := false, pend := false, parked := false }
    let s2 := match s1.vget false p accR x.cb 4 [] with
      | (s2, .ok bs _) => s2.updQueue p q (fun y => { y with p := field bs 0 4 })
      | (s2, _) => s2
    let y := s2.queue p q
    let s3 := if 2 ^ y.sizeLog2 < idxDiff y.p y.c then s2 else s2.abortRest p q (idxDiff y.p y.c)
    let s4 := (s3.leaveFaults (fun f => match f with | .queue a b i => a == p && b == q && i == cbIdx | _ => false)).publish p q
    (s4.abortHeld p q).advanceH p q

end Sys2Proof.Machine
end

