-- ==== Sys2Proof/Machine/Packets.lean ====
section
/-! DEFINITION. KVT packets as they arrive, connections opening and closing, and the transport's timers
(12_kvt_transport R290-R320, R521; 14_collectives R354-R357). -/

namespace Sys2Proof.Machine

/-! ## Packets outside a connection's protection -/

/-- Queues a KVT frame without protection on an egress link. -/
def State.txPlain (s : State) (link : Option (Nat × Bool)) (fd1 : Bool) (op : Nat) (k : Pkt) : State :=
  match link with
  | none => s
  | some l =>
    let s1 := s.count bKVT (dieInst fd1) 0xC00 1
    let x := s1.port l.1
    let f : TxFrame := { half1 := l.2, cls := k.tc.toNat, len := frameLen (isV4 k.dst) false (opExt op) k.payload.length
                         pkt := some (op, k) }
    s1.setPort l.1 { x with txq := x.txq ++ [f] }

/-- Opcodes whose packets R521 never answers. -/
def unanswered (op : Nat) : Bool :=
  op == 0x10 || op == 0x11 || op == 0x12 || op == 0x13 || op == 0x30 || op == 0x31 || op == 0x3F

/-- A packet names a CID that has no context here (R521). -/
def State.unknownCid (s : State) (op : Nat) (k : Pkt) : State :=
  let a := k.src.toNat
  let cid := k.cid.toNat
  let late := s.naks.any (fun x => x.1 == a && x.2.1 == cid && decide (s.align < x.2.2 + tenMicros))
  if unanswered op || late then s
  else
    let fd1 := decide (12 ≤ k.port)
    let lab := s.freeIn 6 0 63
    let r : Pkt := { src := k.dst, dst := k.src, cid := k.cid, tc := k.tc, msgId := k.msgId, flags := 0
                     op24 := BitVec.ofNat 32 (k.psn.toNat * 256 + 0x0A), op28 := BitVec.ofNat 32 (k.msgId.toNat * 65536 + 1)
                     udpSrc := s.labelPort cid lab, udpDst := s.fld bKVT 0 0x040 0 16 }
    let s1 : State := { s with naks := s.naks.filter (fun x => !(x.1 == a && x.2.1 == cid)) ++ [(a, cid, s.align)] }
    ((s1.count bKVT (dieInst fd1) 0xC18 1).txPlain (s.linkOf cid lab) fd1 0x11 r).freshen

/-! ## ACK, NAK, GRANT, MOVED -/

/-- Whether an acknowledged prefix covers a message whole. -/
def TxMsg.covered (m : TxMsg) (mtu e : Nat) : Bool :=
  match m.first with
  | none => false
  | some f => let n := msgPkts m.op m.len mtu
    (m.ended || n ≤ m.sent) && n ≤ psnDiff e f && psnDiff e f < 2 ^ 23

/-- A message is acknowledged whole. -/
def State.ackedMsg (s : State) (cid : Nat) (m : TxMsg) : State :=
  if m.ended then s
  else if m.op = 0x32 then s.connFree cid
  else match m.org with
  | .coll h _ => s.collTryDone h
  | o => if doneAtAck m.op then s.finishOrg o m.d (match o with | .notify _ _ => false | _ => true) 0 else s

/-- The peer's E: A advances, messages it covers complete (R300, R302, R318). -/
def State.rxAck (s : State) (cid : Nat) (k : Pkt) : State :=
  let c := s.conn cid
  let e := k.op24.toNat / 256
  let d := psnDiff e c.a
  let s0 := if k.flags.getLsbD 6 && !c.echoed then
      s.setConn cid { c with echoed := true, uc := max 4096 (c.uc / 2) } else s
  if d = 0 || psnDiff c.nMax c.a < d then s0
  else
    let c1 := s0.conn cid
    let gone := c1.txq.filter (fun m => m.covered c1.mtu e)
    let s1 := s0.setConn cid { c1 with
      a := e, retries := 0, noRecv := none, txParked := false
      n := if psnDiff c1.n c1.a < d || c1.txParked then e else c1.n
      sent := c1.sent.filter (fun x => psnDiff x.psn e < 2 ^ 23)
      txq := c1.txq.filter (fun m => !m.covered c1.mtu e) }
    gone.foldl (fun s m => s.ackedMsg cid m) s1

/-- Status of an entry whose message a NAK ends (Table 12-6). -/
def nakStatus (reason : Nat) : Nat :=
  match reason with | 2 => 0x0009 | 3 => 0x0003 | 4 => 0x0004 | 6 => 0x0005 | _ => 0x0006

/-- A NAK ends a message: its packets count as received, N goes past its whole range (R304). -/
def State.nakEnd (s : State) (cid reason : Nat) (id : BitVec 16) : State :=
  let c := s.conn cid
  let st := nakStatus reason
  let s1 := match c.txq.find? (fun m => m.first.isSome && m.msgId == id && !m.ended) with
    | some m =>
      let f := m.first.getD 0
      let stop := psnAdd f (msgPkts m.op m.len c.mtu)
      let past (x : Nat) : Nat := if psnDiff stop c.a ≤ psnDiff x c.a then x else stop
      let s1 := s.setConn cid { c with
        txq := mapFirst (fun x => x == m) (fun x => { x with ended := true }) c.txq
        nMax := past c.nMax
        n := if psnDiff f c.a ≤ psnDiff c.n c.a then past c.n else c.n }
      if m.op = 3 || m.op = 6 then s1 else s1.finishOrg m.org m.d true st
    | none => s
  match (s1.conn cid).awaits.find? (fun a => a.msgId == id) with
  | some a => s1.answered cid a st
  | none => s1

/-- The label a PSN was last sent on becomes suspect (R298). -/
def Conn.suspectPsn (c : Conn) (psn : Nat) : Conn :=
  match c.sent.find? (fun x => x.psn == psn) with
  | some x => if c.suspect.contains x.label then c else { c with suspect := c.suspect ++ [x.label] }
  | none => c

/-- A NAK for a connection (Table 12-6). -/
def State.rxNak (s : State) (cid : Nat) (k : Pkt) : State :=
  let reason := k.op24.toNat % 256
  let psn := k.op24.toNat / 256
  let id := k.op28.extractLsb' 16 16
  let s1 := s.count bKVT (kvtInst (s.conn cid)) 0xC20 1
  let c := s1.conn cid
  match reason with
  | 1 =>
    if psnDiff psn c.a < psnDiff c.nMax c.a then
      s1.setConn cid { (c.suspectPsn psn) with n := psn, retries := c.retries + 1, txParked := false }
    else s1
  | 2 => s1.nakEnd cid 2 id
  | 3 => s1.nakEnd cid 3 id
  | 4 => s1.nakEnd cid 4 id
  | 5 => s1.setConn cid { c with noRecv := some psn }
  | 6 => s1.nakEnd cid 6 id
  | 7 => s1.nakEnd cid 7 id
  | 8 => s1.connError cid 0x0008
  | 9 => s1.setConn cid { c with txParked := true, n := c.a }
  | _ => s1.connError cid 0x000B

/-- A NAK with ECHO finds its connection by the peer's address and CID (R521). -/
def State.rxEcho (s : State) (k : Pkt) : State :=
  match s.conns.find? (fun x => isOpen x.2 && x.2.state != .connecting && x.2.peerAddr == k.src && x.2.peerCid == k.cid.toNat) with
  | some x =>
    let psn := k.op24.toNat / 256
    if psnDiff psn x.2.a < psnDiff x.2.nMax x.2.a then s.rxNak x.1 k else s
  | none => s

/-- GRANT raises a message's granted offset. -/
def State.rxGrant (s : State) (cid : Nat) (k : Pkt) : State :=
  let id := k.op28.extractLsb' 16 16
  s.updConn cid (fun c => { c with txq := c.txq.map (fun m =>
    if m.first.isSome && m.msgId = id then { m with granted := max m.granted k.op24.toNat } else m) })

/-- MOVED: the peer has a new address, or is gone (R320). -/
def State.rxMoved (s : State) (cid : Nat) (k : Pkt) : State :=
  let b := k.payload
  if (b.getD 12 0).getLsbD 0 then s.connError cid 0x000C
  else s.updConn cid (fun c => { c with
    peerCid := beNat (b.take 4) / 4096, peerPort := beNat ((b.drop 14).take 2)
    peerAddr := BitVec.ofNat 128 (beNat ((b.drop 16).take 16)), suspect := [], probing := [], retries := 0
    n := c.a, txParked := false })

/-- The MOVED answer of a forwarding connection. -/
def State.sendMoved (s : State) (cid : Nat) : State :=
  let c := s.conn cid
  let b := beBytes 4 (c.fwdCid * 4096) ++ List.replicate 8 0 ++ [BitVec.ofNat 8 c.gone.toNat, 0] ++
    beBytes 2 c.fwdPort ++ beBytes 16 c.fwdAddr.toNat
  (s.count bKVT (kvtInst c) 0xC60 1).txCtl cid 0x13 { payload := b }

/-! ## A packet of a connection -/

/-- A packet of a connection in the interval of its window, and whether it came with CE (R308). -/
def State.noteCe (s : State) (cid : Nat) (k : Pkt) : State :=
  let s1 := s.updConn cid (fun c => { c with pktsInt := c.pktsInt + 1, ceInt := c.ceInt + k.ce.toNat })
  if k.ce then s1.count bKVT (kvtInst (s.conn cid)) 0xC58 1 else s1

/-- What a verified packet does. -/
def State.rxVerified (s0 : State) (cid op : Nat) (k : Pkt) : State :=
  let s := s0.noteCe cid k
  match op with
  | 0x10 =>
    let s1 := s.rxAck cid k
    if k.probe then s1.updConn cid (fun c => { c with
      suspect := c.suspect.filter (fun l => some l != c.probing.head?), probing := c.probing.drop 1 }) else s1
  | 0x11 => s.rxNak cid k
  | 0x12 => s.rxGrant cid k
  | 0x13 => s.rxMoved cid k
  | 0x32 => if k.op24.toNat % 256 = 1 then s.connError cid 0x0001 else s.rxData cid 0x32 k
  | o => if isData o then s.rxData cid o k else s

/-- Whether a partition's connections answer with NAK 0x0A (R394). -/
def State.quietPart (s : State) (p : Nat) : Bool :=
  (s.part p).lstate == .quiescing || (s.part p).lstate == .quiesced

/-- A packet of a cached connection: header, then trailer, then what it does. -/
def State.rxCached (s : State) (cid op : Nat) (k : Pkt) : State :=
  let s0 := s.cacheTouch cid
  let c := s0.conn cid
  let i := kvtInst c
  match c.state with
  | .free => s0
  | .connecting => s0
  | .forwarding => s0
  | .error => if s0.quietPart c.part then s0.limited cid (fun s => s.sendNak cid 0x0A k.psn.toNat k.msgId) else s0
  | .frozen =>
    if op = 0x10 || op = 0x11 || op = 0x12 then s0
    else s0.limited cid (fun s => (s.sendNak cid 0x09 k.psn.toNat k.msgId).count bPART c.part 0xC20 1)
  | _ =>
    if headerBad c op k then s0.badHeader i
    else if !k.fcsOk then (if isData op then s0.placeFailed cid op k else s0)
    else
      match verify c k with
      | .phase => s0.count bCIPH i 0xC20 1
      | .failed e => (if isData op then s0.placeFailed cid op k else s0).trailerFail cid e
      | .good e =>
        let s1 := if c.enc then s0.count bCIPH i 0xC00 1 else s0
        ((s1.updConn cid (fun c => c.sawEpoch e)).rxKeyDue cid).rxVerified cid op k

/-- A packet for a connection whose context is not cached joins its miss list (R296). -/
def State.rxMiss (s : State) (cid op : Nat) (k : Pkt) : State :=
  let fd := (s.conn cid).home
  let d := s.kvtDie fd
  if s.fld bKVT 0 0x05C 0 8 ≤ (d.misses.filter (fun m => m.1 == cid)).length then
    (s.count bKVT (dieInst fd) 0xC30 1).raise bKVT (dieInst fd) 1 (BitVec.ofNat 32 cid)
  else
    let s1 := s.setKvtDie fd { d with misses := d.misses ++ [(cid, k, op)] }
    (s1.poolRaw k.port ((s1.port k.port).pool + pktLen op k)).fetchCtx cid

/-- A packet for a CID without a context: its header and, where it has no tag, its trailer are checked, and it is
answered (R290, R521). -/
def State.rxStray (s : State) (op : Nat) (k : Pkt) : State :=
  let i := dieInst (decide (12 ≤ k.port))
  if k.version != 1 || !opKnown op then s.badHeader i
  else if !k.fcsOk then s
  else if !k.flags.getLsbD 5 && !k.trailerOk then s.count bKVT i 0xC38 1
  else s.unknownCid op k

/-- A packet leaves the pool of its port for the transport. -/
def State.rx (s : State) (op : Nat) (k : Pkt) : State :=
  let cid := k.cid.toNat
  let s0 := s.poolRaw k.port ((s.port k.port).pool - pktLen op k)
  let s1 := match (s0.conn cid).state with
    | .free => s0.rxStray op k
    | .forwarding => s0.limited cid (fun s => s.sendMoved cid)
    | _ => (if s0.cached cid then s0.rxCached cid op k else s0.rxMiss cid op k).exhaust cid
  (s1.poolTo k.port (s1.port k.port).pool).settle

def execKvtWrite (k : Pkt) (s : State) : Res := .next (s.rx 0x01 k)
def execKvtWriteImm (k : Pkt) (s : State) : Res := .next (s.rx 0x02 k)
def execKvtReadReq (k : Pkt) (s : State) : Res := .next (s.rx 0x03 k)
def execKvtReadResp (k : Pkt) (s : State) : Res := .next (s.rx 0x04 k)
def execKvtSend (k : Pkt) (s : State) : Res := .next (s.rx 0x05 k)
def execKvtAtomicReq (k : Pkt) (s : State) : Res := .next (s.rx 0x06 k)
def execKvtAtomicResp (k : Pkt) (s : State) : Res := .next (s.rx 0x07 k)
def execKvtReduce (k : Pkt) (s : State) : Res := .next (s.rx 0x08 k)
def execKvtCollUp (k : Pkt) (s : State) : Res := .next (s.rx 0x20 k)
def execKvtCollDown (k : Pkt) (s : State) : Res := .next (s.rx 0x21 k)
def execKvtClose (k : Pkt) (s : State) : Res := .next (s.rx 0x32 k)
def execKvtGrant (k : Pkt) (s : State) : Res := .next (s.rx 0x12 k)
def execKvtMoved (k : Pkt) (s : State) : Res := .next (s.rx 0x13 k)
/-- An ACK; with PROBE = 1 it answers a probe of this module. -/
def execKvtAck (k : Pkt) (s : State) : Res := .next (s.rx 0x10 k)
/-- A probe of the peer: answered at once by an ACK with PROBE = 1 (R298). -/
def execKvtProbe (k : Pkt) (s : State) : Res :=
  let cid := k.cid.toNat
  let s1 := s.rx 0x10 { k with probe := false }
  let c := s1.conn cid
  .next (if (c.state = .open_ || c.state = .closing) && s1.cached cid && !headerBad c 0x10 k && k.fcsOk &&
      (match verify c k with | .good _ => true | _ => false) then
    s1.txCtl cid 0x10 { probe := true, op24 := BitVec.ofNat 32 (c.ackLimit * 256)
                        op28 := BitVec.ofNat 32 ((c.hemNext - 1).toNat * 65536) }
  else s1)
/-- A packet of any opcode, or an unknown one, that names a CID without a context. -/
def execUnknownCidPacket (k : Pkt) (opcode : Byte) (s : State) : Res :=
  .next (if (s.conn k.cid.toNat).state = .free || !opKnown opcode.toNat then s.rx opcode.toNat k else s)

/-- CONTEXT_FETCH_DONE: the miss list is processed in order, and queues that wait go on; a context whose
line is uncorrectable puts the connection in error (R477). -/
def execContextFetchDone (cid : Nat) (s : State) : Res :=
  let fd := (s.conn cid).home
  let d := s.kvtDie fd
  .next (if !d.fetch.contains cid then s
  else
    let mine := d.misses.filter (fun m => m.1 == cid)
    let s1 := (s.setKvtDie fd { d with fetch := d.fetch.erase cid, misses := d.misses.filter (fun m => m.1 != cid) }).cacheTouch cid
    let base := (s.reg bKVT 0 0x068).toNat / 4096 * 4096 + s.fld bKVT 0 0x06C 0 16 * 2 ^ 32
    let s2 := if s1.bad (base + cid * 256) 256 then s1.connError cid 0x0006 else s1
    (mine.foldl (fun s m => s.rx m.2.2 m.2.1) s2).settle)

/-! ## Opening (R294, R295) -/

/-- Connections that count as open on a die. -/
def State.dieConns (s : State) (fd1 : Bool) : Nat :=
  (s.conns.filter (fun x => isOpen x.2 && x.2.home == fd1)).length
def State.diePinned (s : State) (fd1 : Bool) : Nat :=
  (s.conns.filter (fun x => isOpen x.2 && x.2.home == fd1 && x.2.pin)).length
/-- The home die of a new connection. -/
def State.newHome (s : State) : Bool := decide (s.dieConns true < s.dieConns false)
/-- Whether a partition may have one more connection of a class (R294, R386, R428). -/
def State.connRoom (s : State) (p cls : Nat) (enc : Bool) : Bool :=
  (s.partConns p).length < s.fld bPART p 0x060 0 21 && Nat.testBit (s.fld bPART p 0x074 0 8) cls &&
    (!enc || (s.pkeys p).root.isSome)
/-- Whether an ID may be given to a new connection. -/
def State.cidFree (s : State) (cid : Nat) : Bool :=
  decide (cid < 2 ^ 20) && (s.conn cid).state == .free && s.colls.all (fun x => !(collEdges x.2.d).contains cid)

/-- The 32 bytes of CONNECT and ACCEPT (Table 12-7). -/
def openBytes (c : Conn) (cid : Nat) (tag : W32) : List Byte :=
  beBytes 4 (cid * 4096) ++ beBytes 4 (c.psn0 * 256) ++ beBytes 4 c.salt.toNat ++
  [BitVec.ofNat 8 c.offer.toNat, BitVec.ofNat 8 (c.enc.toNat + 2 * c.pin.toNat + 4 * c.cls), 0, 0] ++
  beBytes 4 tag.toNat ++ List.replicate 12 0
/-- Sends CONNECT or ACCEPT for a connection. -/
def State.sendOpen (s : State) (cid op : Nat) : State :=
  let c := s.conn cid
  let k : Pkt := { src := c.localAddr, dst := c.peerAddr, cid := if op = 0x30 then 0 else BitVec.ofNat 20 c.peerCid, tc := BitVec.ofNat 3 c.cls
                   flags := 3, length := 32, payload := openBytes c cid (if op = 0x30 then c.listen else 0)
                   udpSrc := s.labelPort cid c.nextLabel, udpDst := c.peerPort }
  s.txPlain (s.linkOf cid c.nextLabel) c.home op k

/-- The context of a new connection of this module. -/
def State.freshConn (s : State) (p : Nat) (m : Pick) (cls : Nat) (enc pin opener : Bool) (offer : BitVec 2)
    (listen : W32) (peer : BitVec 128) : Conn :=
  { part := p, home := s.newHome, pin := pin, enc := enc, opener := opener, offer := offer, mtu := mtuOf offer, cls := cls
    listen := listen, peerAddr := peer, peerPort := s.fld bKVT 0 0x040 0 16, salt := m.salt, sends := 1
    psn0 := m.psn.toNat, a := m.psn.toNat, n := m.psn.toNat, nMax := m.psn.toNat, uc := s.fld bKVT 0 0x050 0 7 * 1024
    wc := s.fld bKVT 0 0x054 16 8 * 65536, txLog2 := s.fld bCIPH 0 0x040 0 6, txNextLog2 := s.fld bCIPH 0 0x040 0 6 }

/-- The partition a CONNECT is for: the one that owns its destination address, if it is active. -/
def State.connectPart (s : State) (a : BitVec 128) : Option Nat :=
  let own (p : Nat) : Bool := a != 0 && (List.range 4).any (fun i => s.partIp p i == a.toNat)
  if own 0 then some 0
  else (s.parts.find? (fun x => x.1 != 0 && x.2.lstate == .active && own x.1)).map Prod.fst

/-- A CONNECT that is not accepted is counted. -/
def State.connectIgnored (s : State) (port : Nat) : State := s.count bKVT (dieInst (decide (12 ≤ port))) 0xC78 1

/-- A CONNECT arrives. -/
def State.rxConnect (s : State) (k : Pkt) (m : Pick) : State :=
  let b := k.payload
  let peerCid := beNat (b.take 4) / 4096
  let tag : W32 := BitVec.ofNat 32 (beNat ((b.drop 16).take 4))
  let f := b.getD 13 0
  let enc := f.getLsbD 0
  let pin := f.getLsbD 1
  let cls := bitsAt f.toNat 2 3
  match s.conns.find? (fun x => !x.2.opener && (x.2.state == .open_) && x.2.peerAddr == k.src && x.2.peerCid == peerCid) with
  | some x => s.sendOpen x.1 0x31
  | none =>
    match s.connectPart k.dst with
    | none => s.connectIgnored k.port
    | some p =>
      let listed := tag != 0 && (List.range 4).any (fun i => s.reg bPART p (0x080 + 4 * i) == tag)
      if !listed || !s.connRoom p cls enc || !s.cidFree m.cid then s.connectIgnored k.port
      else if pin && 4096 ≤ s.diePinned s.newHome then
        (s.raise bKVT (dieInst s.newHome) 4).connectIgnored k.port
      else
        let offer : BitVec 2 := (b.getD 12 0).setWidth 2
        let c := s.freshConn p m cls enc pin false 2 tag k.src
        let c1 := { c with
          state := .open_, localAddr := k.dst, peerCid := peerCid, peerSalt := BitVec.ofNat 32 (beNat ((b.drop 8).take 4))
          e := beNat ((b.drop 4).take 4) / 256, mtu := min (mtuOf offer) (mtuOf 2) }
        ((s.setConn m.cid c1).cacheTouch m.cid).sendOpen m.cid 0x31

/-- CONNECT, ACCEPT, MGMT and a NAK with ECHO carry a CRC-32C trailer and no encryption. -/
def State.plainOk (s : State) (op : Nat) (k : Pkt) (f : State → State) : State :=
  let i := dieInst (decide (12 ≤ k.port))
  let s0 := s.poolFree k.port (pktLen op k)
  if k.version != 1 then s0.badHeader i
  else if !k.fcsOk then s0
  else if !k.trailerOk then s0.count bKVT i 0xC38 1
  else f s0

/-- A NAK; with ECHO it names the CID the answered packet named, and has no protection (R521). -/
def execKvtNak (k : Pkt) (s : State) : Res :=
  .next (if k.op28.getLsbD 0 then
    (s.plainOk 0x11 k (fun s => if k.flags.getLsbD 5 then s else s.rxEcho k)).settle
  else s.rx 0x11 k)

def execKvtConnect (k : Pkt) (mine : Pick) (s : State) : Res := .next (s.plainOk 0x30 k (fun s => s.rxConnect k mine))

/-- ACCEPT: the connection is open, and its CONN_OPEN done. -/
def State.rxAccept (s : State) (k : Pkt) : State :=
  let cid := k.cid.toNat
  let c := s.conn cid
  if c.state != .connecting then s
  else
    let b := k.payload
    let offer : BitVec 2 := (b.getD 12 0).setWidth 2
    let s1 := s.setConn cid { c with
      state := .open_, peerCid := beNat (b.take 4) / 4096, e := beNat ((b.drop 4).take 4) / 256
      peerSalt := BitVec.ofNat 32 (beNat ((b.drop 8).take 4)), mtu := min (mtuOf offer) (mtuOf c.offer), cmd := none }
    match c.cmd with
    | some x => s1.finish x 0 [BitVec.ofNat 64 cid]
    | none => s1
def execKvtAccept (k : Pkt) (s : State) : Res := .next (s.plainOk 0x31 k (fun s => s.rxAccept k))

/-- CONNECT_RESEND: after 8 sends unanswered the connection fails and is free. -/
def execConnectResend (cid : Nat) (s : State) : Res :=
  let c := s.conn cid
  .next (if c.state != .connecting then s
  else if c.sends < 8 then (s.setConn cid { c with sends := c.sends + 1 }).sendOpen cid 0x30
  else
    let s1 := (s.cacheDrop cid).setConn cid {}
    match c.cmd with
    | some x => s1.finish x 0x0004
    | none => s1)

/-! ## Timers -/

def connLive (c : Conn) : Bool := c.state == .open_ || c.state == .closing

def execAckTimer (cid : Nat) (s : State) : Res :=
  .next (if connLive (s.conn cid) && 0 < (s.conn cid).accepted then (s.sendAck cid).exhaust cid else s)

/-- A gap has lasted for KVT_REORDER (R303). -/
def execReorderTimeout (cid : Nat) (s : State) : Res :=
  let c := s.conn cid
  .next (if connLive c && !c.parked && !c.got.isEmpty then s.sendNak cid 0x01 c.e 0 else s)

/-- KVT_RTO without progress: resend from A, or probe a parked peer with the packet at A (R303, R304). -/
def execRetransmitTimeout (cid : Nat) (s : State) : Res :=
  let c := s.conn cid
  .next ((if !connLive c || c.a = c.nMax then s
  else if c.txParked then
    let s1 := (s.setConn cid { c with n := c.a }).resend cid
    s1.updConn cid (fun x => { x with n := x.a })
  else if s.fld bKVT 0 0x04C 16 4 ≤ c.retries then s.connError cid 0x000A
  else s.setConn cid { (c.suspectPsn c.a) with
    retries := c.retries + 1, n := c.noRecv.getD c.a, noRecv := none }).settle)

/-- The hold of a suspect label ends: one probe goes out on it (R298). -/
def execLabelHoldExpire (cid k : Nat) (s : State) : Res :=
  let c := s.conn cid
  .next (if connLive c && c.suspect.contains k && !c.probing.contains k then
    (s.setConn cid { c with probing := c.probing ++ [k] }).txPkt cid 0x10
      { probe := true, op24 := BitVec.ofNat 32 (c.ackLimit * 256), op28 := BitVec.ofNat 32 ((c.hemNext - 1).toNat * 65536) } k
  else s)
/-- No answer to a probe: the label stays suspect for a further hold. -/
def execProbeTimeout (cid k : Nat) (s : State) : Res :=
  .next (s.updConn cid (fun c => { c with probing := c.probing.filter (· != k) }))

/-- 10 µs of U_c (R306). -/
def execUnsolTimer (cid : Nat) (s : State) : Res :=
  .next (if connLive (s.conn cid) then
    s.updConn cid (fun c => if c.echoed then { c with echoed := false }
      else { c with uc := max c.uc (min (c.uc + 4096) (s.fld bKVT 0 0x050 0 7 * 1024)) })
  else s)

/-- 10 µs of W_c (R308); a product that is no whole number is rounded, which way is free. -/
def State.windowUpdate (s : State) (cid : Nat) : State :=
  let c := s.conn cid
  let num := c.wc * (2 * c.pktsInt - c.ceInt)
  let den := 2 * c.pktsInt
  let w := if c.ceInt = 0 then min (s.fld bKVT 0 0x054 16 8 * 65536) (c.wc + 65536)
    else max 4096 (num / den + (if num % den != 0 && s.freeBit 8 then 1 else 0))
  (s.setConn cid { c with wc := w, pktsInt := 0, ceInt := 0 }).freshen
def execGrantWindowUpdate (cid : Nat) (s : State) : Res :=
  .next (if connLive (s.conn cid) then (s.windowUpdate cid).grants (s.conn cid).home else s)

def execGrantTimer (cid : Nat) (s : State) : Res :=
  .next (if connLive (s.conn cid) then (s.grants (s.conn cid).home).grantOut cid 1 else s)
/-- No granted byte has come within KVT_REORDER: the latest GRANT again (R307). -/
def execGrantResend (cid : Nat) (msgId : BitVec 16) (s : State) : Res :=
  let c := s.conn cid
  .next (match c.rxq.find? (fun m => m.msgId == msgId) with
  | some m => if connLive c && !m.ended && 0 < m.pendingGrant c.mtu && m.unsol < m.grantSent then
      s.sendGrant cid { m with granted := m.grantSent } else s
  | none => s)

/-- KVT_SEND_PACKET. -/
def execKvtSendPacket (cid : Nat) (s : State) : Res := .next ((s.sendNext cid).settle)

/-! ## Collective rows -/

/-- Messages on a group's edges that waited for a slot hem and are granted. -/
def State.edgesGo (s : State) (h : Nat) : State :=
  (collEdges (s.coll h).d).foldl (fun s cid =>
    let s1 := s.hemAll cid
    (s1.grants (s1.conn cid).home).ackDue cid) s

/-- COLL_CHUNK_COMBINE. -/
def execCollChunkCombine (h : Nat) (s : State) : Res := .next (((s.collCombine h).edgesGo h).settle)

/-- COLL_SLOTS_GRANTED: the first waiting run of a die gets its slots. -/
def execCollSlotsGranted (fd1 : Bool) (s : State) : Res :=
  .next (match s.collWait.find? (fun h => (s.coll h).d.home == fd1) with
  | some h => (s.grantSlots fd1).edgesGo h
  | none => s)

end Sys2Proof.Machine
end

