-- ==== Sys2Proof/Machine/Keys.lean ====
section
/-! DEFINITION. Cipher engine, key delivery, epochs and erasure (18_cipher_and_keys R422-R444), and the
known-answer tests of its cores (21_test_sparing_telemetry R496). Cores of a die are numbered AES-GCM 0-39,
SHA-384/HMAC 40-43, elliptic-curve 44-45 (log entry 34). -/

namespace Sys2Proof.Machine

/-- A die's half of a pair. -/
def ofDie {α : Type} (fd1 : Bool) (x : α × α) : α := if fd1 then x.2 else x.1
/-- Replaces a die's half of a pair. -/
def setDie {α : Type} (fd1 : Bool) (x : α × α) (v : α) : α × α := if fd1 then (x.1, v) else (v, x.2)

/-! ## Cores (R435-R437) -/

/-- Number of a core module-wide. -/
def coreNo (fd1 : Bool) (core : Nat) : Nat := dieInst fd1 * 64 + core

/-- The lowest-numbered line core of a die still in service. -/
def State.lineCore (s : State) (fd1 : Bool) (not_ : Nat) : Nat :=
  ((List.range 40).find? (fun c => c != not_ && !s.ciph.retired.contains (dieInst fd1, c))).getD not_

/-- A core is retired: CIPH_CORES drops it, and a retired reserved core is replaced (R437). -/
def State.retireCore (s : State) (fd1 : Bool) (core : Nat) : State :=
  let y := s.ciph
  if y.retired.contains (dieInst fd1, core) || 46 ≤ core then s
  else
    let s1 : State := { s with ciph := { y with
      retired := y.retired ++ [(dieInst fd1, core)]
      aes := if core < 40 then setDie fd1 y.aes (ofDie fd1 y.aes - 1) else y.aes
      sha := if 40 ≤ core && core < 44 then setDie fd1 y.sha (ofDie fd1 y.sha - 1) else y.sha
      ec := if 44 ≤ core then setDie fd1 y.ec (ofDie fd1 y.ec - 1) else y.ec } }
    let s2 : State := if core < 40 && ofDie fd1 y.reserved = core then
        { s1 with ciph := { s1.ciph with reserved := setDie fd1 y.reserved (s1.lineCore fd1 core) } }
      else s1
    s2.raise bCIPH (dieInst fd1) 3 (BitVec.ofNat 32 core)

/-- A core takes part in a mismatch; the second one within 24 h retires it. -/
def State.noteCore (s : State) (fd1 : Bool) (core : Nat) : State :=
  let k := coreNo fd1 core
  let l := s.ciph.mism.filter (fun x => s.align < x.2 + dayPeriods)
  let s1 : State := { s with ciph := { s.ciph with mism := l ++ [(k, s.align)] } }
  if l.any (fun x => x.1 == k) then s1.retireCore fd1 core else s1

/-- Kinds of root-class job by the cores they run on (R436). -/
inductive RootKind where
  | unwrap
  | derive
  | signature
  deriving DecidableEq, Repr

/-- The two cores of a job: an unwrap's the reserved one and a line core, a derivation's those of a pair, an
elliptic-curve job's both of these; of several that would do, those named. -/
def State.rootCores (s : State) (fd1 : Bool) (k : RootKind) (t : Twice) : Nat × Nat :=
  match k with
  | .unwrap =>
    let r := ofDie fd1 s.ciph.reserved
    let free (c : Nat) : Bool := decide (c < 40) && c != r && !s.ciph.retired.contains (dieInst fd1, c)
    (r, if free t.c2 then t.c2 else s.lineCore fd1 r)
  | .derive =>
    let gone (c : Nat) : Bool := s.ciph.retired.contains (dieInst fd1, c)
    if (42 ≤ t.c1 && t.c1 < 44 && !gone 42 && !gone 43) || gone 40 || gone 41 then (42, 43) else (40, 41)
  | .signature => (44, 45)

/-- Two computations of a root-class job disagree: nothing is released, the event is set, both cores are
noted. How ERR_INFO0 and ERR_INFO1 code the job kind and the cores is not stated (log entry 4). -/
def State.mismatch (s : State) (fd1 : Bool) (c : Nat × Nat) : State :=
  let i := dieInst fd1
  let s1 := ((s.count bCIPH i 0xC28 1).raise bCIPH i 2 (BitVec.ofNat 32 (s.freeIn 0 0 (2 ^ 32 - 1)))
    (BitVec.ofNat 32 (s.freeIn 1 0 (2 ^ 32 - 1)))).freshen
  (s1.noteCore fd1 c.1).noteCore fd1 c.2

/-- A root-class job runs twice, with one rerun; true: its result is released (R436, R437). -/
def State.rootJob (s : State) (fd1 : Bool) (k : RootKind) (t : Twice) : State × Bool :=
  let i := dieInst fd1
  if t.agrees then (s.count bCIPH i 0xC08 1, true)
  else
    let s1 := s.mismatch fd1 (s.rootCores fd1 k t)
    if t.rerun then (s1.count bCIPH i 0xC08 1, true) else (s1.count bCIPH i 0xC28 1, false)

/-! ## The key hierarchy (R424, Table 18-2) -/

/-- Bytes of an ASCII label. -/
def ascii (l : List Char) : List Byte := l.map (fun c => BitVec.ofNat 8 c.toNat)
/-- What block i of a derivation hashes: the counter, the label, a zero, the context and the length in bits. -/
def kdfInput (i : Nat) (label : List Char) (context : List Byte) (bits : Nat) : List Byte :=
  beBytes 4 i ++ ascii label ++ [0] ++ context ++ beBytes 4 bits
/-- A derivation: the first bits of its two blocks. -/
def kdf (key : List Byte) (label : List Char) (context : List Byte) (bits : Nat) : BitVec bits :=
  let block (i : Nat) : BitVec 384 := Config.hmac384 key (kdfInput i label context bits)
  (block 1 ++ block 2).extractLsb' (768 - bits) bits
def labelKek : List Char := ['R', 'O', 'O', 'T', '-', 'K', 'E', 'K']
def labelData : List Char := ['D', 'R', 'A', 'M', '-', 'X', 'T', 'S']
def labelWire : List Char := ['K', 'V', 'T', '-', 'W', 'I', 'R', 'E']
def labelId : List Char := ['I', 'D', '-', 'K', 'E', 'Y']
def labelImage : List Char := ['I', 'M', 'G', '-', 'S', 'E', 'A', 'L']
/-- The private scalar d of the identity (R445). -/
def identityScalar : Nat :=
  (kdf (beBytes 32 Config.identitySecret.toNat) labelId (beBytes 8 Config.serial.toNat) 512).toNat
    % (Config.curveOrder - 1) + 1
/-- The key-wrap key, from the x-coordinate of the secret that the identity key and the manager's key-delivery key
make. -/
def State.keyWrap (s : State) : BitVec 256 :=
  kdf (beBytes 48 (Config.ecdhSecret s.store.operator.2).toNat) labelKek (beBytes 48 (Config.sha384 (beBytes 97 Config.publicKey.toNat)).toNat) 256
/-- The root of a partition's data keys: the storage root for partition 0, which has no root ID and no provisioning
number. -/
def State.dataKey (s : State) (p n : Nat) : BitVec 512 :=
  let k := s.pkeys p
  let root := if p = 0 then s.ciph.storageRoot else k.root.getD 0
  kdf (beBytes 32 root.toNat) labelData
    (beBytes 4 (if p = 0 then 0 else k.rootId.toNat) ++ beBytes 2 p ++ beBytes 1 n ++ beBytes 4 (if p = 0 then 0 else k.prov)) 512
/-- The context of a wire key: root ID, the CIDs of opener and accepter, direction and epoch. -/
def wireContext (rootId opener accepter : Nat) (back : Bool) (epoch : Nat) : List Byte :=
  beBytes 4 rootId ++ beBytes 4 opener ++ beBytes 4 accepter ++ beBytes 1 back.toNat ++ beBytes 4 epoch
/-- The wire key of a direction of a connection for an epoch. -/
def State.wireKey (s : State) (cid : Nat) (tx : Bool) (epoch : Nat) : BitVec 256 :=
  let c := s.conn cid
  let k := s.pkeys c.part
  kdf (beBytes 32 (k.root.getD 0).toNat) labelWire
    (wireContext k.rootId.toNat (if c.opener then cid else c.peerCid) (if c.opener then c.peerCid else cid)
      (c.opener != tx) epoch) 256
/-- The key that seals an image (R434). -/
def State.imageKey (s : State) (p image : Nat) : BitVec 256 :=
  let k := s.pkeys p
  kdf (beBytes 32 (k.root.getD 0).toNat) labelImage (beBytes 4 k.rootId.toNat ++ beBytes 8 image) 256

/-! ## Delivery and erasure (R426, R427, R439, R440) -/

/-- Whether any alarm condition or the lid latch is present (R441). -/
def State.alarmed (s : State) : Bool := s.ciph.cond != 0 || s.ciph.lid

/-- KEY_ROOT: unwrap, a new PKEK, the next provisioning number, the sixteen data keys, a root job each. -/
def State.keyRoot (s : State) (c : Cmd) (p : Nat) (rootId : W32) (wrapped : BitVec 320) (t : Twice) : State :=
  let y := s.pkeys p
  if 1023 < p then s.answer c 0x0701 0x0003
  else if s.alarmed || y.root.isSome then s.answer c 0x0701 0x0004
  else
    match s.rootJob s.ident.active .unwrap t with
    | (s1, false) => s1.answer c 0x0701 0x0007
    | (s1, true) =>
      match Config.unwrap s.keyWrap wrapped with
      | none => s1.answer c 0x0701 0x0007
      | some r =>
        let s2 := s1.count bCIPH (dieInst s.ident.active) 0xC08 16
        let k : PKeys := { root := some r, rootId := rootId, erased := false, prov := y.prov + 1,
                           pkek := BitVec.ofNat 256 (Config.freeNat s1.fresh 5) }
        ((s2.setPkeys p k).freshen).answer c 0x0701 0

def execKeyRoot (c : Cmd) (p : Nat) (rootId : W32) (wrapped : BitVec 320) (t : Twice) (s : State) : Res :=
  .next (s.command c 0x0701 (chanOk c false true false false) (fun s => s.keyRoot c p rootId wrapped t))

/-- A partition's root, PKEK and derived keys go; its encrypted connections enter error with key erased. -/
def State.eraseRoot (s : State) (p : Nat) : State :=
  let s1 := s.setPkeys p { s.pkeys p with root := none, erased := true, pkek := 0 }
  (s1.partConns p).foldl (fun s cid => if (s.conn cid).enc then s.connError cid 0x0008 else s) s1

/-- KEY_ERASE. -/
def State.keyErase (s : State) (p : Nat) : State :=
  let s1 := ((s.eraseRoot p).count bCIPH 0 0xC30 1).count bCIPH 1 0xC30 1
  (s1.raise bCIPH 0 1 (BitVec.ofNat 32 p)).raise bCIPH 1 1 (BitVec.ofNat 32 p)

def execKeyErase (c : Cmd) (p : Nat) (s : State) : Res :=
  .next (s.command c 0x0702 (chanOk c false true false false) (fun s =>
    if 1023 < p then s.answer c 0x0702 0x0003 else ((s.keyErase p).answer c 0x0702 0).settle))

/-- A restore in progress fails under an alarm; its partition stays restoring (R442). -/
def State.alarmRestores (s : State) : State :=
  s.parts.foldl (fun s x =>
    match x.2.lstate, x.2.cmd with
    | .restoring, some c => (s.setPart x.1 { s.part x.1 with cmd := none }).finish c 0x0004
    | _, _ => s) s

/-- ALARM (R438, R439): every tenant's keys are erased on both dies in hardware. -/
def State.alarm (s : State) (cause : Nat) : State :=
  let s1 : State := { s with ciph := { s.ciph with
    cond := s.ciph.cond ||| BitVec.ofNat 4 (2 ^ (cause - 1)), lid := s.ciph.lid || cause == 4 } }
  let ps := (s1.keys.filter (fun x => x.1 != 0 && x.2.root.isSome)).map Prod.fst
  let s2 := ps.foldl (fun s p => s.eraseRoot p) s1
  let s3 := (s2.count bCIPH 0 0xC30 1).count bCIPH 1 0xC30 1
  ((s3.raise bCIPH 0 0 (BitVec.ofNat 32 cause)).raise bCIPH 1 0 (BitVec.ofNat 32 cause)).alarmRestores

def execAlarm (cause : Nat) (s : State) : Res :=
  .next (if s.powered && 1 ≤ cause && cause ≤ 4 then (s.alarm cause).settle else s)

/-- ALARM_CLEAR (R441): the condition has been absent for 1 s; the lid stays latched. -/
def execAlarmClear (cause : Nat) (s : State) : Res :=
  .next (if 1 ≤ cause && cause ≤ 4 then
    { s with ciph := { s.ciph with cond := s.ciph.cond &&& ~~~(BitVec.ofNat 4 (2 ^ (cause - 1))) } } else s)

/-! ## Epoch keys (R430, R431, R437) -/

/-- Derivations a die's two pairs have in hand: the two oldest of the epoch queue whose connections still need
them (R423). -/
def State.epochHands (s : State) (fd1 : Bool) : List (Nat × Bool) :=
  (s.ciph.epochQ.filter (fun x =>
    let c := s.conn x.1
    c.home == fd1 && c.enc && (s.pkeys c.part).root.isSome &&
      (c.state == .open_ || c.state == .closing || c.state == .frozen))).take 2

/-- EPOCH_KEY_DERIVED: the next epoch's key of a direction is released; a job that fails ends the
connection with data error. -/
def execEpochKeyDerived (cid : Nat) (tx : Bool) (t : Twice) (s : State) : Res :=
  let c := s.conn cid
  .next (if !(s.epochHands c.home).contains (cid, tx) then s
  else
    match ({ s with ciph := { s.ciph with epochQ := s.ciph.epochQ.erase (cid, tx) } } : State).rootJob c.home .derive t with
    | (s1, false) => (s1.connError cid 0x0006).settle
    | (s1, true) =>
      if tx then s1.setConn cid { c with txNext := true, txNextLog2 := s.fld bCIPH 0 0x040 0 6, stall := false } else s1)

/-! ## Known-answer tests (R496) -/

/-- KAT_RUN: one test of a core; a failed one is rerun, and a second failure retires the core. -/
def execKatRun (fd1 : Bool) (core : Nat) (ok rerunOk : Bool) (s : State) : Res :=
  .next (if !s.powered || 46 ≤ core || s.fld bTEST 0 0x040 2 1 = 0 || s.ciph.retired.contains (dieInst fd1, core) then s
  else
    let s1 := s.count bTEST 0 0xC30 1
    if ok then s1
    else
      let s2 := s1.count bTEST 0 0xC30 1
      if rerunOk then s2
      else (s2.raise bTEST 0 5 (BitVec.ofNat 32 core)).retireCore fd1 core)

end Sys2Proof.Machine
end

