-- ==== Sys2Proof/Machine/Partitions.lean ====
section
/-! DEFINITION. Partitions (16_partitions R384-R405): resources, the life cycle, quiesce, freeze,
migration, and the translation record a partition is given (09_memory_and_translation R226). -/

namespace Sys2Proof.Machine

/-! ## The frame of a partition command (R391, R405, R419-R421, R509) -/

/-- A refused command sets PART EVENTS.CMD_REFUSED with its return code (Table 16-7). -/
def State.refusePart (s : State) (c : Cmd) (op p rc : Nat) : State :=
  (if p < 1024 then s.raise bPART p 5 (BitVec.ofNat 32 rc) else s).answer c op rc

/-- Manager channel, a partition number, no other accepted command unless `free` orders the two
(Table 16-4), and no lock on the PART page where the command writes it. -/
def State.partCmd (s : State) (c : Cmd) (op p : Nat) (writes free : Bool) (k : State → State) : State :=
  s.command c op (chanOk c true false false false) (fun s =>
    if 1023 < p then s.answer c op 0x0003
    else if writes && s.locked bPART p then s.refusePart c op p 0x0004
    else if (s.part p).cmd.isSome && !free then s.refusePart c op p 0x0006
    else (k s).settle)

/-- Moves a partition to a state. -/
def State.setLstate (s : State) (p : Nat) (l : LState) : State := s.setPart p { s.part p with lstate := l }
/-- The command of a partition that was accepted gets its final reply. -/
def State.partFinish (s : State) (p rc : Nat) : State :=
  let x := s.part p
  let s1 := s.setPart p { x with cmd := none, cmd2 := none }
  (x.cmd2.toList ++ x.cmd.toList).foldl (fun s c => s.finish c rc) s1
/-- Partition numbers that hold state, 0 first. -/
def State.partIds (s : State) : List Nat := 0 :: (s.parts.map Prod.fst).filter (· != 0)
/-- Queue keys of a partition that are in use. -/
def State.usedQueues (s : State) (p : Nat) : List Nat :=
  s.queues.filterMap (fun x => if x.1 / 4096 == p && x.2.used then some (x.1 % 4096) else none)

/-! ## Tiles given and released (R105, R390, R507) -/

/-- The tiles of a rectangle. -/
def rectTiles (r0 r1 c0 c1 : Nat) : List Nat :=
  (List.range (r1 + 1 - r0)).flatMap (fun r => (List.range (c1 + 1 - c0)).map (fun c => (r0 + r) * 36 + c0 + c))
/-- A tile is given to a partition: cleared, its events routed to manager and owner. -/
def State.giveTile (s : State) (p t : Nat) : State :=
  ((s.clearTile t).setReg bTILE t 0x048 (BitVec.ofNat 32 (0x80000000 + p))).setReg bTILE t oEVENT_ROUTE 3
/-- A tile is released: cleared, unowned, an unread message toward it discarded. -/
def State.freeTile (s : State) (t : Nat) : State :=
  (((s.resetReceiver (.tile t) false).clearTile t).setReg bTILE t 0x048 0).setReg bTILE t oEVENT_ROUTE 1
/-- The links that begin or end at one of some tiles. -/
def State.linksAt (s : State) (ts : List Nat) : List (Nat × Link) :=
  s.links.filter (fun x => ts.contains (x.1 / 4) ||
    (match neighbour (x.1 / 4) (dirOf (x.1 % 4)) with | some u => ts.contains u | none => false))
/-- Links become unowned. -/
def State.dropLinks (s : State) (l : List (Nat × Link)) : State :=
  { s with links := s.links.filter (fun x => !(l.map Prod.fst).contains x.1) }

/-! ## Translation records (R226, R476) -/

/-- Address of a partition's record. -/
def State.recAddr (s : State) (p : Nat) : Nat :=
  (s.reg bXLAT 0 0x040).toNat / 4096 * 4096 + s.fld bXLAT 0 0x044 0 16 * 2 ^ 32 + p * 32
/-- The fields of a record (Table 9-2). -/
def parseRec (bs : List Byte) : XRec :=
  let a := field bs 0 8
  let b := field bs 8 8
  { en := bitsAt a 0 1 == 1, root := bitsAt a 12 36 * 4096, fqLog2 := clampN 4 16 (bitsAt b 0 5)
    fqBase := bitsAt b 12 36 * 4096, dlog := bitsAt (field bs 16 1) 0 1 == 1 }
/-- The bytes of a record. -/
def recBytes (r : XRec) : List Byte :=
  leBytes 8 (r.en.toNat + r.root) ++ leBytes 8 (r.fqLog2 + r.fqBase) ++ leBytes 8 r.dlog.toNat ++ leBytes 8 0

/-! ## Quiesce (R394, Table 16-3) -/

/-- Steps 2 and 3: the doorbell window is revoked, every tile is aborted. -/
def State.quiesceTiles (s : State) (p : Nat) : State :=
  let s1 := s.setPart p { s.part p with dbLive := false, draining := false }
  ((s1.partTiles p).filter (fun t => (s1.tile t).run != .unavailable)).foldl (fun s t => s.abortTile t) s1

/-- Step 4: armed, due and held operations end with 0x000B; one that fired and is parked is aborted. -/
def State.quiesceArmed (s : State) (p : Nat) : State :=
  let mine (a : Armed) : Bool := a.p == p
  let wait := s.armed.filter mine ++ s.armedDue.filter (fun a => mine a && !a.parked) ++ (s.part p).held
  let fired := s.armedDue.filter (fun a => mine a && a.parked)
  let s1 : State := { s with
    armed := s.armed.filter (fun a => !mine a), armedDue := s.armedDue.filter (fun a => !mine a) }
  let s2 := s1.setPart p { s1.part p with held := [] }
  let s3 := wait.foldl (fun s a => s.finishOrg (.armed p a.embPa a.embK a.embDl) a.d false 0x000B) s2
  let s4 := fired.foldl (fun s a => s.finishOrg (.armed p a.embPa a.embK a.embDl) a.d (isTransfer a.op) 0x0001) s3
  let gone := s4.jobs.filter (fun (j : CopyJob) => j.part == p && j.parked && (match j.from_ with | .armed _ _ _ _ => true | _ => false))
  let s5 := gone.foldl (fun s j => s.jobEnd j 0x0001) s4
  s5.leaveFaults (fun f => match f with | .queue a b _ => a == p && b == noRing | _ => false)

/-- Step 5: every connection enters error, its peer told by NAK 0x0A. -/
def State.quiesceConns (s : State) (p : Nat) : State :=
  (s.partConns p).foldl (fun s cid =>
    let c := s.conn cid
    match c.state with
    | .error => s
    | .connecting => s.connErrorBase cid 0x000B none false
    | _ => (s.sendNak cid 0x0A c.e 0).connErrorBase cid 0x000B none true) s

/-- Step 6: every collective run fails. -/
def State.quiesceColls (s : State) (p : Nat) : State :=
  (s.colls.filter (fun x => x.2.d.part == p)).foldl (fun s x => s.collFail x.1 0x000B) s

/-- A launch that waits or whose tiles were aborted ends its TILE_LAUNCH. -/
def State.quiesceLaunch (s : State) (p : Nat) : State :=
  let s1 := match (s.part p).launch with
    | some (q, idx, _, _) => (s.setPart p { s.part p with launch := none }).complete p q idx 0x0001
    | none => s
  s1.groups.foldl (fun s x =>
    match x.2.entry with
    | some e => if e.1 / 4096 = p then
        (s.setGroup x.1 { s.group x.1 with entry := none, launchAt := none }).complete p (e.1 % 4096) e.2 0x0001
      else s
    | none => s) s1

/-- Step 7: every queue shuts down; copies parked on faults are aborted, revokes wait for nothing more. -/
def State.quiesceQueues (s : State) (p : Nat) : State :=
  let rs := s.revokes.filter (fun r => r.p == p)
  let s1 := rs.foldl (fun s r => s.complete p r.q r.idx 0) { s with revokes := s.revokes.filter (fun r => r.p != p) }
  (s1.usedQueues p).foldl (fun s q => s.shutQueue p q) (s1.quiesceLaunch p)

/-- Whether the engines hold a copy of a partition's tiles, or of the partition. -/
def State.tileJobs (s : State) (p : Nat) : Bool :=
  s.jobs.any (fun j => j.part == p && (match j.from_ with | .tile _ => true | _ => false))
def State.anyJobs (s : State) (p : Nat) : Bool := s.jobs.any (fun j => j.part == p)

/-- Steps 8 and 9. -/
def State.quiesceEnd (s : State) (p : Nat) : State :=
  let s1 : State := { s with windows := s.windows.map (fun (x : Nat × Window) =>
    if x.2.part = p then (x.1, { x.2 with open_ := false }) else x) }
  (((s1.setLstate p .quiesced).raise bPART p 0).count bPART p 0xC10 1).partFinish p 0

/-- Whether every entry below the producer index read at acceptance has completed. -/
def State.drained (s : State) (p : Nat) : Bool :=
  (s.usedQueues p).all (fun q => let x := s.queue p q; x.p == x.c && x.live == 0)

/-- A quiesce goes on as far as it can: each step begins when the one before it has finished. -/
def State.quiesceGo (s : State) (p : Nat) : State :=
  let x := s.part p
  if x.lstate != .quiescing || (x.draining && !s.drained p) then s
  else
    let s1 := if x.draining then s.quiesceTiles p else s
    if s1.tileJobs p then s1
    else
      let s2 := (((s1.quiesceArmed p).quiesceConns p).quiesceColls p).quiesceQueues p
      if (s2.usedQueues p).isEmpty && !s2.anyJobs p then s2.quiesceEnd p else s2

/-- A quiesce is accepted: the channel's receiver is reset, a freeze ends, pending moderated notifications
go out, and without a drain steps 2 and 3 follow. -/
def State.quiesceBegin (s : State) (p : Nat) (cmd : Option Cmd) (drain : Bool) : State :=
  let was := (s.part p).lstate
  let s0 := if was = .freezing then s.partFinish p 0x0004 else s
  let s1 := s0.setPart p { s0.part p with lstate := .quiescing, draining := drain, cmd := cmd }
  let s2 : State := { s1 with conns := s1.conns.map (fun (x : Nat × Conn) =>
    if x.2.part = p && x.2.state = .frozen then (x.1, { x.2 with state := .open_ }) else x) }
  let s3 := (s2.resetReceiver (.part p) false).fwNext (.part p)
  let s4 := (s3.usedQueues p).foldl (fun s q => if 0 < (s.queue p q).count then s.notify p q false false else s) s3
  if drain then (s4.usedQueues p).foldl (fun s q => s.qpass p q) s4 else s4.quiesceTiles p

/-- Firmware quiesces a partition on its own (R476). -/
def State.partFatal (s : State) (p cause : Nat) : State :=
  let s1 := s.raise bERR 0 3 (BitVec.ofNat 32 p) (BitVec.ofNat 32 cause)
  let l := (s1.part p).lstate
  if p != 0 && (l = .active || l = .freezing || l = .frozen) then s1.quiesceBegin p none false else s1

/-- PART_QUIESCE. -/
def State.partQuiesce (s : State) (c : Cmd) (p : Nat) (drain : Bool) : State :=
  let x := s.part p
  if x.lstate = .quiescing then
    if x.draining && !drain then
      ((s.setPart p { x with cmd := some c, cmd2 := x.cmd }).answer c 0x0104 0x0009).quiesceTiles p
    else s.refusePart c 0x0104 p (if x.cmd.isSome then 0x0006 else 0x0004)
  else if p != 0 && (x.lstate = .active || x.lstate = .freezing || x.lstate = .frozen) then
    (s.answer c 0x0104 0x0009).quiesceBegin p (some c) drain
  else s.refusePart c 0x0104 p (if x.cmd.isSome then 0x0006 else 0x0004)

def execPartQuiesce (c : Cmd) (p : Nat) (drain : Bool) (s : State) : Res :=
  .next (s.partCmd c 0x0104 p false true (fun s => s.partQuiesce c p drain))

/-- PART_QUIESCE_DONE: the steps that can be taken are taken. -/
def execPartQuiesceDone (p : Nat) (s : State) : Res := .next ((s.quiesceGo p).settle)

/-! ## Records reloaded (R226) -/

/-- The module caches a partition's record anew; one that cannot be read is partition-fatal. -/
def State.readRec (s : State) (p : Nat) : State :=
  let a := s.recAddr p
  if !s.reach a || !inDram a then s.setPart p { s.part p with rec_ := {} }
  else
    match s.dramRead 0 0 a 32 with
    | (s1, 0, bs) => s1.setPart p { s1.part p with rec_ := parseRec bs }
    | (s1, _, _) => s1.partFatal p 1

/-- Firmware writes a record and reloads it; true: the record lies in memory. -/
def State.writeRec (s : State) (p : Nat) (r : XRec) : State × Bool :=
  if s.reach (s.recAddr p) && inDram (s.recAddr p) then ((s.put0 (s.recAddr p) (recBytes r)).readRec p, true)
  else (s, false)

/-- XLAT_RELOAD: the change takes effect once both copies of the register have been written. -/
def execXlatReload (inst : Nat) (v : W32) (s : State) : Res :=
  .next (if 1 < inst then s else s.pageWrite bXLAT inst 0x05C v (fun s =>
    let p := bitsAt v.toNat 0 10
    let m := (s.part p).reload ||| (inst + 1)
    let s1 := s.setPart p { s.part p with reload := if m = 3 then 0 else m }
    if m = 3 then (s1.readRec p).settle else s1))

/-! ## Creating, setting, activating (R384-R391) -/

/-- Nothing of a partition's own is left, and it is in the given state. -/
def State.emptyPart (s : State) (p : Nat) (l : LState) : State :=
  let x := s.part p
  let km (fd1 : Bool) (m : SMap Meter) : SMap Meter := mclear m (meterKey fd1 p 0) (meterKey fd1 p 0 + 8)
  let s1 : State := { s with
    regs := mclear s.regs (rk bPART p 0x040) (rk bPART p 0x0E0)
    meters := km true (km false s.meters)
    queues := mclear s.queues (p * 4096) (p * 4096 + 4096)
    windows := s.windows.map (fun w => if w.2.part = p then (w.1, { w.2 with open_ := false }) else w)
    waves := mclear s.waves (p * 16) (p * 16 + 16)
    links := s.links.filter (fun (k : Nat × Link) => !(k.2.owned && k.2.part == p))
    armed := s.armed.filter (fun a => a.p != p)
    armedDue := s.armedDue.filter (fun a => a.p != p)
    revokes := s.revokes.filter (fun r => r.p != p)
    colls := s.colls.filter (fun g => g.2.d.part != p)
    pwr := { s.pwr with shareK := merase s.pwr.shareK p, keepShare := merase s.pwr.keepShare p
                        slopeShare := merase s.pwr.slopeShare p } }
  s1.setPart p { lstate := l, rec_ := x.rec_, reload := x.reload, epoch := x.epoch }

/-- PART_CREATE. -/
def State.partCreate (s : State) (c : Cmd) (p : Nat) : State :=
  if p = 0 then s.refusePart c 0x0101 p 0x0003
  else if (s.part p).lstate != .free then s.refusePart c 0x0101 p 0x0004
  else ((s.emptyPart p .configuring).setReg bPART p oEVENT_ROUTE 3).answer c 0x0101 0

def execPartCreate (c : Cmd) (p : Nat) (s : State) : Res :=
  .next (s.partCmd c 0x0101 p true false (fun s => s.partCreate c p))

/-- Rectangle i of a partition, if valid: rows and columns. -/
def State.rect (s : State) (p i : Nat) : Option (Nat × Nat × Nat × Nat) :=
  let o := 0x040 + 4 * i
  if s.fld bPART p o 31 1 = 1 then
    some (s.fld bPART p o 0 6, s.fld bPART p o 6 6, s.fld bPART p o 12 6, s.fld bPART p o 18 6)
  else none

/-- A rectangle is added: every tile in it must be free and available (R390). -/
def State.addRect (s : State) (p i r0 r1 c0 c1 : Nat) : State × Nat :=
  if 3 < i || r1 < r0 || 39 < r1 || c1 < c0 || 35 < c1 then (s, 0x0003)
  else
    let ts := rectTiles r0 r1 c0 c1
    if (s.rect p i).isSome || ts.any (fun t => (s.tileOwner t).isSome || (s.tile t).run == .unavailable || s.locked bTILE t) then
      (s, 0x0004)
    else
      (ts.foldl (fun s t => s.giveTile p t)
        (s.setReg bPART p (0x040 + 4 * i) (BitVec.ofNat 32 (r0 + r1 * 64 + c0 * 4096 + c1 * 2 ^ 18 + 2 ^ 31))), 0)

/-- A rectangle is removed: its tiles must be idle, done or trapped and its links free (R182, R390, R391). -/
def State.dropRect (s : State) (p i : Nat) : State × Nat :=
  if 3 < i then (s, 0x0003)
  else
    match s.rect p i with
    | none => (s, 0x0003)
    | some (r0, r1, c0, c1) =>
      let ts := rectTiles r0 r1 c0 c1
      let l := s.linksAt ts
      let still (t : Nat) : Bool :=
        let x := s.tile t
        (x.run == .idle || x.run == .done || x.run == .trapped) && !x.armPending && !s.locked bTILE t
      if !ts.all still || !l.all (fun x => s.linkFree x.2) then (s, 0x0004)
      else (ts.foldl (fun s t => s.freeTile t) ((s.dropLinks l).setReg bPART p (0x040 + 4 * i) 0), 0)

/-- Whether two ranges of numbers meet. -/
def meets (a n b m : Nat) : Bool := n != 0 && m != 0 && a < b + m && b < a + n
/-- Whether a range held by another partition meets one. -/
def State.rangeTaken (s : State) (p a n : Nat) (f : Nat → Nat × Nat) : Bool :=
  s.partIds.any (fun q => q != p && meets a n (f q).1 (f q).2)

/-- Writes an address into its four words. -/
def State.putIp (s : State) (p i : Nat) (a : BitVec 128) : State :=
  let bs := beBytes 16 a.toNat
  (List.range 4).foldl (fun s k =>
    s.setReg bPART p (0x0A0 + 16 * i + 4 * k) (BitVec.ofNat 32 (leNat ((bs.drop (4 * k)).take 4)))) s

/-- An address is set or removed: owned by one partition, and not in use where it is given up (R390). -/
def State.setIp (s : State) (p i : Nat) (a : BitVec 128) : State × Nat :=
  let old := s.partIp p i
  let taken := a != 0 && s.partIds.any (fun q => q != p && (List.range 4).any (fun j => s.partIp q j == a.toNat))
  let used := old != 0 && old != a.toNat && (s.partConns p).any (fun cid =>
    let l := (s.conn cid).localAddr
    l == 0 || l.toNat == old)
  if 3 < i then (s, 0x0003)
  else if taken || used then (s, 0x0004)
  else (s.putIp p i a, 0)

/-- A register of the PART page takes a value, if it lies in its range. -/
def State.setRes (s : State) (p off v hi : Nat) (rc : Nat) : State × Nat :=
  if hi < v then (s, 0x0003) else if rc != 0 then (s, rc) else (s.setReg bPART p off (BitVec.ofNat 32 v), 0)

/-- PART_SET by resource (Table 16-1, R390, R416): the new state and the return code. -/
def State.partResource (s : State) (p : Nat) (r : Resource) : State × Nat :=
  match r with
  | .rect i r0 r1 c0 c1 => s.addRect p i r0 r1 c0 c1
  | .rectRemove i => s.dropRect p i
  | .groups first count =>
    if 2048 < first + count then (s, 0x0003)
    else if s.rangeTaken p first count (fun q => (s.fld bPART q 0x050 0 11, s.fld bPART q 0x050 16 12)) then (s, 0x0004)
    else (s.setReg bPART p 0x050 (BitVec.ofNat 32 (first % 2048 + count * 65536)), 0)
  | .memset m => s.setRes p 0x054 m.toNat 0xFFF 0
  | .memQuota u => s.setRes p 0x058 u 0x7FFFF (if u < s.fld bPART p 0x05C 0 19 then 0x0005 else 0)
  | .connQuota n => s.setRes p 0x060 n 0x100000 0
  | .queueMax n => s.setRes p 0x068 n 4096 (if n < (s.usedQueues p).length then 0x0005 else 0)
  | .windows b n =>
    if 2 ^ 24 < b + n then (s, 0x0003)
    else if s.rangeTaken p b n (fun q => (s.fld bPART q 0x06C 0 24, s.fld bPART q 0x070 0 25)) ||
        s.windows.any (fun w => w.2.part == p && w.2.open_ && !(b ≤ w.1 && w.1 < b + n)) then (s, 0x0004)
    else ((s.setReg bPART p 0x06C (BitVec.ofNat 32 (b % 2 ^ 24))).setReg bPART p 0x070 (BitVec.ofNat 32 n), 0)
  | .tcMask m => s.setRes p 0x074 m.toNat 0xFF 0
  | .dbKey k => ((s.setReg bPART p 0x07C k).setPart p { s.part p with dbLive := k != 0 }, 0)
  | .listen i tag => if 3 < i then (s, 0x0003) else (s.setReg bPART p (0x080 + 4 * i) tag, 0)
  | .ip i a => s.setIp p i a
  | .xlat en root fq lg dlog =>
    if lg < 4 || 16 < lg || root.toNat % 4096 != 0 || fq.toNat % 4096 != 0 then (s, 0x0003)
    else if s.locked bXLAT 0 || s.locked bXLAT 1 then (s, 0x0004)
    else
      match s.writeRec p { en := en, root := root.toNat, fqLog2 := lg, fqBase := fq.toNat, dlog := dlog } with
      | (s1, true) => (s1, 0)
      | (s1, false) => (s1, 0x0004)
  | .channel va =>
    if va.toNat % 256 != 0 then (s, 0x0003) else (s.setPart p { s.part p with chan := some va.toNat }, 0)

/-- Resources that partition 0 may be given (R384). -/
def zeroOk : Resource → Bool
  | .rect _ _ _ _ _ => false | .rectRemove _ => false | .groups _ _ => false | .memset _ => false
  | .memQuota _ => false | .channel _ => false | _ => true

/-- PART_SET; it waits in its channel while a launch of the partition is being served (R391). -/
def State.partSet (s : State) (c : Cmd) (p : Nat) (r : Resource) : State :=
  let l := (s.part p).lstate
  if (s.part p).launch.isSome then s
  else if p = 0 && !zeroOk r then s.refusePart c 0x0102 p 0x0003
  else if p != 0 && !(l = .configuring || l = .active || l = .quiesced) then s.refusePart c 0x0102 p 0x0004
  else
    match s.partResource p r with
    | (s1, 0) => s1.answer c 0x0102 0
    | (s1, rc) => s1.refusePart c 0x0102 p rc

def execPartSet (c : Cmd) (p : Nat) (r : Resource) (s : State) : Res :=
  .next (s.partCmd c 0x0102 p true false (fun s => s.partSet c p r))

/-- A connection's context is dropped; a command that waits on it fails. -/
def State.connDrop (s : State) (cid : Nat) : State :=
  let c := s.conn cid
  let s1 := (s.cacheDrop cid).setConn cid {}
  match c.cmd with
  | some x => s1.finish x 0x0004
  | none => s1
/-- Every connection of a partition is dropped, forwarding ones aside. -/
def State.dropConns (s : State) (p : Nat) : State := (s.partConns p).foldl (fun s cid => s.connDrop cid) s

/-- Whether a tile of the partition is still clearing. -/
def State.partClearing (s : State) (p : Nat) : Bool := (s.partTiles p).any (fun t => (s.tile t).clearing)

/-- PART_ACTIVATE. -/
def State.partActivate (s : State) (c : Cmd) (p : Nat) : State :=
  let x := s.part p
  if !(x.lstate = .configuring || x.lstate = .quiesced) || !s.ident.gridReady || !x.rec_.en || !x.dbLive then
    s.refusePart c 0x0103 p 0x0004
  else
    let s1 := if x.lstate = .quiesced then s.dropConns p else s
    if s1.partClearing p then (s1.setPart p { s1.part p with cmd := some c }).answer c 0x0103 0x0009
    else (s1.setLstate p .active).answer c 0x0103 0

def execPartActivate (c : Cmd) (p : Nat) (s : State) : Res :=
  .next (s.partCmd c 0x0103 p false false (fun s => s.partActivate c p))

/-- Clearing of a tile ends (R105); in thermal halt it waits. An activation that waited for it is done. -/
def execTileClearDone (t : Nat) (s : State) : Res :=
  .next (if (s.tile t).clearing && s.tileEdges t then
    let s1 := s.updTile t (fun x => { x with clearing := false })
    match s1.tileOwner t with
    | none => s1
    | some p =>
      let x := s1.part p
      if x.cmd.isSome && (x.lstate = .configuring || x.lstate = .quiesced) && !s1.partClearing p then
        (s1.setLstate p .active).partFinish p 0
      else s1
  else s)

/-! ## Destroying (R392) -/

/-- Everything a partition holds is given back and it is free. -/
def State.freePart (s : State) (p : Nat) : State :=
  let s1 := (s.partTiles p).foldl (fun s t => s.freeTile t) s
  let s1a := if (s1.pkeys p).root.isSome then (s1.count bCIPH 0 0xC30 1).count bCIPH 1 0xC30 1 else s1
  let s2 := ((s1a.eraseRoot p).dropConns p).resetReceiver (.part p) false
  let r := (s2.part p).rec_
  let s3 := ((s2.emptyPart p .free).writeRec p { r with en := false }).1
  (s3.setPart p { s3.part p with rec_ := { r with en := false } }).setReg bPART p oEVENT_ROUTE 1

/-- Whether a page the release of a partition must write is locked. -/
def State.partLocked (s : State) (p : Nat) : Bool := (s.partTiles p).any (fun t => s.locked bTILE t)

/-- PART_DESTROY. -/
def State.partDestroy (s : State) (c : Cmd) (p : Nat) : State :=
  if (s.part p).lstate != .quiesced || s.partLocked p || s.locked bXLAT 0 || s.locked bXLAT 1 then
    s.refusePart c 0x0105 p 0x0004
  else (s.freePart p).answer c 0x0105 0

def execPartDestroy (c : Cmd) (p : Nat) (s : State) : Res :=
  .next (s.partCmd c 0x0105 p true false (fun s => s.partDestroy c p))

/-! ## Freeze and thaw (R396-R398) -/

/-- A tile is asked to stop at its next boundary; one stopped before the freeze is remembered. -/
def Tile.freeze (x : Tile) : Tile :=
  match x.run with
  | .stopped => { x with wasStopped := true }
  | .stopping => { x with wasStopped := true }
  | .running => { x with run := .stopping, stopReq := true }
  | .held => match x.heldFrom with
    | some .stopped => { x with wasStopped := true }
    | some .running => { x with heldFrom := some .stopped }
    | _ => x
  | _ => x

/-- PART_FREEZE. -/
def State.partFreeze (s : State) (c : Cmd) (p : Nat) : State :=
  if p = 0 || (s.part p).lstate != .active || s.partLocked p then s.refusePart c 0x0106 p 0x0004
  else
    let s1 := s.setPart p { s.part p with lstate := .freezing, cmd := some c }
    ((s1.partTiles p).foldl (fun s t => s.updTile t Tile.freeze) s1).answer c 0x0106 0x0009

def execPartFreeze (c : Cmd) (p : Nat) (s : State) : Res :=
  .next (s.partCmd c 0x0106 p false false (fun s => s.partFreeze c p))

/-- A tile that no longer runs. -/
def stillTile (x : Tile) : Bool :=
  !x.armPending && match x.run with
  | .armed => false | .running => false | .stopping => false | .held => false | _ => true
/-- A connection with nothing of its own under way. -/
def quietConn (c : Conn) : Bool :=
  c.state != .connecting && c.txq.isEmpty && c.awaits.isEmpty && c.sent.isEmpty
/-- Steps 1 to 3 of a freeze are done. -/
def State.freezeReady (s : State) (p : Nat) : Bool :=
  (s.partTiles p).all (fun t => stillTile (s.tile t)) &&
  (s.usedQueues p).all (fun q => (s.queue p q).live == 0) &&
  !s.armedDue.any (fun a => a.p == p) && !s.anyJobs p &&
  s.colls.all (fun g => g.2.d.part != p || (g.2.run.isNone && g.2.later.isEmpty)) &&
  (s.partConns p).all (fun cid => quietConn (s.conn cid))

/-- PART_FREEZE_DONE: a tile launched since the command stops too; steps 4 and 5 follow step 3. -/
def State.freezeGo (s : State) (p : Nat) : State :=
  if (s.part p).lstate != .freezing then s
  else
    let s1 := (s.partTiles p).foldl (fun s t =>
      if (s.tile t).run = .running then s.updTile t Tile.freeze else s) s
    if !s1.freezeReady p then s1
    else
      let s2 : State := { s1 with conns := s1.conns.map (fun (x : Nat × Conn) =>
        if x.2.part = p && (x.2.state = .open_ || x.2.state = .closing) then (x.1, { x.2 with state := .frozen }) else x) }
      (((s2.setLstate p .frozen).raise bPART p 1).count bPART p 0xC18 1).partFinish p 0

def execPartFreezeDone (p : Nat) (s : State) : Res := .next (s.freezeGo p)

/-- A tile goes on after a freeze, unless it was stopped before it. -/
def Tile.thaw (x : Tile) : Tile :=
  let y := { x with wasStopped := false }
  if x.wasStopped then y
  else match x.run with
    | .stopped => { y with run := .running, stopReq := false, waitFor := some .phase }
    | .stopping => { y with run := .running, stopReq := false }
    | .held => if x.heldFrom = some .stopped then { y with heldFrom := some .running } else y
    | _ => y

/-- Tiles resume, held operations fire in the order they were armed, one pass runs on every queue. -/
def State.goOn (s : State) (p : Nat) : State :=
  let s1 := (s.partTiles p).foldl (fun s t => s.updTile t Tile.thaw) s
  let x := s1.part p
  let s2 : State := { s1.setPart p { x with lstate := .active, held := [] } with
    armedDue := s1.armedDue ++ x.held
    conns := s1.conns.map (fun (y : Nat × Conn) =>
      if y.2.part = p && y.2.state = .frozen then (y.1, { y.2 with state := .open_ }) else y) }
  (s2.usedQueues p).foldl (fun s q =>
    let y := s.queue p q
    let s1 := if y.pend then (s.setQueue p q { y with pend := false }).count bPART p 0xC00 1 else s
    s1.qpass p q) s2

/-- PART_THAW. -/
def State.partThaw (s : State) (c : Cmd) (p : Nat) : State :=
  let x := s.part p
  if !(x.lstate = .freezing || x.lstate = .frozen) || s.partLocked p then
    s.refusePart c 0x0107 p (if x.cmd.isSome && x.lstate != .freezing then 0x0006 else 0x0004)
  else (((s.partFinish p 0x0004).goOn p).answer c 0x0107 0)

def execPartThaw (c : Cmd) (p : Nat) (s : State) : Res :=
  .next (s.partCmd c 0x0107 p false true (fun s => s.partThaw c p))

/-! ## Images (R399, R400, R434) -/

/-- Registers of a tile, and of a partition, that an image carries. -/
def tileImageRegs : List Nat := [0x040, 0x044, 0x04C, 0x050, 0x054, 0x05C, 0x060]
def partImageRegs : List Nat := [0x068, 0x074, 0x07C, 0x080, 0x084, 0x088, 0x08C]

/-- Listed bytes of a stretch of memory, by offset. -/
def State.bytesFrom (s : State) (lo hi : Nat) : SMap Byte :=
  (s.mem.filter (fun c => lo ≤ c.1 && c.1 < hi)).map (fun c => (c.1 - lo, c.2))

/-- A tile as an image holds it; of a tile of a degraded row firmware may have read nothing. -/
def State.tileImage (s : State) (t : Nat) : TileImage :=
  let x := s.tile t
  let lost := x.run == .unavailable && s.freeBit (16 * t + 9)
  if lost then { idx := t, tile := { run := .idle }, lost := true }
  else
    { idx := t, tile := { x with run := if x.run = .unavailable then .trapped else x.run, phys := none, outMsgs := 0 }
      sram := s.bytesFrom (sramAt t 0) (sramAt (t + 1) 0), im := s.bytesFrom (imAt t 0) (imAt (t + 1) 0)
      regs := tileImageRegs.map (fun o => (o, s.reg bTILE t o)) }

/-- The image of a frozen partition. -/
def State.partImage (s : State) (p : Nat) : PartImage :=
  let x := s.part p
  let ts := s.partTiles p
  { rootId := (s.pkeys p).rootId, tiles := ts.map s.tileImage
    slots := (ts.map s.tileGroup).eraseDups.map (fun g => (g, (s.group g).gclk))
    queues := s.queues.filterMap (fun q => if q.1 / 4096 == p && q.2.used then some (q.1 % 4096, q.2) else none)
    conns := s.conns.filter (fun c => c.2.part == p && isOpen c.2)
    windows := s.windows.filter (fun w => w.2.part == p && w.2.open_)
    tallies := x.tallies, armed := s.armed.filter (fun a => a.p == p), held := x.held
    colls := s.colls.filter (fun g => g.2.d.part == p)
    regs := partImageRegs.map (fun o => (o, s.reg bPART p o)), chan := x.chan, dbLive := x.dbLive
    pm := x.pm, launches := x.launches }

/-- The destination has confirmed: each frozen connection answers with MOVED from now on, toward the
address given and a port and CID that the destination chose (R320). -/
def State.forward (s : State) (p : Nat) (dest : BitVec 128) : State :=
  let s1 : State := { s with
    conns := s.conns.map (fun (x : Nat × Conn) =>
      if x.2.part = p && x.2.state = .frozen then
        (x.1, { x.2 with state := .forwarding, fwdAddr := dest, fwdPort := s.freeIn (2 * x.1) 0 65535
                         fwdCid := s.freeIn (2 * x.1 + 1) 0 (2 ^ 20 - 1) }) else x)
    colls := s.colls.filter (fun g => g.2.d.part != p) }
  (s1.freshen).setLstate p .forwarding

/-- PART_SAVE: the image is built, sealed and sent; whether the destination confirms is its own outcome. -/
def State.partSave (s : State) (c : Cmd) (p : Nat) (dest : BitVec 128) (cid : Nat) : State :=
  if (s.part p).lstate != .frozen || (s.pkeys p).root.isNone || s.alarmed then s.refusePart c 0x0108 p 0x0004
  else if (s.conn cid).state != .open_ then s.refusePart c 0x0108 p 0x0003
  else
    let n := s.freeIn 0 0 (2 ^ 64 - 1)
    let s1 := ({ s with images := s.images.filter (fun (x : Nat × PartImage) => x.1 != n) ++ [(n, s.partImage p)] }.freshen).answer c 0x0108 0x0009
    if s1.freeBit 1 then (s1.freshen.forward p dest).finish c 0 else s1.freshen.finish c 0x0004

def execPartSave (c : Cmd) (p : Nat) (dest : BitVec 128) (cid : Nat) (s : State) : Res :=
  .next (s.partCmd c 0x0108 p false false (fun s => s.partSave c p dest cid))

/-- An image by its number: one built here, else another module's. -/
def State.imageOf (s : State) (n : Nat) : PartImage :=
  match s.images.find? (fun x => x.1 == n) with
  | some x => x.2
  | none => savedImage n

/-- The refusal of a restore, or 0 (R400): saved tiles map in index order onto the partition's own. -/
def State.restoreCheck (s : State) (p : Nat) (m : PartImage) : Nat :=
  let ts := s.partTiles p
  let lo := s.fld bPART p 0x06C 0 24
  let n := s.fld bPART p 0x070 0 25
  if ts.length < m.tiles.length || (ts.take m.tiles.length).any (fun t => (s.tile t).run != .idle) ||
      m.colls.any (fun g => (s.coll g.1).state != .undef) || s.partLocked p then 0x0004
  else if m.windows.any (fun w => !(lo ≤ w.1 && w.1 < lo + n) || ((s.window w.1).ever && (s.window w.1).open_)) then 0x0003
  else if s.fld bPART p 0x060 0 21 < (s.partConns p).length + m.conns.length then 0x0005
  else 0

/-- PART_RESTORE: begun; every tag is verified before any part is applied. -/
def State.partRestore (s : State) (c : Cmd) (p image : Nat) (tagsOk : Bool) : State :=
  let x := s.part p
  let m := s.imageOf image
  if p = 0 then s.refusePart c 0x0109 p 0x0003
  else if !(x.lstate = .configuring || x.lstate = .restoring) || s.alarmed then s.refusePart c 0x0109 p 0x0004
  else if s.restoreCheck p m != 0 then s.refusePart c 0x0109 p (s.restoreCheck p m)
  else
    let s1 := s.setLstate p .restoring
    if !tagsOk || (s.pkeys p).root.isNone || (s.pkeys p).rootId != m.rootId then s1.refusePart c 0x0109 p 0x0007
    else (s1.setPart p { s1.part p with cmd := some c, image := image }).answer c 0x0109 0x0009

def execPartRestore (c : Cmd) (p : Nat) (image : Nat) (tagsOk : Bool) (s : State) : Res :=
  .next (s.partCmd c 0x0109 p true false (fun s => s.partRestore c p image tagsOk))

/-- A saved tile is put on a tile. -/
def State.putTile (s : State) (t : Nat) (m : TileImage) : State :=
  let x := s.tile t
  let s1 := (s.wipe (sramAt t 0) (sramAt (t + 1) 0)).wipe (imAt t 0) (imAt (t + 1) 0)
  let bs := m.sram.map (fun c => (sramAt t c.1, c.2)) ++ m.im.map (fun c => (imAt t c.1, c.2))
  let s2 : State := { s1 with mem := writeCells s1.mem bs }
  (m.regs.foldl (fun s r => s.setReg bTILE t r.1 r.2) s2).setTile t { m.tile with phys := x.phys }

/-- The first ID from a number on that may be given to a connection. -/
def State.freeCid (s : State) : Nat → Nat → Nat
  | 0, c => c
  | n + 1, c => if s.cidFree c then c else s.freeCid n ((c + 1) % 2 ^ 20)

/-- A connection of an image gets a new ID here; an encrypted one goes on under a new epoch, whose key is derived
now, or fails where none is left (R435). -/
def State.putConn (s : State) (p : Nat) (x : Nat × Conn) : State × Nat :=
  let cid := s.freeCid (s.conns.length + 4096) (s.freeIn 3 0 (2 ^ 20 - 1))
  let c := x.2
  let c1 : Conn := { c with
    part := p, home := s.newHome, rxq := c.rxq.map (fun m => { m with runs := [], pool := [] })
    cmd := none }
  let lg := s.fld bCIPH 0 0x040 0 6
  let c2 : Conn := if !c.enc then c1
    else if c.txEpoch = 0xFFFFFFFF then { c1 with txCtr := 2 ^ c.txLog2, txNext := false, stall := true }
    else { c1 with txEpoch := c.txEpoch + 1, txCtr := 0, txLog2 := lg, txNextLog2 := lg, txNext := false
                   txAsked := false, stall := false }
  (((s.setConn cid c2).freshen).exhaust cid, cid)

/-- The connections of an image, with the new ID of each. -/
def State.putConns (s : State) (p : Nat) : List (Nat × Conn) → State × List (Nat × Nat)
  | [] => (s, [])
  | x :: xs =>
    let r := s.putConn p x
    let q := r.1.putConns p xs
    (q.1, (x.1, r.2) :: q.2)

/-- The new ID of a saved connection. -/
def newCid (l : List (Nat × Nat)) (cid : Nat) : Nat := ((l.find? (fun x => x.1 == cid)).map Prod.snd).getD cid
/-- A group definition with its edges renamed. -/
def CollGroup.rename (g : CollGroup) (p : Nat) (l : List (Nat × Nat)) : CollGroup :=
  { g with d := { g.d with
      part := p, parent := g.d.parent.map (newCid l)
      children := g.d.children.map (fun e => { e with cid := newCid l e.cid }) } }

/-- Everything of an image is applied. -/
def State.applyImage (s : State) (p : Nat) (m : PartImage) : State :=
  let ts := s.partTiles p
  let s1 := (m.tiles.zip ts).foldl (fun s x => s.putTile x.2 x.1) s
  let s2 := m.slots.foldl (fun s g => s.setGroup g.1 { s.group g.1 with gclk := g.2, counting := true, part := p }) s1
  let r := s2.putConns p m.conns
  let s3 := m.queues.foldl (fun s q => s.setQueue p q.1
    { q.2 with ndest := if q.2.nkind = 1 then newCid r.2 q.2.ndest else q.2.ndest }) r.1
  let s4 := m.windows.foldl (fun s w => s.setWindow w.1 { w.2 with part := p }) s3
  let s5 := m.colls.foldl (fun s g => s.setColl g.1 (g.2.rename p r.2)) s4
  let s6 := m.regs.foldl (fun s g => s.setReg bPART p g.1 g.2) s5
  let mine (a : Armed) : Armed := { a with p := p, d := { a.d with cid := BitVec.ofNat 20 (newCid r.2 a.d.cid.toNat) } }
  let s7 := s6.setPart p { s6.part p with
    tallies := m.tallies, held := m.held.map mine, chan := m.chan, dbLive := m.dbLive, pm := m.pm, launches := m.launches }
  { s7 with armed := s7.armed ++ m.armed.map mine }

/-- PART_RESTORE_DONE. -/
def State.restoreGo (s : State) (p : Nat) : State :=
  let x := s.part p
  if x.lstate != .restoring || x.cmd.isNone then s
  else
    let m := s.imageOf x.image
    let s1 := ((s.applyImage p m).goOn p).raise bPART p 2
    let s2 := match ((m.tiles.zip (s.partTiles p)).find? (fun y => y.1.lost)).map Prod.snd with
      | some t => s1.raise bPART p 4 (BitVec.ofNat 32 t)
      | none => s1
    s2.partFinish p 0

def execPartRestoreDone (p : Nat) (s : State) : Res := .next ((s.restoreGo p).settle)

/-! ## Release (R320, R400) -/

/-- Whether a forwarding hold of a partition remains. -/
def State.holdsLeft (s : State) (p : Nat) : Bool := s.conns.any (fun c => c.2.part == p && c.2.state == .forwarding)

/-- PART_RELEASE: the source is free when every forwarding hold has ended. -/
def State.partRelease (s : State) (c : Cmd) (p : Nat) : State :=
  if (s.part p).lstate != .forwarding || s.partLocked p || s.locked bXLAT 0 || s.locked bXLAT 1 then
    s.refusePart c 0x010A p 0x0004
  else if s.holdsLeft p then (s.setPart p { s.part p with cmd := some c }).answer c 0x010A 0x0009
  else (s.freePart p).answer c 0x010A 0

def execPartRelease (c : Cmd) (p : Nat) (s : State) : Res :=
  .next (s.partCmd c 0x010A p true false (fun s => s.partRelease c p))

/-- KVT_MOVED_HOLD ends: the former connection's ID is free (R320), and a release that waited goes on. -/
def execMovedHoldExpire (cid : Nat) (s : State) : Res :=
  let c := s.conn cid
  .next (if c.state != .forwarding then s
  else
    let s1 := (s.cacheDrop cid).setConn cid {}
    let x := s1.part c.part
    if x.lstate = .forwarding && x.cmd.isSome && !s1.holdsLeft c.part then
      let cmd := x.cmd
      let s2 := s1.freePart c.part
      match cmd with
      | some k => s2.finish k 0
      | none => s2
    else s1)

end Sys2Proof.Machine
end

