-- ==== Sys2Proof/Machine/Commands.lean ====
section
/-! DEFINITION. Firmware commands for tiles, queues, connections and collective groups
(17_mailboxes Table 17-7): TILE_STOP to TILE_ABORT (R108), QUEUE_CREATE and QUEUE_DESTROY (R366, R379),
CONN_OPEN and CONN_CLOSE (R294, R305), COLL_DEFINE and COLL_REMOVE (R346 to R349). -/

namespace Sys2Proof.Machine

/-- The frame of a command of the manager channel. -/
def State.mgrCmd (s : State) (c : Cmd) (op : Nat) (k : State → State) : State :=
  s.command c op (chanOk c true false false false) (fun s => (k s).settle)

/-! ## Tiles (R108, R509) -/

/-- Whether STOP, RESUME and ABORT are refused in a tile's state (R108). -/
def stopRefused (r : Run) : Bool :=
  !(r == .running || r == .stopping || r == .stopped || r == .held)
def resumeRefused (r : Run) : Bool := r != .stopped
def abortRefused (r : Run) : Bool := r == .unavailable

/-- The frame of a tile command: its index, the lock of the tile's page where it has one, the refusal the
tile reports, and the command itself, which sets the tile's CMD_REFUSED where it is refused. -/
def State.tileCmd (s : State) (c : Cmd) (op t : Nat) (lockable : Bool) (refused : Run → Bool)
    (k : State → State) : State :=
  s.mgrCmd c op (fun s =>
    if !tileOk t then s.answer c op 0x0003
    else if lockable && s.locked bTILE t then s.answer c op 0x0004
    else (k s).answer c op (if refused (s.tile t).run then 0x0004 else 0))

def execTileStop (c : Cmd) (t : Nat) (s : State) : Res :=
  .next (s.tileCmd c 0x0401 t true stopRefused (·.stopTile t))
def execTileResume (c : Cmd) (t : Nat) (s : State) : Res :=
  .next (s.tileCmd c 0x0402 t true resumeRefused (·.resumeTile t))
def execTileAbort (c : Cmd) (t : Nat) (s : State) : Res :=
  .next (s.tileCmd c 0x0403 t false abortRefused (·.abortTile t))

/-! ## Queues (R366, R379) -/

/-- Whether every page of a range is mapped to memory with rights R and W. -/
def State.mappedRW (s : State) (p va n : Nat) : Bool :=
  (List.range ((va + n - 1) / 4096 - va / 4096 + 1)).all (fun i =>
    match s.pureXl p ((va / 4096 + i) * 4096) 3 with
    | some pa => inDram pa
    | none => false)

/-- Checks of a QUEUE_CREATE: the return code that refuses it, or 0. -/
def State.queueCheck (s : State) (p q kind sizeLog2 ring cb : Nat) : Nat :=
  let l := (s.part p).lstate
  if 1023 < p || 4095 < q || 2 < kind || sizeLog2 < 4 || 20 < sizeLog2 || ring % 4096 != 0 || cb % 64 != 0 then 0x0003
  else if p != 0 && l != .configuring && l != .active then 0x0004
  else if (s.queue p q).used then 0x0004
  else if s.fld bPART p 0x068 0 13 ≤ (s.usedQueues p).length then 0x0005
  else if !s.mappedRW p ring (2 ^ sizeLog2 * 64) || !s.mappedRW p cb 64 then 0x0003
  else 0

/-- QUEUE_CREATE: P is read from the control block; C and H take its value and are written there. -/
def State.queueMake (s : State) (c : Cmd) (p q kind sizeLog2 ring cb : Nat) : State :=
  match s.vget false p accR cb 64 [] with
  | (s1, .ok bs _) =>
    let x : Queue := { used := true, kind := kind, sizeLog2 := sizeLog2, ring := ring, cb := cb }
    let y := x.readCb bs
    ((s1.setQueue p q { y with c := y.p, h := y.p }).publish p q).answer c 0x0201 0
  | (s1, _) => s1.answer c 0x0201 0x0004

def execQueueCreate (c : Cmd) (p q kind sizeLog2 : Nat) (ring cb : BitVec 48) (s : State) : Res :=
  .next (s.mgrCmd c 0x0201 (fun s =>
    match s.queueCheck p q kind sizeLog2 ring.toNat cb.toNat with
    | 0 => s.queueMake c p q kind sizeLog2 ring.toNat cb.toNat
    | rc => s.answer c 0x0201 rc))

/-- QUEUE_DESTROY: accepted, and answered when the queue is shut. -/
def execQueueDestroy (c : Cmd) (p q : Nat) (s : State) : Res :=
  .next (s.mgrCmd c 0x0202 (fun s =>
    let x := s.queue p q
    if 1023 < p || 4095 < q then s.answer c 0x0202 0x0003
    else if !x.used then s.answer c 0x0202 0x0004
    else if x.cmd.isSome then s.answer c 0x0202 0x0006
    else if 4 ≤ x.qstate then s.answer c 0x0202 0x0004
    else ((s.setQueue p q { x with cmd := some c }).answer c 0x0202 0x0009).shutQueue p q))

/-! ## Connections (R294, R305, R386, R428) -/

/-- Whether a partition may have one more connection of a class (R294, R386). -/
def State.quotaRoom (s : State) (p cls : Nat) : Bool :=
  (s.partConns p).length < s.fld bPART p 0x060 0 21 && Nat.testBit (s.fld bPART p 0x074 0 8) cls

/-- CONN_OPEN: a context is made and CONNECT sent; the final reply follows ACCEPT or the eighth send. -/
def State.openConn (s : State) (c : Cmd) (p : Nat) (peer : BitVec 128) (listen : W32) (mtu : BitVec 2)
    (cls : Nat) (encrypt pin : Bool) (m : Pick) : State :=
  if 1023 < p then s.answer c 0x0301 0x0003
  else if p != 0 && (s.part p).lstate != .active then s.answer c 0x0301 0x0004
  else if encrypt && (s.pkeys p).root.isNone then s.answer c 0x0301 0x0004
  else if !s.quotaRoom p cls then s.answer c 0x0301 0x0005
  else if pin && 4096 ≤ s.diePinned s.newHome then
    (s.raise bKVT (dieInst s.newHome) 4).answer c 0x0301 0x0005
  else if !s.cidFree m.cid then s
  else
    let x := { s.freshConn p m cls encrypt pin true mtu listen peer with state := .connecting, cmd := some c }
    (((s.setConn m.cid x).cacheTouch m.cid).answer c 0x0301 0x0009).sendOpen m.cid 0x30

def execConnOpen (c : Cmd) (p : Nat) (peer : BitVec 128) (listen : W32) (mtu : BitVec 2) (cls : BitVec 3)
    (encrypt pin : Bool) (mine : Pick) (s : State) : Res :=
  .next (s.mgrCmd c 0x0301 (fun s => s.openConn c p peer listen mtu cls.toNat encrypt pin mine))

/-- The CLOSE of an orderly close, the last message of the connection. -/
def closeMsg : TxMsg :=
  { org := .close, op := 0x32, msgId := 0, len := 0, lva := 0, rva := 0, key := 0, imm := 0, fence := false
    small := false, data := [], first := none, sent := 0, unsol := 0, granted := 0, d := {} }

/-- CONN_CLOSE (Table 12-8). -/
def State.closeConn (s : State) (c : Cmd) (cid : Nat) (abort : Bool) : State :=
  let x := s.conn cid
  if 2 ^ 20 ≤ cid then s.answer c 0x0302 0x0003
  else match x.state with
    | .error => (s.connFree cid).answer c 0x0302 0
    | .open_ =>
      if abort then (s.connError cid 0x0001).answer c 0x0302 0
      else ((s.setConn cid { x with state := .closing, cmd := some c }).answer c 0x0302 0x0009).connPush cid closeMsg
    | .closing => s.answer c 0x0302 0x0006
    | .connecting => s.answer c 0x0302 0x0006
    | _ => s.answer c 0x0302 0x0004

def execConnClose (c : Cmd) (cid : Nat) (abort : Bool) (s : State) : Res :=
  .next (s.mgrCmd c 0x0302 (fun s => s.closeConn c cid abort))

/-! ## Collective groups (R346 to R349, R363) -/

/-- Children in preorder: the first is rank `r`, each later one follows its predecessor's last rank, and
the last child's last rank is `last`. -/
def childrenOk (last : Nat) : Nat → List CollEdge → Bool
  | r, [] => r == last + 1
  | r, e :: es => e.first == r && e.first ≤ e.last && childrenOk last (e.last + 1) es

/-- The conditions of R346 and R347 on a definition. -/
def treeOk (d : CollDef) : Bool :=
  d.part < 1024 && 1 ≤ d.size && d.size ≤ 12288 && d.rank < d.size && d.rank ≤ d.last && d.last < d.size &&
  (d.parent.isNone == (d.rank == 0)) && (d.rank != 0 || d.last + 1 == d.size) &&
  d.children.length ≤ 24 && childrenOk d.last (d.rank + 1) d.children

/-- No connection serves as two edges of one definition. -/
def distinctEdges : List Nat → Bool
  | [] => true
  | c :: l => !l.contains c && distinctEdges l

/-- The conditions of R348 on its edges, for group h. -/
def State.edgesOk (s : State) (h : Nat) (d : CollDef) : Bool :=
  distinctEdges (collEdges d) && (collEdges d).all (fun cid =>
    let c := s.conn cid
    cid < 2 ^ 20 && c.state == .open_ && c.part == d.part && (c.edge == none || c.edge == some h))

/-- Whether a group may be defined or changed now (R349, R361). -/
def State.collMay (s : State) (h : Nat) : Bool := (s.coll h).state == .undef || (s.coll h).state == .idle

/-- A definition refused sets COLL EVENTS.DEF_REFUSED (R347). -/
def State.defRefused (s : State) (home : Bool) : State := s.raise bCOLL (dieInst home) 1

/-- The connections of a group's edges carry its handle, or none. -/
def State.markEdges (s : State) (l : List Nat) (h : Option Nat) : State :=
  l.foldl (fun s c => s.setConn c { s.conn c with edge := h }) s

/-- A definition takes effect: the group is idle, its run number 0. -/
def State.defineColl (s : State) (h : Nat) (d : CollDef) : State :=
  let old := if (s.coll h).state = .idle then collEdges (s.coll h).d else []
  ((s.markEdges old none).markEdges (collEdges d) (some h)).setColl h { state := .idle, d := d, pedge := (s.coll h).pedge }

/-- A group is removed. -/
def State.removeColl (s : State) (h : Nat) : State :=
  (s.markEdges (collEdges (s.coll h).d) none).setColl h {}

def execCollDefine (c : Cmd) (h : Nat) (d : CollDef) (s : State) : Res :=
  .next (s.mgrCmd c 0x0601 (fun s =>
    if 4095 < h || !treeOk d then (s.defRefused d.home).answer c 0x0601 0x0003
    else if !s.collMay h || !s.edgesOk h d then (s.defRefused d.home).answer c 0x0601 0x0004
    else (s.defineColl h d).answer c 0x0601 0))

def execCollRemove (c : Cmd) (h : Nat) (s : State) : Res :=
  .next (s.mgrCmd c 0x0602 (fun s =>
    let g := s.coll h
    if 4095 < h then s.answer c 0x0602 0x0003
    else if g.state = .undef then s.answer c 0x0602 0x0004
    else if g.state = .running then (s.defRefused g.d.home).answer c 0x0602 0x0004
    else (s.removeColl h).answer c 0x0602 0))

end Sys2Proof.Machine
end

