-- ==== Sys2Proof/Machine/Memsvc.lean ====
section
/-! DEFINITION. Services of the memory system (01_architecture R30-R34, 09_memory_and_translation R213,
R232-R248): walks, fault resumes, far loads, the slab map, evacuation and retirement, refresh, memory
accounting, and installing a grid schedule (07_grid_messaging R200). -/

namespace Sys2Proof.Machine

/-! ## Walks and fault queues (R232, R240) -/

/-- Whether a stream of a partition is live and not parked. -/
def State.streamLive (s : State) (p : Nat) (st : Stream) : Bool :=
  match st with
  | .queue a q i =>
    a == p && q < 4096 && (s.queue a q).used && !(s.queue a q).parked &&
      (s.queue a q).entries.any (fun e => e.idx == i && e.done.isNone && !e.parked)
  | .tileReq t sp => s.tileOwner t == some p && (s.headJob (.tileReq t sp)).any (fun j => !j.parked)
  | .conn cid => (s.conn cid).part == p && connLive (s.conn cid) && !(s.conn cid).parked

/-- TRANSLATION_WALK_DONE: the walk's translation enters the buffer, or its fault parks the stream. A
record whose cached copy is gone and whose line cannot be read is partition-fatal (R476). -/
def execTranslationWalkDone (fd1 : Bool) (p : Nat) (va : BitVec 48) (acc : BitVec 4) (st : Stream) (s : State) : Res :=
  .next (if 1023 < p || acc = 0 || !s.streamLive p st then s
  else if s.bad (s.recAddr p) 32 && s.freeBit 11 then ((s.dramUe (s.recAddr p / 64 * 64)).freshen.partFatal p 1).settle
  else
    match s.xlate fd1 p va.toNat acc.toNat with
    | (s1, .inl f) => s1.fault fd1 p f st
    | (s1, .inr _) => s1)

/-- FQ_REREAD: the consumer index of a partition's fault queue is read again. -/
def execFqReread (p : Nat) (s : State) : Res := .next (if p < 1024 then s.fqService p else s)
/-- XLAT_FQ_KICK. -/
def execXlatFqKick (inst : Nat) (v : W32) (s : State) : Res :=
  .next (if 1 < inst then s else s.pageWrite bXLAT inst 0x058 v (fun s => s.fqService (bitsAt v.toNat 0 10)))

/-! ## Resuming streams (R241) -/

/-- A tile whose bundle waits for a free copy request goes on. -/
def State.copiesGo (s : State) (t : Nat) : State :=
  if (s.tile t).waitFor == some Wait.copies && (s.tile t).copies < 16 then s.unpark t else s

/-- A queue is no longer parked on an entry, on its ring or on its control block. -/
def Queue.unparkAt (x : Queue) (i : Nat) : Queue :=
  let held := x.entries.any (fun e => e.idx == i)
  { x with
    parked := x.parked && held, qstate := if x.qstate = 2 then 0 else x.qstate
    entries := x.entries.map (fun e => if e.idx = i then { e with parked := false } else e) }

/-- The requests of a stream that have translated nothing yet begin again. -/
def State.jobsFirst (s : State) (st : Stream) : State :=
  (s.jobs.filter (fun j => jobOf st j && j.runs.isEmpty && (match j.from_ with | .tile _ => false | _ => true))).foldl
    State.jobFirst s

/-- Retry: a stream that was joined to an entry translates again. -/
def State.retryStream (s : State) (st : Stream) : State :=
  let s0 := s.updJobs (jobOf st) (fun j => { j with parked := false })
  match st with
  | .queue p q i =>
    if q = noRing then
      let due := s0.armedDue.map (fun (a : Armed) => if a.p = p && a.embPa = i then { a with parked := false } else a)
      ({ s0 with armedDue := due } : State).jobsFirst st
    else
      let s1 := ((s0.updQueue p q (fun x => x.unparkAt i)).publish p q).jobsFirst st
      if i = cbIdx then s1.qpass p q
      else
        let s2 := match (s1.queue p q).entries.find? (fun e => e.idx == i && e.op == 5 && e.done.isNone) with
          | some e => s1.afterPkt e.d.cid.toNat
          | none => s1
        s2.qgo p q
  | .tileReq _ _ => s0
  | .conn cid => (s0.updConn cid (fun c => { c with parked := false, parkMsg := none })).afterPkt cid

/-- A message whose source cannot be translated ends: its entry or the READ_REQ it answers gets the
failure; packets not yet sent are not sent. -/
def State.failMsg (s : State) (cid : Nat) (m : TxMsg) : State :=
  let c := s.conn cid
  let l := if m.sent = 0 then dropFirstOf (fun x => x == m) c.txq
    else mapFirst (fun x => x == m) (fun x => { x with ended := true }) c.txq
  let s1 := s.setConn cid { c with txq := l }
  match m.org with
  | .readResp r => s1.sendNak cid 0x06 c.e r
  | o => s1.finishOrg o m.d true 0x0005

/-- The message of a stream that has source bytes still to read. -/
def State.streamMsg (s : State) (st : Stream) : Option (Nat × TxMsg) :=
  let l := s.conns.flatMap (fun x => (x.2.txq.filter (fun m =>
    m.stream x.1 == st && !m.ended && m.data.isEmpty && m.sent < msgPkts m.op m.len x.2.mtu)).map (fun m => (x.1, m)))
  match l.find? (fun x => 0 < x.2.sent) with
  | some x => some x
  | none => l.head?

/-- Ends the message of a stream. -/
def State.failTx (s : State) (st : Stream) : State :=
  match s.streamMsg st with
  | some x => s.failMsg x.1 x.2
  | none => s

/-- A ring entry that could not be read is consumed and completes as failed. -/
def State.failUnread (s : State) (p q : Nat) : State :=
  let x := s.queue p q
  (s.setQueue p q { x with
    c := (x.c + 1) % 2 ^ 32, entries := x.entries ++ [{ idx := x.c, op := 0, d := {} }] }).complete p q x.c 0x0005

/-- Fail: the faulting descriptor of a stream completes with 0x0005, a tile request fails, a message being
received is ended with NAK 0x06. -/
def State.failStream (s : State) (st : Stream) : State :=
  match st with
  | .queue p q i =>
    if q = noRing then
      let s1 := match s.jobs.find? (jobOf st) with
        | some j => s.jobEnd j 0x0005
        | none => s.failTx st
      let hit := s1.armedDue.filter (fun a => a.p == p && a.embPa == i && a.parked)
      hit.foldl (fun s a => s.finishOrg (.armed p a.embPa a.embK a.embDl) a.d (isTransfer a.op) 0x0005)
        { s1 with armedDue := s1.armedDue.filter (fun a => !(a.p == p && a.embPa == i && a.parked)) }
    else
      let x := s.queue p q
      match x.entries.find? (fun e => e.idx == i && e.done.isNone) with
      | some e =>
        let s1 := match s.jobs.find? (jobOf st) with
          | some j => s.jobEnd j 0x0005
          | none => s.failTx st
        let s2 := s1.complete p q i 0x0005
        let s3 := if e.op = 5 then
            (s2.updConn e.d.cid.toNat (fun c => { c with
              recvs := c.recvs.filter (fun r => !(r.p == p && r.q == q && r.idx == i)) })).afterPkt e.d.cid.toNat
          else s2
        ((s3.updQueue p q (fun x => x.unparkAt i)).publish p q).qgo p q
      | none =>
        let s1 := (s.updQueue p q (fun x => x.unparkAt i)).publish p q
        if i = cbIdx then s1 else (s1.failUnread p q).qgo p q
  | .tileReq t _ =>
    match s.headJob st with
    | some j => (s.jobEnd j 0x0005).copiesGo t
    | none => s
  | .conn cid =>
    let c := s.conn cid
    let s1 := s.setConn cid { c with parked := false, parkMsg := none }
    match c.parkMsg with
    | some m => (s1.endMsg cid 0x06 m).afterPkt cid
    | none => (s1.failTx st).afterPkt cid

/-- As entries of the table free, waiting faults take them and their records are written. -/
def State.faultsGo (s : State) : State :=
  let s1 := ({ s with faultWaits := [] }).faultAdmit s.faultWaits
  ((s1.faults.filter (fun e => e.slot.isNone)).map (fun e => e.part)).eraseDups.foldl (fun s p => s.fqWrite p (s.recordsWaiting p)) s1

/-- An action on a token: the entry it names goes, its streams retry or fail; false: no entry. -/
def State.resume (s : State) (token : Nat) (retry : Bool) : State × Bool :=
  match s.faults.find? (fun e => e.token == token) with
  | none => (s.raise bXLAT (token % 2) 3, false)
  | some e =>
    let s1 := ({ s with faults := s.faults.filter (fun f => f.token != token) } : State).faultsGo
    ((e.streams.foldl (fun s st => if retry then s.retryStream st else s.failStream st) s1).settle, true)

/-- RESUME_RETRY: 1 written to XLAT_RESUME_CTRL. -/
def execResumeRetry (inst : Nat) (s : State) : Res :=
  .next (if 1 < inst then s
  else s.pageWrite bXLAT inst 0x054 1 (fun s => (s.resume (s.reg bXLAT inst 0x050).toNat true).1))
/-- RESUME_FAIL: 2 written to XLAT_RESUME_CTRL. -/
def execResumeFail (inst : Nat) (s : State) : Res :=
  .next (if 1 < inst then s
  else s.pageWrite bXLAT inst 0x054 2 (fun s => (s.resume (s.reg bXLAT inst 0x050).toNat false).1))

/-- FAULT_RESUME: the token goes to the register of its die, the action follows. -/
def State.faultResume (s : State) (c : Cmd) (token : W32) (action : Nat) : State :=
  let i := token.toNat % 2
  if action != 1 && action != 2 then s.answer c 0x0506 0x0003
  else if s.locked bXLAT i then s.answer c 0x0506 0x0004
  else
    let r := (s.setReg bXLAT i 0x050 token).resume token.toNat (action == 1)
    r.1.answer c 0x0506 (if r.2 then 0 else 0x0004)
def execFaultResume (c : Cmd) (token : W32) (action : Nat) (s : State) : Res :=
  .next (s.command c 0x0506 (chanOk c true false false false) (fun s => s.faultResume c token action))

/-! ## Far loads (06 R174) -/

/-- The bytes of a far load have come: they land in ACLK order, after what earlier bundles write to the same
register (R173), and a bundle that waited for them goes on. -/
def State.farLand (s : State) (t v : Nat) (x : Vec) : State :=
  let due := ((s.tile t).flight.filter (fun f => landsIn f.land (1, v))).map (fun f => f.due)
  let s1 := s.updTile t (fun y =>
    if due.isEmpty then y.setV v x else y.fly (due.foldl max y.aclk) (.v v x (BitVec.allOnes 2048)))
  if (s1.tile t).waitFor == some .far then s1.unpark t else s1

/-- A far load failed: its tile traps with cause 0x12 if its program has not ended (R174). -/
def State.farFail (s : State) (t : Nat) : State :=
  let x := s.tile t
  if x.run = .running || x.run = .stopping || x.run = .stopped then s.trapTile t 0x12 x.pc else s

/-- XFLD_DONE: the oldest far load of a tile gets its 256 bytes at an ACLK edge, or fails; that of a held
tile waits. -/
def execXfldDone (t : Nat) (s : State) : Res :=
  let x := s.tile t
  .next (match x.far with
  | [] => s
  | f :: fs =>
    if !s.tileEdges t || x.run = .held then s
    else
      let p := (s.tileOwner t).getD 0
      match s.vget (decide (tileFd t = 1)) p accR f.2.1 256 [] with
      | (s1, .ok bs hs) =>
        let s2 := s1.updTile t (fun y => { y with far := fs })
        if hs.all (fun r => inDram r.pa) then s2.farLand t f.1 (BitVec.ofNat 2048 (leNat bs)) else s2.farFail t
      | (s1, _) => (s1.updTile t (fun y => { y with far := fs })).farFail t)

/-! ## The slab map (R213) -/

/-- Lines of a slab position that hold bytes or a key. -/
def State.linesAt (s : State) (slab : Nat) : List Nat :=
  let e := s.slab slab
  let n := slabSize e
  let b := slab - bitsAt e 0 4
  let hit (l : Nat) : Bool := b * 2 ^ 24 ≤ l && l < (b + n) * 2 ^ 24 && (l / 64 - b * 2 ^ 18) % n == bitsAt e 0 4
  ((s.mem.map (fun (c : Nat × Byte) => c.1 / 64)) ++ s.lineKey.map Prod.fst).eraseDups.filter hit

/-- The contents of a position are lost: what its lines read as is free. -/
def State.loseSlab (s : State) (slab : Nat) : State :=
  (s.linesAt slab).foldl (fun s l => { s with lineKey := mset 0 s.lineKey l (2 ^ 64 + s.fresh) }) s |>.freshen

/-- Firmware's refusal of a slab-map write. -/
def State.slabBad (s : State) (i : Nat) (v : W32) : Bool :=
  let old := s.slab i
  let n := v.toNat
  slabValid n && ((slabValid old && n != old) ||
    s.slabs.any (fun x => x.1 != i && slabValid x.2.toNat && bitsAt x.2.toNat 8 4 == bitsAt n 8 4 &&
      bitsAt x.2.toNat 12 7 == bitsAt n 12 7))

/-- A slab-map write: refused with SLAB_REFUSED on the page named, or made; true: made. -/
def State.writeSlab (s : State) (inst i : Nat) (v : W32) : State × Bool :=
  let w := v &&& 0x8007FFFF
  if 863 < i || s.slabBad i w then (s.raise bDRAMC inst 3, false)
  else
    let s1 := if slabValid (s.slab i) && !slabValid w.toNat then s.loseSlab i else s
    ({ s1 with slabs := mset 0 s1.slabs i w }, true)

/-- DRAMC_SLAB_DATA written, for the slab selected on the same page. -/
def execDramcSlabDataWrite (inst : Nat) (v : W32) (s : State) : Res :=
  .next (if 11 < inst then s
  else s.pageWrite bDRAMC inst 0x044 v (fun s => (s.writeSlab inst (s.fld bDRAMC inst 0x040 0 10) v).1))

/-- SLAB_WRITE, through the window of instance 0. -/
def State.slabWrite (s : State) (c : Cmd) (slab : Nat) (entry : W32) : State :=
  if 863 < slab || entry &&& 0x7FF80000 != 0 || 11 < bitsAt entry.toNat 4 4 || bitsAt entry.toNat 4 4 < bitsAt entry.toNat 0 4 ||
      11 < bitsAt entry.toNat 8 4 || 71 < bitsAt entry.toNat 12 7 then s.answer c 0x0503 0x0003
  else if s.locked bDRAMC 0 then s.answer c 0x0503 0x0004
  else
    let r := s.writeSlab 0 slab entry
    r.1.answer c 0x0503 (if r.2 then 0 else 0x0004)
def execSlabWrite (c : Cmd) (slab : Nat) (entry : W32) (s : State) : Res :=
  .next (s.command c 0x0503 (chanOk c true false false false) (fun s => s.slabWrite c slab entry))

/-! ## Evacuation and retirement (R244-R248) -/

/-- EVAC_START: START written on a device's page. -/
def execEvacStart (dev : Nat) (s : State) : Res :=
  .next (if 11 < dev then s
  else s.pageWrite bDRAMC dev 0x050 1 (fun s =>
    (s.evacStart dev (s.fld bDRAMC dev 0x048 0 10) (s.fld bDRAMC dev 0x04C 0 4) (s.fld bDRAMC dev 0x04C 4 7) false).1))

/-- DEV_EVAC: accepted, its final reply at the end of the copy. -/
def State.devEvac (s : State) (c : Cmd) (dev slab dstDev dstLocal : Nat) : State :=
  if 11 < dev || 863 < slab || 11 < dstDev || 71 < dstLocal then s.answer c 0x0504 0x0003
  else if (s.dev dev).evac.isSome then s.answer c 0x0504 0x0006
  else if s.locked bDRAMC dev then s.answer c 0x0504 0x0004
  else
    let s1 := (s.setReg bDRAMC dev 0x048 (BitVec.ofNat 32 slab)).setReg bDRAMC dev 0x04C (BitVec.ofNat 32 (dstDev + 16 * dstLocal))
    match s1.evacStart dev slab dstDev dstLocal false (some c) with
    | (s2, true) => (s2.raise bTEST 0 4 (BitVec.ofNat 32 dev)).answer c 0x0504 0x0009
    | (s2, false) => s2.answer c 0x0504 0x0004
def execDevEvac (c : Cmd) (dev slab dstDev dstLocal : Nat) (s : State) : Res :=
  .next (s.command c 0x0504 (chanOk c true false false false) (fun s => s.devEvac c dev slab dstDev dstLocal))

/-- Retirement of a device that no valid entry names; true: retired. -/
def State.retireDev (s : State) (d : Nat) : State × Bool :=
  if s.slabs.any (fun e => slabValid e.2.toNat && bitsAt e.2.toNat 8 4 == d) then (s.raise bDRAMC d 4, false)
  else
    let s1 := s.setDev d { s.dev d with state := 2, evac := none }
    (s1.updStore (fun x => x.updLedger (fun l => { l with devs := if l.devs.contains d then l.devs else l.devs ++ [d] })), true)

def execDevstateRetire (dev : Nat) (s : State) : Res :=
  .next (if 11 < dev then s else s.pageWrite bDRAMC dev 0x05C 4 (fun s => (s.retireDev dev).1))
def State.devRetire (s : State) (c : Cmd) (dev : Nat) : State :=
  if 11 < dev then s.answer c 0x0505 0x0003
  else if (s.dev dev).evac.isSome then s.answer c 0x0505 0x0006
  else if s.locked bDRAMC dev then s.answer c 0x0505 0x0004
  else
    let r := s.retireDev dev
    r.1.answer c 0x0505 (if r.2 then 0 else 0x0004)
def execDevRetire (c : Cmd) (dev : Nat) (s : State) : Res :=
  .next (s.command c 0x0505 (chanOk c true false false false) (fun s => s.devRetire c dev))

/-- Physical address of line l of a slab's position (R247). -/
def State.posLine (s : State) (slab l : Nat) : Nat :=
  let e := s.slab slab
  (slab - bitsAt e 0 4) * 2 ^ 30 + (l / 64 * slabSize e + bitsAt e 0 4) * 4096 + l % 64 * 64

/-- Lines gathered into runs of consecutive ones. -/
def lineRuns : List Nat → List (Nat × Nat)
  | [] => []
  | l :: ls =>
    match lineRuns ls with
    | (a, n) :: rs => if a = l + 1 then (l, n + 1) :: rs else (l, 1) :: (a, n) :: rs
    | [] => [(l, 1)]

/-- Base of the lost-line log. -/
def State.lostBase (s : State) : Nat :=
  (s.reg bDRAMC 0 0x064).toNat / 4096 * 4096 + s.fld bDRAMC 0 0x068 0 16 * 2 ^ 32

/-- The record of a run of lost lines (Table 9-14). -/
def State.lostRecord (s : State) (slab : Nat) (r : Nat × Nat) : List Byte :=
  let e := s.slab slab
  let pos := bitsAt e 0 4
  leBytes 2 (slab - pos) ++ [BitVec.ofNat 8 (pos + 16 * (slabSize e - 1)), 0] ++ leBytes 4 r.1 ++ leBytes 4 r.2 ++ leBytes 4 0

/-- Writes records of an evacuation while the log has space; answers the runs left. A control block that
cannot be read is taken as full (log entry 61). -/
def State.logLost (s : State) (d slab : Nat) : List (Nat × Nat) → State × List (Nat × Nat)
  | [] => (s, [])
  | r :: rs =>
    let b := s.lostBase
    match s.load0 b 8 3 with
    | (s1, none) => (s1, r :: rs)
    | (s1, some n) =>
      let prod := n % 2 ^ 32
      if 2 ^ s.lostLog ≤ idxDiff prod (n / 2 ^ 32) then (s1, r :: rs)
      else
        (((s1.put0 (b + 64 + prod % 2 ^ s.lostLog * 16) (s1.lostRecord slab r) 3).put0 b
          (leBytes 4 ((prod + 1) % 2 ^ 32)) 3).raise bDRAMC d 5).logLost d slab rs

/-- Records what waits for the log (R247). -/
def State.evacLog (s : State) (d : Nat) : State :=
  let r := s.dev d
  match r.evac with
  | none => s
  | some v =>
    let x := s.logLost d v.slab r.logWait
    x.1.setDev d { x.1.dev d with logWait := x.2 }

/-- A run of lost lines ends: its record is due. -/
def State.runEnds (s : State) (d : Nat) : State :=
  let r := s.dev d
  match r.lostRun with
  | some x => (s.setDev d { r with lostRun := none, logWait := r.logWait ++ [x] }).evacLog d
  | none => s

/-- A line of a position has been written with the lost pattern (R245). -/
def State.lineLost (s : State) (d a : Nat) : State :=
  { s with ue := s.ue.filter (· != a), ce := s.ce.filter (· != a)
           lost := if s.lost.contains a then s.lost else s.lost ++ [a] }.count bDRAMC d 0xC10 1

/-- The copy of one line: the ciphertext is copied as it is; a line that cannot be read is lost, and lost
lines that follow each other make one run (R244, R245, R247). -/
def State.evacLine (s : State) (d l : Nat) (v : Evac) : State :=
  let a := s.posLine v.slab l
  let x := s.readLine 3 a
  let s1 := x.1.count bDRAMC v.dstDev 0xC20 64
  if x.2 then
    let s2 := s1.lineLost d a
    let r := s2.dev d
    s2.setDev d { r with lostRun := some (match r.lostRun with | some y => (y.1, y.2 + 1) | none => (l, 1)) }
  else ({ s1 with ce := s1.ce.filter (· != a) } : State).runEnds d

/-- The rest of an evacuation once its units are copied: records, then the slab entry, then EVAC_DONE. A
device evacuated automatically goes on with its next position, or is retired (R495). -/
def State.evacFinish (s : State) (d : Nat) : State :=
  let r := s.dev d
  match r.evac with
  | none => s
  | some v =>
    if !r.logWait.isEmpty then s
    else
      let s1 := s
      let e := s1.slab v.slab
      let w : W32 := BitVec.ofNat 32 (e - bitsAt e 8 11 * 256 + v.dstDev * 256 + v.dstLocal * 4096)
      let s2 : State := { s1 with slabs := mset 0 s1.slabs v.slab w }
      let s3 := (s2.setDev d { s2.dev d with evac := none, status := 2, ptr := 262144, state := 0 }).raise bDRAMC d 2
      let s4 := match v.cmd with | some c => s3.finish c 0 | none => s3
      if !v.auto then s4
      else if s4.slabs.any (fun x => slabValid x.2.toNat && bitsAt x.2.toNat 8 4 == d) then s4.autoEvac d
      else (s4.retireDev d).1

/-- The units of a position are all copied: its last run ends, and with every record written the evacuation. -/
def State.evacEnd (s : State) (d : Nat) : State := (s.runEnds d).evacFinish d

/-- The controller copies one unit of 64 lines (R244). -/
def State.evacUnit (s : State) (d : Nat) : State :=
  let r := s.dev d
  match r.evac with
  | none => s
  | some v =>
    if !r.logWait.isEmpty || 262144 ≤ r.ptr then s
    else
      let s1 := (List.range 64).foldl (fun s k => s.evacLine d (r.ptr * 64 + k) v) s
      let s2 := s1.setDev d { s1.dev d with ptr := r.ptr + 1 }
      if r.ptr + 1 = 262144 then s2.evacEnd d else s2

/-- A line's number in the position being copied, if it lies in a unit not copied yet. -/
def State.unitLine (s : State) (d : Nat) (v : Evac) (a : Nat) : Option Nat :=
  let x := s.place a
  if inDram a && s.groupOk a && x.1 == d && x.2 / 2 ^ 30 == bitsAt (s.slab v.slab) 12 7 && s.posLine v.slab (x.2 % 2 ^ 30 / 64) == a
  then some (x.2 % 2 ^ 30 / 64) else none

/-- The units that an evacuation has not copied yet are copied at once; `lost` are lines of them that could not
be read, beside those known (R244, R245). -/
def State.evacRest (s : State) (d : Nat) (v : Evac) (lost : List Nat) : State :=
  let r := s.dev d
  let left := (262144 - r.ptr) * 4096
  let fixed := s.ce.filter (fun a => (s.unitLine d v a).isSome)
  let ls := (sortBy (fun a b => decide (a ≤ b)) (lost.filter (fun l => r.ptr * 64 ≤ l && l < 2 ^ 24) ++
    (s.ue ++ s.lost).filterMap (s.unitLine d v))).eraseDups
  let s1 := fixed.foldl (fun s a => { s with ce := s.ce.filter (· != a) }.dramCe a)
    ((s.count bDRAMC d 0xC18 left).count bDRAMC v.dstDev 0xC20 left)
  let s2 := ls.foldl (fun s l => (s.dramUe (s.posLine v.slab l)).lineLost d (s.posLine v.slab l)) s1
  let runs := match (s.dev d).lostRun, lineRuns ls with
    | some x, y :: ys => if x.1 + x.2 = y.1 then (x.1, x.2 + y.2) :: ys else x :: y :: ys
    | some x, [] => [x]
    | none, l => l
  (s2.setDev d { s2.dev d with ptr := 262144, lostRun := none, logWait := runs }).evacLog d

/-- EVAC_DONE: the copy of a position ends; `lost` are the lines of the units left that could not be read. A
copy that waits for the lost-line log is paused. -/
def execEvacDone (dev : Nat) (lost : List Nat) (s : State) : Res :=
  let r := s.dev dev
  .next (match r.evac with
  | none => s
  | some v => if !r.logWait.isEmpty then s else (s.evacRest dev v lost).evacFinish dev)

/-- LOST_LOG_REREAD: a paused evacuation reads the log's consumer index again; with every record written it
goes on, or ends if its units are all copied. -/
def execLostLogReread (dev : Nat) (s : State) : Res :=
  .next (if (s.dev dev).logWait.isEmpty then s
  else
    let s1 := s.evacLog dev
    if 262144 ≤ (s1.dev dev).ptr then s1.evacFinish dev else s1)

/-! ## Memory accounting (16 R387, R390) -/

/-- MEM_GRANT and MEM_RETURN: PART_MEM_USED follows, never above the quota. -/
def State.memUse (s : State) (c : Cmd) (op p units : Nat) (grant : Bool) : State :=
  let used := s.fld bPART p 0x05C 0 19
  if p = 0 || 2 ^ 19 ≤ units then s.refusePart c op p 0x0003
  else if (s.part p).lstate = .free then s.refusePart c op p 0x0004
  else if grant then
    if s.fld bPART p 0x058 0 19 < used + units then s.refusePart c op p 0x0005
    else (s.setReg bPART p 0x05C (BitVec.ofNat 32 (used + units))).answer c op 0
  else if used < units then s.refusePart c op p 0x0003
  else (s.setReg bPART p 0x05C (BitVec.ofNat 32 (used - units))).answer c op 0

def execMemGrant (c : Cmd) (p units : Nat) (s : State) : Res :=
  .next (s.partCmd c 0x0501 p false false (fun s => s.memUse c 0x0501 p units true))
def execMemReturn (c : Cmd) (p units : Nat) (s : State) : Res :=
  .next (s.partCmd c 0x0502 p false false (fun s => s.memUse c 0x0502 p units false))

/-! ## The bus and the DRAM controllers (01 R30-R34) -/

/-- Whether a control core's access to an address finds something there. -/
def State.busHas (s : State) (a : Nat) : Bool :=
  if inDram a then s.groupOk a
  else inSram a || inIm a || (0x280000000000 ≤ a && a < 0x280002000000) ||
    (0x200000000000 ≤ a && a < 0x200100000000 && instOk (bitsAt a 24 8) (bitsAt a 12 12))

/-- UNMAPPED_ACCESS: the access has no effect, a read gives 0; it is captured and counted (R30, Table 22-7). -/
def execUnmappedAccess (addr : BitVec 48) (write : Bool) (core : BitVec 2) (complex : Bool) (s : State) : Res :=
  let a := addr.toNat
  .next (if s.busHas a then s else s.unmapped a write core.toNat complex)

/-- The postponed refreshes are issued ahead of everything; the burst is counted. -/
def State.refreshBurst (s : State) (dev : Nat) : State :=
  (s.setDev dev { s.dev dev with postponed := 0 }).count bDRAMC dev 0xC28 1

/-- DRAM_REFRESH: a per-bank refresh falls due. With no Q0 or Q1 request waiting it is issued, with those
postponed before it; one goes ahead of a request that waits, and the others are postponed, up to eight. One more
at the limit forces the burst first. -/
def execDramRefresh (dev : Nat) (waiting : Bool) (s : State) : Res :=
  .next (if 11 < dev then s
  else if !waiting then s.setDev dev { s.dev dev with postponed := 0, ahead := false }
  else if !(s.dev dev).ahead then s.setDev dev { s.dev dev with ahead := true }
  else
    let s1 := if (s.dev dev).postponed = 8 then s.refreshBurst dev else s
    s1.setDev dev { s1.dev dev with postponed := (s1.dev dev).postponed + 1 })
/-- REFRESH_BURST: at the limit of eight, the postponed refreshes are issued ahead of everything. -/
def execRefreshBurst (dev : Nat) (s : State) : Res :=
  .next (if dev < 12 && (s.dev dev).postponed = 8 then s.refreshBurst dev else s)
/-- DRAM_ARB_WINDOW: a new window of 1 µs gives the classes their shares of bus cycles afresh; what waited of
class Q0 goes first (R33). -/
def execDramArbWindow (dev : Nat) (s : State) : Res :=
  .next (if 11 < dev then s
  else
    let r := s.dev dev
    s.setDev dev { r with q0 := min r.late q0Limit, q2 := 0, late := r.late - min r.late q0Limit })

/-! ## Installing a schedule (07 R200) -/

/-- A link record of a schedule image. -/
structure LinkRec where
  tile : Nat
  out : Dir
  table : List Nat
  deriving DecidableEq, Repr

def parseLink (bs : List Byte) : LinkRec :=
  { tile := bitsAt (field bs 0 2) 0 11, out := dirOf (bitsAt (field bs 2 1) 0 2)
    table := (List.range 256).map (fun j => bitsAt ((bs.getD (8 + j / 2) 0).toNat) (4 * (j % 2)) 4) }
def LinkRec.key (r : LinkRec) : Nat := r.tile * 4 + dirCode r.out

/-- A group's links and tables as an image would leave them, to check its tables against each other (R187). -/
def State.withLinks (s : State) (p g : Nat) (steady : Bool) (l : List LinkRec) : State :=
  let s1 : State := { s with links := s.links.filter (fun (x : Nat × Link) => !(x.2.owned && x.2.part == p && x.2.group == g)) }
  l.foldl (fun s r => s.setLink r.tile r.out
    { owned := true, part := p, group := g, steady := steady
      table := r.table.zipIdx.foldl (fun m e => mset 0 m e.2 e.1) [] }) s1

/-- The reasons of R200 for 0x0003. -/
def State.imageBad (s : State) (p g : Nat) (steady : Bool) (n len : Nat) (l : List LinkRec) : Bool :=
  len != 32 + 136 * n || 5760 < n || !s.partGroup p g ||
  l.any (fun r => !tileOk r.tile || s.tileOwner r.tile != some p ||
    (match neighbour r.tile r.out with | some u => s.tileOwner u != some p | none => true)) ||
  hasDup (l.map LinkRec.key) ||
  (if steady then l.any (fun r => r.table.any (· != 0))
    else
      let s1 := s.withLinks p g false l
      l.any (fun r => r.table.zipIdx.any (fun e => s1.entryBad r.tile r.out e.2 e.1)))

/-- Firmware writes GRID_LINK_OWNER of a link. -/
def State.giveLink (s : State) (key : Nat) (v : Nat) : State :=
  (s.setReg bGRID 0 0x300 (BitVec.ofNat 32 (key / 4 + key % 4 * 2 ^ 11))).linkOwner (BitVec.ofNat 32 v)

/-- Firmware loads a record's table through GRID_ST_CTRL.LOAD. -/
def State.loadTable (s : State) (r : LinkRec) : State :=
  let s1 := s.setReg bGRID 0 0x200 (BitVec.ofNat 32 (r.tile + dirCode r.out * 2 ^ 11))
  ((List.range 32).foldl (fun s k =>
    s.setReg bGRID 0 (0x280 + 4 * k) (BitVec.ofNat 32 (packE 4 ((List.range 8).map (fun i => r.table.getD (8 * k + i) 0))))) s1
    ).stLoad

/-- Steps 1 to 4 of R200, through the GRID registers: links not named are given up, those named given to the
group, their tables loaded, the wave masks written. -/
def State.installImage (s : State) (p g : Nat) (steady : Bool) (l : List LinkRec) (masks : List Nat) : State :=
  let mine := (s.links.filter (fun (x : Nat × Link) => x.2.owned && x.2.part == p && x.2.group == g)).map Prod.fst
  let s1 := (mine.filter (fun k => !l.any (fun r => r.key == k))).foldl (fun s k => s.giveLink k 0) s
  let s2 := l.foldl (fun s r => s.giveLink r.key (p + g * 2 ^ 10 + steady.toNat * 2 ^ 30 + 2 ^ 31)) s1
  let s3 := if steady then s2 else l.foldl State.loadTable s2
  masks.zipIdx.foldl (fun s m =>
    if m.1 = 255 then s
    else (s.setReg bGRID 0 0x310 (BitVec.ofNat 32 (p + m.2 * 2 ^ 16))).setWave p m.2 (m.1 % 16)) s3

/-- GRID_LOAD: the whole image is read before anything changes. -/
def State.gridLoad (s : State) (c : Cmd) (p va len : Nat) : State :=
  if 1023 < p || va % 16 != 0 || len < 32 || 32 + 136 * 5760 < len then s.answer c 0x0404 0x0003
  else
    match s.vget false p accR va len [] with
    | (s1, .ok bs _) =>
      let g := bitsAt (field bs 4 2) 0 11
      let steady := bitsAt (field bs 6 1) 0 1 == 1
      let n := field bs 8 4
      let l := (unitsOf 136 bs.length (bs.drop 32)).map parseLink
      if field bs 0 4 != 1 || s1.imageBad p g steady n len l then s1.answer c 0x0404 0x0003
      else if !s1.groupQuiet g || s1.locked bGRID 0 ||
          l.any (fun r => let k := s1.link r.tile r.out; k.owned && (k.part != p || k.group != g)) then
        s1.answer c 0x0404 0x0004
      else
        ((s1.answer c 0x0404 0x0009).installImage p g steady l ((List.range 16).map (fun w => field bs (16 + w) 1))).finish c 0
    | (s1, _) => s1.answer c 0x0404 0x0003

/-- On a partition channel the partition is the channel's own. -/
def execGridLoad (c : Cmd) (p : Nat) (va : W64) (len : Nat) (s : State) : Res :=
  let q := match c.chan with | .part a => a | _ => p
  .next (s.command c 0x0404 (chanOk c true false true false) (fun s => s.gridLoad c q va.toNat len))

end Sys2Proof.Machine
end

