-- ==== Sys2Proof/Machine/Mailboxes.lean ====
section
/-! DEFINITION. Mailbox channels (17_mailboxes R406-R417): posts, takes and acknowledges, MGMT packets,
the partition channel block, recovery data (19 R456) and page locks (22 R509). -/

namespace Sys2Proof.Machine

/-! ## Any channel (R408, R409) -/

/-- Channels the module has (Table 17-1). -/
def chanOkay : Chan → Bool
  | .part p => p < 1024
  | .tile t => tileOk t
  | _ => true

/-- MBOX_POST: a far endpoint's message replaces what is unread; firmware's own waits for a free
direction (R473). -/
def execMboxPost (ch : Chan) (toFw : Bool) (words : List W64) (s : State) : Res :=
  .next (if !chanOkay ch || words.isEmpty || 8 < words.length then s
  else if toFw then
    let s1 := s.setMb ch true ((s.mb ch true).post words false)
    match ch with | .part p => s1.chanStatus p | _ => s1
  else s.fwPost ch words)

/-- Opcodes of Table 17-7. -/
def knownOps : List Nat := [
  0x0101, 0x0102, 0x0103, 0x0104, 0x0105, 0x0106, 0x0107, 0x0108, 0x0109, 0x010A, 0x0201, 0x0202, 0x0301,
  0x0302, 0x0401, 0x0402, 0x0403, 0x0404, 0x0501, 0x0502, 0x0503, 0x0504, 0x0505, 0x0506, 0x0601, 0x0602,
  0x0701, 0x0702, 0x0801, 0x0901, 0x0902, 0x0A01, 0x0A02, 0x0A03, 0x0B01, 0x0C01, 0x0C02, 0x0D01, 0x0E01]

/-- A notification record of a partition goes to the manager as MB_EV_NOTIFY (Table 20-4). -/
def State.postNotify (s : State) (p : Nat) (words : List W64) : State :=
  let m := s.mb .manager false
  let w : List W64 := [
    BitVec.ofNat 64 (0x8002 + m.evSeq % 65536 * 65536), BitVec.ofNat 64 (p + m.dropped * 2 ^ 32),
    words.getD 0 0, words.getD 1 0, s.timeWord]
  (s.setMb .manager false { m with evSeq := (m.evSeq + 1) % 65536, dropped := 0 }).fwPost .manager w

/-- Firmware takes a message: on an ordinary channel FULL clears; a record posted for a partition is passed
on, and a message of no known opcode is answered with 0x0001. A known command's own row is its service. -/
def State.fwTake (s : State) (ch : Chan) : State :=
  let m := s.mb ch true
  if !m.full || !s.fwReady || s.outranked ch then s
  else
    let w := (m.words.getD 0 0).toNat
    let c : Cmd := { chan := ch, tag := BitVec.ofNat 16 (bitsAt w 16 16) }
    let take (s : State) : State :=
      let s1 := (s.setMb ch true { m with full := false, src := false }).count bCTRL (dieInst s.ident.active) 0xC08 1
      match ch with | .part p => s1.chanStatus p | _ => s1
    match ch, m.src with
    | .part p, true => (take s).postNotify p m.words
    | _, _ =>
      if !knownOps.contains (bitsAt w 0 16) then s.answer c (bitsAt w 0 16) 0x0001
      else if chanPriv ch then s
      else take s

/-- MBOX_TAKE: firmware's take, or the take of a tile's waiting XMBR. A partition client's read is not
seen (R416), and on a privileged channel reading changes nothing. -/
def execMboxTake (ch : Chan) (toFw : Bool) (s : State) : Res :=
  .next (if !chanOkay ch then s
  else if toFw then s.fwTake ch
  else match ch with
    | .tile t =>
      match (s.tile t).waitFor with
      | some (.mbox sn) =>
        if (s.mb (.tile t) false).full && s.tileEdges t then
          ((s.hold t 1).updTile t (fun x => { x with waitFor := none, waitExt := false })).takeTileMsg t sn
        else s
      | _ => s
    | _ => s)

/-- MBOX_ACK: an acknowledge clears FULL and sets ACKED and RC; with FULL = 0, or on an ordinary channel,
it has no effect. -/
def execMboxAck (ch : Chan) (toFw : Bool) (rc : BitVec 16) (s : State) : Res :=
  let m := s.mb ch toFw
  .next (if !chanPriv ch || !m.full then s
  else
    let m1 : Mbox := { m with full := false, acked := true, rc := rc }
    if toFw then
      let s1 := s.count bCTRL (dieInst s.ident.active) 0xC08 1
      if ch = .inter then s1.setMb ch true m1
      else (s1.setMb ch true { m1 with awaiting := some (1, m.seq, rc, []) }).emit (.mgmt m.mp1 1 (ch == Chan.security) m.seq rc [])
    else (s.setMb ch false m1).fwNext ch)

/-! ## MGMT packets (R414, R415) -/

/-- Channel of an MGMT packet. -/
def mgmtChan (security : Bool) : Chan := if security then .security else .manager
/-- Whether the always-on responder or firmware takes MGMT packets of a source. -/
def State.mgmtFrom (s : State) (src : BitVec 128) : Bool := s.pwr.vaux && s.store.operator.1.contains src
/-- The state an echo carries: FULL, COLLISION, RRESET, ACKED. -/
def Mbox.echo (m : Mbox) : BitVec 16 :=
  BitVec.ofNat 16 (m.full.toNat + 2 * m.collision.toNat + 4 * m.rreset.toNat + 8 * m.acked.toNat)
/-- Firmware answers on the port that carried the packet. -/
def State.onPort (s : State) (ch : Chan) (mp1 : Bool) : State :=
  (s.setMb ch true { s.mb ch true with mp1 := mp1 }).setMb ch false { s.mb ch false with mp1 := mp1 }

/-- A post: a duplicate is only echoed; a new session resets the manager's receiving end (R412). -/
def State.mgmtPost (s : State) (security newSession mp1 : Bool) (seq : W32) (words : List W64) : State :=
  let ch := mgmtChan security
  let s0 := s.onPort ch mp1
  let s1 := if (s0.mb ch true).last = some seq || 8 < words.length then s0
    else
      let a := if newSession then
          let b := s0.resetReceiver ch false
          (b.setMb ch false { b.mb ch false with awaiting := none }).fwNext ch
        else s0
      if words.isEmpty then a.setMb ch true { a.mb ch true with last := some seq }
      else a.setMb ch true { ((a.mb ch true).post words false) with seq := seq, last := some seq }
  s1.emit (.mgmt mp1 2 security seq (s1.mb ch true).echo [])

def execMgmtPost (security newSession : Bool) (mp1 : Bool) (seq : W32) (words : List W64) (src : BitVec 128) (s : State) : Res :=
  .next (if s.mgmtFrom src then s.mgmtPost security newSession mp1 seq words else s)

/-- The manager's acknowledge of firmware's post with a sequence number; the next pending post goes out. -/
def State.mgmtAck (s : State) (security mp1 : Bool) (seq : W32) (rc : BitVec 16) : State :=
  let ch := mgmtChan security
  let s0 := s.onPort ch mp1
  let m := s0.mb ch false
  let hit := m.full && m.seq == seq
  let s1 := if hit then s0.setMb ch false { m with full := false, acked := true, rc := rc } else s0
  let s2 := s1.emit (.mgmt mp1 2 security seq (s1.mb ch false).echo [])
  if hit then s2.fwNext ch else s2

def execMgmtAck (security : Bool) (mp1 : Bool) (seq : W32) (rc : BitVec 16) (src : BitVec 128) (s : State) : Res :=
  .next (if s.mgmtFrom src then s.mgmtAck security mp1 seq rc else s)

/-- A state echo: what was sent under that sequence number needs no resend. -/
def State.mgmtEcho (s : State) (security : Bool) (seq : W32) : State :=
  let ch := mgmtChan security
  let clear (m : Mbox) : Mbox :=
    match m.awaiting with
    | some (_, q, _, _) => if q = seq then { m with awaiting := none } else m
    | none => m
  (s.setMb ch true (clear (s.mb ch true))).setMb ch false (clear (s.mb ch false))

def execMgmtStateEcho (security : Bool) (_mp1 : Bool) (seq : W32) (_state : BitVec 4) (src : BitVec 128) (s : State) : Res :=
  .next (if s.mgmtFrom src then s.mgmtEcho security seq else s)

/-- MGMT_RESEND: 1 ms without an echo; what awaits one is sent again unchanged. -/
def execMgmtResend (security : Bool) (s : State) : Res :=
  let ch := mgmtChan security
  let again (s : State) (m : Mbox) : State :=
    match m.awaiting with
    | some (k, q, rc, w) => s.emit (.mgmt m.mp1 k security q rc w)
    | none => s
  .next (if s.pwr.vaux then again (again s (s.mb ch true)) (s.mb ch false) else s)

/-- A last-gasp record of the module at the other end of collective edges: their runs fail (R361). -/
def State.peerGasp (s : State) (src : BitVec 128) : State :=
  (s.conns.filter (fun x => isOpen x.2 && x.2.peerAddr == src && x.2.edge.isSome)).foldl (fun s x =>
    match x.2.edge with | some h => s.collFail h 0x000A | none => s) s

/-- MGMT_LAST_GASP: acted on where it comes on a data port; a management port carries none to act on. -/
def execMgmtLastGasp (src : BitVec 128) (dataPort : Bool) (s : State) : Res :=
  .next (if dataPort && s.powered then (s.peerGasp src).settle else s)

/-! ## Recovery data (19 R456) -/

/-- MGMT_RECOVERY_DATA: kept on the recovery path, echoed; firmware discards it. -/
def State.recoveryData (s : State) (off : W32) (bytes : List Byte) : State :=
  if !s.ident.recovery || 4096 < bytes.length then s
  else
    let y := s.ident
    let s1 : State := { s with ident := { y with
      recBuf := writeBytes y.recBuf off.toNat bytes, recOff := y.recOff ++ [(off.toNat, bytes.length)] } }
    s1.emit (.mgmt false 2 false off 0 [])
def execMgmtRecoveryData (off : W32) (bytes : List Byte) (s : State) : Res :=
  .next (if s.pwr.vaux then s.recoveryData off bytes else s)

/-- RECOVERY_REQUEST: once a second on the recovery path, on both management ports, to every manager of the
operator record, or by broadcast where that record fails. -/
def execRecoveryRequest (s : State) : Res :=
  let tos : List (Option (BitVec 128)) :=
    if (s.store.inForce 7).isSome then s.store.operator.1.map some else [none]
  .next (if s.pwr.vaux && s.ident.recovery then
    tos.foldl (fun u a => (u.emit (.recovery false a)).emit (.recovery true a)) s else s)

/-! ## Page locks (22 R509) -/

/-- The instances a lock change names. -/
def lockInsts (block inst : Nat) (all : Bool) : List Nat :=
  if all then (List.range 4096).filter (instOk block) else if instOk block inst then [inst] else []
/-- Sets PAGE_LOCK of pages. -/
def State.setLocks (s : State) (block : Nat) (l : List Nat) (lock : Bool) : State :=
  l.foldl (fun s i => s.setReg block i oPAGE_LOCK (BitVec.ofNat 32 lock.toNat)) s
/-- MGMT_PAGE_LOCK: applied in hardware, echoed with the value now in force in bit 4. -/
def State.pageLock (s : State) (seq : W32) (block inst : Nat) (lock all mp1 : Bool) : State :=
  let s1 := s.setLocks block (lockInsts block inst all) lock
  s1.emit (.mgmt mp1 2 false seq (BitVec.ofNat 16 ((s1.locked block inst).toNat * 16)) [])
def execMgmtPageLock (seq : W32) (block : Byte) (inst : BitVec 12) (lock all : Bool) (mp1 : Bool) (src : BitVec 128) (s : State) : Res :=
  .next (if s.mgmtFrom src then s.pageLock seq block.toNat inst.toNat lock all mp1 else s)

/-! ## MGMT as it arrives on a port (R414, Table 17-4) -/

/-- The words of a post: big-endian from byte 16. -/
def mgmtWords (b : List Byte) : List W64 :=
  (List.range (bitsAt (b.getD 2 0).toNat 0 4)).map (fun i => BitVec.ofNat 64 (beNat ((b.drop (16 + 8 * i)).take 8)))

/-- An MGMT packet by its KIND; on a data port only a last-gasp record is acted on. -/
def State.mgmtIn (s : State) (k : Pkt) : State :=
  let b := k.payload
  let kind := (b.getD 0 0).toNat
  let sec := (b.getD 1 0).toNat % 4 == 1
  let seq : W32 := BitVec.ofNat 32 (beNat ((b.drop 4).take 4))
  let mp1 := k.port == 25
  if k.port < 24 then (if kind = 3 then s.peerGasp k.src else s)
  else if kind = 5 then s.recoveryData seq (b.drop 16)
  else if !s.mgmtFrom k.src || 1 < (b.getD 1 0).toNat % 4 then s
  else match kind with
    | 0 => s.mgmtPost sec ((b.getD 1 0).getLsbD 2) mp1 seq (mgmtWords b)
    | 1 => s.mgmtAck sec mp1 seq (BitVec.ofNat 16 (beNat ((b.drop 8).take 2)))
    | 2 => s.mgmtEcho sec seq
    | 6 => s.pageLock seq (b.getD 16 0).toNat (beNat ((b.drop 17).take 2) % 4096) ((b.getD 19 0).getLsbD 0) ((b.getD 19 0).getLsbD 1) mp1
    | _ => s
def execKvtMgmt (k : Pkt) (s : State) : Res :=
  .next (if k.port < 26 then (s.plainOk 0x3F k (fun s => s.mgmtIn k)).settle else s)

/-! ## The partition channel block (R416) -/

/-- CHANNEL_POST: a hemmed write to POST; the words posted stand in the block. -/
def execChannelPost (p : Nat) (words : List W64) (seq : W32) (len : BitVec 4) (s : State) : Res :=
  let n := len.toNat
  .next (if 1023 < p || (s.part p).chan.isNone || n = 0 || 8 < n || words.length < n then s
  else
    let m := (s.mb (.part p) true).post (words.take n) false
    (s.setMb (.part p) true { m with seq := seq }).chanStatus p)

/-- CHANNEL_TAKEN: the client has taken the firmware message of a sequence number. -/
def execChannelTaken (p : Nat) (seq : W32) (s : State) : Res :=
  let m := s.mb (.part p) false
  .next (if 1023 < p || !m.full || m.seq != seq then s
  else ((s.setMb (.part p) false { m with full := false }).chanStatus p).fwNext (.part p))

end Sys2Proof.Machine
end

