-- ==== Sys2Proof/Machine/Power.lean ====
section
/-! DEFINITION. Connector, sideband and tray bus (02_module_connections R44 to R55); supply, throttle,
power states and power managers (03_power_and_supply R60 to R83); the module-fatal stop (20 R481). -/

namespace Sys2Proof.Machine

/-- Changes the power record. -/
def State.updPwr (s : State) (f : Pwr → Pwr) : State := { s with pwr := f s.pwr }
/-- Whether the module is in service. -/
def State.inService (s : State) : Bool :=
  s.pwr.phase == .on || s.pwr.phase == .toM3 || s.pwr.phase == .fromM3
/-- Whether the module is going down. -/
def State.goingDown (s : State) : Bool :=
  match s.pwr.phase with
  | .down _ => true
  | _ => false

/-! ## Tray-bus conditions (R50, R53) -/

/-- The conditions of ALERT_STATUS as they stand (Table 2-4): the input is outside its range by the latest
VIN, if one was taken, or by the monitors of R60 and R71. -/
def State.trayCond (s : State) : Byte :=
  let x := s.tray
  let off := decide (x.vin.toNat < 4400) || decide (5950 < x.vin.toNat)
  BitVec.ofNat 8 (((x.seen && off) || s.pwr.low || s.pwr.sag || s.pwr.cut).toNat
    + 2 * (decide (s.fld bPWR 0 0x040 0 12 < x.pin.toNat)).toNat
    + 4 * (decide (s.pwr.kTherm < 64) || s.pwr.halt).toNat + 8 * s.stopping.toNat
    + 16 * (decide (450 < x.tcool.toInt)).toNat)
/-- A condition that begins sets its ALERT_STATUS bit. -/
def State.alertNow (s : State) : State :=
  let c := s.trayCond
  { s with tray := { s.tray with alert := s.tray.alert ||| (c &&& ~~~s.tray.cond), cond := c } }
/-- Whether MOD_ALERT_N is driven low. -/
def State.alertOut (s : State) : Bool := (s.tray.alert &&& s.tray.mask) != 0

/-- A write of ALERT_STATUS: the named bits clear, but for conditions still present (R17, R53). -/
def State.alertClear (s : State) (bits : Byte) : State :=
  { s with tray := { s.tray with alert := (s.tray.alert &&& ~~~bits) ||| (s.trayCond &&& bits) } }.alertNow

def execTrayAlertClear (bits : Byte) (s : State) : Res :=
  .next (if s.pwr.vaux then s.alertClear bits else s)

/-- The module answers the Alert Response Address with its own while it drives MOD_ALERT_N. -/
def execAlertResponse (s : State) : Res :=
  .next (if s.pwr.vaux && s.alertOut then s.emit (.trayAra 0x4A) else s)

/-- Packet Error Code of SMBus 3.1: CRC-8 with polynomial x^8 + x^2 + x + 1 over every byte of the transfer
(log entry 48). -/
def pecBit (c : Byte) : Byte := if c.getLsbD 7 then (c <<< 1) ^^^ 0x07 else c <<< 1
def pecByte (c b : Byte) : Byte := pecBit (pecBit (pecBit (pecBit (pecBit (pecBit (pecBit (pecBit (c ^^^ b))))))))
def pecOf (bs : List Byte) : Byte := bs.foldl pecByte 0

/-- A write on the tray bus (Table 2-4); both registers that can be written are bytes. A Packet Error Code the
host sends is checked: with a wrong one the write is refused (R52). -/
def execTrayBusWrite (code : Byte) (data : TrayData) (s : State) : Res :=
  let value := data.value
  .next (if !s.pwr.vaux then s
  else if data.pec.any (fun p => p != pecOf [0x94, code, value.setWidth 8]) then s.emit .trayNack
  else if code = 0x08 then (s.alertClear (value.setWidth 8)).emit .trayAck
  else if code = 0x09 then { s with tray := { s.tray with mask := value.setWidth 8 &&& 0x1F } }.emit .trayAck
  else s.emit .trayNack)

/-- What a read of a tray-bus command gives; none is a NACK. STATE[4], throttling active, is taken for a
module-wide K in force below 64 (log entry 49). -/
def State.trayRead (s : State) (code : Byte) : Option (BitVec 16) :=
  let x := s.tray
  match code.toNat with
  | 0x01 => some (BitVec.ofNat 16 (s.pwr.state + 8 * (!s.pwr.resetN).toNat + 16 * (decide (s.pwr.keep < 64)).toNat))
  | 0x02 => some x.vin
  | 0x03 => some x.iin
  | 0x04 => some x.pin
  | 0x05 => some (BitVec.ofNat 16 (s.fld bPWR 0 0x040 0 12))
  | 0x06 => some x.tj
  | 0x07 => some x.tcool
  | 0x08 => some (x.alert.setWidth 16)
  | 0x09 => some (x.mask.setWidth 16)
  | _ => none

/-- The bytes of a tray-bus read, low byte first; with the Packet Error Code when the host clocks the extra byte
(R52). -/
def State.trayReply (s : State) (code : Byte) (pec : Bool) : Option (List Byte) :=
  (s.trayRead code).map (fun w =>
    let bs := leBytes (if code.toNat = 1 || code.toNat = 8 || code.toNat = 9 then 1 else 2) w.toNat
    if pec then bs ++ [pecOf ([0x94, code, 0x95] ++ bs)] else bs)

def execTrayTelemetryUpdate (vin iin pin tj tcool : BitVec 16) (s : State) : Res :=
  .next (if s.pwr.vaux then
    { s with tray := { s.tray with seen := true, vin := vin, iin := iin, pin := pin, tj := tj, tcool := tcool } }.alertNow else s)

/-- MOD_PPS_OUT rises within 5 ns of a whole second of locked network time (R51). -/
def execPpsOut (s : State) : Res :=
  .next (if s.powered && s.timeLocked && !s.tray.ppsOut && (s.time.ns ≤ 5 || 999999995 ≤ s.time.ns) then
    { s with tray := { s.tray with ppsOut := true, ppsLeft := 168750 } }.emit (.pps true) else s)

/-! ## Loss of volatile state, and starting up (R48, R73, R457, R510) -/

/-- The store as an interrupted replacement leaves it (R465): a power loss may leave the image unverifiable, and
of an orderly stop the image is the old or the new one. -/
def State.cutStore (s : State) : Store :=
  if s.ident.actStep = 3 && s.freeBit 9 then
    match s.pwr.phase with
    | .down .orderly | .down .requested | .down .restart | .down .abandoned =>
      { s.store with image := { svn := s.ident.fwSvn, raiseMin := s.ident.fwMin, id := s.ident.fwId } }
    | _ => { s.store with image := { s.store.image with ok := false } }
  else s.store

/-- What VAUX keeps of the ports: the links of MP0 and MP1, which carry traffic in every power state (R42). -/
def State.islandPorts (s : State) : SMap Port :=
  (s.ports.filter (fun x => 24 ≤ x.1)).filterMap (fun x => if x.2.up0 then some (x.1, { up0 := true }) else none)

/-- The rails go down: volatile state is lost, registers, counters and shadows with it (log entry 35). What
VAUX supplies stays: the tray bus, the management links, and the manager channel, which holds commands (R79). -/
def State.lose (s : State) : State :=
  let s1 : State :=
    { pending := s.pending, fresh := s.fresh, align := s.align, out := s.out
      pwr := { s.pwr with
        keep := 64, kCap := 64, kSag := 64, kTherm := 64, kSlope := 64, halt := false, shareK := []
        keepShare := [], slopeShare := [], droopDies := [], droopFor := 0, droopSeen := false, droopLast := false
        keepLast := 64, frame := 0, prevPin := 0, fill := 0, sag := false, joule := 0, vcd := [], tj := 0
        pmStandbyOk := false, pmRole := false }
      tray := { s.tray with ppsOut := false, ppsLeft := 0 }
      ports := s.islandPorts
      mbox := s.mbox.filter (fun x => x.1 / 2 == chanInst .manager)
      images := s.images
      ident := { stage := s.ident.stage, failCode := s.ident.failCode }
      store := s.cutStore
      ciph := { cond := s.ciph.cond, lid := s.ciph.lid } }
  if s.tray.ppsOut then s1.emit (.pps false) else s1

/-- A reset loses the manager channel and the tray bus's registers too (R48). -/
def State.loseMore (s : State) : State :=
  let x := s.lose
  { x with mbox := [], tray := {} }.alertNow
/-- VAUX is off: the management ports and the tray bus go with it (R52, R72). -/
def State.loseVaux (s : State) : State :=
  let x := s.lose
  { x with mbox := [], ports := [], tray := {} }

/-- Start-up begins (R457): every register, counter and shadow is at its reset value (R510), the power
manager and the complex on FD0 are active (R23, R81), a new storage root is drawn (R424). -/
def State.startUp (s : State) : State :=
  let s1 := s.lose
  { s1 with
    align := 0, regs := [], cnts := [], shadows := [], ident := { stage := 1 }, store := s1.store.note .started
    pwr := { s1.pwr with
      phase := .starting, startQueued := false, blocked := false, slept := false, state := 4, pmStandbyOk := true }
    ciph := { s1.ciph with storageRoot := BitVec.ofNat 256 (Config.freeNat s1.fresh 6) }
    parts := [(0, { lstate := .active })] }.freshen

/-- Start-up begins where power-good holds, MOD_PWREN and MOD_RESET_N are high and nothing keeps the module
in state M4 (R47, R48, R61, R458). -/
def State.tryStart (s : State) : State :=
  let x := s.pwr
  if x.phase == .off && x.powerGood && x.pwren && x.resetN && !x.blocked && !x.slept then s.startUp else s

/-- The module is as after insertion (R61, R73). -/
def State.inserted (s : State) : State :=
  s.updPwr (fun x => { x with
    vaux := true, rails := 1, state := 4, phase := .off, powerGood := false, bankFull := false, inrush := .inputCap
    bank := 0, cut := false, low := false, below40 := false, sag := false, blocked := false, slept := false
    startQueued := false })

def execHotInsertion (s : State) : Res :=
  .next (if s.pwr.seated then s else s.inserted.updPwr (fun x => { x with seated := true }))

/-- Removal: the undriven MOD_PWREN reads low and MOD_RESET_N high (R46). In a state other than M4 it leaves no
orderly mark, and so counts at the next start-up (R45, R453). -/
def execHotRemoval (s : State) : Res :=
  .next (if !s.pwr.seated then s
  else
    s.loseVaux.updPwr (fun x => { x with
      seated := false, vaux := false, rails := 0, state := 4, phase := .off, powerGood := false, bankFull := false
      bank := 0, inrush := .none, cut := false, low := false, below40 := false, pwren := false, resetN := true
      blocked := false, slept := false, startQueued := false }))

/-- Energy of the full bank (R62). -/
def fullBank : Nat := 700 + Config.bankSpare

/-- The bank holds its full energy. -/
def Pwr.filled (x : Pwr) : Pwr := { x with bankFull := true, bank := fullBank, inrush := .none }

def execPowerGood (s : State) : Res :=
  .next (if s.pwr.seated && s.pwr.vaux && !s.pwr.cut && !s.pwr.low && !s.pwr.below40 then
    (s.updPwr (fun x => { x.filled with powerGood := true })).tryStart else s)

def execHoldupRefilled (s : State) : Res :=
  .next (if s.pwr.seated && s.pwr.vaux && !s.pwr.cut && !s.pwr.below40 then s.updPwr Pwr.filled else s)

/-! ## Going down (R47, R79) -/

/-- Firmware sends every pending moderated notification. -/
def State.flushNotes (s : State) : State :=
  s.queues.foldl (fun s x =>
    if x.2.used && 0 < x.2.count then s.notify (x.1 / 4096) (x.1 % 4096) false false else s) s

/-- An orderly power-down begins. -/
def State.downOrderly (s : State) (why : DownWhy) : State :=
  s.flushNotes.updPwr (fun x => { x with phase := .down why })

/-- The power-down notice, on MP0 or MP1; which is free. -/
def State.sendNotice (s : State) : State := (s.emit (.notice (s.freeBit 7))).freshen

def execModPwrenHigh (s : State) : Res :=
  .next (if !s.pwr.seated || s.pwr.pwren then s
  else
    let s1 := s.updPwr (fun x => { x with
      pwren := true, blocked := false, slept := false, startQueued := x.startQueued || s.goingDown })
    s1.tryStart)

def execModPwrenLow (s : State) : Res :=
  .next (if !s.pwr.pwren then s
  else
    let s1 := s.updPwr (fun x => { x with pwren := false, startQueued := false })
    if s.pwr.phase = .starting then s1.downOrderly .abandoned
    else if s.inService then s1.sendNotice.downOrderly .orderly
    else s1)

/-- A qualified reset: no notice, nothing sent; all volatile state is lost as the rails go down. -/
def execModResetNLow (s : State) : Res :=
  .next (if !s.pwr.seated || !s.pwr.resetN then s
  else
    let s1 := s.updPwr (fun x => { x with resetN := false, startQueued := false })
    let s2 := { s1 with ciph := { s1.ciph with lid := false } }.loseMore
    if s.powered then s2.updPwr (fun x => { x with phase := .down .reset, state := 4 }) else s2)

def execModResetNHigh (s : State) : Res :=
  .next (if s.pwr.resetN then s
  else
    let s1 := s.updPwr (fun x => { x with
      resetN := true, blocked := false, slept := false, startQueued := x.startQueued || s.goingDown })
    s1.tryStart)

/-- The rails are down and the module is in state M4; a start-up that waits begins at once. -/
def State.downDone (s : State) (why : DownWhy) : State :=
  let gone := why == .lastGasp
  let stuck := (why == .fatal || why == .thermal || why == .failed) && !s.pwr.startQueued
  let mark := why == .orderly || why == .requested || (why == .restart && s.freeBit 0)
  let s1 := s.lose.updPwr (fun x => { x with phase := .off, state := 4, rails := 1, startQueued := false })
  let s2 := if mark then s1.updStore (fun x => x.note .orderly) else s1
  let s3 := s2.updPwr (fun x => { x with blocked := stuck, slept := why == .requested && !s.pwr.startQueued })
  let s4 := if why = .restart then s3.freshen else s3
  if gone then
    let s5 := s4.loseVaux
    if s.pwr.low || s.pwr.below40 || s.pwr.cut then
      s5.updPwr (fun x => { x with vaux := false, rails := 0, powerGood := false, bankFull := false, bank := 0 })
    else s5.inserted
  else s4.tryStart

def execPowerDownDone (s : State) : Res :=
  .next (match s.pwr.phase with
    | .down why => s.downDone why
    | _ => s)

/-- The input is back within range: after a last gasp the power-down still completes, and the module then
starts anew from insertion (R73). -/
def execInputPowerReturn (s : State) : Res :=
  .next (if !s.pwr.seated then s
  else match s.pwr.phase with
    | .down .lastGasp => s.updPwr (fun x => { x with low := false, below40 := false, cut := false })
    | .off => if s.pwr.vaux then s else s.inserted
    | _ => s)

/-! ## Last gasp and module-fatal stop (R72, R481) -/

/-- The records to the manager on both management ports and to the peer of every collective connection;
each carries the time and the cause. -/
def State.gaspRecords (s : State) (cause : Nat) : State :=
  let w : List W64 := [s.timeWord, BitVec.ofNat 64 (cause * 2 ^ 56)]
  let s1 := (s.emit (.mgmt false 3 false 0 0 w)).emit (.mgmt true 3 false 0 0 w)
  (s1.conns.filter (fun x => x.2.edge.isSome && isOpen x.2)).foldl
    (fun u x => u.emit (.peerGasp x.1 s.timeWord cause)) s1

/-- Whether firmware runs: start-up stage 1 has ended. -/
def State.fwRuns (s : State) : Bool := s.powered && 2 ≤ s.ident.stage

/-- The last gasp: cause 1, input below 40 V or cut off for more than 5 ms; cause 2, bank at its reserve. A
module without firmware running, in state M4 or stage 1, only loses its rails. -/
def State.lastGasp (s : State) (cause : Nat) : State :=
  let s0 := if s.fwRuns then (s.raise bPWR s.pwrInst 1).gaspRecords cause else s
  (s0.updPwr (fun x => { x with phase := .down .lastGasp, bank := if cause = 2 then 60 else x.bank })).alertNow

/-- Whether the bank supplies the whole load: the input is below 40 V or cut off (R60, R71). -/
def Pwr.onBank (x : Pwr) : Bool := x.below40 || x.cut

def execLastGasp (atReserve : Bool) (s : State) : Res :=
  .next (if s.pwr.vaux && !s.goingDown && (s.pwr.sag || !s.powered) && s.pwr.onBank then
    s.lastGasp (if atReserve then 2 else 1) else s)

/-- Every key is erased (R481). -/
def State.eraseAll (s : State) : State :=
  { s with
    keys := s.keys.map (fun (x : Nat × PKeys) => (x.1, { x.2 with root := none, erased := x.2.erased || x.2.root.isSome, pkek := 0 }))
    ciph := { s.ciph with storageRoot := 0, kek := false } }

/-- The data ports stop transmitting. -/
def State.portsStop (s : State) : State :=
  { s with ports := s.ports.map (fun (x : Nat × Port) =>
      if x.1 < 24 then (x.1, { x.2 with up0 := false, up1 := false, txq := [], pauseOut := [] }) else x) }

/-- A module-fatal cause: K = 0, the records, keys erased, rails down (R481); a thermal trip sends none. -/
def State.fatal (s : State) (cause : Nat) : State :=
  if !s.powered || s.goingDown then s
  else
    let s1 := (s.updStore (fun x => x.note (.fatal cause))).updPwr (fun x => { x with keep := 0 })
    let s2 := if cause = 0x12 then s1 else s1.gaspRecords cause
    (s2.portsStop.eraseAll.updPwr (fun x => { x with
      phase := .down (if cause = 0x12 then .thermal else .fatal), startQueued := false })).alertNow

/-- Loss of the reference, or of PLL lock on a die, once the PLLs have locked (R55, R514). -/
def execReferenceLost (die : Nat) (pll : Bool) (s : State) : Res :=
  .next (if 5 < die || !s.powered || s.goingDown || (pll && s.pwr.phase = .starting && s.ident.stage ≤ 3) then s
  else (s.raise bCLK die (if pll then 0 else 1)).fatal 0x10)

/-- A SerDes reference is lost: the ports of that die go down, both halves each. -/
def execSerdesRefLost (fd1 : Bool) (s : State) : Res :=
  .next (if !s.powered then s
  else
    let ns := if fd1 then (List.range 12).map (· + 12) ++ [25] else List.range 12 ++ [24]
    ns.foldl (fun s n => (s.linkLost n false).linkLost n true) s)

/-! ## Throttling (R63 to R65, Table 3-2) -/

/-- K as the causes now request it. -/
def Pwr.want (x : Pwr) : Nat :=
  if x.halt then 0 else min (min x.kCap x.kSag) (min x.kTherm x.kSlope)

/-- K of a partition as its share requests it. -/
def Pwr.shareOf (x : Pwr) (p : Nat) : Nat := mget 64 x.shareK p
/-- K of a partition's own causes: its share, and the slope limit on the rise of its share's K (R65). -/
def Pwr.shareWant (x : Pwr) (p : Nat) : Nat := min (x.shareOf p) (mget 64 x.slopeShare p)

/-- A cause that held K down ends: the rise is held to the slope limit from the present K (R65, R69). -/
def State.ramp (s : State) : State :=
  if s.fld bPWR 0 0x044 0 12 = 0 then s.updPwr (fun x => { x with kSlope := 64 })
  else s.updPwr (fun x => { x with kSlope := max 1 (min x.kSlope x.keep) })

/-- The same where a partition's share lets its K rise: the rise starts from the K in force. -/
def Pwr.rampShare (old x : Pwr) (p : Nat) : Pwr :=
  if old.shareOf p < x.shareOf p then
    { x with slopeShare := mset 64 x.slopeShare p (max 1 (min (mget 64 x.slopeShare p) (mget 64 x.keepShare p))) }
  else x
def State.rampShares (s : State) (old : Pwr) : State :=
  if s.fld bPWR 0 0x044 0 12 = 0 then s
  else s.updPwr (fun x => old.shareK.foldl (fun x e => old.rampShare x e.1) x)

/-- Applies new requests of causes, and the slope limit where K would rise. -/
def State.request (s : State) (f : Pwr → Pwr) : State :=
  let s1 := s.updPwr f
  (if s.pwr.want < s1.pwr.want then s1.ramp else s1).rampShares s.pwr

/-- The K values requested take effect, module-wide and partition by partition. -/
def State.loadK (s : State) : State :=
  s.updPwr (fun x => { x with
    keep := if s.stopping then 0 else x.want
    keepShare := ((x.shareK ++ x.slopeShare).map Prod.fst).foldl (fun m p => mset 64 m p (x.shareWant p)) [] })

/-- A throttle frame begins: the K values requested take effect (R64). -/
def State.frameBoundary (s : State) : State :=
  (s.updPwr (fun x => { x with
    keepLast := x.keep, droopLast := x.droopSeen, droopSeen := x.droop, frame := 0 })).loadK

/-- The boundary itself: alignment period 0 of a frame has begun (log entry 2). -/
def execThrottleFrameBoundary (s : State) : Res :=
  .next (if s.powered && s.pwr.frame == 0 then s.loadK else s)

/-! ## Droop (R66) -/

/-- A detector of a die sees VCD so many mV below its setpoint: deeper than TRIP, removal begins. -/
def execDroopTrip (x : Droop) (s : State) : Res :=
  let die := x.die
  .next (if s.powered && s.pwr.rails == 8 && die < 4 && s.fld bPWR 0 0x068 0 8 < x.drop then
    (s.updPwr (fun x => { x with
      droopDies := if x.droopDies.contains die then x.droopDies else x.droopDies ++ [die]
      droopFor := 0, droopSeen := true })).count bPWR s.pwrInst 0xC08 1 else s)

/-- Every detector has been above its release level for HOLD periods: at least as many have passed since
the latest trip. -/
def execDroopRelease (s : State) : Res :=
  .next (if s.fld bPWR 0 0x068 8 8 ≤ s.pwr.droopFor then s.updPwr (fun x => { x with droopDies := [] }) else s)

/-! ## Sag (R60, R62, R71) -/

/-- Sag handling begins: K at most 26 from the next frame boundary on. -/
def State.sagEnter (s : State) : State :=
  if !s.powered || s.goingDown || s.pwr.sag then s.alertNow
  else
    let s1 := (s.request (fun x => { x with sag := true, kSag := 26 })).count bPWR s.pwrInst 0xC10 1
    (s1.raise bPWR s.pwrInst 0).alertNow

/-- The condition of the input changes. Power-good ends with the range it names (R61). A bank that has supplied
the load holds what is left above its last-gasp reserve, which is free, and is no longer full (R62). -/
def State.inputNow (s : State) (low below40 cut : Bool) : State :=
  let s1 := s.updPwr (fun x => { x with
    low := low, below40 := below40, cut := cut, powerGood := x.powerGood && !low && !below40 && !cut })
  if s.pwr.onBank && !s1.pwr.onBank then
    (s1.updPwr (fun x => { x with bankFull := false, bank := s.freeIn 0 (min 60 x.bank) x.bank })).freshen
  else s1

def execInputProtectionOpen (s : State) : Res :=
  .next (if s.pwr.seated && s.pwr.vaux then (s.inputNow s.pwr.low s.pwr.below40 true).sagEnter else s)
/-- Protection closes once the input has stayed in range. -/
def execInputProtectionClose (s : State) : Res :=
  .next (if s.pwr.cut then (s.inputNow false false false).alertNow else s)
def execSagStart (below40 : Bool) (s : State) : Res :=
  .next (if s.pwr.seated && s.pwr.vaux then (s.inputNow true below40 s.pwr.cut).sagEnter else s)
/-- The input has been back in range for 100 µs: sag handling ends. -/
def execSagEnd (s : State) : Res :=
  .next (if s.pwr.cut then s
  else
    let s1 := s.inputNow false false false
    if s.pwr.sag && !s.goingDown then (s1.request (fun x => { x with sag := false, kSag := 64 })).alertNow
    else s1.alertNow)

/-! ## Cap, shares, slope (R67 to R70) -/

/-- The state among M0 to M2 (Table 3-5). -/
def State.mState (s : State) : Nat :=
  if s.fld bPWR 0 0x048 0 1 = 1 then 2 else if s.fld bPWR 0 0x040 0 12 = 3200 then 0 else 1
/-- The power state follows GATE and the cap. -/
def State.setMState (s : State) : State :=
  if s.pwr.state < 3 then s.updPwr (fun x => { x with state := s.mState }) else s

/-- A write of PWR_CAP: clamped to 800-3,200 W, which sets CAP_CLAMP. -/
def State.writeCap (s : State) (v : W32) : State :=
  let n := bitsAt v.toNat 0 12
  let s1 := (s.setReg bPWR 0 0x040 (clampReg bPWR 0x040 v)).setMState
  (if n < 800 || 3200 < n then s1.raise bPWR s.pwrInst 5 else s1).alertNow

def execPwrCapWrite (v : W32) (s : State) : Res :=
  .next (if s.powered then s.pageWrite bPWR 0 0x040 v (·.writeCap v) else s)

/-- POWER_CAP. -/
def execPowerCap (c : Cmd) (watts : Nat) (s : State) : Res :=
  .next (s.mgrCmd c 0x0A01 (fun s =>
    if 4095 < watts then s.answer c 0x0A01 0x0003
    else if s.locked bPWR 0 then s.answer c 0x0A01 0x0004
    else (s.writeCap (BitVec.ofNat 32 watts)).answer c 0x0A01 0))

/-- Sum of every partition's share. -/
def State.shareSum (s : State) : Nat := (s.partIds.map (fun p => s.fld bPART p 0x078 0 12)).foldl (· + ·) 0

/-- POWER_SHARE: refused where the sum of shares would exceed the cap less the non-tile power (R68). -/
def execPowerShare (c : Cmd) (p watts nonTile : Nat) (s : State) : Res :=
  .next (s.mgrCmd c 0x0A02 (fun s =>
    if 1023 < p || p = 0 || 4095 < watts then s.answer c 0x0A02 0x0003
    else if (s.part p).lstate = .free || s.locked bPART p then s.answer c 0x0A02 0x0004
    else if s.fld bPWR 0 0x040 0 12 < s.shareSum - s.fld bPART p 0x078 0 12 + watts + nonTile then
      s.answer c 0x0A02 0x0005
    else (s.setReg bPART p 0x078 (BitVec.ofNat 32 watts)).answer c 0x0A02 0))

/-- The part of a step `c` that falls on an excess or share `e` of which `m` is the largest, at least 1. -/
def portionOf (c e m : Nat) : Nat := max 1 ((c * e + m - 1) / m)
/-- The K requested for a partition, lowered by d. -/
def Pwr.lowerShare (x : Pwr) (p d : Nat) : Pwr :=
  { x with shareK := mset 64 x.shareK p (max 1 (min x.kCap (x.shareOf p) - d)) }
/-- The largest of a list of numbers. -/
def maxOf (l : List Nat) : Nat := l.foldl max 0

/-- The cap and the shares (R67, R68). While input power exceeds the cap, the K of partitions over their share
falls in proportion to their excess; with none over its share, the K of all tiles, in proportion to each
partition's share, tiles under no share by the least of these steps. Under the cap K may rise. The size of
a step is not stated and is free (log entry 14). -/
def State.shareStep (s : State) (pin : Nat) (est : List (Nat × Nat)) : State :=
  let share (p : Nat) : Nat := s.fld bPART p 0x078 0 12
  let past := est.filter (fun x => x.1 < 1024 && share x.1 != 0 && share x.1 < x.2)
  let given := (s.partIds.map (fun p => (p, share p))).filter (fun x => x.2 != 0)
  let c := s.freeIn 0 1 63
  if s.fld bPWR 0 0x040 0 12 < pin then
    if !past.isEmpty then
      let m := maxOf (past.map (fun x => x.2 - share x.1))
      s.updPwr (fun x => past.foldl (fun x y => x.lowerShare y.1 (portionOf c (y.2 - share y.1) m)) x)
    else
      let m := maxOf (given.map Prod.snd)
      let least := given.foldl (fun d y => min d (portionOf c y.2 m)) c
      s.updPwr (fun x => { given.foldl (fun x y => x.lowerShare y.1 (portionOf c y.2 m)) x with
        kCap := max 1 (x.kCap - least) })
  else
    s.request (fun x => { x with
      kCap := s.freeIn 0 x.kCap 64
      shareK := (x.shareK.zipIdx.map (fun y => (y.1.1, s.freeIn (y.2 + 1) y.1.2 64))).filter (fun y => y.2 != 64) })

def execShareEstimate (pin : Nat) (est : List (Nat × Nat)) (s : State) : Res :=
  .next (if s.powered && !s.goingDown then (s.shareStep pin est).freshen else s)

/-- Energy of 100 µs at an input power, in whole joules to the counter. -/
def State.addEnergy (s : State) (pin : Nat) : State :=
  let n := s.pwr.joule + pin
  (s.updPwr (fun x => { x with joule := n % 10000 })).count bPWR s.pwrInst 0xC28 (n / 10000)

/-- A change the limit exempts: sag, over-voltage, thermal halt, droop removals (R69). -/
def Pwr.exempt (x : Pwr) : Bool := x.sag || x.cut || x.halt || x.droop || x.droopSeen || x.droopLast

/-- The slope limit's K after a measured step: within the limit it may rise, beyond it on a rise it falls; how far
is free (log entry 14). -/
def State.slopeK (s : State) (i : Nat) (rises : Bool) (k inForce : Nat) : Nat :=
  if rises then s.freeIn i 1 (max 1 (min k inForce - 1)) else s.freeIn i k 64

/-- Every 100 µs (R69, R70): K may rise as the measured power allows; a fall beyond the step is filled with test
load, which then tapers off at the permitted slope, or is recorded as missed. Powers in 10 mW. -/
def State.slopeStep (s : State) (pin : Nat) (idleLoad : Bool) : State :=
  let slope := s.fld bPWR 0 0x044 0 12
  let x := s.pwr
  let gap : Int := 100 * ((x.prevPin : Int) - pin) - slope
  let rises := !x.exempt && decide (slope + 100 * x.prevPin < 100 * pin)
  let s1 := (s.addEnergy pin).updPwr (fun x => { x with
    prevPin := pin, kSlope := if slope = 0 then 64 else s.slopeK 0 rises x.kSlope x.keep
    slopeShare := if slope = 0 then [] else (x.slopeShare.zipIdx.map (fun y =>
      (y.1.1, s.slopeK (y.2 + 1) rises y.1.2 (mget 64 x.keepShare y.1.1)))).filter (fun y => y.2 != 64) })
  let en := s.fld bPWR 0 0x06C 0 1 = 1 && idleLoad
  if slope = 0 || x.exempt then s1.updPwr (fun x => { x with fill := 0 })
  else if en then s1.updPwr (fun x => { x with fill := ((x.fill : Int) + gap).toNat })
  else if 0 < gap then ((s1.updPwr (fun x => { x with fill := 0 })).count bPWR s.pwrInst 0xC18 1).raise bPWR s.pwrInst 4
  else s1.updPwr (fun x => { x with fill := 0 })

def execSlopeStep (pin : Nat) (idleLoad : Bool) (s : State) : Res :=
  .next (if s.powered && !s.goingDown then (s.slopeStep pin idleLoad).freshen else s)

/-! ## Thermal (R80) -/

/-- K that thermal requests at a hottest reading in 0.1 °C. -/
def thermK (t : Int) : Nat :=
  if t ≤ 1000 then 64 else if 1050 ≤ t then 8 else 64 - (56 * (t - 1000).toNat + 49) / 50

/-- The setpoint of a VCD rail follows the die's calibration record and the temperature by at most 5 mV (R76). -/
def vcdStep (cal : BitVec 16) (now : Nat) (tj : BitVec 16) : Nat :=
  let want := clampN 550 800 (Config.vcd cal tj)
  clampN (now - 5) (now + 5) want
/-- The setpoints after a sample. -/
def State.vcdMove (s : State) (tj : BitVec 16) (x : Pwr) : Pwr :=
  { x with vcd := x.vcd.map (fun e => (e.1, vcdStep (s.store.vcd e.1) e.2 tj)) }
/-- The compute rails come up at the setpoints of the calibration record. -/
def State.vcdUp (s : State) (x : Pwr) : Pwr :=
  { x with vcd := (List.range 4).map (fun d => (d, clampN 550 800 (Config.vcd (s.store.vcd d) x.tj))) }

/-- Every 1 ms: the setpoints, thermal K, the end of a halt below 103 °C, the trip at 110 °C. -/
def State.thermal (s : State) (tj : BitVec 16) : State :=
  let t := tj.toInt
  if 1100 ≤ t then (s.updPwr (fun x => { x with tj := tj })).fatal 0x12
  else
    let k := thermK t
    let s1 := s.request (fun x => { s.vcdMove tj x with tj := tj, kTherm := k, halt := x.halt && 1030 ≤ t })
    (if s.pwr.kTherm = 64 && k < 64 then s1.raise bPWR s.pwrInst 2 else s1).alertNow

def execThermalSample (tj : BitVec 16) (s : State) : Res :=
  .next (if s.powered && !s.goingDown then s.thermal tj else s)

/-- 100 ms at or above 105 °C at K = 8. -/
def execThermalHalt (s : State) : Res :=
  .next (if s.powered && !s.goingDown && s.pwr.kTherm = 8 && 1050 ≤ s.pwr.tj.toInt && !s.pwr.halt then
    ((s.updPwr (fun x => { x with halt := true })).raise bPWR s.pwrInst 3).alertNow else s)

/-! ## Rails, and the power managers (R74, R75, R81) -/

/-- A start-up fails: rails down, ID_START holds stage and code, the responder reports it (R458). -/
def State.failStart (s : State) (code : Nat) : State :=
  (({ s with ident := { s.ident with failCode := code } }.emit (.startFail s.ident.stage code)).updPwr
    (fun x => { x with startQueued := false })).downOrderly .failed

/-- Failure code of the stage in progress (Table 19-5); stages 9 and 10 run together under 10's. -/
def stageCode (n : Nat) : Nat := if n = 9 then 0x0A else n

def execRailFault (rail : Nat) (s : State) : Res :=
  .next (if rail = 0 || 8 < rail || !s.powered || s.goingDown then s
  else
    let s1 := s.raise bPWR s.pwrInst 6 (BitVec.ofNat 32 rail)
    if s.pwr.phase = .starting then s1.failStart (stageCode s.ident.stage) else s1.fatal 0x11)

/-- The active power manager is lost: the standby takes over with K held, or the module stops (R81, R481). -/
def execPmFailover (s : State) : Res :=
  .next (if !s.powered || s.goingDown then s
  else if !s.pwr.pmStandbyOk then s.fatal 0x15
  else
    let s1 := s.updPwr (fun x => { x with pmRole := !x.pmRole, pmStandbyOk := false })
    (s1.raise bPWR s1.pwrInst 7).raise bMOD 0 2)

def execPmStandbyLost (s : State) : Res := .next (s.updPwr (fun x => { x with pmStandbyOk := false }))

/-! ## Power states (R77, R78) -/

/-- A refused request leaves DOWN unchanged; how ERR_INFO0 codes the reason is not stated and is free. -/
def State.reqRefused (s : State) : State :=
  (s.raise bPWR s.pwrInst 8 (BitVec.ofNat 32 (s.freeIn 0 0 (2 ^ 32 - 1)))).freshen

/-- GATE of PWR_STATE_REQ. -/
def State.setGate (s : State) (on : Bool) : State :=
  (s.setReg bPWR 0 0x048 (BitVec.ofNat 32 ((s.reg bPWR 0 0x048).toNat / 2 * 2 + on.toNat))).setMState
/-- DOWN of PWR_STATE_REQ. -/
def State.setDown (s : State) (d : Nat) : State :=
  s.setReg bPWR 0 0x048 (BitVec.ofNat 32 ((s.reg bPWR 0 0x048).toNat % 2 + 2 * d))

/-- Whether a tenant partition holds tiles, or exists. -/
def State.tenantTiles (s : State) : Bool :=
  (List.range 1440).any (fun t => match s.tileOwner t with | some p => p != 0 | none => false)
def State.tenants (s : State) : Bool := s.parts.any (fun x => x.1 != 0 && x.2.lstate != .free)

/-- A request for state M3; true: it was taken. -/
def State.reqM3 (s : State) : State × Bool :=
  if s.pwr.phase = .on && s.pwr.state = 3 then (s, true)
  else if s.pwr.phase = .on && !s.tenantTiles then ((s.setDown 1).updPwr (fun x => { x with phase := .toM3 }), true)
  else (s.reqRefused, false)
/-- A request for state M4. One that comes while an entry to state M3 or an exit is under way is refused with
REQ_REFUSED; the spec does not say what overlapping requests do (log entry 50). -/
def State.reqM4 (s : State) : State × Bool :=
  if (s.pwr.phase = .on || s.pwr.phase = .starting) && !s.tenants then ((s.setDown 2).downOrderly .requested, true)
  else if s.pwr.phase = .off then (s, true)
  else (s.reqRefused, false)
/-- A request to run; during an entry to state M3 or an exit it is refused (log entry 50). -/
def State.reqRun (s : State) : State × Bool :=
  if s.pwr.phase = .on && s.pwr.state = 3 then ((s.setDown 0).updPwr (fun x => { x with phase := .fromM3 }), true)
  else if s.pwr.phase = .off then
    if s.pwr.slept then ((s.updPwr (fun x => { x with slept := false })).tryStart, true) else (s, false)
  else if s.pwr.phase = .on || s.pwr.phase = .starting then (s.setDown 0, true)
  else (s.reqRefused, false)

/-- A write of PWR_STATE_REQ by what it asks for. -/
def State.reqWrite (s : State) (v : W32) (f : State → State × Bool) : State :=
  s.pageWrite bPWR 0 0x048 v (fun s => (f s).1)

def execStateReqGate (on : Bool) (s : State) : Res :=
  .next (if s.powered then s.reqWrite (BitVec.ofNat 32 on.toNat) (fun s => (s.setGate on, true)) else s)
def execStateReqM3 (s : State) : Res := .next (if s.powered then s.reqWrite 2 State.reqM3 else s)
def execStateReqM4 (s : State) : Res := .next (if s.powered then s.reqWrite 4 State.reqM4 else s)
def execStateReqRun (s : State) : Res := .next (s.reqWrite 0 State.reqRun)

/-- Every logical tile of a row that is not degraded, idle and clear. -/
def State.freshTiles (s : State) : SMap Tile :=
  (List.range 1440).filterMap (fun t => if s.degraded (tileN t) then none else some (t, { run := .idle }))

/-- The compute rails are off: tiles, links and what they held are gone. -/
def execM3EntryDone (s : State) : Res :=
  .next (if s.pwr.phase = .toM3 then
    let s1 : State := { s with
      tiles := [], links := [], groups := [], beats := [], waves := [], jobs := s.jobs.filter (fun (j : CopyJob) =>
        match j.from_ with | .tile _ => false | _ => true)
      regs := s.regs.filter (fun (x : Nat × W32) => x.1 / 0x1000000 != bTILE)
      ident := { s.ident with gridReady := false }
      pwr := { s.pwr with vcd := [] } }
    let s2 := (s1.wipe (sramAt 0 0) (sramAt 1440 0)).wipe (imAt 0 0) (imAt 1440 0)
    s2.updPwr (fun x => { x with phase := .on, state := 3, rails := 6 }) else s)

/-- Grid-ready again (Table 3-6): the repair map is applied and tile SRAM reads as zero. -/
def execM3ExitDone (s : State) : Res :=
  .next (if s.pwr.phase = .fromM3 then
    let s0 : State := { s with
      ident := { s.ident with map := s.store.repair.1, second := s.store.repair.2, gridReady := true } }
    let s1 : State := { s0 with tiles := s0.freshTiles }
    s1.updPwr (fun x => { s1.vcdUp x with phase := .on, state := s.mState, rails := 8 }) else s)

/-- Firmware, or in state M4 the boot ROM responder, takes a power-state or status command (R79). -/
def State.command4 (s : State) (c : Cmd) (op : Nat) (ok : Bool) (k : State → State) : State :=
  if !s.pwr.vaux then s else if !ok then s.answer c op 0x0002 else k s

/-- POWER_STATE: GATE and DOWN of Table 3-8. -/
def State.powerState (s : State) (c : Cmd) (gate : Bool) (down : Nat) : State :=
  if s.locked bPWR 0 then s.answer c 0x0A03 0x0004
  else
    let r := match down with
      | 1 => s.reqM3
      | 2 => s.reqM4
      | _ => s.reqRun
    let s1 := if s.powered && r.2 then r.1.setGate gate else r.1
    s1.answer c 0x0A03 (if r.2 then 0 else 0x0004)

def execPowerState (c : Cmd) (gate : Bool) (down : BitVec 2) (s : State) : Res :=
  .next (s.command4 c 0x0A03 (chanOk c true false false false) (fun s => s.powerState c gate down.toNat))

end Sys2Proof.Machine
end

