-- ==== Sys2Proof/Machine/Startup.lean ====
section
/-! DEFINITION. Start-up, control complexes, attestation and firmware replacement
(19_identity_startup_firmware R445 to R466, 20_errors_and_recovery R480, R481). -/

namespace Sys2Proof.Machine

/-- Changes the identity record. -/
def State.updIdent (s : State) (f : Ident → Ident) : State := { s with ident := f s.ident }

/-! ## Stage 1 and the recovery path (R455, R456) -/

/-- The end of the stretch of received image bytes that begins at `n`. -/
def recReach (l : List (Nat × Nat)) : Nat → Nat → Nat
  | 0, n => n
  | k + 1, n =>
    match l.find? (fun x => x.1 ≤ n && n < x.1 + x.2) with
    | some x => recReach l k (x.1 + x.2)
    | none => n
/-- Big-endian field of the received image. -/
def Ident.recField (x : Ident) (a n : Nat) : Nat := beNat (readBytes x.recBuf a n)
/-- Whether the whole recovery image has arrived: header, body, signature. -/
def Ident.recWhole (x : Ident) : Bool :=
  let got := recReach x.recOff x.recOff.length 0
  decide (64 ≤ got) && decide (64 + x.recField 8 4 + 96 ≤ got)

/-- The boot ROM starts an image. -/
def State.startImage (s : State) (svn id : Nat) (raiseMin : Bool) : State :=
  s.updIdent (fun x => { x with
    stage := 2, fwSvn := svn, fwId := id, fwMin := raiseMin, recovery := false, recBuf := []
    recOff := [], active := false, standbyOk := true })

/-- The store as start-up reads it: what the vendor wrote since, and records torn or gone. -/
def State.readStore (s : State) (r : StageFind) : State :=
  s.updStore (fun x => r.bad.foldl Store.spoil (r.added.foldl Store.append x))

/-- Stage 1: the stored image, or on the recovery path the one received, is checked and started. With no
valid ledger a minimum SVN of 0 applies. -/
def State.stage1 (s0 : State) (r : StageFind) : State :=
  let s := s0.readStore r
  let x := s.ident
  let i := s.store.image
  let min_ := s.store.ledger.minSvn
  if x.recovery then
    if !x.recWhole then s
    else if r.ok && min_ ≤ x.recField 4 4 then
      (s.startImage (x.recField 4 4) s.fresh (Nat.testBit (x.recField 12 4) 0)).freshen
    else (s.updIdent (fun x => { x with recBuf := [], recOff := [] })).raise bID 0 2
  else if r.ok && i.ok && min_ ≤ i.svn then s.startImage i.svn i.id i.raiseMin
  else s.updIdent (fun x => { x with recovery := true })

/-! ## Stages 2 to 7 (R446, R451, R453, R214, R95) -/

/-- The stage in progress becomes n. -/
def State.toStage (s : State) (n : Nat) : State := s.updIdent (fun x => { x with stage := n })

/-- Stage 2: every rail is up. -/
def State.stage2 (s : State) : State :=
  (s.updPwr (fun x => { s.vcdUp x with rails := 8, state := s.mState })).toStage 3

/-- Stage 5: identity and records; the ledger counts the boot, and a stop without the orderly mark (R453). -/
def State.stage5 (s0 : State) (r : StageFind) : State :=
  let s := s0.readStore r
  let s1 := if r.puf0 then s else s.raise bID 0 0 0
  let s2 := if r.puf1 then s1 else s1.raise bID 0 0 1
  let s3 := s.store.bad.foldl (fun s t => (s.count bID 0 0xC10 1).raise bID 0 1 (BitVec.ofNat 32 t)) s2
  if !(r.puf0 || r.puf1) || !r.qOk || !r.ok || !s.store.complete then s3.failStart 5
  else
    let l := s.store.ledger
    let s4 := s3.updStore (fun x => x.write (.ledger
      { l with boots := l.boots + 1, unclean := l.unclean + s.store.unclean.toNat }))
    (({ s4 with ciph := { s4.ciph with kek := true } } : State).count bCIPH 0 0xC08 1 |>.updIdent (fun x =>
      { x with idKey := true, n16 := s.store.n16, asym := s.store.asym })).toStage 6

/-- The default slab map over the devices in service (R214). -/
def defaultSlabs (ds : List Nat) : SMap W32 :=
  (List.range 72).flatMap (fun g => ds.zipIdx.map (fun x =>
    (g * ds.length + x.2,
      BitVec.ofNat 32 (x.2 + (ds.length - 1) * 16 + x.1 * 256 + g * 4096 + 2 ^ 31))))

/-- Stage 6: the default slab map, retired devices left out. -/
def State.stage6 (s : State) : State :=
  let gone := s.store.ledger.devs
  let s1 : State := { s with
    slabs := defaultSlabs ((List.range 12).filter (fun d => !gone.contains d))
    devs := (List.range 12).filterMap (fun d => if gone.contains d then some (d, { state := 2 }) else none) }
  s1.toStage 7

/-- Stage 7: the repair map is applied; every port is then enabled for training. -/
def State.stage7 (s : State) : State :=
  let m := s.store.repair
  let s1 := s.updIdent (fun x => { x with map := m.1, second := m.2, stage := 8 })
  let gone := (List.range 80).flatMap (fun n => [(n, s1.retired n), (n, s1.second n)])
  let s2 := (gone.filter (fun x => x.2 != 31)).foldl
    (fun s x => s.setPtest x.1 x.2 { s.ptest x.1 x.2 with retired := true }) s1
  ((List.range 26).filter s2.portOk).foldl
    (fun s n => (s.setReg bPORT n 0x040 1).setPort n { s.port n with training := !(s.port n).up0 }) s2

/-! ## Stages 8 to 10 (R457 to R459, R102, R105) -/

/-- The image in force is written to the store; its RAISE_MIN then raises the ledger's minimum SVN (R454, R464). -/
def State.storeImage (s : State) : State :=
  let x := s.ident
  let s1 := s.updStore (fun y => { y with image := { svn := x.fwSvn, raiseMin := x.fwMin, id := x.fwId } })
  if x.fwMin && s1.store.ledger.minSvn < x.fwSvn then
    s1.updStore (fun y => y.updLedger (fun l => { l with minSvn := x.fwSvn })) else s1
/-- Start-up is complete: an image got by recovery is stored, and a RAISE_MIN of the image is applied. -/
def State.startDone (s : State) : State :=
  (s.storeImage.updIdent (fun x => { x with stage := 15 })).updPwr (fun x => { x with phase := .on })

/-- Network-ready. -/
def State.netUp (s : State) (nolock : Bool) : State :=
  let s1 := s.updIdent (fun x => { x with netReady := true, nolock := nolock, stage := 10 })
  let s2 := if nolock then s1.raise bID 0 3 else s1
  if s2.ident.done10 then s2.startDone else s2

/-- Whether a data port, a management port, is up; whether every enabled port is. -/
def State.anyData (s : State) : Bool := (List.range 24).any (fun n => s.portOk n && s.portUp n)
def State.anyMgmt (s : State) : Bool := s.portUp 24 || s.portUp 25
def State.allUp (s : State) : Bool :=
  (List.range 26).all (fun n => !s.portOk n || s.fld bPORT n 0x040 0 1 == 0 ||
    (s.halfUp n false && (!s.halves n || s.halfUp n true)))

/-- Stage 8 ends. -/
def State.stage8 (s : State) : State :=
  if s.anyData && s.anyMgmt then s.updIdent (fun x => { x with done8 := true, stage := 9 }) else s.failStart 8

/-- A physical tile failed the start-up test: the row's retirement, or its second, which degrades it. -/
def State.startFailed (s : State) (f : Nat × Nat × Nat) : State :=
  let n := f.1 * 20 + f.2.1
  let col := f.2.2
  if 3 < f.1 || 19 < f.2.1 || 18 < col || s.degraded n || s.retired n = col then s
  else
    let r := s.ptest n col
    let s1 := (s.setPtest n col { r with condemned := true, retired := true }).raise bTEST 0 1 (physCode f.1 f.2.1 col)
    if s.retired n = 31 then
      (s1.updIdent (fun x => { x with map := mset 31 x.map n col })).raise bGRID 0 0 (BitVec.ofNat 32 n)
    else
      ((s1.updIdent (fun x => { x with second := mset 31 x.second n col })).raise bGRID 0 0 (BitVec.ofNat 32 n)).raise
        bGRID 0 1 (BitVec.ofNat 32 n)

/-- Stage 10: tile test, repair-map update, clearing: grid-ready. -/
def State.stage10 (s : State) (r : StageFind) : State :=
  if !r.ok then s.failStart 0x0A
  else
    let s1 := (r.failed.foldl State.startFailed s).saveMap
    let s2 : State := { s1 with
      tiles := s1.freshTiles
      ident := { s1.ident with done10 := true, gridReady := true } }
    if s2.ident.netReady then s2.startDone else s2

def execStartupStageDone (r : StageFind) (s : State) : Res :=
  let n := s.ident.stage
  let go (k : State) : State := if r.ok then k else s.failStart n
  .next (if s.pwr.phase != .starting then s
  else if (n = 10 || (r.ten && (n = 8 || n = 9))) && !s.ident.done10 then s.stage10 r
  else match n with
    | 1 => s.stage1 r
    | 2 => go s.stage2
    | 3 => go (s.toStage 4)
    | 4 => go (s.toStage 5)
    | 5 => s.stage5 r
    | 6 => go s.stage6
    | 7 => go s.stage7
    | 8 => if s.allUp then s.stage8 else s
    | 9 => if s.timeLocked then s.netUp false else s
    | _ => s)

/-- A stage reaches its maximum: 8 ends, 9 goes on without lock, any other fails. The targets do not apply on
the recovery path (R456). -/
def execStartupStageTimeout (s : State) : Res :=
  let n := s.ident.stage
  .next (if s.pwr.phase != .starting || s.ident.recovery then s
  else if n = 8 then s.stage8
  else if n = 9 then s.netUp true
  else s.failStart n)

/-- MOD_RESTART: a module held in state M4 starts anew; one in service goes down first, and the lid alarm
latch clears (R441, R458). -/
def State.modRestart (s : State) (c : Cmd) : State :=
  let s1 : State := { s with ciph := { s.ciph with lid := false } }
  if s.pwr.phase = .off then
    if s.pwr.pwren && s.pwr.resetN && s.pwr.powerGood then
      ((s1.answer c 0x0E01 0).updPwr (fun x => { x with blocked := false, slept := false })).tryStart
    else s.answer c 0x0E01 0x0004
  else if s.goingDown then s.answer c 0x0E01 0x0004
  else (s1.answer c 0x0E01 0).downOrderly .restart

def execModRestart (c : Cmd) (s : State) : Res :=
  .next (s.command4 c 0x0E01 (chanOk c true false false false) (fun s => s.modRestart c))

/-! ## Control complexes and seams (R480, R481, R465) -/

/-- A staging or an activation not yet at its quiet point ends, its image discarded. -/
def State.dropStaging (s : State) : State :=
  let x := s.ident
  let cs := x.stageCmd.toList ++ (if x.actStep = 1 then x.actCmd.toList else [])
  let s1 := s.updIdent (fun x => { x with
    staging := none, stageCmd := none, staged := if x.actStep = 3 then x.staged else none
    actCmd := if x.actStep = 1 then none else x.actCmd, actStep := if x.actStep = 1 then 0 else x.actStep })
  cs.foldl (fun s c => s.finish c 0x0004) s1

/-- An activation past its quiet point ends: the former active complex goes on with whichever code it holds. -/
def State.dropActivation (s : State) : State :=
  let x := s.ident
  if x.actStep != 3 then s
  else
    let s1 := s.updIdent (fun x => { x with
      actStep := 0, actCmd := none, staged := none
      fwSvn := if s.freeBit 1 then x.fwSvn else s.store.image.svn
      fwId := if s.freeBit 1 then x.fwId else s.store.image.id
      fwMin := if s.freeBit 1 then x.fwMin else s.store.image.raiseMin })
    (x.actCmd.toList.foldl (fun s c => s.finish c 0x0004) s1).freshen

/-- The active complex changes; the MOD page tells the new active die. -/
def State.swapComplex (s : State) : State :=
  let d := !s.ident.active
  ((s.updIdent (fun x => { x with active := d })).count bMOD 0 0xC08 1).raise bMOD 0 0 (BitVec.ofNat 32 d.toNat)

/-- The active control complex is lost: the standby takes over, or the module stops. -/
def State.ccFailover (s : State) (sramUe : Bool) : State :=
  let old := dieInst s.ident.active
  let s0 := if sramUe then s.raise bCTRL old 0 else s
  if !s.ident.standbyOk then s0.fatal 0x13
  else
    let s1 := (s0.dropStaging.dropActivation.swapComplex).updIdent (fun x => { x with standbyOk := false, ccRestart := true })
    let d := dieInst s1.ident.active
    (((s1.raise bCTRL d 1).raise bMOD 0 1).raise bERR 0 4 (BitVec.ofNat 32 d))

def execCcFailover (sramUe : Bool) (s : State) : Res :=
  .next (if !s.powered || s.goingDown || (s.pwr.phase = .starting && s.ident.stage ≤ 1) then s else s.ccFailover sramUe)

/-- The failed complex has restarted: standby again, or out of service until the next start-up. -/
def execCcRestartDone (ok : Bool) (s : State) : Res :=
  .next (if !s.ident.ccRestart then s
  else
    let s1 := s.updIdent (fun x => { x with ccRestart := false, standbyOk := ok })
    if ok then s1 else s1.raise bCTRL (dieInst (!s.ident.active)) 2)

/-- The standby complex is lost; it restarts as R480 says. -/
def execStandbyLost (s : State) : Res :=
  .next (if !s.powered || s.goingDown || !s.ident.standbyOk then s
  else (s.dropStaging.updIdent (fun x => { x with standbyOk := false, ccRestart := true })).raise bMOD 0 1)

/-- A seam lane failed 16 retries: replaced by a spare, or with none left the module stops. -/
def execSeamLaneReplace (seam lane : Nat) (dir spare : Bool) (s : State) : Res :=
  .next (if 4 < seam || 255 < lane || !s.powered || s.goingDown then s
  else if spare then s.raise bERR 0 5 (BitVec.ofNat 32 (seam + lane * 256 + dir.toNat * 65536))
  else s.fatal 0x14)

/-! ## Attestation (R460 to R462) -/

/-- ATTEST: checked and accepted. -/
def State.attest (s : State) (c : Cmd) (nonce : BitVec 256) (sel : BitVec 4) (p : Nat) (addr : Nat) : State :=
  let p := match c.chan with | .part q => q | _ => p
  if 1023 < p then s.answer c 0x0801 0x0003
  else if s.ident.attests.any (fun a => a.p == p) then s.answer c 0x0801 0x0006
  else (s.updIdent (fun x => { x with attests := x.attests ++
    [{ cmd := c, p := p, nonce := nonce, sel := sel, addr := addr }] })).answer c 0x0801 0x0009

def execAttest (c : Cmd) (nonce : BitVec 256) (sel : BitVec 4) (p : Nat) (addr : W64) (s : State) : Res :=
  .next (s.command c 0x0801 (chanOk c false true true false) (fun s => s.attest c nonce sel p addr.toNat))

/-- Bytes 0 to 271 of the report (Table 19-7). -/
def State.reportHead (s : State) (a : Attest) : List Byte :=
  let x := s.ident
  let on (i n : Nat) (l : List Byte) : List Byte := if a.sel.getLsbD i then l else List.replicate n 0
  let len := 368 + (if a.sel.getLsbD 3 then s.store.chain.length else 0)
  beBytes 2 1 ++ beBytes 2 a.sel.toNat ++ beBytes 4 len ++ beBytes 32 a.nonce.toNat ++ beBytes 8 Config.serial.toNat ++
  [BitVec.ofNat 8 x.n16.toNat, BitVec.ofNat 8 x.active.toNat] ++
  beBytes 2 (if a.sel.getLsbD 2 then a.p else 0xFFFF) ++ beBytes 4 x.fwSvn ++ beBytes 8 s.timeWord.toNat ++
  beBytes 8 s.store.ledger.boots ++ on 0 48 (digestBytes Config.romDigest) ++ on 0 48 (digestBytes (Config.fwDigest x.fwId)) ++
  on 1 48 (digestBytes s.store.digest) ++ on 2 48 (digestBytes (s.part a.p).pm) ++
  on 2 8 (beBytes 8 (s.part a.p).launches)

/-- The whole report under a signature. -/
def State.report (s : State) (a : Attest) (sig : List Byte) : List Byte :=
  s.reportHead a ++ (sig ++ List.replicate 96 0).take 96 ++ (if a.sel.getLsbD 3 then s.store.chain else [])

/-- A range that a failed report leaves unspecified: each byte keeps its value or takes the report's. -/
def State.mixBytes (s : State) (p va : Nat) (bs : List Byte) : State :=
  (bs.zipIdx.foldl (fun s x =>
    match s.pureXl p (va + x.2) accW with
    | some pa => if inDram pa && s.freeBit (x.2 * 8 + 4) then s.poke pa [x.1] else s
    | none => s) s).freshen

/-- The report is written for its channel; true: it was. -/
def State.writeReport (s : State) (a : Attest) (bs : List Byte) : State × Bool :=
  match a.cmd.chan with
  | .part p =>
    match s.vput false p a.addr bs [] with
    | (s1, .ok _ _) => (s1, true)
    | _ => (s.mixBytes p a.addr bs, false)
  | _ =>
    if inDram a.addr && inDram (a.addr + bs.length - 1) && s.reach a.addr && s.reach (a.addr + bs.length - 1) then
      (s.put0 a.addr bs, true)
    else (s, false)

/-- ATTEST_DONE: the signature is a root-class job; the report is taken and written at one instant. -/
def State.attestDone (s : State) (a : Attest) (sig : List Byte) (t : Twice) : State :=
  let s0 := s.updIdent (fun x => { x with attests := x.attests.filter (fun y => y.p != a.p) })
  match s0.rootJob s.ident.active .signature t with
  | (s1, false) => s1.finish a.cmd 0x0007
  | (s1, true) =>
    let s2 := s1.count bID 0 0xC00 1
    let bs := s2.report a sig
    match s2.writeReport a bs with
    | (s3, true) => ((s3.freshen).count bID 0 0xC08 1).finish a.cmd 0 [BitVec.ofNat 64 bs.length]
    | (s3, false) => s3.finish a.cmd 0x0003

def execAttestDone (p : Nat) (sig : List Byte) (t : Twice) (s : State) : Res :=
  .next (match s.ident.attests.find? (fun a => a.p == p) with
    | some a => (s.attestDone a sig t).settle
    | none => s)

/-! ## Firmware replacement (R452, R463 to R465) -/

/-- FW_STAGE: the standby reads the object. -/
def State.fwStage (s : State) (c : Cmd) (o : StagedObj) : State :=
  let x := s.ident
  if x.actStep != 0 || x.stageCmd.isSome then s.answer c 0x0901 0x0006
  else if o = .other then s.answer c 0x0901 0x0003
  else if !x.standbyOk then s.answer c 0x0901 0x0004
  else
    let img := match o with | .image _ _ _ => true | _ => false
    ((s.updIdent (fun x => { x with
      staging := some o, stageCmd := some c, stagingId := s.fresh, staged := if img then none else x.staged })).freshen).answer
        c 0x0901 0x0009

def execFwStage (c : Cmd) (o : StagedObj) (s : State) : Res :=
  .next (s.command c 0x0901 (chanOk c false true false false) (fun s => s.fwStage c o))

/-- FW_STAGE_DONE: the signature is verified as a root-class job; an image needs the minimum SVN, an
operator record a later sequence. -/
def State.fwStaged (s : State) (c : Cmd) (o : StagedObj) (t : Twice) : State :=
  let s0 := s.updIdent (fun x => { x with staging := none, stageCmd := none })
  match s0.rootJob (!s.ident.active) .signature t with
  | (s1, false) => s1.finish c 0x0007
  | (s1, true) =>
    match o with
    | .image svn rm ok =>
      if ok && s.store.ledger.minSvn ≤ svn then
        (s1.updIdent (fun x => { x with staged := some (svn, rm, x.stagingId) })).finish c 0
      else s1.finish c 0x0007
    | .operator seq ms key ok =>
      if ok && ((s.store.inForce 7).map ConfigRec.seq).all (· < seq) then
        (s1.updStore (fun x => x.append { body := .operator (ms.take 8) key, signer := .operator, seq := seq })).finish c 0
      else s1.finish c 0x0007
    | .other => s1.finish c 0x0003

def execFwStageDone (t : Twice) (s : State) : Res :=
  .next (match s.ident.stageCmd, s.ident.staging with
    | some c, some o => if s.goingDown then s else s.fwStaged c o t
    | _, _ => s)

/-- FW_ACTIVATE. -/
def State.fwActivate (s : State) (c : Cmd) : State :=
  let x := s.ident
  if x.actStep != 0 || x.ccRestart || x.stageCmd.isSome then s.answer c 0x0902 0x0006
  else if x.staged.isNone || !x.standbyOk then s.answer c 0x0902 0x0004
  else (s.updIdent (fun x => { x with actStep := 1, actCmd := some c })).answer c 0x0902 0x0009

def execFwActivate (c : Cmd) (s : State) : Res :=
  .next (s.command c 0x0902 (chanOk c false true false false) (fun s => s.fwActivate c))

/-- FW_QUIET_POINT: the standby, running the staged image, becomes active; the power managers swap roles. -/
def State.quietPoint (s : State) (svn id : Nat) (rm : Bool) : State :=
  let s1 := (s.updIdent (fun x => { x with fwSvn := svn, fwId := id, fwMin := rm, actStep := 3 })).swapComplex
  if s.pwr.pmStandbyOk then (s1.updPwr (fun x => { x with pmRole := !x.pmRole })).raise bMOD 0 2 else s1

def execFwQuietPoint (s : State) : Res :=
  .next (match s.ident.staged with
    | some (svn, rm, id) =>
      if s.ident.actStep = 1 && s.ident.standbyOk && !s.goingDown then s.quietPoint svn id rm else s
    | none => s)

/-- FW_ACTIVATE_DONE: the image is in the store, the minimum SVN raised where the image asks for it. -/
def execFwActivateDone (s : State) : Res :=
  .next (if s.ident.actStep != 3 || s.goingDown then s
  else
    let s1 := s.storeImage.updIdent (fun x => { x with actStep := 0, actCmd := none, staged := none })
    let s2 := (s1.count bID 0 0xC18 1).raise bID 0 4
    s.ident.actCmd.toList.foldl (fun s c => s.finish c 0) s2)

end Sys2Proof.Machine
end

