-- ==== Sys2Proof/Machine/Testing.lean ====
section
/-! DEFINITION. In-service test, patrol, lane margins and counter snapshots (21_test_sparing_telemetry R486
to R503, 22_register_pages R516), and steps of network time, which end idle time and take snapshots. -/

namespace Sys2Proof.Machine

/-! ## Idle time (R486, R487) -/

/-- The logical tile on a physical tile, if it serves one (R95). -/
def State.logicalAt (s : State) (n col : Nat) : Option Nat :=
  let r := s.retired n
  if r = 31 then (if col < 18 then some (tileAt n col) else none)
  else if col = r || 18 < col then none
  else some (tileAt n (if col < r then col else col - 1))

/-- Nanoseconds that a number of ACLK cycles lasts under a K. -/
def aclkNs (n k : Nat) : Nat := if k = 0 then 0 else n * 10 * 64 / (27 * k)
/-- Nanoseconds of a time word. -/
def wordNs (w : W64) : Nat := w.toNat / 2 ^ 30 * 1000000000 + w.toNat % 2 ^ 30

/-- Idle nanoseconds a tile has left; `given` is the measure of idle time whose end no one knows yet. -/
def State.idleLeft (s : State) (t given : Nat) : Nat :=
  let x := s.tile t
  let k := s.tileKeep t
  match x.run with
  | .idle => if x.clearing then 0 else given
  | .done => given
  | .trapped => given
  | .gated => given
  | .running =>
    let past := aclkNs x.waited k
    if x.mode then
      if x.waitExt && x.waitFor.isSome && 50000 ≤ past then given else 0
    else
      match x.waitFor with
      | some (.time v) =>
        let now := wordNs s.timeWord
        if 1000 ≤ past && now + 50000 ≤ wordNs v + past then wordNs v - 5000 - now else 0
      | _ => 0
  | _ => 0

/-- Idle nanoseconds of a physical tile. -/
def State.physIdle (s : State) (n col given : Nat) : Nat :=
  match s.logicalAt n col with
  | some t => s.idleLeft t given
  | none => if s.retired n = col then 0 else given

/-- Segments of a pass, and those of the matrix unit (Table 21-2). -/
def isMatrixSeg (k : Nat) : Bool := 128 ≤ k && k ≤ 143

/-- Segments of the SRAM, and those of the instruction memory (Table 21-2). -/
def isSramSeg (k : Nat) : Bool := k ≤ 127
def isImSeg (k : Nat) : Bool := 152 ≤ k && k ≤ 159

/-- More than 1,024 of the corrected errors noted lie in the last 24 h (R491). -/
def manyCe (l : List Nat) (now : Nat) : Bool := 1024 < (l.filter (fun a => now < a + dayPeriods)).length
/-- Whether a segment covers memory of the tile that has had too many corrected errors. -/
def TestTile.hot (r : TestTile) (now k : Nat) : Bool :=
  isSramSeg k && manyCe r.sramCe now || isImSeg k && manyCe r.imCe now

/-- The segment a tile runs next: one that failed; else one of memory with too many corrected errors; else
under smoothing load a matrix segment; else the lowest not yet passed (R491, R498). -/
def TestTile.next (r : TestTile) (now : Nat) (fill busy : Bool) : Option Nat :=
  let left := (List.range 160).filter (fun k => !r.passed.contains k && !(busy && isMatrixSeg k))
  match r.failedOnce with
  | some k => if busy && isMatrixSeg k then none else some k
  | none => (left.find? (r.hot now)).or (if fill then (left.find? isMatrixSeg).or left.head? else left.head?)

/-- Whether the matrix unit on a physical tile is busy. -/
def State.matBusy (s : State) (n col : Nat) : Bool :=
  match s.logicalAt n col with
  | some t => (s.tile t).aclk < (s.tile t).mbusy
  | none => false

/-- Whether die, row and column name a physical tile. -/
def physOk (die row col : Nat) : Bool := die < 4 && row < 20 && col < 19

/-- Whether a segment's length at the K in force, plus 5 µs, fits the idle time of a physical tile. -/
def State.segFits (s : State) (n col given : Nat) : Bool :=
  let k := match s.logicalAt n col with | some t => s.tileKeep t | none => s.pwr.keep
  let r := s.ptest n col
  r.segment.isNone && !r.retired && k != 0 && 20000 * 64 / k + 5000 ≤ s.physIdle n col given

/-- Whether another tile, with too many corrected errors in a memory, has idle time to test that memory: its
segments run ahead of those of every other tile (R491). -/
def State.hotWaits (s : State) (n col : Nat) : Bool :=
  s.test.tiles.any (fun x =>
    let m := x.1 / 32
    let c := x.1 % 32
    !(m == n && c == col) && s.segFits m c 100000000 &&
      ((x.2.next s.align (decide (0 < s.pwr.fill)) (s.matBusy m c)).map (x.2.hot s.align)).getD false)

/-- A segment starts where it fits the idle time left, ahead of no tile that R491 puts first. -/
def State.segStart (s : State) (n col given : Nat) : State :=
  let r := s.ptest n col
  match r.next s.align (decide (0 < s.pwr.fill)) (s.matBusy n col) with
  | some g =>
    if s.segFits n col given && (r.hot s.align g || !s.hotWaits n col) then
      let s1 := s.setPtest n col { r with segment := some g }
      if 0 < s.pwr.fill then s1.count bTEST 0 0xC38 1 else s1
    else s
  | none => s

def execTestSegmentStart (die row col idleNs : Nat) (s : State) : Res :=
  .next (if physOk die row col && s.powered && !s.goingDown && s.pwr.rails == 8 && s.fld bTEST 0 0x040 0 1 = 1 &&
      s.pwr.kSlope == 64 then
    s.segStart (die * 20 + row) col idleNs else s)

/-! ## What a segment found (R487, R490, R491) -/

/-- The memory a segment covers on a logical tile: first address and end (R487). -/
def segRange (t g : Nat) : Nat × Nat :=
  if isSramSeg g then (sramAt t (g * 0x10000), sramAt t ((g + 1) * 0x10000))
  else if isImSeg g then (imAt t ((g - 152) * 2048 * 16), imAt t ((g - 151) * 2048 * 16))
  else (0, 0)

/-- A segment ends: the words it covers are restored corrected; an uncorrectable word is restored with its
check bits as they were (R90, R490). A corrected word it met is an error of the module, captured, that no
TILE_CNT_* counts (R487). -/
def State.segFound (s : State) (n col g : Nat) (ue ce : Option (BitVec 48)) : State :=
  match s.logicalAt n col with
  | none => s
  | some t =>
    let r := segRange t g
    let here (a : Nat) : Bool := r.1 ≤ a && a < r.2
    let s1 := match ue with
      | some a =>
        let w := a.toNat / grain a.toNat * grain a.toNat
        if !here w || s.ue.contains w then s else { s with ue := s.ue ++ [w] }
      | none => s
    let s2 := match ce with
      | some a =>
        if !here a.toNat then s1
        else
          let b := (s1.count bERR 0 0xC00 1).noteTileCe t (isImSeg g)
          if isSramSeg g then b.raise bTILE t 3 (BitVec.ofNat 32 ((a.toNat - sramBase0) % 0x800000)) else b
      | none => s1
    { s2 with ce := s2.ce.filter (fun a => !here a) }

/-- A segment passes. -/
def State.segPass (s : State) (n col g : Nat) : State :=
  let r := s.ptest n col
  let l := if r.passed.contains g then r.passed else r.passed ++ [g]
  let f := if r.failedOnce = some g then none else r.failedOnce
  let s1 := s.count bTEST 0 0xC00 1
  if l.length = 160 then
    (s1.setPtest n col { r with segment := none, passed := [], failedOnce := f, passAt := s.align, overdue := false }).count
      bTEST 0 0xC08 1
  else s1.setPtest n col { r with segment := none, passed := l, failedOnce := f }

/-- A segment fails: the second failure in a pass, or an uncorrectable error, condemns the tile. -/
def State.segFail (s : State) (n col g : Nat) (ue : Bool) : State :=
  let r := s.ptest n col
  let s1 := ((s.setPtest n col { r with segment := none, failedOnce := some g }).count bTEST 0 0xC10 1).raise bTEST 0 0
    (physCode (n / 20) (n % 20) col) (BitVec.ofNat 32 g)
  if ue || r.failedOnce = some g then s1.condemn n col else s1

def execTestSegmentDone (die row col : Nat) (ok : Bool) (ue ce : Option (BitVec 48)) (s : State) : Res :=
  let n := die * 20 + row
  .next (if !physOk die row col then s
  else match (s.ptest n col).segment with
    | none => s
    | some g =>
      let s1 := s.segFound n col g ue ce
      if ok && ue.isNone then s1.segPass n col g else s1.segFail n col g ue.isSome)

/-- Whether more hours than a byte of TEST_PERIOD says have passed since an alignment period. -/
def State.hoursOver (s : State) (bit since : Nat) : Bool :=
  decide (since + s.fld bTEST 0 0x044 bit 8 * 3600 * 168750000 < s.align)

/-- A tile's last completed pass is older than the period (R492). -/
def execTileTestOverdue (die row col : Nat) (s : State) : Res :=
  let n := die * 20 + row
  let r := s.ptest n col
  .next (if physOk die row col && s.powered && !r.retired && !r.overdue && s.hoursOver 0 r.passAt then
    (s.setPtest n col { r with overdue := true }).raise bTEST 0 2 (physCode die row col) else s)

/-! ## Patrol (R494, R495) -/

/-- Lines of a device: 72 slabs of 1 GiB. -/
def devLines : Nat := 72 * 2 ^ 24
/-- Patrol has read one more line. -/
def State.patrolStep (s : State) (d : Nat) : State :=
  let r := s.dev d
  if r.patrol + 1 = devLines then s.setDev d { r with patrol := 0, patrolAt := s.align, overdue := false }
  else s.setDev d { r with patrol := r.patrol + 1 }

/-- PATROL_READ: a corrected line is written back, an uncorrectable one left as it is. -/
def State.patrolRead (s : State) (d line : Nat) (f : EccFind) : State :=
  let s1 := (s.lineRead 3 line).patrolStep d
  match f with
  | .clean => s1
  | .corrected =>
    let s2 := ((s1.count bTEST 0 0xC20 1).dramCe line).lineWrite 3 line
    { s2 with ce := s2.ce.filter (· != line) }
  | .uncorrectable =>
    let s2 : State := if s1.ue.contains line then s1 else { s1 with ue := s1.ue ++ [line] }
    ((s2.count bTEST 0 0xC28 1).raise bTEST 0 7 (BitVec.ofNat 32 line) (BitVec.ofNat 32 (line / 2 ^ 32))).dramUe line

/-- Whether the group position of a line is being evacuated, which patrol skips (R494). -/
def State.evacuating (s : State) (pa : Nat) : Bool :=
  s.devs.any (fun d => d.2.evac.any (fun v => v.slab == s.slabOf pa))

def execPatrolRead (dev : Nat) (pa : BitVec 48) (found : EccFind) (s : State) : Res :=
  let line := pa.toNat / 64 * 64
  .next (if dev < 12 && s.powered && s.fld bTEST 0 0x040 1 1 = 1 && (s.dev dev).state != 2 && inDram line &&
      s.groupOk line && s.devOf line == dev && !s.evacuating line then s.patrolRead dev line found else s)

/-- A pass does not finish within its period (R494). -/
def execPatrolOverdue (dev : Nat) (s : State) : Res :=
  .next (if dev < 12 && s.powered && (s.dev dev).state != 2 && !(s.dev dev).overdue && s.hoursOver 8 (s.dev dev).patrolAt then
    (s.setDev dev { s.dev dev with overdue := true }).raise bTEST 0 2 (BitVec.ofNat 32 (dev + 0x8000)) else s)

/-! ## Lane margins (R497) -/

/-- Whether a port may be retrained now: none other of its die in training, and not within the hour. -/
def State.mayRetrain (s : State) (n : Nat) : Bool :=
  s.dataPort n && s.fld bTEST 0 0x040 5 1 == 1 &&
  (List.range 24).all (fun m => decide (m / 12 ≠ n / 12) || !(s.port m).training) &&
  (mget 0 s.test.retrained n == 0 || decide (mget 0 s.test.retrained n + 3600 * 168750000 ≤ s.align + 1))

/-- Firmware disables and retrains a port. -/
def State.retrain (s : State) (n : Nat) : State :=
  let s1 := (s.linkLost n false).linkLost n true
  let s2 := s1.setPort n { s1.port n with training := true, txq := [], pauseOut := [] }
  { s2 with test := { s2.test with retrained := mset 0 s2.test.retrained n (s.align + 1) } }

def execMarginLow (port lane : Nat) (s : State) : Res :=
  .next (if s.portOk port && lane < 8 && s.powered && s.fld bTEST 0 0x040 3 1 = 1 then
    let s1 := { s with test := { s.test with margins := mset false s.test.margins (port * 8 + lane) true } }.raise
      bTEST 0 6 (BitVec.ofNat 32 (port + lane * 256))
    if s.mayRetrain port then s1.retrain port else s1
  else s)

/-! ## TEST_CTRL (R503) -/

/-- The bits of TEST_PERIOD a class sets, and its bit in TEST_CFG. -/
def classBit : TestClass → Nat
  | .tile => 0 | .patrol => 1 | .kat => 2 | .margin => 3
def State.testCtrl (s : State) (cls : TestClass) (en : Bool) (period : Nat) : State :=
  let b := classBit cls
  let v := (s.reg bTEST 0 0x040).toNat
  let w := (s.reg bTEST 0 0x044).toNat
  let s1 := s.setReg bTEST 0 0x040 (BitVec.ofNat 32 (v - bitsAt v b 1 * 2 ^ b + en.toNat * 2 ^ b))
  if cls = .margin then s1
  else
    s1.setReg bTEST 0 0x044 (clampReg bTEST 0x044
      (BitVec.ofNat 32 (w - bitsAt w (8 * b) 8 * 2 ^ (8 * b) + min period 255 * 2 ^ (8 * b))))

def execTestCtrl (c : Cmd) (cls : TestClass) (en : Bool) (period : Nat) (s : State) : Res :=
  .next (s.mgrCmd c 0x0B01 (fun s =>
    if s.locked bTEST 0 then s.answer c 0x0B01 0x0004 else (s.testCtrl cls en period).answer c 0x0B01 0))

/-! ## Snapshots (R499 to R501, R516) -/

/-- Arms a time; an earlier arm is replaced. -/
def State.arm_ (s : State) (sec ns : Nat) : State :=
  let s1 : State := { s with test := { s.test with armed := some (sec, ns) } }
  if s.test.armed.isSome then s1.raise bSNAP 0 1 else s1

/-- SNAP_ARM: refused for a time less than 10 µs ahead. -/
def State.snapArm (s : State) (c : Cmd) (w : W64) : State :=
  let sec := w.toNat / 2 ^ 30
  let ns := w.toNat % 2 ^ 30
  if 1000000000 ≤ ns || ((sec * 1000000000 + ns : Nat) : Int) < s.timeNs + 10000 then s.answer c 0x0C02 0x0003
  else if s.locked bSNAP 0 then s.answer c 0x0C02 0x0004
  else
    let s1 := ((s.setReg bSNAP 0 0x040 (BitVec.ofNat 32 sec)).setReg bSNAP 0 0x044
      (BitVec.ofNat 32 (sec / 2 ^ 32))).setReg bSNAP 0 0x048 (BitVec.ofNat 32 ns)
    (s1.arm_ sec ns).answer c 0x0C02 0

def execSnapArm (c : Cmd) (w : W64) (s : State) : Res := .next (s.mgrCmd c 0x0C02 (fun s => s.snapArm c w))

def execSnapCtrlArm (s : State) : Res :=
  .next (s.pageWrite bSNAP 0 0x04C 1 (fun s =>
    s.arm_ ((s.reg bSNAP 0 0x040).toNat + s.fld bSNAP 0 0x044 0 16 * 2 ^ 32) (s.reg bSNAP 0 0x048).toNat))

/-- Whether the armed time has come. -/
def State.snapDue (s : State) : Bool :=
  match s.test.armed with
  | some (sec, ns) => decide (((sec * 1000000000 + ns : Nat) : Int) ≤ s.timeNs)
  | none => false

/-- The snapshot edge: every page's shadows and SNAP_SEQ at once; the live counters go on. -/
def State.snapTake (s : State) (early : Bool) : State :=
  let x := s.time
  let s1 : State := { s with shadows := s.cnts, test := { s.test with armed := none, snaps := s.test.snaps + 1 } }
  let s2 := ((s1.setReg bSNAP 0 0x050 (BitVec.ofNat 32 x.sec)).setReg bSNAP 0 0x054
    (BitVec.ofNat 32 (x.sec / 2 ^ 32 % 65536))).setReg bSNAP 0 0x058 (BitVec.ofNat 32 x.ns)
  let s3 := s2.setReg bSNAP 0 0x05C (BitVec.ofNat 32 ((!s.timeLocked).toNat + 2 * early.toNat))
  (s3.count bSNAP 0 0xC00 1).raise bSNAP 0 0

def execSnapshot (s : State) : Res := .next (if s.snapDue then s.snapTake false else s)

/-! ## Steps of network time (R263, R489, R501) -/

/-- Segments on tiles whose WAITT target a step has passed are abandoned. -/
def State.stepTests (s : State) : State :=
  s.tileIds.foldl (fun s t =>
    match (s.tile t).waitFor with
    | some (.time v) => if v.toNat ≤ s.timeWord.toNat then s.abandonTest t else s
    | _ => s) s

/-- PTP_STEP: the step, to every reader in one NCLK; a snapshot it passes is taken in it. -/
def State.ptpStep (s : State) : State :=
  let s1 := s.timeStep
  let s2 := if !s.snapDue && s1.snapDue then s1.snapTake true else s1
  s2.stepTests

def execPtpStep (s : State) : Res := .next (s.pageWrite bPTP 0 0x04C 1 State.ptpStep)

end Sys2Proof.Machine
end

