-- ==== Sys2Proof/Machine/Readout.lean ====
section
/-! DEFINITION. What every register of the register pages reads as (22_register_pages and each block's
table), counters and shadows (R510, R511), and TELEM_READ (R508). -/

namespace Sys2Proof.Machine

/-! ## The header (R505, Tables 22-1 and 22-2) -/

/-- The die that holds an instance: 0-3 CD0-CD3, 4 FD0, 5 FD1; the active complex's for an instance no
single die holds. -/
def State.pageDie (s : State) (blk inst : Nat) : Nat :=
  if blk = bCLK then inst
  else if blk = bTILE then tileDie inst
  else if blk = bDRAMC then 4 + inst / 6
  else if blk = bCOPY then 4 + inst / 16
  else if blk = bPORT then (if inst = 24 then 4 else if inst = 25 then 5 else 4 + inst / 12)
  else if blk = bSCHED then 4 + inst / 12
  else if blk = bPWR || blk = bXLAT || blk = bMETER || blk = bKVT || blk = bCOLL || blk = bCIPH || blk = bCTRL then 4 + inst
  else 4 + dieInst s.ident.active

/-- Whether an instance is absent on a TV4812-N16 (R6, R512). -/
def State.pageGone (s : State) (blk inst : Nat) : Bool :=
  (blk == bPORT || blk == bSCHED) && s.portGone inst

/-- Blocks whose every RW register is mirrored (Table 22-4). -/
def allMirrored (blk : Nat) : Bool :=
  [bMOD, bPWR, bGRID, bKVT, bMBOX, bID, bTEST, bSNAP, bPTP, bERR].contains blk

/-- PAGE_CAPS. -/
def State.pageCaps (s : State) (blk inst : Nat) : W32 :=
  w32 ((!s.pageGone blk inst).toNat + 2 * (allMirrored blk).toNat + 4 * (s.pageOwner blk inst).isSome.toNat
    + 16 * cntCount blk)

/-- LSTATE codes (Table 16-2). -/
def lstateCode : LState → Nat
  | .free => 0 | .configuring => 1 | .active => 2 | .quiescing => 3 | .quiesced => 4 | .freezing => 5
  | .frozen => 6 | .restoring => 7 | .forwarding => 8

/-- The header's STATE register. -/
def State.pageState (s : State) (blk inst : Nat) : W32 :=
  if blk = bTILE then s.tileState inst
  else if blk = bPART then
    w32 ((if inst = 0 then 2 else lstateCode (s.part inst).lstate) + 16 * (s.part inst).draining.toNat)
  else 0

/-- The header's registers. -/
def State.headRead (s : State) (blk inst off : Nat) : W32 :=
  match off with
  | 0x000 => w32 (blk * 2 ^ 24 + inst * 2 ^ 12 + 1)
  | 0x004 => w32 ((Config.stepping (s.pageDie blk inst)).toNat + s.pageDie blk inst * 256)
  | 0x008 => s.pageCaps blk inst
  | 0x010 => 0
  | 0x014 => s.pageState blk inst
  | 0x030 => s.test.snaps
  | _ => if off < 0x030 then s.reg blk inst off else 0

/-! ## Block registers that are not stored words -/

/-- Energy of the hold-up bank as a manager reads it: while the bank supplies the load or is being charged, a
free value between what the rules bound (R62). -/
def State.readHoldup (s : State) (i : Nat) : Nat :=
  let x := s.pwr
  min 65535 (if x.onBank then s.freeIn i (min 60 x.bank) x.bank
    else if x.bankFull then x.bank else s.freeIn i x.bank (max x.bank fullBank))

/-- Readings a power manager takes itself (R82), free where the model does not compute them (log entry 14);
the input current is 0 while the module draws nothing from the input, and at most 72.7 A (R43, R60). -/
def State.readOwn (s : State) (inst off : Nat) : W32 :=
  let x := s.pwr
  let i := off + inst * 0x1000
  let mine := inst == s.pwrInst
  match off with
  | 0x054 => w32 (s.freeIn i 0 65535)
  | 0x058 => w32 (if x.onBank then 0 else s.freeIn i 0 7270)
  | 0x05C => w32 (if mine then x.prevPin % 65536 else s.freeIn i 0 65535)
  | 0x060 => if mine then x.tj.setWidth 32 else w32 (s.freeIn i 0 65535)
  | _ => w32 (s.readHoldup i)

/-- PWR (Tables 3-7 and 3-9). Unpowered, every register reads its reset value. -/
def State.readPwr (s : State) (inst off : Nat) : W32 :=
  let x := s.pwr
  if !s.powered then s.reg bPWR inst off
  else match off with
  | 0x04C => w32 x.keep
  | 0x050 => w32 ((decide (x.kCap < 64)).toNat + 2 * ((x.shareK ++ x.slopeShare).any (fun e => e.2 < 64)).toNat
      + 4 * (decide (x.kSlope < 64)).toNat + 8 * x.sag.toNat + 16 * (decide (x.kTherm < 64)).toNat
      + 32 * x.halt.toNat + 64 * x.droopLast.toNat)
  | 0x070 => w32 x.pmRole.toNat
  | 0x084 => w32 x.state
  | _ =>
    if (0x054 ≤ off && off ≤ 0x060) || off = 0x064 then s.readOwn inst off
    else if 0x074 ≤ off && off ≤ 0x080 then w32 (mget 0 x.vcd ((off - 0x074) / 4))
    else s.reg bPWR 0 off

/-- GRID (Tables 4-14, 4-15, 7-4). -/
def State.readGrid (s : State) (off : Nat) : W32 :=
  if 0x040 ≤ off && off ≤ 0x17C then
    let n := (off - 0x040) / 4
    w32 (s.retired n + 32 * (s.degraded n).toNat + 64 * s.second n)
  else match off with
    | 0x180 => w32 s.gridAvail
    | 0x184 => 0
    | 0x304 =>
      let sel := s.gridSel 0x300
      let l := s.link sel.1 sel.2
      w32 (l.part + l.group * 2 ^ 10 + l.steady.toNat * 2 ^ 30 + l.owned.toNat * 2 ^ 31)
    | 0x314 => w32 (s.wave (s.fld bGRID 0 0x310 0 10) (s.fld bGRID 0 0x310 16 4))
    | _ => s.reg bGRID 0 off

/-- DRAMC (Table 9-11). -/
def State.readDramc (s : State) (d off : Nat) : W32 :=
  let x := s.dev d
  match off with
  | 0x044 => w32 (s.slab (s.fld bDRAMC d 0x040 0 10))
  | 0x050 => w32 (x.status * 2)
  | 0x054 => w32 x.ptr
  | 0x05C => w32 x.state
  | 0x060 => w32 (72 - (s.slabs.filter (fun e => slabValid e.2.toNat && bitsAt e.2.toNat 8 4 == d)).length)
  | _ => s.reg bDRAMC d off

/-- The source of a copy request: a tile, or a queue. -/
def copySource (j : CopyJob) : Nat × Nat :=
  match j.from_ with
  | .tile t => (0, t)
  | .entry p q _ => (1, p * 4096 + q)
  | .armed p _ _ _ => (2, p)

/-- COPY (Table 9-13). -/
def State.readCopy (s : State) (n off : Nat) : W32 :=
  match off with
  | 0x044 => w32 (n / 8 % 2 + 2 * (n / 16))
  | 0x048 => w32 (((s.jobs.filter (fun j => j.eng == n)).map copySource).eraseDups.length % 65536)
  | _ => s.reg bCOPY n off

/-- XLAT (Table 9-9); how many walkers are busy is free (log entry 4). -/
def State.readXlat (s : State) (i off : Nat) : W32 :=
  match off with
  | 0x054 => 0
  | 0x058 => 0
  | 0x05C => 0
  | 0x060 => if s.powered then w32 (s.freeIn off 0 32) else 0
  | 0x064 =>
    let l := s.tbOf (i == 1)
    w32 (l.length + (l.filter TbEntry.pinned).length * 65536)
  | _ => s.reg bXLAT i off

/-- PORT (Table 10-4). -/
def State.readPort (s : State) (n off : Nat) : W32 :=
  let x := s.port n
  match off with
  | 0x048 => w32 (x.up0.toNat + 2 * (s.halfUp n true).toNat + 4 * x.training.toNat)
  | 0x060 => w32 x.pool
  | 0x064 =>
    let by_ := ((List.range 8).map (fun c => if mget 0 x.paused c = 0 then 0 else 2 ^ c)).foldl (· + ·) 0
    w32 (by_ + 256 * (if !x.pausing || s.fcMode n = 0 then 0 else if s.fcMode n = 1 then s.fld bPORT n 0x050 8 8 else 255))
  | _ => s.reg bPORT n off

/-- SCHED (Table 11-2). -/
def State.readSched (s : State) (n off : Nat) : W32 :=
  let x := s.sched n
  let c := s.fld bSCHED n 0x080 0 3
  if 0x400 ≤ off then mget (0xFFFFFFFF : W32) x.shadow.entries ((off - 0x400) / 4)
  else match off with
    | 0x040 => s.reg bSCHED n off &&& 3
    | 0x044 => w32 (x.which.toNat + 2 * x.swapPend.toNat + 4 * x.shpPend.toNat + x.mask.toNat * 256 + x.entry * 65536)
    | 0x04C => w32 x.shadow.cycle
    | 0x050 => w32 x.shadow.len
    | 0x06C => w32 x.act.cycle
    | 0x070 => w32 x.act.len
    | 0x084 => w32 ((mget {} x.staged c).rate + (mget {} x.staged c).en.toNat * 2 ^ 31)
    | 0x088 => w32 (mget {} x.staged c).burst
    | 0x08C => BitVec.ofInt 32 ((mget 0 x.tokens c).fdiv 2025)
    | _ => s.reg bSCHED n off

/-- METER (Table 11-4), for the meter METER_SEL selects. -/
def State.meterSel (s : State) (i : Nat) : Nat :=
  meterKey (i == 1) (s.fld bMETER i 0x040 0 10) (s.fld bMETER i 0x040 16 3)
def State.readMeter (s : State) (i off : Nat) : W32 :=
  let m := s.meter (s.meterSel i)
  let g := m.staged
  match off with
  | 0x044 => w32 (g.en.toNat + 2 * g.alg.toNat + 4 * g.aware.toNat)
  | 0x048 => w32 g.cir
  | 0x04C => w32 g.pir
  | 0x050 => w32 g.cbs
  | 0x054 => w32 g.xbs
  | 0x058 => w32 (2 * m.pend.toNat)
  | 0x060 => m.yellow.setWidth 32
  | 0x064 => (m.yellow >>> 32).setWidth 32
  | 0x068 => m.red.setWidth 32
  | 0x06C => (m.red >>> 32).setWidth 32
  | _ => s.reg bMETER i off

/-- The edge COLL_EDGE_SEL selects: connection, from 2^20 on with VALID 0, and rank range; 0 is the parent
(R363). -/
def State.edgeSel (s : State) : Option CollEdge :=
  let g := s.coll (s.fld bCOLL 0 0x040 0 12)
  let i := s.fld bCOLL 0 0x068 0 5
  if i = 0 then some { g.pedge with cid := g.d.parent.getD (2 ^ 20 + g.pedge.cid) } else g.d.children[i - 1]?

/-- Child count field of a group: a defined group's children, else the count written. -/
def CollGroup.count (g : CollGroup) : Nat := if g.state = .undef then g.cnt else g.d.children.length

/-- COLL (Table 14-7). -/
def State.readColl (s : State) (i off : Nat) : W32 :=
  let g := s.coll (s.fld bCOLL 0 0x040 0 12)
  match off with
  | 0x044 => w32 (g.d.part + g.count * 1024 + g.d.home.toNat * 2 ^ 15 + (!(g.state == .undef)).toNat * 2 ^ 31)
  | 0x048 => g.d.tag
  | 0x04C => w32 g.d.size
  | 0x050 => w32 (g.d.rank + g.d.last * 65536)
  | 0x054 => w32 ((match g.state with | .undef => 0 | .idle => 1 | .running => 2 | .failed => 3)
      + 4 * (g.run.any (·.waiting)).toNat)
  | 0x058 => w32 g.number
  | 0x05C => w32 (match g.run with | some r => (if hasDown r.kind then r.downNext else r.upNext) | none => 0)
  | 0x060 => w32 (match g.run with | some r => (if r.waiting then 0 else r.slots) | none => 0)
  | 0x06C => w32 (match s.edgeSel with
    | some e => e.cid % 2 ^ 20 + (if e.cid < 2 ^ 20 then 2 ^ 31 else 0)
    | none => 0)
  | 0x070 => w32 (match s.edgeSel with | some e => e.first + e.last * 65536 | none => 0)
  | 0x074 => w32 (s.slotsFree (i == 1))
  | 0x078 => w32 (s.collWait.filter (fun h => (s.coll h).d.home == (i == 1))).length
  | _ => s.reg bCOLL i off

/-- PART (Table 16-5, R405). -/
def State.readPart (s : State) (p off : Nat) : W32 :=
  if p = 0 && (off ≤ 0x05C || off = 0x078) then 0
  else if off = 0x064 then w32 (s.partConns p).length
  else s.reg bPART p off

/-- CIPH (Table 18-7); how many root jobs are queued is free (log entry 4). -/
def State.readCiph (s : State) (i off : Nat) : W32 :=
  let x := s.ciph
  let k := s.pkeys (s.fld bCIPH i 0x048 0 10)
  match off with
  | 0x044 => w32 (ofDie (i == 1) x.aes + ofDie (i == 1) x.sha * 256 + ofDie (i == 1) x.ec * 2 ^ 12
      + ofDie (i == 1) x.reserved * 2 ^ 16)
  | 0x04C => w32 (k.root.isSome.toNat + 2 * k.erased.toNat)
  | 0x050 => k.rootId
  | 0x054 => w32 k.prov
  | 0x058 => w32 (x.cond.toNat + 16 * x.lid.toNat)
  | 0x05C => if s.powered then w32 (s.freeIn off 0 4096) else 0
  | _ => s.reg bCIPH i off

/-- Word w of the public key Q (ID_PUB_DATA). -/
def pubWord (w : Nat) : W32 :=
  if w < 24 then (Config.publicKey >>> (744 - 32 * w)).setWidth 32
  else if w = 24 then (Config.publicKey.setWidth 8 ++ (0 : BitVec 24))
  else 0

/-- ID (Table 19-10). -/
def State.readId (s : State) (off : Nat) : W32 :=
  let x := s.ident
  match off with
  | 0x040 => Config.serial.setWidth 32
  | 0x044 => (Config.serial >>> 32).setWidth 32
  | 0x048 => w32 (x.stage % 16 + x.failCode * 16 + x.netReady.toNat * 2 ^ 12 + x.gridReady.toNat * 2 ^ 13
      + x.nolock.toNat * 2 ^ 14 + x.recovery.toNat * 2 ^ 15)
  | 0x04C => w32 x.fwSvn
  | 0x050 => w32 s.store.ledger.minSvn
  | 0x054 => w32 (if x.actStep != 0 then 3 else if x.stageCmd.isSome then 1 else if x.staged.isSome then 2 else 0)
  | 0x05C => pubWord (s.fld bID 0 0x058 0 5)
  | _ => s.reg bID 0 off

/-- TEST (Table 21-6); margins in figures are free (log entry 4). -/
def State.readTest (s : State) (off : Nat) : W32 :=
  let die := s.fld bTEST 0 0x048 0 2
  let r := s.ptest (die * 20 + s.fld bTEST 0 0x048 2 5) (s.fld bTEST 0 0x048 7 5)
  let d := s.dev (s.fld bTEST 0 0x054 0 4)
  let recent (l : List (Nat × Nat)) : Nat := (l.filter (fun e => s.align < e.2 + dayPeriods)).length
  match off with
  | 0x04C => w32 (r.passed.length % 256 + min 255 ((s.align - r.passAt) * 24 / dayPeriods) * 256
      + r.failedOnce.isSome.toNat * 2 ^ 16 + r.condemned.toNat * 2 ^ 17 + r.retired.toNat * 2 ^ 18)
  | 0x050 => w32 ((s.test.tiles.filter (fun e => e.2.overdue)).length
      + (s.devs.filter (fun e => e.2.overdue)).length * 2 ^ 16)
  | 0x058 => w32 (d.patrol / 64)
  | 0x05C => w32 (min (recent d.ceLines) (2 ^ 20 - 1) + min (recent d.ueLines) 255 * 2 ^ 20)
  | 0x064 => w32 ((if s.powered then s.freeIn off 0 65535 else 0)
      + (mget false s.test.margins (s.fld bTEST 0 0x060 0 5 * 8 + s.fld bTEST 0 0x060 8 3)).toNat * 2 ^ 16)
  | _ => s.reg bTEST 0 off

/-- MOD (Table 22-5). -/
def State.readMod (s : State) (off : Nat) : W32 :=
  let x := s.ident
  match off with
  | 0x040 => w32 (x.active.toNat + 2 * x.standbyOk.toNat + 4 * s.pwr.pmStandbyOk.toNat + 8 * s.pwr.state
      + 64 * x.netReady.toNat + 128 * x.gridReady.toNat)
  | 0x044 => w32 x.n16.toNat
  | 0x048 => if x.n16 then 0x030FF0FF else 0x03FFFFFF
  | 0x04C => w32 (s.gridAvail
      + ((List.range 12).map (fun d => if (s.dev d).state = 0 then 2 ^ (16 + d) else 0)).foldl (· + ·) 0)
  | _ => 0

/-- CLK_STATUS (R514); the clocks' state before start-up stage 3 has ended is free. -/
def State.readClk (s : State) (i off : Nat) : W32 :=
  if off != 0x040 || !s.powered then 0
  else
    let thr := i < 4 && (s.pwr.keepLast < 64 || s.pwr.droopLast)
    (if s.pwr.phase = .starting && s.ident.stage ≤ 3 then w32 (s.freeIn off 0 3) else 3) + w32 (4 * thr.toNat)

/-- ERR (Table 22-6). -/
def State.readErr (s : State) (off : Nat) : W32 :=
  match off with
  | 0x040 => w32 (s.store.lastFatal % 256 + s.store.unclean.toNat * 256)
  | 0x044 => w32 ((s.mb .manager false).pend.filter (fun w =>
      (w.headD 0).toNat % 65536 == 0x8001 || (w.headD 0).toNat % 65536 == 0x8002)).length
  | _ => 0

/-- CTRL (R517); the heartbeat's age is free. -/
def State.readCtrl (s : State) (i off : Nat) : W32 :=
  let x := s.ident
  match off with
  | 0x040 => if dieInst x.active = i then 0 else if x.standbyOk then 1 else if x.ccRestart then 2 else 3
  | 0x044 => w32 x.fwSvn
  | 0x048 => if s.powered then w32 (s.freeIn off 0 65535) else 0
  | _ => 0

/-- PTP (Table 10-7); the IEEE 1588 port state of the clock is free (log entry 4). -/
def State.readPtp (s : State) (off : Nat) : W32 :=
  if off = 0x04C then 0
  else if off = 0x044 && s.fwReady then w32 (s.timeLocked.toNat + 2 * s.freeIn off 0 7)
  else s.reg bPTP 0 off

/-- A block register at 0x040-0x7FF. -/
def State.blockRead (s : State) (blk inst off : Nat) : W32 :=
  match blk with
  | 0x01 => s.readMod off
  | 0x02 => s.readClk inst off
  | 0x03 => s.readPwr inst off
  | 0x04 => if off = 0x058 then physCode (tileDie inst) (tileN inst % 20) (s.physCol inst) else s.reg bTILE inst off
  | 0x05 => s.readGrid off
  | 0x06 => s.readDramc inst off
  | 0x07 => s.readCopy inst off
  | 0x08 => s.readXlat inst off
  | 0x09 => s.readPort inst off
  | 0x0A => s.readSched inst off
  | 0x0B => s.readMeter inst off
  | 0x0C =>
    if off = 0x064 then
      let l := (s.kvtDie (inst == 1)).cached
      w32 (l.length + (l.filter (fun c => (s.conn c).pin)).length * 65536)
    else s.reg bKVT inst off
  | 0x0E => s.readColl inst off
  | 0x10 => s.readPart inst off
  | 0x12 => s.readCiph inst off
  | 0x13 => s.readId off
  | 0x14 => s.readTest off
  | 0x15 => if off = 0x04C then w32 (2 * s.test.armed.isSome.toNat) else s.reg bSNAP 0 off
  | 0x16 => s.readPtp off
  | 0x17 => s.readErr off
  | 0x18 => s.readCtrl inst off
  | _ => 0

/-- A shadow's word: each shadow lies at its live counter's offset less 0x400 (R505). -/
def State.shadowRead (s : State) (blk inst off : Nat) : W32 :=
  let k := (off - 0x800) / 8
  if cntCount blk ≤ k then 0
  else
    let v := mget 0 s.shadows (rk blk inst (0xC00 + 8 * k))
    if off % 8 = 0 then v.setWidth 32 else (v >>> 32).setWidth 32

/-- What a register reads as, but for the latch of a live counter's high word. -/
def State.readReg (s : State) (blk inst off : Nat) : W32 :=
  if off < 0x040 then s.headRead blk inst off
  else if off < 0x800 then (if s.pageGone blk inst then 0 else s.blockRead blk inst off)
  else if off < 0xC00 then s.shadowRead blk inst off
  else if cntCount blk ≤ (off - 0xC00) / 8 then 0
  else
    let v := s.cnt blk inst (off / 8 * 8)
    if off % 8 = 0 then v.setWidth 32 else (v >>> 32).setWidth 32

/-- The key of a latch: the counter's low offset and the control core. -/
def latchKey (blk inst off core : Nat) : Nat := rk blk inst (off / 8 * 8) * 8 + core

/-- Whether an offset is a word of a live counter. -/
def liveWord (blk off : Nat) : Bool := 0xC00 ≤ off && off % 4 == 0 && (off - 0xC00) / 8 < cntCount blk

/-- Whether an offset is a word of a pair of which the low one latches the high one: a live counter, or a meter's
own counter (R283, R510). -/
def pairWord (blk off : Nat) : Bool :=
  liveWord blk off || (blk == bMETER && 0x060 ≤ off && off ≤ 0x06C && off % 4 == 0)

/-- A control core reads a register: a counter's low word latches its high word for that core, whose next
read of the high word takes the latched value (R510). -/
def State.coreRead (s : State) (blk inst off core : Nat) : State × W32 :=
  let k := latchKey blk inst off core
  if !pairWord blk off then (s, s.readReg blk inst off)
  else if off % 8 = 0 then
    ({ s with latch := mset none s.latch k (some (s.readReg blk inst (off + 4))) }, s.readReg blk inst off)
  else match mget none s.latch k with
    | some v => ({ s with latch := mset none s.latch k none }, v)
    | none => (s, s.readReg blk inst off)

/-- A run of registers in ascending offset. -/
def State.coreReads (s : State) (blk inst core : Nat) : Nat → Nat → State × List W32
  | _, 0 => (s, [])
  | off, n + 1 =>
    let r := s.coreRead blk inst off core
    let t := r.1.coreReads blk inst core (off + 4) n
    (t.1, r.2 :: t.2)

/-- COUNTER_LOW_READ by control core `core`, 0-3 on the FD0 complex and 4-7 on FD1's. -/
def execCounterLowRead (block : Byte) (inst off : BitVec 12) (core : Nat) (s : State) : Res :=
  .next (if off.toNat % 8 != 0 || 7 < core then s
  else if instOk block.toNat inst.toNat then (s.coreRead block.toNat inst.toNat off.toNat core).1
  else s.unmapped (pageAddr block.toNat inst.toNat off.toNat) false (core % 4) (decide (3 < core)))

/-! ## TELEM_READ (R508, Table 22-3) -/

/-- Whether the requester of a channel may read a page. -/
def State.mayRead (s : State) (ch : Chan) (blk inst : Nat) : Bool :=
  let own (p : Nat) : Bool :=
    (blk == bPART && inst == p) || (blk == bTILE && s.tileOwner inst == some p) || blk == bGRID
  match ch with
  | .manager => true
  | .part p => own p
  | .tile t => match s.tileOwner t with | some p => own p | none => false
  | _ => false

/-- TELEM_READ: up to six registers, one to a word of the reply, read by a core of the active complex; which
core is free. -/
def State.telemRead (s : State) (c : Cmd) (blk inst off cnt : Nat) : State :=
  if !s.mayRead c.chan blk inst then s.answer c 0x0C01 0x0002
  else if !instOk blk inst || cnt = 0 || 6 < cnt || off % 4 != 0 || 0x1000 < off + 4 * cnt then
    s.answer c 0x0C01 0x0003
  else
    let core := 4 * dieInst s.ident.active + s.freeIn 1 0 3
    let r := s.coreReads blk inst core off cnt
    r.1.freshen.answer c 0x0C01 0 (r.2.map (fun w => w.setWidth 64))

def execTelemRead (c : Cmd) (block : Byte) (inst off : BitVec 12) (cnt : Nat) (s : State) : Res :=
  .next (s.command4 c 0x0C01 (chanOk c true false true true)
    (fun s => s.telemRead c block.toNat inst.toNat off.toNat cnt))

end Sys2Proof.Machine
end

