-- ==== Sys2Proof/Machine/Registers.lean ====
section
/-! DEFINITION. Writes of the register pages: EVENTS and EVENT_EN (20_errors R469-R471), every block
register by its access code (R14, R16), mirroring and lock (R82, R509), and SCHED_SET (R282). -/

namespace Sys2Proof.Machine

/-- The state a command leaves. -/
def after (r : Res) (s : State) : State :=
  match r with
  | .next t => t
  | _ => s

/-- Two W1S bits written together, which the spec gives no order: either first (log entry 4). -/
def State.both (s : State) (f g : State → State) : State :=
  (if s.freeBit 11 then g (f s) else f (g s)).freshen

/-! ## Events (R469 to R471) -/

/-- The capture is released: VALID returns to 0 (R470). -/
def State.releaseCapture (s : State) (blk inst : Nat) : State :=
  s.setReg blk inst oINFO2 (s.reg blk inst oINFO2 &&& 0xFFFFFFDF)

/-- A W1C write to EVENTS, the bits of `again` being set by events in the same PCLK (Table 20-3): a bit
cleared and set again stays 1 and is routed; the capture is released when its owner is cleared and does
not set again. What the captures of those events hold is free. -/
def State.eventsWrite (s : State) (blk inst : Nat) (v again : W32) : State :=
  let a := again &&& evMask blk
  let i2 := s.reg blk inst oINFO2
  let own := i2.toNat % 32
  let s1 := s.setReg blk inst oEVENTS (s.reg blk inst oEVENTS &&& ~~~v)
  let s2 := if i2.getLsbD 5 && v.getLsbD own && !a.getLsbD own then s1.releaseCapture blk inst else s1
  (List.range 32).foldl (fun s b =>
    if a.getLsbD b then
      (s.raise blk inst b (w32 (s.freeIn 0 0 (2 ^ 32 - 1))) (w32 (s.freeIn 1 0 (2 ^ 32 - 1)))).freshen
    else s) s2

def execEventsClear (block : Byte) (inst : BitVec 12) (v again : W32) (s : State) : Res :=
  .next (if instOk block.toNat inst.toNat then s.eventsWrite block.toNat inst.toNat v again
  else s.noPage block.toNat inst.toNat oEVENTS true)

/-- EVENT_EN takes a value; a bit newly enabled whose event is already 1 is routed once. -/
def State.enableWrite (s : State) (blk inst : Nat) (v : W32) : State :=
  let en := s.reg blk inst oEVENT_EN
  let w := v &&& evMask blk
  let now := w &&& ~~~en &&& s.reg blk inst oEVENTS
  (List.range 32).foldl (fun s b => if now.getLsbD b then s.route blk inst b else s) (s.setReg blk inst oEVENT_EN w)

def execEventEnWrite (block : Byte) (inst : BitVec 12) (v : W32) (s : State) : Res :=
  .next (if instOk block.toNat inst.toNat then
    s.pageWrite block.toNat inst.toNat oEVENT_EN v (·.enableWrite block.toNat inst.toNat v)
  else s.noPage block.toNat inst.toNat oEVENT_EN true)

/-! ## Block registers -/

/-- An RW register takes a value: reserved bits stay 0, a stated range clamps; a register software does not
store is unchanged. -/
def State.plainWrite (s : State) (blk inst off : Nat) (v : W32) : State :=
  match findReg blk off with
  | some d => if off % 4 = 0 && d.wmask != 0 then s.setReg blk inst off (clampReg blk off (v &&& d.wmask)) else s
  | none => s

/-- TILE CTRL: ABORT is never locked and decides over the other commands written with it. -/
def State.tileCtrl (s : State) (t : Nat) (v : W32) : State :=
  let s1 := if v.getLsbD 3 && v &&& 7 = 0 then s
    else s.pageWrite bTILE t oCTRL v (fun s =>
      let a := if v.getLsbD 0 then s.armTile t else s
      let b := if v.getLsbD 1 then a.stopTile t else a
      if v.getLsbD 2 then b.resumeTile t else b)
  if v.getLsbD 3 then s1.abortTile t else s1

/-- PWR_STATE_REQ: GATE, then what DOWN asks for; a refused request leaves DOWN as it is (Table 3-8). -/
def State.writeReq (s : State) (v : W32) : State :=
  let s1 := if s.powered then s.setGate (v.getLsbD 0) else s
  match bitsAt v.toNat 1 2 with
  | 1 => if s.powered then s1.reqM3.1 else s1
  | 2 => if s.powered then s1.reqM4.1 else s1
  | _ => s1.reqRun.1

/-- GRID (Tables 4-14 and 7-4): READ goes before LOAD. -/
def State.writeGrid (s : State) (off : Nat) (v : W32) : State :=
  match off with
  | 0x184 => s.gridLaunch (bitsAt v.toNat 0 11)
  | 0x204 =>
    let s1 := if v.getLsbD 1 then s.stRead else s
    if v.getLsbD 0 then s1.stLoad else s1
  | 0x304 => s.linkOwner v
  | 0x314 => s.setWave (s.fld bGRID 0 0x310 0 10) (s.fld bGRID 0 0x310 16 4) (bitsAt v.toNat 0 4)
  | _ => s.plainWrite bGRID 0 off v

/-- DRAMC (Table 9-11). -/
def State.writeDramc (s : State) (d off : Nat) (v : W32) : State :=
  match off with
  | 0x044 => after (execDramcSlabDataWrite d v s) s
  | 0x050 => if v.getLsbD 0 then after (execEvacStart d s) s else s
  | 0x05C => if v.getLsbD 2 then after (execDevstateRetire d s) s else s
  | _ => s.plainWrite bDRAMC d off v

/-- XLAT (Table 9-9). -/
def State.writeXlat (s : State) (i off : Nat) (v : W32) : State :=
  match off with
  | 0x054 =>
    if bitsAt v.toNat 0 2 = 1 then after (execResumeRetry i s) s
    else if bitsAt v.toNat 0 2 = 2 then after (execResumeFail i s) s
    else s
  | 0x058 => after (execXlatFqKick i v s) s
  | 0x05C => after (execXlatReload i v s) s
  | _ => s.plainWrite bXLAT i off v

/-- PORT (Table 10-4). -/
def State.writePort (s : State) (n off : Nat) (v : W32) : State :=
  let rx (s : State) : State := after (execTsPopRx n s) s
  let tx (s : State) : State := after (execTsPopTx n s) s
  match off with
  | 0x040 => if v.getLsbD 0 then after (execPortEnable n s) s else after (execPortDisable n s) s
  | 0x044 => after (execPortModeWrite n v s) s
  | 0x068 =>
    match v.getLsbD 0, v.getLsbD 1 with
    | true, true => s.both rx tx
    | true, false => rx s
    | false, true => tx s
    | false, false => s
  | _ => s.plainWrite bPORT n off v

/-- PTP (Table 10-7). -/
def State.writePtp (s : State) (off : Nat) (v : W32) : State :=
  if off = 0x04C then
    let stp (s : State) : State := after (execPtpStep s) s
    let lat (s : State) : State := after (execPtpLatch s) s
    match v.getLsbD 0, v.getLsbD 1 with
    | true, true => s.both stp lat
    | true, false => stp s
    | false, true => lat s
    | false, false => s
  else s.plainWrite bPTP 0 off v

/-- SCHED_CTRL: GATE_EN and GUARD, then SHP_COMMIT and SWAP; false where SWAP is refused (R273, R274). -/
def State.schedCtrl (s : State) (n : Nat) (v : W32) : State × Bool :=
  let s1 := if v.getLsbD 0 then after (execGateEnable n s) s
    else s.setSched n { s.sched n with active := false, going := false, start := none, mask := 0xFF, entry := 0 }
  let s2 := s1.setReg bSCHED n 0x040 (v &&& 3)
  let s3 := if v.getLsbD 3 then after (execShpCommit n s2) s2 else s2
  if v.getLsbD 2 then (after (execGateSwap n s3) s3, v.getLsbD 0) else (s3, true)

/-- A write that a pending swap or commit makes ignored (R274, R278). -/
def State.schedRefused (s : State) (n : Nat) : State × Bool := (s.raise bSCHED n 1, false)

/-- Changes the shadow list of a port. -/
def State.setShadow (s : State) (n : Nat) (f : GateList → GateList) : State × Bool :=
  let x := s.sched n
  if x.swapPend then s.schedRefused n else (s.setSched n { x with shadow := f x.shadow }, true)

/-- Changes the staged shaper of the class SCHED_SHP_SEL names. -/
def State.setStaged (s : State) (n : Nat) (f : ShaperCfg → ShaperCfg) : State × Bool :=
  let x := s.sched n
  let c := s.fld bSCHED n 0x080 0 3
  if x.shpPend then s.schedRefused n
  else (s.setSched n { x with staged := mset {} x.staged c (f (mget {} x.staged c)) }, true)

/-- SCHED (Table 11-2); true: the write was taken. -/
def State.writeSched (s : State) (n off : Nat) (v : W32) : State × Bool :=
  if 0x400 ≤ off then
    s.setShadow n (fun g => { g with entries := mset (0xFFFFFFFF : W32) g.entries ((off - 0x400) / 4) v })
  else match off with
    | 0x040 => s.schedCtrl n v
    | 0x048 => if (s.sched n).shpPend then s.schedRefused n else (s.plainWrite bSCHED n off v, true)
    | 0x04C => s.setShadow n (fun g => { g with cycle := clampN 1000 1000000000 v.toNat })
    | 0x050 => s.setShadow n (fun g => { g with len := clampN 1 256 (bitsAt v.toNat 0 9) })
    | 0x084 => s.setStaged n (fun g => { g with rate := bitsAt v.toNat 0 20, en := v.getLsbD 31 })
    | 0x088 => s.setStaged n (fun g => { g with burst := bitsAt v.toNat 0 24 })
    | _ => (s.plainWrite bSCHED n off v, true)

/-- A field of the staged configuration of the meter METER_SEL names. -/
def MeterCfg.write (g : MeterCfg) (off : Nat) (v : W32) : MeterCfg :=
  match off with
  | 0x044 => { g with en := v.getLsbD 0, alg := v.getLsbD 1, aware := v.getLsbD 2 }
  | 0x048 => { g with cir := bitsAt v.toNat 0 20 }
  | 0x04C => { g with pir := bitsAt v.toNat 0 20 }
  | 0x050 => { g with cbs := bitsAt v.toNat 0 24 }
  | 0x054 => { g with xbs := bitsAt v.toNat 0 24 }
  | _ => g

/-- METER (Table 11-4): staging is refused while a commit is pending (R278, R280). -/
def State.writeMeter (s : State) (i off : Nat) (v : W32) : State :=
  let k := s.meterSel i
  let m := s.meter k
  if off = 0x058 then (if v.getLsbD 0 then after (execMeterCommit (i == 1) s) s else s)
  else if 0x044 ≤ off && off ≤ 0x054 then
    (if m.pend then s.raise bMETER i 0 else s.setMeter k { m with staged := m.staged.write off v })
  else s.plainWrite bMETER i off v

/-! ## The definition window of the collective groups (R363) -/

/-- A child edge that is not there. -/
def noEdge : CollEdge := { cid := 2 ^ 20, first := 0, last := 0 }
/-- The first n children, edges not written standing as absent. -/
def padEdges (n : Nat) (l : List CollEdge) : List CollEdge :=
  (l ++ List.replicate (n - l.length) noEdge).take n
/-- Changes child edge i, edges not written before it standing as absent. -/
def putEdge (i : Nat) (f : CollEdge → CollEdge) (l : List CollEdge) : List CollEdge :=
  let l1 := padEdges (max l.length i) l
  l1.set (i - 1) (f (l1.getD (i - 1) noEdge))

/-- A definition with one register of the window written, edge e being selected. -/
def writeDef (d : CollDef) (e off : Nat) (v : W32) : CollDef :=
  let n := v.toNat
  match off with
  | 0x044 => { d with part := bitsAt n 0 10, home := v.getLsbD 15 }
  | 0x048 => { d with tag := v }
  | 0x04C => { d with size := bitsAt n 0 14 }
  | 0x050 => { d with rank := bitsAt n 0 14, last := bitsAt n 16 14 }
  | 0x06C =>
    let cid := bitsAt n 0 20 + (if v.getLsbD 31 then 0 else 2 ^ 20)
    if e = 0 then { d with parent := if v.getLsbD 31 then some (bitsAt n 0 20) else none }
    else if e ≤ 24 then { d with children := putEdge e (fun x => { x with cid := cid }) d.children }
    else d
  | 0x070 =>
    if e = 0 || 24 < e then d
    else { d with children := putEdge e (fun x => { x with first := bitsAt n 0 14, last := bitsAt n 16 14 }) d.children }
  | _ => d

/-- What a write leaves in the registers of the parent edge (R16). -/
def writeParent (x : CollEdge) (e off : Nat) (v : W32) : CollEdge :=
  if e != 0 then x
  else match off with
    | 0x06C => { x with cid := bitsAt v.toNat 0 20 }
    | 0x070 => { x with first := bitsAt v.toNat 0 14, last := bitsAt v.toNat 16 14 }
    | _ => x

/-- Offsets of the window that software writes. -/
def collWindow (off : Nat) : Bool := [0x044, 0x048, 0x04C, 0x050, 0x06C, 0x070].contains off

/-- COLL (Table 14-7): a write while the group runs, or one that breaks R347 to R349 with DEFINED set, is
ignored and sets DEF_REFUSED; clearing DEFINED removes the group and keeps what its registers hold. -/
def State.writeColl (s : State) (i off : Nat) (v : W32) : State :=
  let h := s.fld bCOLL 0 0x040 0 12
  let g := s.coll h
  let d := writeDef g.d (s.fld bCOLL 0 0x068 0 5) off v
  if !collWindow off then s.plainWrite bCOLL i off v
  else if g.state = .running then s.raise bCOLL i 1
  else
    let kids := if off = 0x044 then bitsAt v.toNat 10 5 else g.count
    let def_ := if off = 0x044 then v.getLsbD 31 else !(g.state == .undef)
    let full : CollDef := { d with children := padEdges kids d.children }
    let pe := writeParent g.pedge (s.fld bCOLL 0 0x068 0 5) off v
    if !def_ then
      if g.state = .undef then s.setColl h { g with d := d, cnt := kids, pedge := pe }
      else (s.removeColl h).setColl h { d := d, cnt := kids, pedge := pe }
    else if s.collMay h && treeOk full && s.edgesOk h full then (s.setColl h { g with pedge := pe }).defineColl h full
    else s.raise bCOLL i 1

/-! ## Any register -/

/-- A block register at 0x040-0x7FF takes a write that its lock admits. -/
def State.blockWrite (s : State) (blk inst off : Nat) (v : W32) : State :=
  match blk with
  | 0x03 =>
    if off = 0x040 then after (execPwrCapWrite v s) s
    else if off = 0x048 then s.writeReq v
    else s.plainWrite blk inst off v
  | 0x05 => s.writeGrid off v
  | 0x06 => s.writeDramc inst off v
  | 0x08 => s.writeXlat inst off v
  | 0x09 => s.writePort inst off v
  | 0x0A => (s.writeSched inst off v).1
  | 0x0B => s.writeMeter inst off v
  | 0x0E => s.writeColl inst off v
  | 0x10 => if inst = 0 && (off ≤ 0x05C || off = 0x078) then s else s.plainWrite blk inst off v
  | 0x15 => if off = 0x04C then (if v.getLsbD 0 then after (execSnapCtrlArm s) s else s) else s.plainWrite blk inst off v
  | 0x16 => s.writePtp off v
  | _ => s.plainWrite blk inst off v

/-- A write to any offset of a page that exists (R16, R505, R509). -/
def State.writeReg (s : State) (blk inst off : Nat) (v : W32) : State :=
  if off % 4 != 0 then s
  else if off = oCTRL then (if blk = bTILE then s.tileCtrl inst v else s.pageWrite blk inst off v (fun s => s))
  else if off = oEVENTS then s.eventsWrite blk inst v 0
  else if off = oEVENT_EN then s.pageWrite blk inst off v (·.enableWrite blk inst v)
  else if off = oEVENT_ROUTE then s.pageWrite blk inst off v (·.setReg blk inst off (v &&& 3))
  else if 0x040 ≤ off && off < 0x800 then
    s.pageWrite blk inst off v (fun s => if s.pageGone blk inst then s else s.blockWrite blk inst off v)
  else s

/-- The other instance, written in the same PCLK: of a register that both hold in one copy the value written to
the active instance is kept (R82); the instance that is active is that of the active power manager for PWR, of
the active complex for the other blocks. -/
def State.writePair (s : State) (blk inst off : Nat) (v w : W32) : State :=
  let act := if blk = bPWR then s.pwrInst else dieInst s.ident.active
  if 1 < inst || !instOk blk 1 then s.writeReg blk inst off v
  else if home blk 0 off = home blk 1 off then s.writeReg blk inst off (if inst = act then v else w)
  else (s.writeReg blk inst off v).writeReg blk (1 - inst) off w

/-- REGISTER_WRITE, with the write of the same register of the other instance where one is made in the same PCLK;
a page that does not exist is an unmapped access (R30, R504). -/
def execRegisterWrite (block : Byte) (inst off : BitVec 12) (x : PairWrite) (s : State) : Res :=
  let v := x.v
  .next (if instOk block.toNat inst.toNat then
    match x.also with
    | none => s.writeReg block.toNat inst.toNat off.toNat v
    | some w => s.writePair block.toNat inst.toNat off.toNat v w
  else s.noPage block.toNat inst.toNat off.toNat true)

/-! ## SCHED_SET (R282) -/

/-- The bits software may set in a register of Table 11-2; none: no RW register there. -/
def schedBits (off : Nat) : Option W32 :=
  if off % 4 != 0 then none
  else if 0x400 ≤ off && off ≤ 0x7FC then some 0xFFFFFFFF
  else match off with
    | 0x040 => some 0xF
    | 0x04C => some 0xFFFFFFFF
    | 0x050 => some 0x1FF
    | 0x084 => some 0x800FFFFF
    | 0x088 => some 0xFFFFFF
    | _ => (findReg bSCHED off).map (·.wmask)

/-- SCHED_SET: 0x0003 for what Table 11-2 does not have, 0x0004 where the page is locked or refuses the
write. -/
def State.schedSet (s : State) (c : Cmd) (n off : Nat) (v : W32) : State :=
  match schedBits off with
  | none => s.answer c 0x0D01 0x0003
  | some m =>
    if !s.dataPort n || v &&& ~~~m != 0 then s.answer c 0x0D01 0x0003
    else if s.locked bSCHED n then s.answer c 0x0D01 0x0004
    else
      let r := s.writeSched n off v
      r.1.answer c 0x0D01 (if r.2 then 0 else 0x0004)

def execSchedSet (c : Cmd) (n off : Nat) (v : W32) (s : State) : Res :=
  .next (s.mgrCmd c 0x0D01 (fun s => s.schedSet c n off v))

end Sys2Proof.Machine
end

