-- ==== Sys2Proof/Machine/Dispatch.lean ====
section
/-! DEFINITION. One arm per command: the meaning each constructor of `Instr` has. -/

namespace Sys2Proof.Machine

open Sys2Proof

/-- The effect of a command on everything but the queue. -/
def exec (i : Instr) (s : State) : Host.Outcome State Fault Refusal :=
  match i with
  | .hotInsertion => Sys2Proof.Machine.execHotInsertion s
  | .hotRemoval => Sys2Proof.Machine.execHotRemoval s
  | .powerGood => Sys2Proof.Machine.execPowerGood s
  | .holdupRefilled => Sys2Proof.Machine.execHoldupRefilled s
  | .modPwrenHigh => Sys2Proof.Machine.execModPwrenHigh s
  | .modPwrenLow => Sys2Proof.Machine.execModPwrenLow s
  | .modResetNLow => Sys2Proof.Machine.execModResetNLow s
  | .modResetNHigh => Sys2Proof.Machine.execModResetNHigh s
  | .trayAlertClear bits => Sys2Proof.Machine.execTrayAlertClear bits s
  | .alertResponse => Sys2Proof.Machine.execAlertResponse s
  | .trayBusWrite code value => Sys2Proof.Machine.execTrayBusWrite code value s
  | .trayTelemetryUpdate vin iin pin tj tcool => Sys2Proof.Machine.execTrayTelemetryUpdate vin iin pin tj tcool s
  | .ppsInEdge => Sys2Proof.Machine.execPpsInEdge s
  | .ppsOut => Sys2Proof.Machine.execPpsOut s
  | .referenceLost die pll => Sys2Proof.Machine.execReferenceLost die pll s
  | .serdesRefLost fd1 => Sys2Proof.Machine.execSerdesRefLost fd1 s
  | .inputProtectionOpen => Sys2Proof.Machine.execInputProtectionOpen s
  | .inputProtectionClose => Sys2Proof.Machine.execInputProtectionClose s
  | .sagStart below40 => Sys2Proof.Machine.execSagStart below40 s
  | .sagEnd => Sys2Proof.Machine.execSagEnd s
  | .lastGasp atReserve => Sys2Proof.Machine.execLastGasp atReserve s
  | .throttleFrameBoundary => Sys2Proof.Machine.execThrottleFrameBoundary s
  | .droopTrip die => Sys2Proof.Machine.execDroopTrip die s
  | .droopRelease => Sys2Proof.Machine.execDroopRelease s
  | .pwrCapWrite v => Sys2Proof.Machine.execPwrCapWrite v s
  | .shareEstimate pin est => Sys2Proof.Machine.execShareEstimate pin est s
  | .slopeStep pin idleLoad => Sys2Proof.Machine.execSlopeStep pin idleLoad s
  | .thermalSample tj => Sys2Proof.Machine.execThermalSample tj s
  | .thermalHalt => Sys2Proof.Machine.execThermalHalt s
  | .railFault rail => Sys2Proof.Machine.execRailFault rail s
  | .pmFailover => Sys2Proof.Machine.execPmFailover s
  | .stateReqGate on => Sys2Proof.Machine.execStateReqGate on s
  | .stateReqM3 => Sys2Proof.Machine.execStateReqM3 s
  | .stateReqM4 => Sys2Proof.Machine.execStateReqM4 s
  | .stateReqRun => Sys2Proof.Machine.execStateReqRun s
  | .m3ExitDone => Sys2Proof.Machine.execM3ExitDone s
  | .ungateDone t => Sys2Proof.Machine.execUngateDone t s
  | .tileClearDone t => Sys2Proof.Machine.execTileClearDone t s
  | .tileCtrlArm t => Sys2Proof.Machine.execTileCtrlArm t s
  | .tileCtrlStop t => Sys2Proof.Machine.execTileCtrlStop t s
  | .tileCtrlResume t => Sys2Proof.Machine.execTileCtrlResume t s
  | .tileCtrlAbort t => Sys2Proof.Machine.execTileCtrlAbort t s
  | .gridLaunch v => Sys2Proof.Machine.execGridLaunch v s
  | .launchStart g => Sys2Proof.Machine.execLaunchStart g s
  | .drainDone t => Sys2Proof.Machine.execDrainDone t s
  | .patchEngage die row => Sys2Proof.Machine.execPatchEngage die row s
  | .patchMoveDone die row => Sys2Proof.Machine.execPatchMoveDone die row s
  | .holdRelease t => Sys2Proof.Machine.execHoldRelease t s
  | .nop a slot w => Sys2Proof.Machine.execNop a slot w s
  | .add a f => Sys2Proof.Machine.execAdd a f s
  | .sub a f => Sys2Proof.Machine.execSub a f s
  | .and a f => Sys2Proof.Machine.execAnd a f s
  | .or a f => Sys2Proof.Machine.execOr a f s
  | .xor a f => Sys2Proof.Machine.execXor a f s
  | .sll a f => Sys2Proof.Machine.execSll a f s
  | .srl a f => Sys2Proof.Machine.execSrl a f s
  | .sra a f => Sys2Proof.Machine.execSra a f s
  | .slt a f => Sys2Proof.Machine.execSlt a f s
  | .sltu a f => Sys2Proof.Machine.execSltu a f s
  | .min a f => Sys2Proof.Machine.execMin a f s
  | .max a f => Sys2Proof.Machine.execMax a f s
  | .mul a f => Sys2Proof.Machine.execMul a f s
  | .mulhu a f => Sys2Proof.Machine.execMulhu a f s
  | .addi a f => Sys2Proof.Machine.execAddi a f s
  | .andi a f => Sys2Proof.Machine.execAndi a f s
  | .ori a f => Sys2Proof.Machine.execOri a f s
  | .xori a f => Sys2Proof.Machine.execXori a f s
  | .slli a f => Sys2Proof.Machine.execSlli a f s
  | .srli a f => Sys2Proof.Machine.execSrli a f s
  | .srai a f => Sys2Proof.Machine.execSrai a f s
  | .slti a f => Sys2Proof.Machine.execSlti a f s
  | .lui a f => Sys2Proof.Machine.execLui a f s
  | .plog a f => Sys2Proof.Machine.execPlog a f s
  | .pset a f => Sys2Proof.Machine.execPset a f s
  | .pget a f => Sys2Proof.Machine.execPget a f s
  | .ld a f => Sys2Proof.Machine.execLd a f s
  | .lw a f => Sys2Proof.Machine.execLw a f s
  | .st a f => Sys2Proof.Machine.execSt a f s
  | .sw a f => Sys2Proof.Machine.execSw a f s
  | .beq a f => Sys2Proof.Machine.execBeq a f s
  | .bne a f => Sys2Proof.Machine.execBne a f s
  | .blt a f => Sys2Proof.Machine.execBlt a f s
  | .bge a f => Sys2Proof.Machine.execBge a f s
  | .bltu a f => Sys2Proof.Machine.execBltu a f s
  | .bgeu a f => Sys2Proof.Machine.execBgeu a f s
  | .jal a f => Sys2Proof.Machine.execJal a f s
  | .jr a f => Sys2Proof.Machine.execJr a f s
  | .loop a f => Sys2Proof.Machine.execLoop a f s
  | .csrr a f => Sys2Proof.Machine.execCsrr a f s
  | .csrw a f => Sys2Proof.Machine.execCsrw a f s
  | .csrc a f => Sys2Proof.Machine.execCsrc a f s
  | .step a rsv => Sys2Proof.Machine.execStep a rsv s
  | .endProg a rsv => Sys2Proof.Machine.execEndProg a rsv s
  | .endDone t => Sys2Proof.Machine.execEndDone t s
  | .trap a f => Sys2Proof.Machine.execTrap a f s
  | .waitt a f => Sys2Proof.Machine.execWaitt a f s
  | .waittRelease t => Sys2Proof.Machine.execWaittRelease t s
  | .vaddF a f => Sys2Proof.Machine.execVaddF a f s
  | .vsubF a f => Sys2Proof.Machine.execVsubF a f s
  | .vmulF a f => Sys2Proof.Machine.execVmulF a f s
  | .vfmaF a f => Sys2Proof.Machine.execVfmaF a f s
  | .vminF a f => Sys2Proof.Machine.execVminF a f s
  | .vmaxF a f => Sys2Proof.Machine.execVmaxF a f s
  | .vfn a f => Sys2Proof.Machine.execVfn a f s
  | .vcmpF a f => Sys2Proof.Machine.execVcmpF a f s
  | .vaddI a f => Sys2Proof.Machine.execVaddI a f s
  | .vsubI a f => Sys2Proof.Machine.execVsubI a f s
  | .vmulI a f => Sys2Proof.Machine.execVmulI a f s
  | .vand a f => Sys2Proof.Machine.execVand a f s
  | .vor a f => Sys2Proof.Machine.execVor a f s
  | .vxor a f => Sys2Proof.Machine.execVxor a f s
  | .vshl a f => Sys2Proof.Machine.execVshl a f s
  | .vshr a f => Sys2Proof.Machine.execVshr a f s
  | .vsra a f => Sys2Proof.Machine.execVsra a f s
  | .vcmpI a f => Sys2Proof.Machine.execVcmpI a f s
  | .vsel a f => Sys2Proof.Machine.execVsel a f s
  | .vbcast a f => Sys2Proof.Machine.execVbcast a f s
  | .vext a f => Sys2Proof.Machine.execVext a f s
  | .vperm a f => Sys2Proof.Machine.execVperm a f s
  | .vredF a f => Sys2Proof.Machine.execVredF a f s
  | .vcvt a f => Sys2Proof.Machine.execVcvt a f s
  | .vqnt a f => Sys2Proof.Machine.execVqnt a f s
  | .vdq a f => Sys2Proof.Machine.execVdq a f s
  | .vld a f => Sys2Proof.Machine.execVld a f s
  | .vst a f => Sys2Proof.Machine.execVst a f s
  | .mma a f => Sys2Proof.Machine.execMma a f s
  | .mmav a f => Sys2Proof.Machine.execMmav a f s
  | .madd a f => Sys2Proof.Machine.execMadd a f s
  | .mclr a f => Sys2Proof.Machine.execMclr a f s
  | .mrd a f => Sys2Proof.Machine.execMrd a f s
  | .ald a f => Sys2Proof.Machine.execAld a f s
  | .ast a f => Sys2Proof.Machine.execAst a f s
  | .mlst a f => Sys2Proof.Machine.execMlst a f s
  | .mlad a f => Sys2Proof.Machine.execMlad a f s
  | .ardv a f => Sys2Proof.Machine.execArdv a f s
  | .awrv a f => Sys2Proof.Machine.execAwrv a f s
  | .xmsg a f => Sys2Proof.Machine.execXmsg a f s
  | .xmsgv a f => Sys2Proof.Machine.execXmsgv a f s
  | .xmov a f => Sys2Proof.Machine.execXmov a f s
  | .xmovDone t => Sys2Proof.Machine.execXmovDone t s
  | .xwait a f => Sys2Proof.Machine.execXwait a f s
  | .tallyWaitRelease t => Sys2Proof.Machine.execTallyWaitRelease t s
  | .xtset a f => Sys2Proof.Machine.execXtset a f s
  | .xtrd a f => Sys2Proof.Machine.execXtrd a f s
  | .xsync a f => Sys2Proof.Machine.execXsync a f s
  | .waveComplete p w g => Sys2Proof.Machine.execWaveComplete p w g s
  | .xfill a f => Sys2Proof.Machine.execXfill a f s
  | .xspill a f => Sys2Proof.Machine.execXspill a f s
  | .xmbw a f => Sys2Proof.Machine.execXmbw a f s
  | .xmbr a f => Sys2Proof.Machine.execXmbr a f s
  | .xfld a f => Sys2Proof.Machine.execXfld a f s
  | .xfldDone t => Sys2Proof.Machine.execXfldDone t s
  | .messageInject t out idx => Sys2Proof.Machine.execMessageInject t out idx s
  | .beatForward t input err => Sys2Proof.Machine.execBeatForward t input err s
  | .messageLand t => Sys2Proof.Machine.execMessageLand t s
  | .copyComplete eng idx => Sys2Proof.Machine.execCopyComplete eng idx s
  | .gridStLoad => Sys2Proof.Machine.execGridStLoad s
  | .gridStRead => Sys2Proof.Machine.execGridStRead s
  | .gridLinkOwnerWrite v => Sys2Proof.Machine.execGridLinkOwnerWrite v s
  | .gridLoad c p va len => Sys2Proof.Machine.execGridLoad c p va len s
  | .dramRefresh dev waiting => Sys2Proof.Machine.execDramRefresh dev waiting s
  | .refreshBurst dev => Sys2Proof.Machine.execRefreshBurst dev s
  | .dramArbWindow dev => Sys2Proof.Machine.execDramArbWindow dev s
  | .unmappedAccess addr write core complex => Sys2Proof.Machine.execUnmappedAccess addr write core complex s
  | .dramcSlabDataWrite inst v => Sys2Proof.Machine.execDramcSlabDataWrite inst v s
  | .slabWrite c slab entry => Sys2Proof.Machine.execSlabWrite c slab entry s
  | .translationWalkDone fd1 p va acc st => Sys2Proof.Machine.execTranslationWalkDone fd1 p va acc st s
  | .fqReread p => Sys2Proof.Machine.execFqReread p s
  | .xlatFqKick inst v => Sys2Proof.Machine.execXlatFqKick inst v s
  | .xlatReload inst v => Sys2Proof.Machine.execXlatReload inst v s
  | .resumeRetry inst => Sys2Proof.Machine.execResumeRetry inst s
  | .resumeFail inst => Sys2Proof.Machine.execResumeFail inst s
  | .faultResume c token action => Sys2Proof.Machine.execFaultResume c token action s
  | .xlatFence q d => Sys2Proof.Machine.execXlatFence q d s
  | .xlatFenceDone p => Sys2Proof.Machine.execXlatFenceDone p s
  | .evacStart dev => Sys2Proof.Machine.execEvacStart dev s
  | .evacDone dev lost => Sys2Proof.Machine.execEvacDone dev lost s
  | .lostLogReread dev => Sys2Proof.Machine.execLostLogReread dev s
  | .devstateRetire dev => Sys2Proof.Machine.execDevstateRetire dev s
  | .devEvac c dev slab dstDev dstLocal => Sys2Proof.Machine.execDevEvac c dev slab dstDev dstLocal s
  | .devRetire c dev => Sys2Proof.Machine.execDevRetire c dev s
  | .memGrant c p units => Sys2Proof.Machine.execMemGrant c p units s
  | .memReturn c p units => Sys2Proof.Machine.execMemReturn c p units s
  | .portEnable n => Sys2Proof.Machine.execPortEnable n s
  | .portDisable n => Sys2Proof.Machine.execPortDisable n s
  | .portModeWrite n v => Sys2Proof.Machine.execPortModeWrite n v s
  | .linkUp n half1 => Sys2Proof.Machine.execLinkUp n half1 s
  | .linkDown n half1 => Sys2Proof.Machine.execLinkDown n half1 s
  | .frameReceive n f => Sys2Proof.Machine.execFrameReceive n f s
  | .frameTransmit n half1 => Sys2Proof.Machine.execFrameTransmit n half1 s
  | .pauseReceive n pfc classes quanta => Sys2Proof.Machine.execPauseReceive n pfc classes quanta s
  | .pauseExpire n cls => Sys2Proof.Machine.execPauseExpire n cls s
  | .pauseRefresh n => Sys2Proof.Machine.execPauseRefresh n s
  | .pfcStorm n cls => Sys2Proof.Machine.execPfcStorm n cls s
  | .tsPopRx n => Sys2Proof.Machine.execTsPopRx n s
  | .tsPopTx n => Sys2Proof.Machine.execTsPopTx n s
  | .ptpStep => Sys2Proof.Machine.execPtpStep s
  | .ptpLatch => Sys2Proof.Machine.execPtpLatch s
  | .ptpSyncTimeout => Sys2Proof.Machine.execPtpSyncTimeout s
  | .ptpPortMove => Sys2Proof.Machine.execPtpPortMove s
  | .gateEnable n => Sys2Proof.Machine.execGateEnable n s
  | .gateSwap n => Sys2Proof.Machine.execGateSwap n s
  | .gateEntryBoundary n => Sys2Proof.Machine.execGateEntryBoundary n s
  | .shpCommit n => Sys2Proof.Machine.execShpCommit n s
  | .shaperRefill n => Sys2Proof.Machine.execShaperRefill n s
  | .meterCommit fd1 => Sys2Proof.Machine.execMeterCommit fd1 s
  | .meterRefill fd1 => Sys2Proof.Machine.execMeterRefill fd1 s
  | .schedSet c n off v => Sys2Proof.Machine.execSchedSet c n off v s
  | .kvtWrite k => Sys2Proof.Machine.execKvtWrite k s
  | .kvtWriteImm k => Sys2Proof.Machine.execKvtWriteImm k s
  | .kvtReadReq k => Sys2Proof.Machine.execKvtReadReq k s
  | .kvtReadResp k => Sys2Proof.Machine.execKvtReadResp k s
  | .kvtSend k => Sys2Proof.Machine.execKvtSend k s
  | .kvtAtomicReq k => Sys2Proof.Machine.execKvtAtomicReq k s
  | .kvtAtomicResp k => Sys2Proof.Machine.execKvtAtomicResp k s
  | .kvtReduce k => Sys2Proof.Machine.execKvtReduce k s
  | .kvtAck k => Sys2Proof.Machine.execKvtAck k s
  | .kvtProbe k => Sys2Proof.Machine.execKvtProbe k s
  | .kvtNak k => Sys2Proof.Machine.execKvtNak k s
  | .kvtGrant k => Sys2Proof.Machine.execKvtGrant k s
  | .kvtMoved k => Sys2Proof.Machine.execKvtMoved k s
  | .kvtConnect k mine => Sys2Proof.Machine.execKvtConnect k mine s
  | .kvtAccept k => Sys2Proof.Machine.execKvtAccept k s
  | .kvtClose k => Sys2Proof.Machine.execKvtClose k s
  | .kvtMgmt k => Sys2Proof.Machine.execKvtMgmt k s
  | .unknownCidPacket k opcode => Sys2Proof.Machine.execUnknownCidPacket k opcode s
  | .contextFetchDone cid => Sys2Proof.Machine.execContextFetchDone cid s
  | .kvtSendPacket cid => Sys2Proof.Machine.execKvtSendPacket cid s
  | .ackTimer cid => Sys2Proof.Machine.execAckTimer cid s
  | .reorderTimeout cid => Sys2Proof.Machine.execReorderTimeout cid s
  | .retransmitTimeout cid => Sys2Proof.Machine.execRetransmitTimeout cid s
  | .labelHoldExpire cid k => Sys2Proof.Machine.execLabelHoldExpire cid k s
  | .connectResend cid => Sys2Proof.Machine.execConnectResend cid s
  | .unsolTimer cid => Sys2Proof.Machine.execUnsolTimer cid s
  | .grantWindowUpdate cid => Sys2Proof.Machine.execGrantWindowUpdate cid s
  | .grantTimer cid => Sys2Proof.Machine.execGrantTimer cid s
  | .grantResend cid msgId => Sys2Proof.Machine.execGrantResend cid msgId s
  | .movedHoldExpire cid => Sys2Proof.Machine.execMovedHoldExpire cid s
  | .epochKeyDerived cid tx t => Sys2Proof.Machine.execEpochKeyDerived cid tx t s
  | .doorbell p q fromFw => Sys2Proof.Machine.execDoorbell p q fromFw s
  | .lapReread p q => Sys2Proof.Machine.execLapReread p q s
  | .notifyTimer p q => Sys2Proof.Machine.execNotifyTimer p q s
  | .write p q d => Sys2Proof.Machine.execWrite p q d s
  | .writeImm p q d => Sys2Proof.Machine.execWriteImm p q d s
  | .read p q d => Sys2Proof.Machine.execRead p q d s
  | .send p q d => Sys2Proof.Machine.execSend p q d s
  | .recv p q d => Sys2Proof.Machine.execRecv p q d s
  | .fadd p q d => Sys2Proof.Machine.execFadd p q d s
  | .cswap p q d => Sys2Proof.Machine.execCswap p q d s
  | .reduce p q d => Sys2Proof.Machine.execReduce p q d s
  | .fence p q d => Sys2Proof.Machine.execFence p q d s
  | .fenceDone p q => Sys2Proof.Machine.execFenceDone p q s
  | .fill p q d => Sys2Proof.Machine.execFill p q d s
  | .spill p q d => Sys2Proof.Machine.execSpill p q d s
  | .windowOpen p q d => Sys2Proof.Machine.execWindowOpen p q d s
  | .windowRevoke p q d => Sys2Proof.Machine.execWindowRevoke p q d s
  | .windowRevokeDone p q => Sys2Proof.Machine.execWindowRevokeDone p q s
  | .arm p q d => Sys2Proof.Machine.execArm p q d s
  | .armedFire p => Sys2Proof.Machine.execArmedFire p s
  | .tallySet p q d => Sys2Proof.Machine.execTallySet p q d s
  | .collStart p q d => Sys2Proof.Machine.execCollStart p q d s
  | .collSlotsGranted fd1 => Sys2Proof.Machine.execCollSlotsGranted fd1 s
  | .collChunkCombine h => Sys2Proof.Machine.execCollChunkCombine h s
  | .tileLaunch p q d => Sys2Proof.Machine.execTileLaunch p q d s
  | .collDefine c h d => Sys2Proof.Machine.execCollDefine c h d s
  | .collRemove c h => Sys2Proof.Machine.execCollRemove c h s
  | .queueCreate c p q kind sizeLog2 ring cb => Sys2Proof.Machine.execQueueCreate c p q kind sizeLog2 ring cb s
  | .queueDestroy c p q => Sys2Proof.Machine.execQueueDestroy c p q s
  | .connOpen c p peer listen mtu cls encrypt pin mine => Sys2Proof.Machine.execConnOpen c p peer listen mtu cls encrypt pin mine s
  | .connClose c cid abort => Sys2Proof.Machine.execConnClose c cid abort s
  | .partCreate c p => Sys2Proof.Machine.execPartCreate c p s
  | .partSet c p r => Sys2Proof.Machine.execPartSet c p r s
  | .partActivate c p => Sys2Proof.Machine.execPartActivate c p s
  | .partQuiesce c p drain => Sys2Proof.Machine.execPartQuiesce c p drain s
  | .partQuiesceDone p => Sys2Proof.Machine.execPartQuiesceDone p s
  | .partDestroy c p => Sys2Proof.Machine.execPartDestroy c p s
  | .partFreeze c p => Sys2Proof.Machine.execPartFreeze c p s
  | .partFreezeDone p => Sys2Proof.Machine.execPartFreezeDone p s
  | .partThaw c p => Sys2Proof.Machine.execPartThaw c p s
  | .partSave c p dest cid => Sys2Proof.Machine.execPartSave c p dest cid s
  | .partRestore c p image tagsOk => Sys2Proof.Machine.execPartRestore c p image tagsOk s
  | .partRestoreDone p => Sys2Proof.Machine.execPartRestoreDone p s
  | .partRelease c p => Sys2Proof.Machine.execPartRelease c p s
  | .mboxPost ch toFw words => Sys2Proof.Machine.execMboxPost ch toFw words s
  | .mboxTake ch toFw => Sys2Proof.Machine.execMboxTake ch toFw s
  | .mboxAck ch toFw rc => Sys2Proof.Machine.execMboxAck ch toFw rc s
  | .mgmtPost security newSession mp1 seq words src => Sys2Proof.Machine.execMgmtPost security newSession mp1 seq words src s
  | .mgmtAck security mp1 seq rc src => Sys2Proof.Machine.execMgmtAck security mp1 seq rc src s
  | .mgmtStateEcho security mp1 seq state src => Sys2Proof.Machine.execMgmtStateEcho security mp1 seq state src s
  | .mgmtLastGasp src dataPort => Sys2Proof.Machine.execMgmtLastGasp src dataPort s
  | .mgmtResend security => Sys2Proof.Machine.execMgmtResend security s
  | .mgmtRecoveryData off bytes => Sys2Proof.Machine.execMgmtRecoveryData off bytes s
  | .recoveryRequest => Sys2Proof.Machine.execRecoveryRequest s
  | .mgmtPageLock seq block inst lock all mp1 src => Sys2Proof.Machine.execMgmtPageLock seq block inst lock all mp1 src s
  | .channelPost p words seq len => Sys2Proof.Machine.execChannelPost p words seq len s
  | .channelTaken p seq => Sys2Proof.Machine.execChannelTaken p seq s
  | .tileStop c t => Sys2Proof.Machine.execTileStop c t s
  | .tileResume c t => Sys2Proof.Machine.execTileResume c t s
  | .tileAbort c t => Sys2Proof.Machine.execTileAbort c t s
  | .keyRoot c p rootId wrapped t => Sys2Proof.Machine.execKeyRoot c p rootId wrapped t s
  | .keyErase c p => Sys2Proof.Machine.execKeyErase c p s
  | .attest c nonce sel p addr => Sys2Proof.Machine.execAttest c nonce sel p addr s
  | .fwStage c o => Sys2Proof.Machine.execFwStage c o s
  | .fwStageDone t => Sys2Proof.Machine.execFwStageDone t s
  | .fwActivate c => Sys2Proof.Machine.execFwActivate c s
  | .fwQuietPoint => Sys2Proof.Machine.execFwQuietPoint s
  | .fwActivateDone => Sys2Proof.Machine.execFwActivateDone s
  | .powerCap c watts => Sys2Proof.Machine.execPowerCap c watts s
  | .powerShare c p watts nonTile => Sys2Proof.Machine.execPowerShare c p watts nonTile s
  | .powerState c gate down => Sys2Proof.Machine.execPowerState c gate down s
  | .testCtrl c cls en period => Sys2Proof.Machine.execTestCtrl c cls en period s
  | .telemRead c block inst off cnt => Sys2Proof.Machine.execTelemRead c block inst off cnt s
  | .snapArm c w => Sys2Proof.Machine.execSnapArm c w s
  | .modRestart c => Sys2Proof.Machine.execModRestart c s
  | .alarm cause => Sys2Proof.Machine.execAlarm cause s
  | .alarmClear cause => Sys2Proof.Machine.execAlarmClear cause s
  | .startupStageDone r => Sys2Proof.Machine.execStartupStageDone r s
  | .startupStageTimeout => Sys2Proof.Machine.execStartupStageTimeout s
  | .ccFailover sramUe => Sys2Proof.Machine.execCcFailover sramUe s
  | .ccRestartDone ok => Sys2Proof.Machine.execCcRestartDone ok s
  | .seamLaneReplace seam lane dir spare => Sys2Proof.Machine.execSeamLaneReplace seam lane dir spare s
  | .testSegmentStart die row col idleNs => Sys2Proof.Machine.execTestSegmentStart die row col idleNs s
  | .testSegmentDone die row col ok ue ce => Sys2Proof.Machine.execTestSegmentDone die row col ok ue ce s
  | .tileTestOverdue die row col => Sys2Proof.Machine.execTileTestOverdue die row col s
  | .patrolRead dev pa found => Sys2Proof.Machine.execPatrolRead dev pa found s
  | .patrolOverdue dev => Sys2Proof.Machine.execPatrolOverdue dev s
  | .katRun fd1 core ok rerunOk => Sys2Proof.Machine.execKatRun fd1 core ok rerunOk s
  | .marginLow port lane => Sys2Proof.Machine.execMarginLow port lane s
  | .snapCtrlArm => Sys2Proof.Machine.execSnapCtrlArm s
  | .snapshot => Sys2Proof.Machine.execSnapshot s
  | .eventsClear block inst v setAgain => Sys2Proof.Machine.execEventsClear block inst v setAgain s
  | .eventEnWrite block inst v => Sys2Proof.Machine.execEventEnWrite block inst v s
  | .counterLowRead block inst off core => Sys2Proof.Machine.execCounterLowRead block inst off core s
  | .registerWrite block inst off v => Sys2Proof.Machine.execRegisterWrite block inst off v s
  | .kvtCollUp k => Sys2Proof.Machine.execKvtCollUp k s
  | .kvtCollDown k => Sys2Proof.Machine.execKvtCollDown k s
  | .powerDownDone => Sys2Proof.Machine.execPowerDownDone s
  | .m3EntryDone => Sys2Proof.Machine.execM3EntryDone s
  | .inputPowerReturn => Sys2Proof.Machine.execInputPowerReturn s
  | .standbyLost => Sys2Proof.Machine.execStandbyLost s
  | .pmStandbyLost => Sys2Proof.Machine.execPmStandbyLost s
  | .probeTimeout cid k => Sys2Proof.Machine.execProbeTimeout cid k s
  | .attestDone p sig t => Sys2Proof.Machine.execAttestDone p sig t s
  | .launchMeasureDone p => Sys2Proof.Machine.execLaunchMeasureDone p s

end Sys2Proof.Machine
end

