-- ==== Sys2Proof/Machine/Tick.lean ====
section
/-! DEFINITION. One alignment period without a command (log entry 2): clocks, network time, the throttle
pattern, the counters that count periods, and the cycles of waiting tiles. -/

namespace Sys2Proof.Machine

/-- Whether a tile's next bundle waits for something outside the grid: its cycles go on meanwhile. Those of a
grid wait follow from the schedule and count as it ends (log entry 2). -/
def Tile.waiting (x : Tile) : Bool :=
  (x.run == .running || x.run == .stopping) &&
    (match x.waitFor with
      | some (.time _) => true | some (.tally _ _ ext) => ext | some (.mbox _) => true | some .far => true
      | some .copies => true | some .endDrain => true | _ => false)

/-- Sixteen ACLK of every waiting tile that has edges in the period (R64, R68). -/
def State.tickTiles (s : State) : State :=
  s.tileIds.foldl (fun s t =>
    if (s.tile t).waiting && s.keptNow (s.tileKeep t) then s.hold t 16 else s) s

/-- Eight GCLK of every group: its slot counter, and the count since its last active tile left (R182, R185). -/
def State.tickGroups (s : State) : State :=
  s.groups.foldl (fun s g =>
    let x := g.2
    if s.keptNow (min s.pwr.keep (mget 64 s.pwr.keepShare x.part)) then
      s.setGroup g.1 { x with gclk := if x.counting then x.gclk + 8 else x.gclk, idle := x.idle.map (fun n => min 512 (n + 8)) }
    else s) s

/-- The counters of alignment periods: MOD, CLK and PWR (Table 3-11, R513, R514). -/
def State.tickCounters (s : State) : State :=
  let kept := s.keptNow s.pwr.keep
  let s1 := (List.range 6).foldl (fun s i =>
    let a := s.count bCLK i 0xC00 1
    if kept || 4 ≤ i then a.count bCLK i 0xC08 1 else a) (s.count bMOD 0 0xC00 3)
  if kept then s1
  else
    let s2 := s1.count bPWR s1.pwrInst 0xC00 1
    if s.pwr.halt || (s.pwr.kTherm < 64 && s.pwr.kTherm ≤ s.pwr.keep && !s.pwr.droop) then
      s2.count bPWR s2.pwrInst 0xC20 1
    else s2

/-- MOD_PPS_OUT falls 1 ms after it rose (R51). -/
def State.tickPps (s : State) : State :=
  let x := s.tray
  if x.ppsLeft = 1 then { s with tray := { x with ppsOut := false, ppsLeft := 0 } }.emit (.pps false)
  else { s with tray := { x with ppsLeft := x.ppsLeft - 1 } }

/-- The throttle frame moves on by a period; at its end the K requested takes effect (R64). -/
def State.tickFrame (s : State) : State :=
  let s1 := s.updPwr (fun x => { x with droopFor := x.droopFor + 1 })
  if s.pwr.frame = 63 then s1.frameBoundary else s1.updPwr (fun x => { x with frame := x.frame + 1 })

/-- What firmware's reads of the DRAM tier found is counted and reported (R217). -/
def State.tickEcc (s : State) : State :=
  s.fwEcc.foldl (fun s x => if x.2 then s.dramUe x.1 else s.dramCe x.1) { s with fwEcc := [] }

/-- A device that evacuates copies a unit, or has no turn in class Q3 yet (R244, R246). -/
def State.tickEvac (s : State) : State :=
  ((s.devs.filter (fun d => d.2.evac.isSome)).map Prod.fst).foldl (fun s d =>
    if s.freeBit d then s.freshen.evacUnit d else s.freshen) s

/-- One alignment period: six NCLK of network time, and what counts it. An unpowered module stays as it is,
but for its input capacitance, which charges before its bank (R61). -/
def State.tick (s : State) : State :=
  if s.powered then
    let s1 := ((s.tickEcc.tickEvac.tickTiles.tickGroups.tickCounters).nclk 6).tickPps.tickFrame
    { s1 with align := s1.align + 1, imOld := s1.imOld.filter (fun w => s1.align ≤ w.2.1) }
  else if s.pwr.inrush = .inputCap then s.updPwr (fun x => { x with inrush := .bank })
  else s

end Sys2Proof.Machine
end

