-- ==== Sys2Proof/Safety.lean ====
section
/-! DEFINITION. The terms the statements are written in: a tile that can issue one slot with nothing else
under way, what the issue of a bundle leaves apart from its own results, memory with nothing unsettled,
and what counts as a safe state. -/

namespace Sys2Proof.Machine

/-! ## One bundle on one tile (R143, R145, R146, R173) -/

/-- A tile that takes a bundle in its present ACLK with nothing under way that the bundle could meet: it is
running and not waiting, its clocks have edges, no slot is assembled, no result, far load, message, XMOV, copy
or landing is under way, the matrix unit and the SRAM ports are free and stand where its clock does, no loop is
active, the bundle it fetches has no stored error, no test segment holds its silicon, and a bundle stands behind
this one (R27, R143-R147, R152, R165, R173). -/
def State.quiet (s : State) (t : Nat) : Bool :=
  let x := s.tile t
  tileOk t && x.run == .running && x.waitFor.isNone && s.tileEdges t &&
  x.slots.isEmpty && x.flight.isEmpty && x.loops.isEmpty && x.far.isEmpty && x.injq.isEmpty &&
  x.landing.isEmpty && x.xmovs.isEmpty && x.copies < 16 && x.rp0.isEmpty && x.rp1.isEmpty && x.wp.isEmpty &&
  x.own0 ≤ x.aclk && x.ownW ≤ x.aclk && x.eng == x.aclk / 2 &&
  x.m0 == 0 && x.m1 == 0 && x.mbusy ≤ x.aclk && x.mEnd ≤ x.aclk && x.pc < 16383 &&
  !s.testing t && (hits s.ue (imAt t (x.pc * 16)) 16).isEmpty && (hits s.ce (imAt t (x.pc * 16)) 16).isEmpty

/-- What the issue of a bundle leaves beside the effects `g` of its slots: the tile is `n` ACLK further and its
ports with it, CYCLE and TILE_CNT_ACLK count them, and the next bundle is the one at `pc` (R145, R154, Table 4-13). -/
def State.ranTo (s : State) (t n pc : Nat) (g : Tile → Tile) : State :=
  let x := s.tile t
  (s.setTile t { g x with
    pc := pc, aclk := x.aclk + n, eng := (x.aclk + n) / 2, cycle := x.cycle + BitVec.ofNat 64 n }).count bTILE t 0xC00 n

/-- The same for a bundle that goes on in sequence and takes one ACLK. -/
def State.ran (s : State) (t : Nat) (g : Tile → Tile) : State :=
  s.ranTo t 1 ((s.tile t).pc + 1) g

/-- A result of latency `lat` (R145): with latency 1 it has landed at the next bundle, else it is in flight
until `lat` ACLK from the issue. -/
def Tile.result (x : Tile) (lat : Nat) (l : Land) : Tile :=
  { x with flight := [{ due := x.aclk + lat, land := l }] }

/-- The next state of a bundle whose effect is a scalar result of latency 1. -/
def State.ranS (s : State) (t r : Nat) (v : W64) : State := s.ran t (·.setS r v)
/-- The next state of a bundle whose effect is a predicate result of latency 1. -/
def State.ranP (s : State) (t r : Nat) (v : W64) : State := s.ran t (·.setP r v)
/-- The next state of a bundle whose effect is a vector result of latency 1 on the lanes of a mask. -/
def State.ranV (s : State) (t r : Nat) (v mask : Vec) : State :=
  s.ran t (fun x => x.setV r (merge (x.vreg r) v mask))
/-- The next state of a bundle whose effect is a result of a latency above 1. -/
def State.ranLater (s : State) (t lat : Nat) (l : Land) : State := s.ran t (·.result lat l)
/-- The next state of a bundle whose effect is a vector result of a latency above 1 with its flags. -/
def State.ranFlags (s : State) (t lat r : Nat) (v mask : Vec) (fl : Flags5) : State :=
  s.ran t (fun x => { x with flight := { due := x.aclk + lat, land := .v r v mask } ::
    (if fl = 0 then [] else [{ due := x.aclk + lat, land := .nstat fl }]) })
/-- The elements an instruction that rounds under RM = 4 takes (R127, R161). -/
def State.tookSre (s : State) (t : Nat) (rm : BitVec 3) (n : Nat) : State :=
  if rm = 4 then s.updTile t (fun x => { x with sre := x.sre + BitVec.ofNat 32 n }) else s
/-- A vector register of 64 lane values. -/
def vecOf (f : Nat → Nat) : Vec := ofLanes ((List.range 64).map f)
/-- Flags of the enabled lanes together. -/
def laneFlags (on : Nat → Bool) (f : Nat → Flags5) : Flags5 :=
  (List.range 64).foldl (fun a i => if on i then a ||| f i else a) 0

/-- The matrix unit is busy for `n` ACLK from the issue of the bundle (Table 6-7). -/
def Tile.busyFor (x : Tile) (n : Nat) : Tile :=
  { x with mbusy := x.aclk + n, mIss := x.aclk, mc := 0, mNext := x.aclk / 2 + 1, m0 := 0, m1 := 0, mg := 0 }
/-- The matrix unit streams operands for `c` ACLK and drains for 8, with n0 and n1 operand lines left to fetch on
the read ports (R164, R166). -/
def Tile.busyMma (x : Tile) (c n0 n1 : Nat) : Tile :=
  { x with mbusy := x.aclk + c + 8, mIss := x.aclk, mc := c, mNext := x.aclk / 2 + 1, m0 := n0, m1 := n1, mg := 0 }

/-- The SRAM port use of the present GCLK that still counts at the next ACLK (R88, R152). -/
def Tile.portUse (x : Tile) (a : Nat) : List (Nat × Nat) :=
  if x.aclk % 2 = 0 then [(x.aclk / 2, bankOf a)] else []

/-- Bytes of tile SRAM with no stored error (R90). -/
def State.sound (s : State) (t a n : Nat) : Bool :=
  (hits s.ue (sramAt t a) n).isEmpty && (hits s.ce (sramAt t a) n).isEmpty
/-- Bytes of tile SRAM with nothing unsettled and no stored error (R90, R180, R313). -/
def State.settled (s : State) (t a n : Nat) : Bool :=
  s.soft.isEmpty && s.jobs.isEmpty && (s.tile t).landing.isEmpty && s.sound t a n
/-- A tile with no result in flight and nothing under way at its ports. -/
def Tile.still (x : Tile) : Bool := x.flight.isEmpty && x.engIdle
/-- A tile with no result in flight whose ports have nothing to do but this queue of messages, these landings and
these moves (R176, R178, R520). -/
def Tile.only (x : Tile) (ms : List Msg) (ls : List Landing) (vs : List XMov) : Bool :=
  x.flight.isEmpty && x.m0 == 0 && x.m1 == 0 && x.injq == ms && x.landing == ls && x.xmovs == vs

/-- The `n` bytes at tile-local address `a` as memory holds them, little-endian. -/
def State.sramWord (s : State) (t a n : Nat) : Nat := leNat (readBytes s.mem (sramAt t a) n)

/-! ## What the module reports (R469-R471, R502) -/

/-- Whether an EVENTS bit of a page is set. -/
def State.ev (s : State) (blk inst bit : Nat) : Bool := (s.reg blk inst oEVENTS).getLsbD bit
/-- What a live counter holds after it counts `n` more: it stops at 2^64 - 1 (R502). -/
def State.cntUp (s : State) (blk inst off n : Nat) : W64 :=
  BitVec.ofNat 64 (min ((s.cnt blk inst off).toNat + n) (2 ^ 64 - 1))

/-- No queue of any partition has an entry it could go on with, so that nothing but a command's own effect
happens at its end (R375). -/
def State.queuesIdle (s : State) : Bool := s.queues.all (fun x => x.2.p == x.2.c && x.2.unstarted.isNone)
/-- Firmware is up and takes this command from the manager's channel, which holds it (R409, R418, R459). -/
def State.takes (s : State) (c : Cmd) : Bool :=
  s.fwReady && s.queuesIdle && c.chan == .manager && (s.mb .manager true).full
/-- The manager's channel after firmware has answered with a return code (R409). -/
def State.acked (u : State) (rc : Nat) : Bool :=
  !(u.mb .manager true).full && (u.mb .manager true).acked && (u.mb .manager true).rc == BitVec.ofNat 16 rc

/-! ## A descriptor taken from its ring (R373-R377) -/

/-- Queue q of partition p takes this descriptor next: nothing else waits on any queue, the queue may consume,
its kind accepts the opcode, and the lap stamp is the ring's (R365, R370, R373). -/
def State.readyFor (s : State) (p q op : Nat) (d : Desc) : Bool :=
  p < 1024 && q < 4096 && s.queuesIdle && s.canConsume p q && accepts (s.queue p q).kind p op &&
    d.lap.toNat == (s.queue p q).lapOf (s.queue p q).c &&
    !s.jobs.any (fun j => j.from_ == .entry p q (s.queue p q).c) && !(s.queue p q).entries.any (·.idx == (s.queue p q).c)
/-- The state in which the entry at C has been consumed and its operation has not yet begun. -/
def State.taken (s : State) (p q op : Nat) (d : Desc) : State :=
  let x := s.queue p q
  (s.setQueue p q { x with
    p := (x.c + 1) % 2 ^ 32, c := (x.c + 1) % 2 ^ 32, qstate := if x.qstate = 1 then 0 else x.qstate
    entries := x.entries ++ [{ idx := x.c, op := op, d := d, started := false }] }).publish p q
/-- No queue but this one has an entry it could go on with. -/
def State.queuesTaken (s : State) (p q : Nat) : Bool :=
  s.queues.all (fun x => x.2.p == x.2.c && (x.1 == p * 4096 + q || x.2.unstarted.isNone))

/-! ## Memory an engine reaches at once (R217, R220, R230) -/

/-- Whether what the translation buffers hold for an address is what the tables give it (R230). -/
def State.tbSame (s : State) (p va : Nat) : Bool :=
  s.tb.all (fun y => !y.2.holds p va || (match s.walk p va with
    | .leaf lv base bits => y.2.size == lvSize lv && y.2.bits == bits && y.2.pa + (va - y.2.va) == base + va % lvSize lv
    | _ => false))

/-- Whether n bytes at a physical address are settled and readable as they stand under data key k of a partition:
one 64-byte line of the DRAM tier or of a tile's SRAM, nothing under way anywhere, no stored error, no logging. -/
def State.lineOk (s : State) (p k pa n : Nat) : Bool :=
  dataOk pa && 0 < n && pa % 64 + n ≤ 64 && s.soft.isEmpty && s.jobs.isEmpty && s.ue.isEmpty && s.ce.isEmpty &&
    s.lost.isEmpty && !(s.part p).rec_.dlog && (!inDram pa || (!s.keyGone p && mget 0 s.lineKey (pa / 64) == s.keyId p k)) &&
    (!inSram pa || (s.tile (sramTile pa)).landing.isEmpty)
/-- Where n bytes at a virtual address lie for an access, when the tables lead to such a line and no buffered
translation stands beside them. -/
def State.lineAt (s : State) (p acc va n : Nat) : Option Nat :=
  match s.walk p (va % 2 ^ 48) with
  | .leaf lv base bits =>
    let pa := base + va % 2 ^ 48 % lvSize lv
    if rightsOk bits acc && s.tb.isEmpty && s.lineOk p (bitsAt bits.toNat 8 4) pa n then some pa else none
  | _ => none
/-- Where n bytes at a virtual address lie by the runs a holder keeps. -/
def State.heldAt (s : State) (p : Nat) (hs : List Held) (va n : Nat) : Option Nat :=
  match hs.find? (fun r => r.covers (va % 2 ^ 48)) with
  | some r => if n ≤ r.left va && s.reach (r.at_ va) && !r.logs && s.lineOk p r.ksel (r.at_ va) n then some (r.at_ va) else none
  | none => none

/-! ## A packet its connection takes at once (R290, R301, R310) -/

/-- A packet of an open, cached connection without encryption whose header and trailer are good; no queue has work. -/
def State.rxGood (s : State) (op : Nat) (k : Pkt) : Bool :=
  let c := s.conn k.cid.toNat
  c.state == .open_ && s.cached k.cid.toNat && !c.enc && k.version == 1 && k.fcsOk && k.trailerOk &&
    !k.flags.getLsbD 5 && !headerBad c op k && s.queuesIdle
/-- Such a packet that is a whole message, next in order, on a transport that is receiving nothing else; its ACK is
not yet due. -/
def State.rxWhole (s : State) (op : Nat) (k : Pkt) : Bool :=
  let c := s.conn k.cid.toNat
  s.rxGood op k && (c.edge.isNone || op == 0x20 || op == 0x21) && !c.parked && s.conns.all (fun x => x.2.rxq.isEmpty) && c.got.isEmpty && c.solicits.isEmpty &&
    k.psn.toNat == c.e && k.msgId == c.hemNext && k.offset == 0 && (op == 3 || k.length.toNat == k.payload.length) &&
    (!opUnsol op || k.op28.toNat == k.payload.length) && msgPkts op k.length.toNat c.mtu == 1 && c.accepted + 1 < s.fld bKVT 0 0x044 0 4 && !k.flags.getLsbD 4
/-- What the hem of such a message leaves of its connection: E and the hem order have passed it, nothing of it is
held, it is counted, and its pool space is free. -/
def State.hemmedIn (s u : State) (op : Nat) (k : Pkt) : Bool :=
  let c := s.conn k.cid.toNat
  let d := u.conn k.cid.toNat
  d.e == psnAdd c.e 1 && d.hemNext == k.msgId + 1 && d.rxq.isEmpty && d.got.isEmpty && d.state == .open_ &&
    d.accepted == c.accepted + 1 && u.cnt bKVT (kvtInst c) 0xC08 == s.cntUp bKVT (kvtInst c) 0xC08 1 &&
    (u.port k.port).pool == (s.port k.port).pool - pktLen op k
/-- Queue q of partition p has the one entry i in progress, sends no notification records, and its control block lies
in the DRAM tier. -/
def State.loneEntry (s : State) (p q i : Nat) : Bool :=
  let x := s.queue p q
  q < 4096 && x.qstate == 0 && x.nkind == 0 && x.entries.map (·.idx) == [i] && x.entries.all (fun e => e.done.isNone && !e.parked) &&
    x.cb % 64 == 0 && (s.pureXl p (x.cb + 4) accW).all inDram
/-- That entry has completed: H has passed it. -/
def State.entryDone (s u : State) (p q : Nat) : Bool :=
  (u.queue p q).entries.isEmpty && (u.queue p q).h == ((s.queue p q).h + 1) % 2 ^ 32 && (u.queue p q).c == (s.queue p q).c

/-! ## What a connection sends (R297, Table 12-5) -/

/-- One frame more waits on the egress link of a connection's label, with a packet of an opcode to the peer; with no
link up it is lost. -/
def State.sentOn (s u : State) (cid op lab : Nat) (ok : Pkt → Bool) : Bool :=
  let c := s.conn cid
  match s.linkOf cid lab with
  | none => true
  | some l =>
    let old := (s.port l.1).txq
    match (u.port l.1).txq.drop old.length with
    | [f] => (u.port l.1).txq.take old.length == old && f.half1 == l.2 && f.cls == c.cls &&
      f.pkt.any (fun x => x.1 == op && x.2.dst == c.peerAddr && x.2.udpSrc == s.labelPort cid lab && ok x.2)
    | _ => false
/-- Nothing of a connection is under way, so that its error ends nothing else. -/
def Conn.bare (c : Conn) : Bool :=
  c.edge.isNone && c.cmd.isNone && c.txq.isEmpty && c.rxq.isEmpty && c.recvs.isEmpty && c.awaits.isEmpty
/-- The connection is in error with a cause, counted and reported. -/
def State.errorIn (s u : State) (cid cause : Nat) : Bool :=
  let i := kvtInst (s.conn cid)
  (u.conn cid).state == .error && (u.conn cid).cause == cause && u.ev bKVT i 0 &&
    u.cnt bKVT i 0xC68 == s.cntUp bKVT i 0xC68 1

/-! ## Replies on a channel (R409, R418) -/

/-- Firmware may post on a channel at once. -/
def State.outFree (s : State) (ch : Chan) : Bool := !(s.mb ch false).full && (s.mb ch false).pend.isEmpty
/-- A channel holds the final reply of a command. -/
def State.finished (u : State) (c : Cmd) (rc : Nat) (data : List W64) : Bool :=
  (u.mb c.chan false).full &&
    (u.mb c.chan false).words == BitVec.ofNat 64 (0xFFFF + c.tag.toNat * 2 ^ 16 + rc * 2 ^ 32) :: data

/-! ## An entry of a queue with nothing else in progress (R373, R377) -/

/-- Queue q of partition p takes this descriptor next, has nothing in progress, and sends no notification records. -/
def State.readyAlone (s : State) (p q op : Nat) (d : Desc) : Bool :=
  let x := s.queue p q
  s.readyFor p q op d && x.entries.isEmpty && x.nkind == 0 && !x.err && (s.taken p q op d).queuesTaken p q
/-- The entry has been consumed and has completed with a status. -/
def State.tookNow (s u : State) (p q st : Nat) : Bool :=
  let x := s.queue p q
  let y := u.queue p q
  y.c == (x.c + 1) % 2 ^ 32 && y.h == (x.h + 1) % 2 ^ 32 && y.entries.isEmpty && y.err == (st != 0) && y.qstate == 0
/-- The entry has been consumed and is in progress. -/
def State.tookBegun (s u : State) (p q op : Nat) (d : Desc) : Bool :=
  let x := s.queue p q
  let y := u.queue p q
  y.c == (x.c + 1) % 2 ^ 32 && y.h == x.h && y.qstate == 0 &&
    y.entries.map (fun e => (e.idx, e.op, e.d, e.started, e.done)) == [(x.c, op, d, true, none)]

end Sys2Proof.Machine
end

