-- ==== Sys2Proof/Certificates/Slice0/Obligations.lean ====
section
/-! DEFINITION. The statements for the provers: what the module's commands do, by the numbered rules of spec/,
family by family, and what every step keeps. -/

open Sys2Proof Sys2Proof.Machine

/-! ## Tile: scalar slot -/

/-- ADD to MULHU on a quiet tile (R153, R148, R145): 64-bit wrapping results, SLT and SLTU 1 or 0, MIN and MAX
signed, shifts by the low 6 bits; latency 1, for MUL and MULHU 3; s0 is not written. The next state is given
whole, so nothing else changes. -/
def Obligations.ScalarRegisterOperations : Prop :=
  ∀ (s : State) (t : Nat) (f : FmtSR), s.quiet t = true →
    let a := (s.tile t).sreg f.rs1.toNat
    let b := (s.tile t).sreg f.rs2.toNat
    let d := f.rd.toNat
    exec (.add ⟨t, false⟩ f) s = .next (s.ranS t d (a + b)) ∧
    exec (.sub ⟨t, false⟩ f) s = .next (s.ranS t d (a - b)) ∧
    exec (.and ⟨t, false⟩ f) s = .next (s.ranS t d (a &&& b)) ∧
    exec (.or ⟨t, false⟩ f) s = .next (s.ranS t d (a ||| b)) ∧
    exec (.xor ⟨t, false⟩ f) s = .next (s.ranS t d (a ^^^ b)) ∧
    exec (.sll ⟨t, false⟩ f) s = .next (s.ranS t d (a <<< (b.toNat % 64))) ∧
    exec (.srl ⟨t, false⟩ f) s = .next (s.ranS t d (a >>> (b.toNat % 64))) ∧
    exec (.sra ⟨t, false⟩ f) s = .next (s.ranS t d (a.sshiftRight (b.toNat % 64))) ∧
    exec (.slt ⟨t, false⟩ f) s = .next (s.ranS t d (if a.toInt < b.toInt then 1 else 0)) ∧
    exec (.sltu ⟨t, false⟩ f) s = .next (s.ranS t d (if a.toNat < b.toNat then 1 else 0)) ∧
    exec (.min ⟨t, false⟩ f) s = .next (s.ranS t d (if b.toInt ≤ a.toInt then b else a)) ∧
    exec (.max ⟨t, false⟩ f) s = .next (s.ranS t d (if a.toInt ≤ b.toInt then b else a)) ∧
    exec (.mul ⟨t, false⟩ f) s = .next (s.ranLater t 3 (.s d (a * b))) ∧
    exec (.mulhu ⟨t, false⟩ f) s = .next (s.ranLater t 3 (.s d (BitVec.ofNat 64 (a.toNat * b.toNat / 2 ^ 64))))

/-- ADDI to SLTI, LUI, PLOG, PSET and PGET on a quiet tile (R151, R153, R148): immediates are sign-extended, p0 and
s0 are not written, latency 1. -/
def Obligations.ScalarImmediateOperations : Prop :=
  ∀ (s : State) (t : Nat), s.quiet t = true →
    (∀ f : FmtSI,
      let a := (s.tile t).sreg f.rs1.toNat
      let d := f.rd.toNat
      let i : W64 := f.imm.signExtend 64
      exec (.addi ⟨t, false⟩ f) s = .next (s.ranS t d (a + i)) ∧
      exec (.andi ⟨t, false⟩ f) s = .next (s.ranS t d (a &&& i)) ∧
      exec (.ori ⟨t, false⟩ f) s = .next (s.ranS t d (a ||| i)) ∧
      exec (.xori ⟨t, false⟩ f) s = .next (s.ranS t d (a ^^^ i)) ∧
      exec (.slli ⟨t, false⟩ f) s = .next (s.ranS t d (a <<< (f.imm.toNat % 64))) ∧
      exec (.srli ⟨t, false⟩ f) s = .next (s.ranS t d (a >>> (f.imm.toNat % 64))) ∧
      exec (.srai ⟨t, false⟩ f) s = .next (s.ranS t d (a.sshiftRight (f.imm.toNat % 64))) ∧
      exec (.slti ⟨t, false⟩ f) s = .next (s.ranS t d (if a.toInt < f.imm.toInt then 1 else 0))) ∧
    (∀ f : FmtSU, exec (.lui ⟨t, false⟩ f) s = .next (s.ranS t f.rd.toNat ((f.imm.signExtend 64 : W64) <<< 14))) ∧
    (∀ f : FmtSP, f.rsv = 0 →
      let a := (s.tile t).preg f.pa.toNat
      let b := (s.tile t).preg f.pb.toNat
      let d := f.pd.toNat
      (f.func = 0 → exec (.plog ⟨t, false⟩ f) s = .next (s.ranP t d (a &&& b))) ∧
      (f.func = 1 → exec (.plog ⟨t, false⟩ f) s = .next (s.ranP t d (a ||| b))) ∧
      (f.func = 2 → exec (.plog ⟨t, false⟩ f) s = .next (s.ranP t d (a ^^^ b))) ∧
      (f.func = 3 → exec (.plog ⟨t, false⟩ f) s = .next (s.ranP t d (a &&& ~~~b))) ∧
      (f.func = 4 → exec (.plog ⟨t, false⟩ f) s = .next (s.ranP t d (~~~a))) ∧
      exec (.pset ⟨t, false⟩ f) s = .next (s.ranP t d ((s.tile t).sreg f.rs.toNat)) ∧
      exec (.pget ⟨t, false⟩ f) s = .next (s.ranS t f.rs.toNat a))


/-- LD, LW, ST and SW on a quiet tile (R152, R153): an aligned load of settled bytes gives the bytes zero-extended
at latency 4, uses read port 0 in its GCLK and a free-value number; an aligned store is in flight for 2 ACLK and
names exactly the bytes it writes. -/
def Obligations.ScalarLoadsAndStores : Prop :=
  ∀ (s : State) (t : Nat), s.quiet t = true →
    (∀ f : FmtSI,
      let x := s.tile t
      let a := (x.sreg f.rs1.toNat + f.imm.signExtend 64).toNat
      let u (n : Nat) : State := (s.ran t (fun y => { y.result 4 (.s f.rd.toNat (BitVec.ofNat 64 (s.sramWord t a n))) with
        rp0 := x.portUse a })).freshen
      (a + 8 ≤ 0x800000 → a % 8 = 0 → s.settled t a 8 = true → exec (.ld ⟨t, false⟩ f) s = .next (u 8)) ∧
      (a + 4 ≤ 0x800000 → a % 4 = 0 → s.settled t a 4 = true → exec (.lw ⟨t, false⟩ f) s = .next (u 4))) ∧
    (∀ f : FmtSB,
      let x := s.tile t
      let a := (x.sreg f.rs1.toNat + f.off.signExtend 64).toNat
      let u (n : Nat) : State := s.ran t (fun y =>
        { y.result 2 (.mem (sramAt t a) ((leBytes n (x.sreg f.rs2.toNat).toNat).map some)) with wp := x.portUse a })
      x.aclk / 2 % 8 ≠ 7 →
      (a + 8 ≤ 0x800000 → a % 8 = 0 → exec (.st ⟨t, false⟩ f) s = .next (u 8)) ∧
      (a + 4 ≤ 0x800000 → a % 4 = 0 → exec (.sw ⟨t, false⟩ f) s = .next (u 4)))

/-- Branches and jumps on a quiet tile (R154): a branch not taken goes on in sequence at no cost, a taken branch or
jump issues its target 2 ACLK later, JAL writes the index of the next bundle; targets are bundles 0-16383.
LOOP on a quiet tile, and the end of a body (R155): a LOOP with a count above 0 makes its level active over the
`len` bundles that follow; a count of 0 skips them at the cost of a taken branch; at the last bundle of a body the
loop goes back to its first bundle while iterations remain and else ends, in either case with no cycle lost. -/
def Obligations.BranchesJumpsAndLoops : Prop :=
  (∀ (s : State) (t : Nat), s.quiet t = true →
    (∀ f : FmtSB,
      let x := s.tile t
      let a := x.sreg f.rs1.toNat
      let b := x.sreg f.rs2.toNat
      let g : Int := (x.pc : Int) + f.off.toInt
      0 ≤ g → g ≤ 16383 →
      let goes (c : Bool) : State := if c then s.ranTo t 2 g.toNat id else s.ran t id
      exec (.beq ⟨t, false⟩ f) s = .next (goes (a = b)) ∧
      exec (.bne ⟨t, false⟩ f) s = .next (goes (a ≠ b)) ∧
      exec (.blt ⟨t, false⟩ f) s = .next (goes (a.toInt < b.toInt)) ∧
      exec (.bge ⟨t, false⟩ f) s = .next (goes (b.toInt ≤ a.toInt)) ∧
      exec (.bltu ⟨t, false⟩ f) s = .next (goes (a.toNat < b.toNat)) ∧
      exec (.bgeu ⟨t, false⟩ f) s = .next (goes (b.toNat ≤ a.toNat))) ∧
    (∀ f : FmtSU,
      let g : Int := ((s.tile t).pc : Int) + f.imm.toInt
      0 ≤ g → g ≤ 16383 → exec (.jal ⟨t, false⟩ f) s =
        .next (s.ranTo t 2 g.toNat (fun x => x.setS f.rd.toNat (BitVec.ofNat 64 (x.pc + 1))))) ∧
    (∀ f : FmtSI, f.rd = 0 → f.imm = 0 →
      let g := ((s.tile t).sreg f.rs1.toNat).toNat
      g ≤ 16383 → exec (.jr ⟨t, false⟩ f) s = .next (s.ranTo t 2 g id))) ∧
  (∀ (s : State) (t : Nat), s.quiet t = true →
    (∀ f : FmtSL,
      let x := s.tile t
      let n := f.len.toNat
      let c := (x.sreg f.rs.toNat).toNat
      f.rsv = 0 → 0 < n → ctlWord (s.imS t (x.pc + n)) = false → x.pc + n < 16383 →
      (0 < c → exec (.loop ⟨t, false⟩ f) s = .next (s.ran t (fun y =>
        { y with loops := [{ lvl := f.lvl.toNat, first := x.pc + 1, last := x.pc + n, left := c }] }))) ∧
      (c = 0 → exec (.loop ⟨t, false⟩ f) s = .next (s.ranTo t 2 (x.pc + n + 1) id))) ∧
    (∀ (l : LoopRec) (v : State), l.last = (s.tile t).pc → l.first ≤ l.last →
      v = s.setTile t { s.tile t with loops := [l] } →
      (1 < l.left → exec (.nop ⟨t, false⟩ .S 0) v = .next (v.ranTo t 1 l.first (fun y =>
        { y with loops := [{ l with left := l.left - 1 }] }))) ∧
      (l.left ≤ 1 → exec (.nop ⟨t, false⟩ .S 0) v = .next (v.ran t (fun y => { y with loops := [] })))))

/-- CSRR, CSRW and CSRC on a quiet tile (R149, Table 6-1): the register's value is read, NSTAT and XERR are written
and cleared bit by bit, with latency 1.
NOP, STEP, END and TRAP on a quiet tile (R144, R156, R153): NOP does nothing for one ACLK; a step boundary with
nothing pending adds 1 to STEPCNT and TILE_CNT_STEPS and sets SRE to 0; END with nothing outstanding moves the tile
to done and raises EVENTS.DONE. -/
def Obligations.ControlRegistersNopStepAndEnd : Prop :=
  (∀ (s : State) (t : Nat) (f : FmtSC), s.quiet t = true → f.rsv = 0 →
    let x := s.tile t
    let v := x.sreg f.r.toNat
    let reads (w : W64) : Prop := exec (.csrr ⟨t, false⟩ f) s = .next (s.ranS t f.r.toNat w)
    (f.cr = 0x00 → reads (x.nstat.setWidth 64) ∧
      exec (.csrw ⟨t, false⟩ f) s = .next (s.ran t (fun y => { y with nstat := v.setWidth 5 })) ∧
      exec (.csrc ⟨t, false⟩ f) s = .next (s.ran t (fun y => { y with nstat := y.nstat &&& ~~~(v.setWidth 5) }))) ∧
    (f.cr = 0x01 → reads x.stepcnt) ∧
    (f.cr = 0x02 → reads (x.sre.setWidth 64)) ∧
    (f.cr = 0x03 → reads (BitVec.ofNat 64 (t + t / 36 * 2 ^ 16 + t % 36 * 2 ^ 24))) ∧
    (f.cr = 0x04 → reads (BitVec.ofNat 64 ((s.tileOwner t).getD 0))) ∧
    (f.cr = 0x05 → reads (if x.mode then 1 else 0)) ∧
    (f.cr = 0x06 → reads x.cycle) ∧
    (f.cr = 0x07 → reads x.extwait) ∧
    (f.cr = 0x08 → reads (BitVec.ofNat 64 (s.time.sec % 2 ^ 34 * 2 ^ 30 + s.time.ns % 2 ^ 30))) ∧
    (f.cr = 0x09 → reads (s.reg bTILE t 0x050 ++ s.reg bTILE t 0x04C)) ∧
    (f.cr = 0x0A → reads (x.xerr.setWidth 64) ∧
      exec (.csrw ⟨t, false⟩ f) s = .next (s.ran t (fun y => { y with xerr := v.setWidth 17 })) ∧
      exec (.csrc ⟨t, false⟩ f) s = .next (s.ran t (fun y => { y with xerr := y.xerr &&& ~~~(v.setWidth 17) }))) ∧
    (f.cr = 0x0B →
      let i := s.mb (.tile t) false
      let o := s.mb (.tile t) true
      reads (BitVec.ofNat 64 (i.full.toNat + 2 * o.full.toNat + 4 * (i.collision || o.collision).toNat + 8 * o.rreset.toNat))) ∧
    (0x10 ≤ f.cr.toNat → f.cr.toNat ≤ 0x13 → reads 0)) ∧
  (∀ (s : State) (t : Nat), s.quiet t = true → (s.tile t).stopReq = false → (s.tile t).holdReq = false →
    exec (.nop ⟨t, false⟩ .S 0) s = .next (s.ran t id) ∧
    ((s.tile t).xerr.getLsbD 16 = false → (s.tile t).sramPend = false →
      exec (.step ⟨t, false⟩ 0) s = .next ((s.ran t (fun x =>
        { x with stepcnt := x.stepcnt + 1, sre := 0 })).count bTILE t 0xC10 1)) ∧
    ((s.tile t).drained = true → ∃ u, exec (.endProg ⟨t, false⟩ 0) s = .next u ∧
      (u.tile t).run = .done ∧ (u.tile t).pc = (s.tile t).pc + 1 ∧ (u.tile t).s = (s.tile t).s ∧
      (u.tile t).v = (s.tile t).v ∧ (u.reg bTILE t oEVENTS).getLsbD 0 = true ∧
      (∀ k, k ≠ t → (u.tile k).run = (s.tile k).run)))

/-- What a result does when it lands (R145, R146, R148, R149, R152, R158): a result due at the next ACLK has landed
at the next bundle, one due later has not. Writes to s0 and p0 are discarded, a vector result leaves the lanes of
its mask's complement, flags are ORed in. An increment of a grid tally that arrives in the ACLK in which a bundle
issues counts after that bundle's operations (R181). -/
def Obligations.ResultsLand : Prop :=
  ∀ (s : State) (t : Nat) (l : Land) (n : Nat), s.quiet t = true →
    let v := s.setTile t { s.tile t with flight := [{ due := (s.tile t).aclk + n, land := l }] }
    let runs (u : State) : Prop := exec (.nop ⟨t, false⟩ .S 0) v = .next u
    (2 ≤ n → (∀ a b c d e f g h i j k, l ≠ .mma a b c d e f g h i j k) → (∀ a b c d e f g h i, l ≠ .mmav a b c d e f g h i) →
      runs (v.ran t id)) ∧
    (n = 1 →
      (∀ r x, l = .s r x → runs (s.ran t (fun y => if r = 0 then y else { y with s := mset 0 y.s r x }))) ∧
      (∀ r x, l = .p r x → runs (s.ran t (fun y => if r = 0 then y else { y with p := mset 0 y.p r x }))) ∧
      (∀ r x m, l = .v r x m → runs (s.ran t (fun y =>
        { y with v := mset 0 y.v r ((mget 0 y.v r &&& ~~~m) ||| (x &&& m)) }))) ∧
      (∀ fl, l = .nstat fl → runs (s.ran t (fun y => { y with nstat := y.nstat ||| fl }))) ∧
      (∀ a (bs : List Byte), l = .mem a (bs.map some) → runs ((s.ran t id).poke a bs))) ∧
    (n = 0 → ∀ k, l = .tally k false none → runs (s.ran t (fun y =>
      y.setTally k (BitVec.ofNat 32 (min ((y.tally k).toNat + 1) 0xFFFFFFFF)))))


/-! ## Tile: vector slot -/

/-- VADD.F, VSUB.F, VMUL.F, VFMA.F, VMIN.F, VMAX.F, VFN and VCMP.F on a quiet tile (R139-R141, R158, R161): lane by
lane on the enabled lanes, with the latency of Table 6-4; masked lanes are not written and set no flag, a compare
gives them 0; an instruction that rounds under RM = 4 takes 64 stochastic elements. -/
def Obligations.VectorFloatingPoint : Prop :=
  ∀ (s : State) (t : Nat), s.quiet t = true →
    (∀ f : FmtVR,
      let x := s.tile t
      let d := f.vd.toNat
      let on (i : Nat) : Bool := (x.preg f.pred.toNat).getLsbD i
      let mask := laneMask (x.preg f.pred.toNat)
      let a (i : Nat) := lane (x.vreg f.va.toNat) i
      let b (i : Nat) := lane (x.vreg f.vb.toNat) i
      let c (i : Nat) := lane (x.vreg f.vc.toNat) i
      let dr (i : Nat) := s.drawOf t f.rm.toNat i
      let gives (i : Instr) (lat : Nat) (r : Nat → Nat × Flags5) : Prop := exec i s = .next
        ((s.ranFlags t lat d (vecOf (fun i => if on i then (r i).1 else 0)) mask (laneFlags on (fun i => (r i).2))
          ).tookSre t f.rm 64)
      (f.rm.toNat ≤ 4 → f.vc = 0 →
        gives (.vaddF ⟨t, false⟩ f) 4 (fun i => f32Add f.rm.toNat (dr i) (a i) (b i)) ∧
        gives (.vsubF ⟨t, false⟩ f) 4 (fun i => f32Sub f.rm.toNat (dr i) (a i) (b i)) ∧
        gives (.vmulF ⟨t, false⟩ f) 4 (fun i => f32Mul f.rm.toNat (dr i) (a i) (b i))) ∧
      (f.rm.toNat ≤ 4 →
        gives (.vfmaF ⟨t, false⟩ f) 4 (fun i => f32Fma f.rm.toNat (dr i) (a i) (b i) (c i))) ∧
      (f.rm = 0 →
        exec (.vminF ⟨t, false⟩ f) s = .next (s.ranLater t 2 (.v d (vecOf (fun i => f32Min (a i) (b i))) mask)) ∧
        exec (.vmaxF ⟨t, false⟩ f) s = .next (s.ranLater t 2 (.v d (vecOf (fun i => f32Max (a i) (b i))) mask)) ∧
        (f.vb.toNat ≤ 7 → gives (.vfn ⟨t, false⟩ f) 12 (fun i => f32Fn f.vb.toNat (a i))))) ∧
    (∀ f : FmtVP, f.rsv = 0 → f.rsv2 = 0 → f.cond.toNat ≤ 4 →
      let x := s.tile t
      let r := ofBits ((List.range 64).map (fun i => (x.preg f.pred.toNat).getLsbD i &&
        f32Cmp f.cond.toNat (lane (x.vreg f.va.toNat) i) (lane (x.vreg f.vb.toNat) i)))
      exec (.vcmpF ⟨t, false⟩ f) s = .next (s.ranLater t 2 (.p f.pd.toNat r)))

/-- VADD.I to VSRA, VSEL, VPERM and VCMP.I on a quiet tile (R158, Table 6-4): 32-bit wrapping arithmetic, bitwise
operations, shifts by vb [4:0]; the latencies of the table. -/
def Obligations.VectorIntegerOperations : Prop :=
  ∀ (s : State) (t : Nat), s.quiet t = true →
    (∀ f : FmtVR, f.rm = 0 →
      let x := s.tile t
      let d := f.vd.toNat
      let mask := laneMask (x.preg f.pred.toNat)
      let a (i : Nat) : W32 := (x.vreg f.va.toNat).extractLsb' (32 * i) 32
      let b (i : Nat) : W32 := (x.vreg f.vb.toNat).extractLsb' (32 * i) 32
      let one (r : Nat → W32) : State := s.ranV t d (vecOf (fun i => (r i).toNat)) mask
      exec (.vaddI ⟨t, false⟩ f) s = .next (one (fun i => a i + b i)) ∧
      exec (.vsubI ⟨t, false⟩ f) s = .next (one (fun i => a i - b i)) ∧
      exec (.vand ⟨t, false⟩ f) s = .next (one (fun i => a i &&& b i)) ∧
      exec (.vor ⟨t, false⟩ f) s = .next (one (fun i => a i ||| b i)) ∧
      exec (.vxor ⟨t, false⟩ f) s = .next (one (fun i => a i ^^^ b i)) ∧
      exec (.vshl ⟨t, false⟩ f) s = .next (one (fun i => a i <<< ((b i).toNat % 32))) ∧
      exec (.vshr ⟨t, false⟩ f) s = .next (one (fun i => a i >>> ((b i).toNat % 32))) ∧
      exec (.vsra ⟨t, false⟩ f) s = .next (one (fun i => (a i).sshiftRight ((b i).toNat % 32))) ∧
      exec (.vmulI ⟨t, false⟩ f) s =
        .next (s.ranLater t 3 (.v d (vecOf (fun i => (a i * b i).toNat)) mask)) ∧
      exec (.vsel ⟨t, false⟩ f) s = .next (s.ran t (fun y =>
        y.setV d ((y.vreg f.vb.toNat &&& ~~~mask) ||| (y.vreg f.va.toNat &&& mask)))) ∧
      exec (.vperm ⟨t, false⟩ f) s =
        .next (s.ranLater t 3 (.v d (vecOf (fun i => (a ((b i).toNat % 64)).toNat)) mask))) ∧
    (∀ f : FmtVP, f.rsv = 0 → f.rsv2 = 0 →
      let x := s.tile t
      let on (i : Nat) : Bool := (x.preg f.pred.toNat).getLsbD i
      let a (i : Nat) : W32 := (x.vreg f.va.toNat).extractLsb' (32 * i) 32
      let b (i : Nat) : W32 := (x.vreg f.vb.toNat).extractLsb' (32 * i) 32
      let gives (r : Nat → Bool) : Prop := exec (.vcmpI ⟨t, false⟩ f) s =
        .next (s.ranLater t 2 (.p f.pd.toNat (ofBits ((List.range 64).map (fun i => on i && r i)))))
      (f.cond = 0 → gives (fun i => a i = b i)) ∧
      (f.cond = 1 → gives (fun i => a i ≠ b i)) ∧
      (f.cond = 2 → gives (fun i => (a i).toInt < (b i).toInt)) ∧
      (f.cond = 3 → gives (fun i => (a i).toInt ≤ (b i).toInt)) ∧
      (f.cond = 5 → gives (fun i => (a i).toNat < (b i).toNat)))

/-- VBCAST, VEXT, VLD and VST on a quiet tile (R152, R158): a broadcast and a line load reach the enabled lanes, one
lane is extracted zero-extended, a store names the bytes of the enabled lanes and leaves the others.
VRED.F on a quiet tile (R159, R161): six levels with d = 32, 16, 8, 4, 2, 1, masked lanes entering as +0, every
addition rounded under RM with the draws by level and then by ascending destination lane; the sum lands in lane 0
after 24 ACLK, the other lanes as +0. -/
def Obligations.VectorMovesAndReduction : Prop :=
  (∀ (s : State) (t : Nat), s.quiet t = true →
    (∀ f : FmtVS, f.rsv = 0 → f.rsv2 = 0 →
      let x := s.tile t
      (f.lane = 0 → exec (.vbcast ⟨t, false⟩ f) s = .next (s.ranLater t 2 (.v f.v.toNat
        (vecOf (fun _ => (x.sreg f.rs.toNat).toNat % 2 ^ 32)) (laneMask (x.preg f.pred.toNat))))) ∧
      (f.pred = 0 → exec (.vext ⟨t, false⟩ f) s = .next (s.ranLater t 2 (.s f.rs.toNat
        (((x.vreg f.v.toNat).extractLsb' (32 * f.lane.toNat) 32).setWidth 64))))) ∧
    (∀ f : FmtVM,
      let x := s.tile t
      let a := (x.sreg f.rs.toNat + ((f.off.signExtend 64 : W64) <<< 8)).toNat
      a + 256 ≤ 0x800000 → a % 256 = 0 → x.aclk / 2 % 8 ≠ 7 →
      (s.settled t a 256 = true → exec (.vld ⟨t, false⟩ f) s = .next (s.ran t (fun y =>
        { y.result 6 (.v f.v.toNat (BitVec.ofNat 2048 (s.sramWord t a 256)) (laneMask (x.preg f.pred.toNat))) with
          rp1 := x.portUse a })).freshen) ∧
      exec (.vst ⟨t, false⟩ f) s = .next (s.ran t (fun y =>
        { y.result 2 (.mem (sramAt t a) ((vecBytes (x.vreg f.v.toNat)).zipIdx.map (fun p =>
            if (x.preg f.pred.toNat).getLsbD (p.2 / 4) then some p.1 else none))) with
          wp := x.portUse a })))) ∧
  (∀ (s : State) (t : Nat) (f : FmtVR), s.quiet t = true → f.rm.toNat ≤ 4 →
    let x := s.tile t
    let rm := f.rm.toNat
    let dr (i : Nat) := s.drawOf t rm i
    let v (i : Nat) : Nat := if (x.preg f.pred.toNat).getLsbD i then lane (x.vreg f.va.toNat) i else 0
    let l1 (i : Nat) := f32Add rm (dr i) (v i) (v (i + 32))
    let l2 (i : Nat) := f32Add rm (dr (32 + i)) (l1 i).1 (l1 (i + 16)).1
    let l3 (i : Nat) := f32Add rm (dr (48 + i)) (l2 i).1 (l2 (i + 8)).1
    let l4 (i : Nat) := f32Add rm (dr (56 + i)) (l3 i).1 (l3 (i + 4)).1
    let l5 (i : Nat) := f32Add rm (dr (60 + i)) (l4 i).1 (l4 (i + 2)).1
    let l6 := f32Add rm (dr 62) (l5 0).1 (l5 1).1
    let or (n : Nat) (l : Nat → Nat × Flags5) : Flags5 := (List.range n).foldl (fun a i => a ||| (l i).2) 0
    let fl := or 32 l1 ||| or 16 l2 ||| or 8 l3 ||| or 4 l4 ||| or 2 l5 ||| l6.2
    exec (.vredF ⟨t, false⟩ f) s = .next ((s.ranFlags t 24 f.vd.toNat (BitVec.ofNat 2048 (l6.1 % 2 ^ 32))
      (BitVec.allOnes 2048) fl).tookSre t f.rm 63))

/-- VCVT, VQNT and VDQ on a quiet tile (R160, R161, R121, R142): element i of the source is converted under predicate
bit i; VQNT writes two blocks of 32 lanes and the whole register; VDQ decodes exactly. -/
def Obligations.VectorConversions : Prop :=
  ∀ (s : State) (t : Nat) (f : FmtVC), s.quiet t = true → f.rsv = 0 →
    let x := s.tile t
    let rm := f.rm.toNat
    let p := x.preg f.pred.toNat
    let a := (x.vreg f.va.toNat).toNat
    let dr (i : Nat) := s.drawOf t rm i
    (∀ sf df, eltCode f.sfmt.toNat = some sf → eltCode f.dfmt.toNat = some df → rm ≤ 4 →
      let r (i : Nat) : Nat × Flags5 := if p.getLsbD i then
        roundTo df rm (dr i) f.sat (eltDecode sf (elem (eltBits sf) a i)) else (0, 0)
      exec (.vcvt ⟨t, false⟩ f) s = .next ((s.ranFlags t 3 f.vd.toNat
        (BitVec.ofNat 2048 (packE (eltBits df) ((List.range 64).map (fun i => (r i).1)))) (eltMask (eltBits df) p)
        ((List.range 64).foldl (fun q i => q ||| (r i).2) 0)).tookSre t f.rm 64)) ∧
    (f.sfmt = 0 → 9 ≤ f.dfmt.toNat → rm ≤ 4 →
      let el (i : Nat) : XVal × Nat := if p.getLsbD i then (f32 (lane (x.vreg f.va.toNat) i), dr i) else (.fin false 0 0, 0)
      let b0 := quantBlock f.dfmt.toNat rm ((List.range 32).map el)
      let b1 := quantBlock f.dfmt.toNat rm ((List.range 32).map (fun i => el (32 + i)))
      exec (.vqnt ⟨t, false⟩ f) s = .next ((s.ranFlags t 8 f.vd.toNat (packBlocks f.dfmt.toNat b0 b1)
        (BitVec.allOnes 2048) (b0.2.2.2 ||| b1.2.2.2)).tookSre t f.rm 64)) ∧
    (f.dfmt = 0 → 9 ≤ f.sfmt.toNat → f.rm = 0 → f.sat = false →
      let r (i : Nat) : Nat × Flags5 := if p.getLsbD i then roundTo .fp32 0 0 false (unpackBlock f.sfmt.toNat a i) else (0, 0)
      exec (.vdq ⟨t, false⟩ f) s = .next (s.ranFlags t 4 f.vd.toNat (vecOf (fun i => (r i).1)) (laneMask p)
        ((List.range 64).foldl (fun q i => q ||| (r i).2) 0)))


/-! ## Tile: matrix slot -/

/-- MMA and MMAV on a quiet tile (R163, R164): the matrix unit is busy for ceil(K / r) + 8 ACLK and its operand lines
are yet to be fetched; on operands with nothing unsettled, unless a store reaches them or a result the registers
before, the products of the operands as they stood land when it ends, added to every long accumulator; K = 0 adds
nothing and is busy for 8. -/
def Obligations.MatrixMultiplyAccumulate : Prop :=
  ∀ (s : State) (t : Nat), s.quiet t = true →
    (∀ f : FmtMM,
      let x := s.tile t
      let fa := f.fa.toNat
      let fb := f.fb.toNat
      let k := (x.sreg f.sK.toNat).toNat
      let a := (x.sreg f.sA.toNat).toNat
      let b := (x.sreg f.sB.toNat).toNat
      let sa := if matMx fa then (x.sreg (f.sA.toNat + 1)).toNat else 0
      let sb := if matMx fb then (x.sreg (f.sB.toNat + 1)).toNat else 0
      a % 32 = 0 → b % 32 = 0 → (matMx fa = true → sa % 64 = 0 ∧ f.sA.toNat ≤ 62) →
      (matMx fb = true → sb % 64 = 0 ∧ f.sB.toNat ≤ 62) →
      (k = 0 → exec (.mma ⟨t, false⟩ f) s =
        .next (s.ran t (fun y => y.busyMma 0 (lines2 a 0 sa 0) (lines2 b 0 sb 0)))) ∧
      (0 < k → (matBlock fa = true ∨ matBlock fb = true → k % 32 = 0) →
        a + matLen fa k ≤ 0x800000 → b + matLen fb k ≤ 0x800000 → sa + matScaleLen fa k ≤ 0x800000 →
        sb + matScaleLen fb k ≤ 0x800000 →
        s.settled t a (matLen fa k) = true → s.settled t b (matLen fb k) = true →
        s.settled t sa (matScaleLen fa k) = true → s.settled t sb (matScaleLen fb k) = true →
        let c := matCycles fa fb k
        let land : Land := .mma fa fb a sa b sb k (s.sram t a (matLen fa k)) (s.sram t sa (matScaleLen fa k))
          (s.sram t b (matLen fb k)) (s.sram t sb (matScaleLen fb k))
        let n0 := lines2 a (matLen fa k) sa (matScaleLen fa k)
        let n1 := lines2 b (matLen fb k) sb (matScaleLen fb k)
        let u := (s.ran t (fun y => { y.busyMma c n0 n1 with
          flight := [{ due := y.aclk + c + 8, land := land }] })).freshen.freshen.freshen.freshen
        exec (.mma ⟨t, false⟩ f) s = .next u ∧
        ∀ i j, i < 64 → j < 64 → ((u.landUpTo t (x.aclk + c + 8)).tile t).lacc (i * 64 + j) =
          macAcc (x.lacc (i * 64 + j))
            (matValue fa (leNat (s.sram t a (matLen fa k))) (leNat (s.sram t sa (matScaleLen fa k))) i)
            (matValue fb (leNat (s.sram t b (matLen fb k))) (leNat (s.sram t sb (matScaleLen fb k))) j) k)) ∧
    (∀ f : FmtMV,
      let x := s.tile t
      let fa := f.fa.toNat
      let fb := f.fb.toNat
      let nv := if f.nv = 0 then 32 else f.nv.toNat
      let w := eltBits (matElt fa)
      let k := nv * 2048 / (64 * w)
      let b := (x.sreg f.sB.toNat).toNat
      let av := packE 2048 ((List.range nv).map (fun i => (x.vreg (f.va.toNat + i)).toNat))
      f.rsv = 0 → fa < 9 → fb < 9 → f.va.toNat + nv ≤ 32 → b % 32 = 0 → b + matLen fb k ≤ 0x800000 →
      s.settled t b (matLen fb k) = true →
      let c := matCycles fa fb k
      let land : Land := .mmav fa fb f.va.toNat nv ((List.range nv).map (fun i => x.vreg (f.va.toNat + i))) none b k
        (s.sram t b (matLen fb k))
      let n1 := linesMet b (matLen fb k)
      let u := (s.ran t (fun y => { y.busyMma c 0 n1 with flight :=
        [{ due := y.aclk + c + 8, land := .mmavCut f.va.toNat nv }, { due := y.aclk + c + 8, land := land }] })).freshen
      exec (.mmav ⟨t, false⟩ f) s = .next u ∧
      ∀ i j, i < 64 → j < 64 → ((u.landUpTo t (x.aclk + c + 8)).tile t).lacc (i * 64 + j) =
        macAcc (x.lacc (i * 64 + j))
          (fun q => eltDecode (matElt fa) (elem w (elem (64 * w) av q) i))
          (matValue fb (leNat (s.sram t b (matLen fb k))) 0 j) k)

/-- MADD, MCLR, MRD and MLAD on a quiet tile (R137, R138, R161, R164): a bank is added exactly to the long
accumulators, they are cleared, they are rounded once into a bank (with their clear if CLR is set), or a long-form
array is added; busy 32, 4, 32 and 1,296 ACLK.
While the running value stays in the finite range an accumulator holds the exact sum of its truncated terms
(R130, R134, R136): products of finite operands, each as a multiple of 2^-170, over any K. -/
def Obligations.LongAccumulatorsAreExact : Prop :=
  (∀ (s : State) (t : Nat), s.quiet t = true →
    (∀ f : FmtMA, f.rs = 0 → f.rsv = 0 →
      let x := s.tile t
      (∃ acc : SMap LAcc, exec (.madd ⟨t, false⟩ f) s = .next (s.ran t (fun y => { y.busyFor 32 with acc := acc })) ∧
        ∀ i j, i < 64 → j < 64 → mget {} acc (i * 64 + j) =
          laddX (x.lacc (i * 64 + j)) (f32 (x.bank f.bank.toNat i j).toNat)) ∧
      (f.bank = 0 → exec (.mclr ⟨t, false⟩ f) s = .next (s.ran t (fun y => { y.busyFor 4 with acc := [] })))) ∧
    (∀ f : FmtMR, f.rsv = 0 → f.rm.toNat ≤ 4 → ∀ el, mrdCode f.fmt.toNat = some el →
      let x := s.tile t
      let q (e : Nat) : Nat × Flags5 := roundTo el f.rm.toNat (s.drawOf t f.rm.toNat e) f.sat (lread (x.lacc e))
      let fl (e : Nat) : Flags5 := if (x.lacc e).sp = .nan then (q e).2 ||| fNV else (q e).2
      ∃ banks : SMap W32, exec (.mrd ⟨t, false⟩ f) s = .next ((s.ran t (fun y => { y.busyFor 32 with
          banks := banks, acc := if f.clr then [] else y.acc
          nstat := y.nstat ||| (List.range 4096).foldl (fun a e => a ||| fl e) 0 })).tookSre t f.rm 4096) ∧
        (∀ e, e < 4096 → mget 0 banks (f.bank.toNat * 4096 + e) = BitVec.ofNat 32 (q e).1) ∧
        (∀ j, (∀ e, e < 4096 → j ≠ f.bank.toNat * 4096 + e) → mget 0 banks j = mget 0 x.banks j)) ∧
    (∀ f : FmtMA, f.bank = 0 → f.rsv = 0 →
      let x := s.tile t
      let a := (x.sreg f.rs.toNat).toNat
      a + 163840 ≤ 0x800000 → a % 256 = 0 → s.settled t a 163840 = true →
      ∃ acc : SMap LAcc, exec (.mlad ⟨t, false⟩ f) s = .next (s.ran t (fun y => { y.busyFor 1296 with
          acc := acc, own0 := y.aclk + 1296
          nstat := if acc.any (fun c => c.2.sp == .nan) then y.nstat ||| fNV else y.nstat })).freshen ∧
        ∀ e, e < 4096 → mget {} acc e = laddL (x.lacc e) (lparse (readBytes s.mem (sramAt t (a + 40 * e)) 40)))) ∧
  (∀ (l : LAcc) (av bv : Nat → XVal) (k : Nat) (neg : Nat → Bool) (m : Nat → Nat) (e : Nat → Int),
    l.sp = .fin → (∀ i, i < k → (xmul (av i) (bv i)).1 = .fin (neg i) (m i) (e i)) →
    let term (i : Nat) : Int := toTerm (neg i) (m i) (e i)
    (lval l).natAbs + ((List.range k).map (fun i => (term i).natAbs)).sum < 2 ^ 318 →
    (macAcc l av bv k).sp = .fin ∧ lval (macAcc l av bv k) = lval l + ((List.range k).map term).sum)

/-- ALD, AST, MLST, ARDV and AWRV on a quiet tile (R138, R164, R165): word (i, j) of a bank lies at byte
(i × 64 + j) × 4; a bank is loaded, or stored with the write port owned for the busy count, the long form of L is
stored, a bank row is read and written; busy 144, 160, 1,488, 2 and 2 ACLK. -/
def Obligations.AccumulatorBanks : Prop :=
  ∀ (s : State) (t : Nat), s.quiet t = true →
    (∀ f : FmtMA, f.rsv = 0 →
      let x := s.tile t
      let a := (x.sreg f.rs.toNat).toNat
      let b := f.bank.toNat
      a % 256 = 0 →
      (a + 16384 ≤ 0x800000 → s.settled t a 16384 = true →
        ∃ banks : SMap W32, exec (.ald ⟨t, false⟩ f) s = .next (s.ran t (fun y =>
            { y.busyFor 144 with banks := banks, own0 := y.aclk + 144 })).freshen ∧
          (∀ e, e < 4096 → mget 0 banks (b * 4096 + e) = BitVec.ofNat 32 (s.sramWord t (a + 4 * e) 4)) ∧
          (∀ j, (∀ e, e < 4096 → j ≠ b * 4096 + e) → mget 0 banks j = mget 0 x.banks j)) ∧
      (a + 16384 ≤ 0x800000 → 
        let bytes := (List.range 4096).flatMap (fun e => leBytes 4 (x.bank b (e / 64) (e % 64)).toNat)
        let land : Land := .memBusy (sramAt t a) (bytes.map some)
        exec (.ast ⟨t, false⟩ f) s = .next (s.ran t (fun y => { y.busyFor 160 with
          ownW := y.aclk + 160
          flight := [{ due := y.aclk + 162, land := land }] }))) ∧
      (a + 163840 ≤ 0x800000 → f.bank = 0 → 
        let land : Land := .memBusy (sramAt t a) (((List.range 4096).flatMap (fun e => lform (x.lacc e))).map some)
        exec (.mlst ⟨t, false⟩ f) s = .next (s.ran t (fun y => { y.busyFor 1488 with
          ownW := y.aclk + 1488
          flight := [{ due := y.aclk + 1490, land := land }] })))) ∧
    (∀ f : FmtMX, f.rsv = 0 →
      let x := s.tile t
      let b := f.bank.toNat
      let r := f.row.toNat
      let row : Land := .v f.v.toNat (vecOf (fun j => (x.bank b r j).toNat)) (BitVec.allOnes 2048)
      exec (.ardv ⟨t, false⟩ f) s = .next (s.ran t (fun y =>
        { y.busyFor 2 with flight := [{ due := y.aclk + 4, land := row }] })) ∧
      ∃ banks : SMap W32, exec (.awrv ⟨t, false⟩ f) s = .next (s.ran t (fun y => { y.busyFor 2 with banks := banks })) ∧
        (∀ j, j < 64 → mget 0 banks (b * 4096 + r * 64 + j) = (x.vreg f.v.toNat).extractLsb' (32 * j) 32) ∧
        (∀ k, (∀ j, j < 64 → k ≠ b * 4096 + r * 64 + j) → mget 0 banks k = mget 0 x.banks k))


/-! ## Tile: exchange slot, waits and their ends -/

/-- XMSG, XMSGV and XMOV on a quiet tile (R168, R175-R177, R520): a well-formed message to another tile of the
launch group joins the injection queue, its staging due from the next GCLK on, and that of a register counts its
source tally in that GCLK; a local move joins the pending moves, and one of length 0 counts in the next GCLK. -/
def Obligations.MessagesAndMoves : Prop :=
  ∀ (s : State) (t : Nat), s.quiet t = true →
    let x := s.tile t
    let wordOk (w : Nat) : Prop := w / 2 ^ 11 % 32 = 0 ∧ w / 2 ^ 16 % 64 ≤ 47 ∧ w / 2 ^ 22 % 4 = 0 ∧ w / 2 ^ 30 % 2 = 0 ∧
      (w / 2 ^ 31 % 2 = 1 → w / 2 ^ 24 % 64 ≤ 47) ∧ w % 2 ^ 11 ≠ t ∧ s.sameGroup t (w % 2 ^ 11) = true ∧
      (x.mode = true → s.steadyPath t (w % 2 ^ 11) 80 t = true)
    let srct (w : Nat) : Option Nat := if w / 2 ^ 31 % 2 = 1 then some (w / 2 ^ 24 % 64) else none
    let g := x.aclk / 2 + 1
    let counts (k : Nat) : Flight := { due := 2 * g, land := .tally k false none }
    (∀ f : FmtXD, f.rsv = 0 → f.sn.toNat ≤ 60 →
      let src := x.sn f.sn.toNat
      let dst := x.sn (f.sn.toNat + 1)
      let len := x.sn (f.sn.toNat + 2)
      let w := x.sn (f.sn.toNat + 3)
      (wordOk w → 1 ≤ len → len ≤ 65536 → src + len ≤ 0x800000 → dst + len ≤ 0x800000 →
        let m : Msg := { vec := false, src := src, dstTile := w % 2 ^ 11, dst := dst, len := len
                         tally := w / 2 ^ 16 % 64, srct := srct w, old := s.sram t src len, sent := 0, ready := g }
        exec (.xmsg ⟨t, false⟩ f) s = .next (s.ran t (fun y => { y with injq := [m] }))) ∧
      (src % 256 = 0 → dst % 256 = 0 → len % 256 = 0 → src + len ≤ 0x800000 → dst + len ≤ 0x800000 → w % 64 ≤ 47 →
        let m : XMov := { src := src, dst := dst, len := len, tally := w % 64, ready := g }
        exec (.xmov ⟨t, false⟩ f) s = .next (s.ran t (fun y =>
          if len = 0 then { y with flight := [counts (w % 64)] } else { y with xmovs := [m] })))) ∧
    (∀ f : FmtXV, f.rsv = 0 → f.sn.toNat ≤ 62 →
      let dst := x.sn f.sn.toNat
      let w := x.sn (f.sn.toNat + 1)
      wordOk w → dst + 256 ≤ 0x800000 → dst % 256 = 0 →
      let m : Msg := { vec := true, src := 0, dstTile := w % 2 ^ 11, dst := dst, len := 256
                       tally := w / 2 ^ 16 % 64, srct := srct w, old := leBytes 256 (x.vreg f.v.toNat).toNat, sent := 0, ready := g }
      exec (.xmsgv ⟨t, false⟩ f) s = .next (s.ran t (fun y =>
        { y with injq := [m], flight := (srct w).toList.map counts })))

/-- XTSET, XTRD, XWAIT, XSYNC and WAITT on a quiet tile (R157, R168, R169, R181, R189): tallies are set and read;
XWAIT subtracts at once if the tally allows and else waits; XSYNC joins its wave; WAITT waits for a time word, and
one already past lets the next bundle issue at the next alignment period, the ACLK held counting as
external-wait cycles. -/
def Obligations.TalliesAndWaits : Prop :=
  ∀ (s : State) (t : Nat), s.quiet t = true →
    let x := s.tile t
    (∀ f : FmtXT, f.rsv = 0 →
      let k := f.t.toNat
      let n := (x.sreg f.rs.toNat).toNat
      let marked := mget false x.marks k
      exec (.xtset ⟨t, false⟩ f) s = .next (s.ran t (·.setTally k ((x.sreg f.rs.toNat).setWidth 32))) ∧
      exec (.xtrd ⟨t, false⟩ f) s = .next (s.ranLater t 2 (.s f.rs.toNat ((x.tally k).setWidth 64))) ∧
      (n ≤ (x.tally k).toNat → exec (.xwait ⟨t, false⟩ f) s = .next (s.ran t (fun y =>
        { y.setTally k (BitVec.ofNat 32 ((x.tally k).toNat - n)) with marks := merase y.marks k }))) ∧
      ((x.tally k).toNat < n → exec (.xwait ⟨t, false⟩ f) s = .next (s.ran t (fun y =>
        { y with
          waitFor := some (.tally k n (48 ≤ k)), waitExt := 48 ≤ k || marked, waited := 0
          flag := y.flag || 48 ≤ k || marked, soiled := y.soiled || 48 ≤ k || marked })))) ∧
    (∀ f : FmtXS, f.rsv = 0 → f.rsv2 = 0 →
      s.waveMember ((s.tileOwner t).getD 1024) (s.tileGroup t) f.wave.toNat t = true →
      exec (.xsync ⟨t, false⟩ f) s = .next (s.ran t (fun y =>
        { y with waitFor := some (.wave f.wave.toNat), waitExt := false, waited := 0, joinG := x.aclk / 2 + x.lag }))) ∧
    (∀ f : FmtSI, f.rd = 0 → f.imm = 0 →
      let v := x.sreg f.rs1.toNat
      (s.timeWord.toNat < v.toNat → exec (.waitt ⟨t, false⟩ f) s = .next (s.ran t (fun y =>
        { y with waitFor := some (.time v), waitExt := true, waited := 0, flag := true, soiled := true }))) ∧
      (v.toNat ≤ s.timeWord.toNat → ∃ u, exec (.waitt ⟨t, false⟩ f) s = .next u ∧
        let n := (16 - (x.aclk + 1) % 16) % 16
        (u.tile t).waitFor = none ∧ (u.tile t).pc = x.pc + 1 ∧ (u.tile t).aclk = x.aclk + 1 + n ∧
        (u.tile t).aclk % 16 = 0 ∧ (u.tile t).extwait = x.extwait + BitVec.ofNat 64 n ∧
        (u.tile t).cycle = x.cycle + BitVec.ofNat 64 (1 + n) ∧ (u.tile t).s = x.s ∧ u.mem = s.mem ∧ u.regs = s.regs))

/-- XFILL, XSPILL, XMBW, XMBR and XFLD on a quiet tile (R168, R174, R194): a copy request is accepted by the engine
of the tile, 1-8 words are posted to the tile mailbox, an inbound message is taken into eight registers (words
it does not have free, log entry 16) or waited for, a far load begins in Steady mode. -/
def Obligations.CopyRequestsMailboxAndFarLoads : Prop :=
  ∀ (s : State) (t : Nat), s.quiet t = true →
    let x := s.tile t
    (∀ (f : FmtXD) (spill : Bool), f.rsv = 0 → f.sn.toNat ≤ 60 →
      let a := x.sn (f.sn.toNat + 1)
      let len := x.sn (f.sn.toNat + 2)
      let w := x.sn (f.sn.toNat + 3)
      let im : Bool := w / 2 ^ 8 % 2 = 1
      len % 256 = 0 → len ≤ 0x800000 → 48 ≤ w % 64 → (im = true → spill = false ∧ a % 16 = 0 ∧ (len = 0 ∨ a + len ≤ 0x40000)) →
      (im = false → len = 0 ∨ a + len ≤ 0x800000) →
      ∃ j : CopyJob, exec (if spill then .xspill ⟨t, false⟩ f else .xfill ⟨t, false⟩ f) s =
          .next (State.freshen { s.ran t (fun y => { y with copies := y.copies + 1 }) with jobs := s.jobs ++ [j] }) ∧
        j.from_ = .tile t ∧ j.spill = spill ∧ j.part = (s.tileOwner t).getD 0 ∧ j.lva = x.sn f.sn.toNat ∧ j.tva = a ∧
        j.im = im ∧ j.len = len ∧ j.tally = some (w % 64) ∧ j.moved = 0 ∧ j.parked = false ∧
        j.eng = tileDie t / 2 * 16 + (if spill then 8 else 0) + t % 8) ∧
    (∀ f : FmtXB, f.rsv = 0 →
      let n := f.sn.toNat
      let c := f.cnt.toNat
      let o := s.mb (.tile t) true
      let i := s.mb (.tile t) false
      (1 ≤ c → c ≤ 8 → n + c ≤ 64 → exec (.xmbw ⟨t, false⟩ f) s = .next ((s.ran t id).setMb (.tile t) true
        { o with
          words := (List.range c).map (fun i => x.sreg (n + i)), len := c, full := true
          collision := o.collision || o.full, src := false, acked := false })) ∧
      (c = 0 → n + 8 ≤ 64 → i.full = true → i.pend = [] → exec (.xmbr ⟨t, false⟩ f) s =
        .next (State.freshen ((s.ran t (fun y => (List.range 8).foldl (fun y k =>
          y.setS (n + k) (s.msgWord i.words k)) y)).setMb (.tile t) false { i with full := false }))) ∧
      (c = 0 → n + 8 ≤ 64 → i.full = false → exec (.xmbr ⟨t, false⟩ f) s = .next (s.ran t (fun y =>
        { y with waitFor := some (.mbox n), waitExt := true, waited := 0, flag := true, soiled := true })))) ∧
    (∀ f : FmtXV, f.rsv = 0 → x.mode = true → x.sn f.sn.toNat % 256 = 0 →
      exec (.xfld ⟨t, false⟩ f) s = .next (s.ran t (fun y =>
        { y with far := [(f.v.toNat, x.sn f.sn.toNat, (s.part ((s.tileOwner t).getD 0)).epoch)] })))

/-- The ends of a tile's waits: TALLY_WAIT_RELEASE, WAITT_RELEASE, END_DONE, WAVE_COMPLETE, XMOV_DONE, DRAIN_DONE,
HOLD_RELEASE (R156, R157, R169, R181, R188-R190, R197, R520). The wait is over and the tile's next bundle is the same
as before: a tally's operand is subtracted and the next bundle issues in the ACLK after the first one of the GCLK, a
wave's members issue in the first ACLK of the GCLK 64 after that of the last join, a held tile goes on at the slot index
of the hold; a moved line is written in the GCLK after its reading and its tally counts in the next. -/
def Obligations.EndsOfWaits : Prop :=
  ∀ (s : State) (t : Nat),
    let x := s.tile t
    (∀ k n e, x.waitFor = some (.tally k n e) → s.tileEdges t = true → x.still = true → n ≤ (x.tally k).toNat →
      let ext : Bool := 48 ≤ k || mget false x.marks k
      let m := if x.aclk % 2 = 0 then 1 else 2
      ∃ u, exec (.tallyWaitRelease t) s = .next u ∧ (u.tile t).waitFor = none ∧ (u.tile t).pc = x.pc ∧
        (u.tile t).run = x.run ∧ ((u.tile t).tally k).toNat = (x.tally k).toNat - n ∧
        (∀ j, j ≠ k → (u.tile t).tally j = x.tally j) ∧ (u.tile t).aclk = x.aclk + m ∧
        (u.tile t).cycle = x.cycle + BitVec.ofNat 64 m ∧ mget false (u.tile t).marks k = false ∧
        (u.tile t).extwait = (if ext then x.extwait + BitVec.ofNat 64 m else x.extwait) ∧ u.mem = s.mem ∧ u.regs = s.regs) ∧
    (∀ k n d, x.waitFor = some (.tally k n false) → s.tileEdges t = true → x.engIdle = true → (x.tally k).toNat + 1 = n →
      n < 2 ^ 32 → x.aclk ≤ d → x.flight = [{ due := d, land := .tally k false none }] →
      ∃ u, exec (.tallyWaitRelease t) s = .next u ∧ (u.tile t).waitFor = none ∧ (u.tile t).pc = x.pc ∧
        (u.tile t).flight = [] ∧ (u.tile t).tally k = 0 ∧ (u.tile t).aclk = d + 1 ∧ u.mem = s.mem) ∧
    (∀ v, x.waitFor = some (.time v) → v.toNat ≤ s.timeWord.toNat → s.tileEdges t = true → x.still = true →
      ∃ u, exec (.waittRelease t) s = .next u ∧ (u.tile t).waitFor = none ∧ (u.tile t).pc = x.pc ∧
        (u.tile t).aclk % 16 = 0 ∧ x.aclk ≤ (u.tile t).aclk ∧ (u.tile t).aclk < x.aclk + 16 ∧ u.regs = s.regs) ∧
    (x.waitFor = some .endDrain → x.drained = true → x.holdReq = false → s.tileEdges t = true →
      ∃ u, exec (.endDone t) s = .next u ∧ (u.tile t).run = .done ∧ (u.tile t).waitFor = none ∧
        (u.tile t).pc = x.pc ∧ (u.reg bTILE t oEVENTS).getLsbD 0 = true) ∧
    (x.waitFor = some .stepDrain → x.drained = true → x.holdReq = false →
      ∃ u, exec (.drainDone t) s = .next u ∧ (u.tile t).run = .stopped ∧ (u.tile t).waitFor = none ∧
        (u.tile t).stopReq = false ∧ u.reg bTILE t 0x060 = BitVec.ofNat 32 (x.pc % 16384) ∧
        (u.reg bTILE t oEVENTS).getLsbD 1 = true) ∧
    (x.waitFor = some .phase → s.tileEdges t = true → x.flight = [] →
      let now := (s.group (s.tileGroup t)).gclk
      (now % 256 = x.slotHold % 256 →
        exec (.holdRelease t) s = .next (s.setTile t { x with waitFor := none, lag := x.lag + (now - x.slotHold) })) ∧
      (now % 256 ≠ x.slotHold % 256 → exec (.holdRelease t) s = .next s)) ∧
    (∀ m : XMov, tileOk t = true → s.tileEdges t = true → x.only [] [] [m] = true → m.len = 256 → m.read = 0 → m.buf = [] →
      m.ready ≤ x.eng → x.eng % 8 < 6 → x.rp1 = [] → x.wp = [] → x.run = .stopping → x.waitFor = some .stepDrain →
      s.sound t m.src 256 = true →
      ∃ u, exec (.xmovDone t) s = .next u ∧ (u.tile t).xmovs = [] ∧ (u.tile t).pc = x.pc ∧ (u.tile t).waitFor = x.waitFor ∧
        (u.tile t).flight = [{ due := 2 * (x.eng + 2), land := .tally m.tally false none }] ∧
        readBytes u.mem (sramAt t m.dst) 256 = s.sram t m.src 256 ∧
        ∀ a, a < sramAt t m.dst ∨ sramAt t m.dst + 256 ≤ a → mget 0 u.mem a = mget 0 s.mem a) ∧
    (∀ p w g,
      let joined (k : Nat) : Prop := k < 1440 ∧ s.waveMember p g w k = true ∧ (s.tile k).waitFor = some (.wave w)
      (∃ k, joined k) →
      (∀ k, k < 1440 → s.waveMember p g w k = true → (s.tile k).waitFor = some (.wave w) ∨ (s.tile k).run = .done) →
      (∀ k, joined k → s.tileEdges k = true ∧ (s.tile k).still = true) →
      ∃ u, exec (.waveComplete p w g) s = .next u ∧
        (∀ k, joined k → (u.tile k).waitFor = none ∧ (u.tile k).pc = (s.tile k).pc ∧ (u.tile k).soiled = false ∧
          ∀ last, joined last → (∀ j, joined j → (s.tile j).joinG ≤ (s.tile last).joinG) →
            (u.tile k).aclk = max (s.tile k).aclk (2 * ((s.tile last).joinG + 64 - (s.tile k).lag))) ∧
        (∀ k, s.waveMember p g w k = false → u.tile k = s.tile k) ∧ u.mem = s.mem ∧
        u.cnt bGRID 0 0xC08 = s.cntUp bGRID 0 0xC08 1)


/-- A slot given as a word of its bundle issues as the instruction that word is in its slot's table (R143, R144).
A trapping bundle issues none of its slots: the tile moves to trapped with the cause and the bundle index in
TILE_TRAP, its registers and all memory stay, EVENTS.TRAP is set (R144, R149, R154, R155, R168, R171, R172; the event
is not routed to a partition here).
The slots of a bundle read their sources when the bundle issues and take effect together (R145, R146); two slots
with one destination register trap with cause 0x02 before any takes effect (R147): ADD in S with VBCAST, or XTRD,
behind it. -/
def Obligations.TrapsAndSources : Prop :=
  (∀ (s : State) (t : Nat) (sl : Slot) (w : W32) (i : Instr), s.quiet t = true → decodeSlot ⟨t, false⟩ sl w = some i →
    exec (.nop ⟨t, false⟩ sl w) s = exec i s) ∧
  (∀ (s : State) (t : Nat), s.quiet t = true → (s.tile t).holdReq = false → s.fld bTILE t oEVENT_ROUTE 0 2 < 2 →
    let x := s.tile t
    let traps (i : Instr) (c : Nat) : Prop := ∃ u, exec i s = .next u ∧ (u.tile t).run = .trapped ∧
      u.reg bTILE t 0x05C = BitVec.ofNat 32 (c + x.pc * 256) ∧ (u.reg bTILE t oEVENTS).getLsbD 2 = true ∧
      (u.tile t).pc = x.pc ∧ (u.tile t).s = x.s ∧ (u.tile t).v = x.v ∧ (u.tile t).p = x.p ∧
      (u.tile t).banks = x.banks ∧ (u.tile t).acc = x.acc ∧ u.mem = s.mem ∧ ∀ k, k ≠ t → u.tile k = s.tile k
    (∀ f : FmtSU, f.rd = 0 → f.imm.toNat < 16 → traps (.trap ⟨t, false⟩ f) (0x30 + f.imm.toNat)) ∧
    (∀ (sl : Slot) (w : W32), w ≠ 0 → decodeSlot ⟨t, false⟩ sl w = none → traps (.nop ⟨t, false⟩ sl w)
      (if w.toNat / 2 ^ 26 = 0 then 0x03 else if sl = .S ∧ w.toNat / 2 ^ 26 = 1 then 0x05 else 0x01)) ∧
    (∀ f : FmtVR, f.vc = 0 → 5 ≤ f.rm.toNat → traps (.vaddF ⟨t, false⟩ f) 0x04) ∧
    (∀ f : FmtVR, f.rm ≠ 0 → traps (.vfn ⟨t, false⟩ f) 0x03) ∧
    (∀ f : FmtSP, f.rsv ≠ 0 → traps (.plog ⟨t, false⟩ f) 0x03) ∧
    (∀ f : FmtSI,
      let a := (x.sreg f.rs1.toNat + f.imm.signExtend 64).toNat
      (0x800000 < a + 8 → traps (.ld ⟨t, false⟩ f) 0x06) ∧
      (a + 8 ≤ 0x800000 → a % 8 ≠ 0 → traps (.ld ⟨t, false⟩ f) 0x07)) ∧
    (∀ f : FmtSU,
      let g : Int := (x.pc : Int) + f.imm.toInt
      g < 0 ∨ 16383 < g → traps (.jal ⟨t, false⟩ f) 0x08) ∧
    (∀ f : FmtSL, f.rsv = 0 → f.len = 0 → traps (.loop ⟨t, false⟩ f) 0x09) ∧
    (∀ f : FmtSC, f.rsv = 0 → 1 ≤ f.cr.toNat → f.cr.toNat ≤ 9 → traps (.csrw ⟨t, false⟩ f) 0x10) ∧
    (∀ f : FmtSC, f.rsv = 0 → 0x14 ≤ f.cr.toNat → traps (.csrr ⟨t, false⟩ f) 0x05) ∧
    (∀ f : FmtMV, f.rsv = 0 → 9 ≤ f.fa.toNat → 9 ≤ f.fb.toNat → traps (.mmav ⟨t, false⟩ f) 0x0C) ∧
    (∀ f : FmtXB, f.rsv = 0 → f.cnt = 0 → 56 < f.sn.toNat → traps (.xmbr ⟨t, false⟩ f) 0x0D) ∧
    (∀ f : FmtXD, f.rsv = 0 → f.sn.toNat ≤ 60 → x.sn f.sn.toNat + x.sn (f.sn.toNat + 2) ≤ 0x800000 →
      x.sn (f.sn.toNat + 1) + x.sn (f.sn.toNat + 2) ≤ 0x800000 →
      x.sn (f.sn.toNat + 3) = t → traps (.xmsg ⟨t, false⟩ f) 0x0E) ∧
    (∀ f : FmtXV, f.rsv = 0 → x.mode = false → x.sn f.sn.toNat % 256 = 0 → traps (.xfld ⟨t, false⟩ f) 0x11) ∧
    (∀ f : FmtXS, f.rsv = 0 → f.rsv2 = 0 →
      s.waveMember ((s.tileOwner t).getD 1024) (s.tileGroup t) f.wave.toNat t = false → traps (.xsync ⟨t, false⟩ f) 0x14)) ∧
  (∀ (s : State) (t : Nat) (f : FmtSR), s.quiet t = true →
    let x := s.tile t
    let v := s.setTile t { x with slots := [.add ⟨t, true⟩ f] }
    exec (.add ⟨t, true⟩ f) s = .next v ∧
    (∀ g : FmtVS, g.lane = 0 → g.rsv = 0 → g.rsv2 = 0 →
      let old := (x.sreg g.rs.toNat).toNat % 2 ^ 32
      exec (.vbcast ⟨t, false⟩ g) v = .next (s.ran t (fun y =>
        { y.setS f.rd.toNat (x.sreg f.rs1.toNat + x.sreg f.rs2.toNat) with
          flight := [{ due := y.aclk + 2, land := .v g.v.toNat (vecOf (fun _ => old)) (laneMask (x.preg g.pred.toNat)) }] }))) ∧
    (∀ g : FmtXT, g.rsv = 0 → g.rs = f.rd → f.rd ≠ 0 → x.holdReq = false →
      ∃ u, exec (.xtrd ⟨t, false⟩ g) v = .next u ∧ (u.tile t).run = .trapped ∧ (u.tile t).s = x.s ∧
        u.reg bTILE t 0x05C = BitVec.ofNat 32 (0x02 + x.pc * 256)))


/-! ## The grid -/

/-- MESSAGE_INJECT (R175, R176, R185, R186, R188, R192): the next beat of the head message leaves once its lines are
staged, in Exact mode by the owned output whose slot table has local injection in the present GCLK, in Steady mode by
the grant of its output; it carries up to 64 bytes and the tile's external flag; the message's last beat ends its place
in the injection queue. The link and slot index that the command names are where the beat is seen to leave. -/
def Obligations.MessageInjection : Prop :=
  ∀ (s : State) (t idx h r : Nat) (out d e : Dir) (m : Msg),
    let x := s.tile t
    let last := decide (m.len ≤ 64 * (m.sent + 1))
    tileOk t = true → s.tileEdges t = true → x.injq = [m] → m.beatFrom = some r → x.waitFor ≠ some .inject →
    steadyHop t m.dstTile = some e → neighbour t d = some h → (s.tile h).run ≠ .unavailable →
    (s.tile m.dstTile).landing = [] → m.dstTile ≠ t →
    let beat (g : Nat) : Beat := { src := t, id := x.msgId, dstTile := m.dstTile, dst := m.dst, len := m.len, tally := m.tally
                                   j := m.sent, bytes := m.beatBytes, mark := x.flag, gclk := g + x.lag + hopLatency t d
                                   at_ := h, input := opposite d }
    let sent (u : State) (g n : Nat) : Prop := u.beats = s.beats ++ [beat g] ∧ u.mem = s.mem ∧ (∀ k, k ≠ t → u.tile k = s.tile k) ∧
      u.tile t = (if last then { x with injq := [], msgId := x.msgId + 1, outMsgs := x.outMsgs + 1, eng := n }
        else { x with injq := [m.after g x.flag], eng := n }) ∧
      u.cnt bGRID 0 0xC18 = (if last && (m.mark || x.flag) then s.cntUp bGRID 0 0xC18 1 else s.cnt bGRID 0 0xC18)
    ((s.link t e).steady = false → x.only [m] [] [] = true → r ≤ x.eng → (m.vec = true ∨ m.next = m.lineCount) →
      x.mayRun x.eng = true → s.injectOut t x.eng = some d →
      ∃ u, exec (.messageInject t out idx) s = .next u ∧ sent u x.eng (x.eng + 1)) ∧
    (∀ g, (s.link t e).steady = true → s.ownsLink t t e = true → d = e → s.routerGrant t e = some (4, g) → x.lag ≤ g →
      ∃ u, exec (.messageInject t out idx) s = .next u ∧ sent u (g - x.lag) x.eng ∧
        u.link t e = { s.link t e with ptr := 0, free := g + 1 } ∧
        u.cnt bGRID 0 0xC10 = s.cntUp bGRID 0 0xC10 (g - (r + x.lag)))

/-- BEAT_FORWARD in Exact mode (R178, R179, R186, R197, R108): the first beat at a tile's input enters its destination's
landing buffer, is discarded and counted with its message where the buffer is full or no output's slot table takes that
input in its GCLK, leaves by the one that does, waits and is marked at a held tile, and ends at an idle destination.
MESSAGE_LAND (R178, R181): a complete line of a landing message is written at its destination and nothing else of memory
changes; with its last line the message has landed and its destination tally counts in the next GCLK. -/
def Obligations.BeatForwardingAndLanding : Prop :=
  (∀ (s : State) (t : Nat) (input : Dir) (b : Beat),
    let x := s.tile t
    s.beats.find? (fun c => c.at_ == t && c.input == input) = some b →
    s.landingOf b = none → s.tileEdges t = true → b.heldAt = none →
    (∀ u, neighbour t input = some u → (s.link u (opposite input)).steady = false) →
    let takes (d : Dir) : Prop := s.ownsLink b.src t d = true ∧ mget 0 (s.link t d).table (b.gclk % 256) = inputCode input
    let gone (w : State) : Prop := w.beats = s.beats.erase b ∧ w.mem = s.mem
    (b.dstTile = t → x.heldRouter = false → x.run ≠ .idle → x.run ≠ .unavailable → b.gclk - x.lag ≤ x.eng →
      (x.bufLines < 16 → ∃ w, exec (.beatForward t input 0) s = .next w ∧ gone w ∧
        ∃ l, l ∈ (w.tile t).landing ∧ l.src = b.src ∧ l.id = b.id ∧ l.beats = [b.j] ∧
          ∀ i, i < b.bytes.length → ∃ n, n ∈ l.lines ∧ (b.dst + 64 * b.j + i, b.bytes.getD i 0) ∈ n.cells) ∧
      (16 ≤ x.bufLines → x.nextLine (b.gclk - x.lag) = none → ∃ w, exec (.beatForward t input 0) s = .next w ∧ gone w ∧
        w.cnt bGRID 0 0xC00 = s.cntUp bGRID 0 0xC00 1)) ∧
    (b.dstTile = t → x.run = .idle → x.waitFor = none → ∃ w, exec (.beatForward t input 0) s = .next w ∧ gone w ∧
      w.cnt bTILE t 0xC30 = s.cntUp bTILE t 0xC30 1 ∧ w.cnt bGRID 0 0xC00 = s.cnt bGRID 0 0xC00) ∧
    (∀ d u, b.dstTile ≠ t → x.heldRouter = false → x.run ≠ .unavailable → takes d → (∀ e, takes e → e = d) →
      neighbour t d = some u → (s.tile u).run ≠ .unavailable →
      exec (.beatForward t input 0) s = .next { s with
        beats := s.beats.erase b ++ [{ b with at_ := u, input := opposite d, gclk := b.gclk + hopLatency t d }] }) ∧
    (b.dstTile ≠ t → x.heldRouter = false → x.run ≠ .unavailable → (∀ e, ¬ takes e) →
      ∃ w, exec (.beatForward t input 0) s = .next w ∧ gone w ∧ w.cnt bGRID 0 0xC00 = s.cntUp bGRID 0 0xC00 1) ∧
    (x.heldRouter = true → ∃ w, exec (.beatForward t input 0) s = .next w ∧ w.mem = s.mem ∧ (w.tile t).flag = true ∧
      w.beats = s.beats.map (fun c => if c = b then
        { c with mark := true, heldAt := some (s.group (s.tileGroup b.src)).gclk } else c))) ∧
  (∀ (s : State) (t f : Nat) (l : Landing) (n : LandLine),
    let x := s.tile t
    let lo := max l.dst (n.no * 256)
    tileOk t = true → s.tileEdges t = true → x.only [] [l] [] = true → l.lines = [n] → l.left = 1 → n.full = some f → f < x.eng →
    x.eng % 8 ≠ 7 → x.wp = [] → x.mayRun x.eng = true → x.run = .running →
    ∃ u, exec (.messageLand t) s = .next u ∧ (u.tile t).landing = [] ∧ (u.tile t).pc = x.pc ∧
      (u.tile t).flight = [{ due := 2 * (x.eng + 1), land := .tally l.tally l.mark (some (landOwner t l.src l.id)) }] ∧
      (∀ i, i < n.want → mget 0 u.mem (sramAt t lo + i) = ((n.cells.find? (fun c => c.1 == lo + i)).map Prod.snd).getD 0) ∧
      (∀ a, a < sramAt t lo ∨ sramAt t lo + n.want ≤ a → mget 0 u.mem a = mget 0 s.mem a) ∧
      (∀ k, k ≠ t → u.tile k = s.tile k))

/-- GRID_LAUNCH, LAUNCH_START, UNGATE_DONE and the launch of a group (R106, R107, R184, R185): a group with an armed tile
and one mode is launched, one without an armed tile raises EMPTY_LAUNCH; every armed tile of the group begins at its entry
bundle with the counters of the launch at 0, and the group's slot counter starts at 0. -/
def Obligations.GroupLaunch : Prop :=
  ∀ (s : State) (g : Nat),
    (∀ v : W32, v.toNat % 2 ^ 11 = g → s.locked bGRID 0 = false →
      ((∃ t, t ∈ s.groupTiles g ∧ (s.tile t).run = .armed) → s.oneMode g = true →
        exec (.gridLaunch v) s = .next (s.setGroup g { s.group g with launchAt := some s.align })) ∧
      ((∀ t, t ∈ s.groupTiles g → (s.tile t).run ≠ .armed) →
        ∃ u, exec (.gridLaunch v) s = .next u ∧ u.ev bGRID 0 2 = true ∧ u.tiles = s.tiles ∧ u.groups = s.groups)) ∧
    (∀ n, (s.group g).launchAt = some n → (s.group g).entry = none →
      (∃ t, t ∈ s.groupTiles g ∧ (s.tile t).run = .armed) →
      (∀ t, t ∈ s.groupTiles g → (s.tile t).armPending = false ∧ s.testing t = false ∧ s.tileEdges t = true ∧
        (s.tile t).landing = []) →
      ∃ u, exec (.launchStart g) s = .next u ∧ (u.group g).gclk = 0 ∧ (u.group g).counting = true ∧
        (u.group g).launchAt = none ∧ u.mem = s.mem ∧ u.regs = s.regs ∧
        (∀ t, t ∈ s.groupTiles g → (s.tile t).run = .armed →
          (u.tile t).run = .running ∧ (u.tile t).pc = s.fld bTILE t 0x040 0 14 ∧
          (u.tile t).mode = (s.reg bTILE t 0x044).getLsbD 0 ∧ (u.tile t).cycle = 0 ∧ (u.tile t).stepcnt = 0 ∧
          (u.tile t).extwait = 0 ∧ (u.tile t).aclk = 0 ∧ (u.tile t).s = (s.tile t).s ∧ (u.tile t).v = (s.tile t).v ∧
          (u.tile t).acc = (s.tile t).acc ∧ (u.tile t).tallies = (s.tile t).tallies) ∧
        (∀ t, (s.tile t).run ≠ .armed → u.tile t = s.tile t)) ∧
    (∀ t, (s.tile t).armPending = true → (s.group (s.tileGroup t)).entry = none →
      exec (.ungateDone t) s = .next (s.setTile t { s.tile t with run := .armed, armPending := false }))

/-- GRID_LINK_OWNER, GRID_ST_CTRL.LOAD and .READ (R182, R187, R198): a free link between two tiles of a partition gets
an owner among its groups with an empty table, and STATUS 1 answers a write that names another; a table whose entries conflict with nothing is taken over whole from the window with
STATUS 0; READ copies it into the window. -/
def Obligations.LinksAndSlotTables : Prop :=
  ∀ (s : State), s.locked bGRID 0 = false →
    (∀ (v : W32) (t u : Nat) (d : Dir), s.gridSel 0x300 = (t, d) → tileOk t = true → neighbour t d = some u →
      s.linkFree (s.link t d) = true →
      let p := v.toNat % 2 ^ 10
      let g := v.toNat / 2 ^ 10 % 2 ^ 11
      let l : Link := { owned := v.getLsbD 31, part := p, group := g, steady := v.getLsbD 30, table := [] }
      (v.getLsbD 31 = false ∨ s.tileOwner t = some p ∧ s.tileOwner u = some p ∧ s.partGroup p g = true →
        exec (.gridLinkOwnerWrite v) s = .next ((s.setLink t d l).setReg bGRID 0 0x204 0)) ∧
      (v.getLsbD 31 = true → s.tileOwner t ≠ some p ∨ s.tileOwner u ≠ some p ∨ s.partGroup p g = false →
        exec (.gridLinkOwnerWrite v) s = .next (s.setReg bGRID 0 0x204 4))) ∧
    (∀ (t : Nat) (d : Dir), s.gridSel 0x200 = (t, d) →
      ((s.link t d).owned = true → s.groupActive (s.link t d).group = false →
        (∀ i, i < 256 → s.entryBad t d i (s.window4 i) = false) →
        ∃ w, exec .gridStLoad s = .next w ∧ w.reg bGRID 0 0x204 = 0 ∧
          (∀ i, i < 256 → mget 0 (w.link t d).table i = s.window4 i) ∧
          (w.link t d).owned = true ∧ (w.link t d).group = (s.link t d).group ∧
          (∀ k e, (k, e) ≠ (t, d) → w.link k e = s.link k e)) ∧
      (s.groupActive (s.link t d).group = true → (s.link t d).owned = true →
        exec .gridStLoad s = .next (s.setReg bGRID 0 0x204 8)) ∧
      (∃ w, exec .gridStRead s = .next w ∧ w.links = s.links ∧
        ((∀ i, i < 256 → mget 0 (s.link t d).table i < 16) →
          ∀ i, i < 256 → w.window4 i = mget 0 (s.link t d).table i)))


/-! ## Sideband, tray bus and supply -/

/-- The tray bus and the pulses per second (R50-R53): a clear of ALERT_STATUS keeps the bits of conditions still
present; the Alert Response Address is answered while an enabled bit is set; ALERT_MASK is written, every other code
and a write with a wrong Packet Error Code (its polynomial: log entry 48) is a NACK that changes nothing; a reading above
45 °C sets its bit; MOD_PPS_OUT rises within 5 ns of a whole second of locked time; MOD_PPS_IN is timestamped with network
time. -/
def Obligations.TrayBusAndPulses : Prop :=
  ∀ (s : State),
    let x := s.tray
    let cleared (bits : Byte) : Tray := { x with
      alert := (x.alert &&& ~~~bits) ||| (s.trayCond &&& (bits ||| ~~~x.cond)), cond := s.trayCond }
    let sound (c : Byte) (v : TrayData) : Prop := ∀ p, v.pec = some p → p = pecOf [0x94, c, v.value.setWidth 8]
    (s.pwr.vaux = true →
      (∀ bits : Byte, exec (.trayAlertClear bits) s = .next { s with tray := cleared bits }) ∧
      (x.alert &&& x.mask ≠ 0 → exec .alertResponse s = .next { s with out := s.out ++ [.trayAra 0x4A] }) ∧
      (∀ v : TrayData, sound 9 v → exec (.trayBusWrite 9 v) s =
        .next { s with tray := { x with mask := BitVec.ofNat 8 (v.value.toNat % 32) }, out := s.out ++ [.trayAck] }) ∧
      (∀ v : TrayData, sound 8 v → exec (.trayBusWrite 8 v) s =
        .next { s with tray := cleared (v.value.setWidth 8), out := s.out ++ [.trayAck] }) ∧
      (∀ (c : Byte) (v : TrayData), c ≠ 8 ∧ c ≠ 9 ∨ ¬ sound c v →
        exec (.trayBusWrite c v) s = .next { s with out := s.out ++ [.trayNack] }) ∧
      (∀ vin iin pin tj tcool : BitVec 16,
        ∃ u, exec (.trayTelemetryUpdate vin iin pin tj tcool) s = .next u ∧
          u = { s with tray := u.tray } ∧ u.trayRead 2 = some vin ∧ u.trayRead 3 = some iin ∧ u.trayRead 4 = some pin ∧
          u.trayRead 6 = some tj ∧ u.trayRead 7 = some tcool ∧ u.tray.mask = x.mask ∧
          u.tray.alert.getLsbD 4 = (x.alert.getLsbD 4 || (decide (450 < tcool.toInt) && !x.cond.getLsbD 4)))) ∧
    (s.powered = true → s.timeLocked = true → x.ppsOut = false → s.time.ns ≤ 5 ∨ 999999995 ≤ s.time.ns → exec .ppsOut s =
      .next { s with tray := { x with ppsOut := true, ppsLeft := 168750 }, out := s.out ++ [.pps true] }) ∧
    (s.powered = true → ∃ u, exec .ppsInEdge s = .next u ∧ u.ev bPTP 0 4 = true ∧ u.time = s.time ∧
      u.mem = s.mem ∧ u.tiles = s.tiles ∧ u.reg bPTP 0 0x064 = BitVec.ofNat 32 s.time.sec ∧
      u.reg bPTP 0 0x068 = BitVec.ofNat 32 (s.time.sec / 2 ^ 32 % 65536 + s.time.frac * 65536) ∧
      u.reg bPTP 0 0x06C = BitVec.ofNat 32 s.time.ns ∧
      u.cnt bPTP 0 0xC10 = (if 1000 < s.time.ns ∧ s.time.ns < 999999000 then s.cntUp bPTP 0 0xC10 1 else s.cnt bPTP 0 0xC10))

/-- Insertion, power-good and the two input signals (R45-R49, R61, R73): an inserted module is in state M4; the
start-up begins when power-good holds with MOD_PWREN and MOD_RESET_N high; removal and reset lose all volatile state
without a notice; MOD_PWREN low in service sends the notice and goes down in order; a rise during a power-down waits. -/
def Obligations.InsertionPowerEnableAndReset : Prop :=
  ∀ (s : State),
    let x := s.pwr
    let mayStart : Prop := x.phase = .off ∧ x.blocked = false ∧ x.slept = false
    let started (u : State) : Prop := u.pwr.phase = .starting ∧ u.ident.stage = 1 ∧ u.regs = [] ∧ u.cnts = [] ∧
      u.tiles = [] ∧ u.keys = [] ∧ u.mem = [] ∧ u.pwr.state = 4 ∧ u.pwr.pmRole = false
    let lost (u : State) : Prop := u.tiles = [] ∧ u.mem = [] ∧ u.keys = [] ∧ u.conns = [] ∧ u.queues = [] ∧
      u.parts = [] ∧ u.windows = [] ∧ u.colls = [] ∧ u.mbox = [] ∧ u.regs = [] ∧ u.cnts = [] ∧ u.shadows = [] ∧
      u.pending = s.pending ∧ u.out = s.out ++ (if s.tray.ppsOut then [.pps false] else [])
    (x.seated = false → exec .hotInsertion s = .next { s with pwr := { x with
      seated := true, vaux := true, rails := 1, state := 4, phase := .off, powerGood := false, bankFull := false
      inrush := .inputCap, bank := 0, cut := false, low := false, below40 := false, sag := false, blocked := false, slept := false
      startQueued := false } }) ∧
    (x.seated = true → ∃ u, exec .hotRemoval s = .next u ∧ lost u ∧ u.pwr.seated = false ∧ u.pwr.vaux = false ∧
      u.ports = [] ∧ u.pwr.state = 4 ∧ u.pwr.phase = .off ∧ u.pwr.pwren = false ∧ u.pwr.resetN = true) ∧
    (x.seated = true → x.vaux = true → x.cut = false → x.low = false → x.below40 = false →
      ∃ u, exec .powerGood s = .next u ∧ u.pwr.powerGood = true ∧ u.pwr.bankFull = true ∧
        (mayStart → x.pwren = true → x.resetN = true → started u) ∧
        (x.pwren = false ∨ x.resetN = false → u.pwr.phase = x.phase ∧ u.mem = s.mem)) ∧
    (x.seated = true → x.vaux = true → x.cut = false → x.below40 = false →
      exec .holdupRefilled s = .next { s with pwr := { x with bankFull := true, bank := fullBank, inrush := .none } }) ∧
    (x.seated = true → x.pwren = false → ∃ u, exec .modPwrenHigh s = .next u ∧ u.pwr.pwren = true ∧
      (x.phase = .off → x.powerGood = true → x.resetN = true → started u) ∧
      (s.goingDown = true → u.pwr.phase = x.phase ∧ u.pwr.startQueued = true ∧ u.mem = s.mem)) ∧
    (x.pwren = true → ∃ u, exec .modPwrenLow s = .next u ∧ u.pwr.pwren = false ∧ u.pwr.startQueued = false ∧
      (x.phase = .starting → u.pwr.phase = .down .abandoned) ∧
      (s.inService = true → u.pwr.phase = .down .orderly ∧ .notice (s.freeBit 7) ∈ u.out) ∧
      (x.phase = .off ∨ s.goingDown = true → u.pwr.phase = x.phase)) ∧
    (x.seated = true → x.resetN = true → ∃ u, exec .modResetNLow s = .next u ∧ u.pwr.resetN = false ∧
      u.pwr.pwren = x.pwren ∧ lost u ∧
      (s.powered = true → u.pwr.phase = .down .reset ∧ u.pwr.state = 4) ∧ (s.powered = false → u.pwr.phase = .off)) ∧
    (x.resetN = false → ∃ u, exec .modResetNHigh s = .next u ∧ u.pwr.resetN = true ∧
      (x.phase = .off → x.powerGood = true → x.pwren = true → started u) ∧
      (x.pwren = false → u.pwr.phase = x.phase)) ∧
    (∀ why, x.phase = .down why → ∃ u, exec .powerDownDone s = .next u ∧ u.tiles = [] ∧ u.mem = [] ∧ u.keys = [] ∧
      (why ≠ .lastGasp → x.pwren = false ∨ x.resetN = false → u.pwr.phase = .off ∧ u.pwr.rails = 1 ∧ u.pwr.state = 4) ∧
      (why = .orderly → x.powerGood = true → x.pwren = true → x.resetN = true → started u) ∧
      (why = .lastGasp → (x.low || x.below40 || x.cut) = true → u.pwr.phase = .off ∧ u.pwr.rails = 0 ∧ u.pwr.vaux = false)) ∧
    (x.seated = true → ∃ u, exec .inputPowerReturn s = .next u ∧
      (x.phase = .down .lastGasp → u.pwr.phase = .down .lastGasp ∧ u.pwr.low = false ∧
        u.pwr.below40 = false ∧ u.pwr.cut = false) ∧
      (x.phase = .off → x.vaux = false → u.pwr.phase = .off ∧ u.pwr.vaux = true ∧ u.pwr.rails = 1 ∧
        u.pwr.inrush = .inputCap))

/-- The throttle (R62-R66, R71, R76, R80): the K that takes effect at a frame boundary is the smallest requested, 0 in a
thermal halt, and within a frame it stays; a reading deeper than TRIP removes the coming periods and HOLD periods end
that; sag handling requests 26 and its end gives the request up, a bank that supplied the load no longer being full;
temperature requests 64 up to 100 °C and 8 from 105 °C, and moves a VCD setpoint by at most 5 mV; a halt follows only
K = 8 at 105 °C or above. -/
def Obligations.ThrottleDroopSagAndHeat : Prop :=
  ∀ (s : State),
    let x := s.pwr
    s.powered = true → s.goingDown = false →
    (x.frame = 0 → ∃ u, exec .throttleFrameBoundary s = .next u ∧ u = { s with pwr := u.pwr } ∧ u.pwr.frame = 0 ∧
      (∀ p, mget 64 u.pwr.keepShare p = min (x.shareOf p) (mget 64 x.slopeShare p)) ∧
      u.pwr.keep = (if x.halt = true then 0 else min (min x.kCap x.kSag) (min x.kTherm x.kSlope))) ∧
    (x.frame ≠ 0 → exec .throttleFrameBoundary s = .next s) ∧
    (∀ d : Droop, d.die < 4 → x.rails = 8 →
      (s.fld bPWR 0 0x068 0 8 < d.drop → ∃ u, exec (.droopTrip d) s = .next u ∧ u.pwr.droop = true ∧ d.die ∈ u.pwr.droopDies ∧
        u.pwr = { x with droopDies := u.pwr.droopDies, droopFor := 0, droopSeen := true } ∧
        u.cnt bPWR s.pwrInst 0xC08 = s.cntUp bPWR s.pwrInst 0xC08 1 ∧ u.regs = s.regs ∧ u.mem = s.mem) ∧
      (d.drop ≤ s.fld bPWR 0 0x068 0 8 → exec (.droopTrip d) s = .next s)) ∧
    (s.fld bPWR 0 0x068 8 8 ≤ x.droopFor → exec .droopRelease s = .next { s with pwr := { x with droopDies := [] } }) ∧
    (x.droopFor < s.fld bPWR 0 0x068 8 8 → exec .droopRelease s = .next s) ∧
    (∀ below, x.seated = true → x.vaux = true → x.sag = false → ∃ u, exec (.sagStart below) s = .next u ∧
      u.pwr.sag = true ∧ u.pwr.kSag = 26 ∧ u.pwr.below40 = below ∧ u.pwr.keep = x.keep ∧ u.ev bPWR s.pwrInst 0 = true ∧
      u.cnt bPWR s.pwrInst 0xC10 = s.cntUp bPWR s.pwrInst 0xC10 1 ∧ u.tiles = s.tiles ∧ u.mem = s.mem) ∧
    (x.seated = true → x.vaux = true → x.sag = false → ∃ u, exec .inputProtectionOpen s = .next u ∧
      u.pwr.sag = true ∧ u.pwr.kSag = 26 ∧ u.pwr.cut = true ∧ u.ev bPWR s.pwrInst 0 = true ∧ u.mem = s.mem) ∧
    (x.cut = true → ∃ u, exec .inputProtectionClose s = .next u ∧ u = { s with pwr := u.pwr, tray := u.tray, fresh := s.fresh + 1 } ∧
      u.pwr = { x with cut := false, low := false, below40 := false, bankFull := false, bank := u.pwr.bank } ∧
      min 60 x.bank ≤ u.pwr.bank ∧ u.pwr.bank ≤ x.bank) ∧
    (x.cut = false → x.sag = true → ∃ u, exec .sagEnd s = .next u ∧ u.pwr.sag = false ∧ u.pwr.kSag = 64 ∧
      u.pwr.keep = x.keep ∧ u.pwr.below40 = false ∧ u.pwr.bankFull = (x.bankFull && !x.below40) ∧
      u = { s with pwr := u.pwr, tray := u.tray, fresh := u.fresh }) ∧
    (∀ tj : BitVec 16, tj.toInt < 1100 → ∃ u, exec (.thermalSample tj) s = .next u ∧ u.pwr.tj = tj ∧
      (tj.toInt ≤ 1000 → u.pwr.kTherm = 64) ∧ (1050 ≤ tj.toInt → u.pwr.kTherm = 8) ∧
      (1000 < tj.toInt → tj.toInt < 1050 → (50 * (64 - u.pwr.kTherm) : Int) < 56 * (tj.toInt - 1000) + 50 ∧
        56 * (tj.toInt - 1000) ≤ 50 * (64 - u.pwr.kTherm)) ∧
      u.pwr.halt = (x.halt && decide (1030 ≤ tj.toInt)) ∧ u.pwr.keep = x.keep ∧ u.mem = s.mem ∧
      (∀ d v, (d, v) ∈ x.vcd → ∃ w, (d, w) ∈ u.pwr.vcd ∧ v - 5 ≤ w ∧ w ≤ v + 5) ∧
      (x.kTherm = 64 → 1000 < tj.toInt → u.ev bPWR s.pwrInst 2 = true)) ∧
    (∀ tj : BitVec 16, 1100 ≤ tj.toInt → ∃ u, exec (.thermalSample tj) s = .next u ∧ u.pwr.phase = .down .thermal ∧
      u.store.lastFatal = 0x12 ∧ u.out = s.out) ∧
    (x.kTherm = 8 → 1050 ≤ x.tj.toInt → x.halt = false → ∃ u, exec .thermalHalt s = .next u ∧ u.pwr.halt = true ∧
      u.pwr.want = 0 ∧ u.ev bPWR s.pwrInst 3 = true ∧ u.tiles = s.tiles ∧ u.mem = s.mem)

/-- R63, the throttle pattern: of the 64 periods of a frame a keep count K up to 64 keeps exactly K, and period j has
edges if and only if floor((j + 1) × K / 64) exceeds floor(j × K / 64). -/
def Obligations.KeepPattern : Prop :=
  ∀ k, k ≤ 64 → ((List.range 64).filter (fun j => keptAt k j)).length = k ∧
    ∀ j, j < 64 → (keptAt k j = true ↔ (j * k) / 64 < ((j + 1) * k) / 64)

/-- The cap, the shares and the slope limit (R67-R70, R82): a PWR_CAP outside 800 to 3,200 W is stored clamped with
CAP_CLAMP set; above the cap the K of partitions past their share falls, or with none past it the K of all; a fall
beyond PWR_SLOPE / 100 W is filled with test load, which tapers off, or counted as missed, and a rise beyond it lowers
the K of the slope limit, by amounts the spec leaves free (log entry 14). -/
def Obligations.CapSharesAndSlope : Prop :=
  ∀ (s : State), s.powered = true → s.goingDown = false →
    (∀ v : W32, s.locked bPWR 0 = false → ∃ u, exec (.pwrCapWrite v) s = .next u ∧
      u.fld bPWR 0 0x040 0 12 = (if v.toNat % 4096 < 800 then 800 else if 3200 < v.toNat % 4096 then 3200 else v.toNat % 4096) ∧
      (v.toNat % 4096 < 800 ∨ 3200 < v.toNat % 4096 → u.ev bPWR s.pwrInst 5 = true) ∧
      (800 ≤ v.toNat % 4096 → v.toNat % 4096 ≤ 3200 → u.out = s.out ∧ u.ev bPWR s.pwrInst 5 = s.ev bPWR s.pwrInst 5) ∧
      (s.pwr.state = 0 ∨ s.pwr.state = 1 ∨ s.pwr.state = 2 → u.pwr.state =
        (if s.fld bPWR 0 0x048 0 1 = 1 then 2 else if 3200 ≤ v.toNat % 4096 then 0 else 1)) ∧ u.mem = s.mem ∧ u.tiles = s.tiles) ∧
    (∀ (pin : Nat) (est : List (Nat × Nat)),
      let cap := s.fld bPWR 0 0x040 0 12
      let past (y : Nat × Nat) : Prop := y.1 < 1024 ∧ s.fld bPART y.1 0x078 0 12 ≠ 0 ∧ s.fld bPART y.1 0x078 0 12 < y.2
      ∃ u, exec (.shareEstimate pin est) s = .next u ∧ u = { s with pwr := u.pwr, fresh := s.fresh + 1 } ∧
        (cap < pin → (∀ y, y ∈ est → ¬ past y) → 1 ≤ u.pwr.kCap ∧ (1 < s.pwr.kCap → u.pwr.kCap < s.pwr.kCap) ∧
          ∀ p, p ∈ s.partIds → s.fld bPART p 0x078 0 12 ≠ 0 → 1 < s.pwr.shareOf p → u.pwr.shareOf p < s.pwr.shareOf p) ∧
        (cap < pin → (∃ y, y ∈ est ∧ past y) → u.pwr.kCap = s.pwr.kCap ∧
          (∀ y, y ∈ est → past y → 1 < s.pwr.shareOf y.1 → u.pwr.shareOf y.1 < s.pwr.shareOf y.1) ∧
          ∀ p, (∀ w, (p, w) ∈ est → ¬ past (p, w)) → u.pwr.shareOf p = s.pwr.shareOf p) ∧
        (pin ≤ cap → s.pwr.kCap ≤ 64 → s.pwr.kCap ≤ u.pwr.kCap ∧ u.pwr.kCap ≤ 64)) ∧
    (∀ (pin : Nat) (idle : Bool),
      let slope := s.fld bPWR 0 0x044 0 12
      let gap : Int := 100 * ((s.pwr.prevPin : Int) - pin) - slope
      let bound : Prop := slope ≠ 0 ∧ s.pwr.exempt = false
      let filled : Prop := s.fld bPWR 0 0x06C 0 1 = 1 ∧ idle = true
      ∃ u, exec (.slopeStep pin idle) s = .next u ∧ u.pwr.prevPin = pin ∧ u.pwr.keep = s.pwr.keep ∧ u.mem = s.mem ∧
        u.cnt bPWR s.pwrInst 0xC28 = s.cntUp bPWR s.pwrInst 0xC28 ((s.pwr.joule + pin) / 10000) ∧
        u.pwr.joule = (s.pwr.joule + pin) % 10000 ∧
        (slope = 0 → u.pwr.kSlope = 64) ∧
        (bound → slope + 100 * s.pwr.prevPin < 100 * pin → 1 ≤ u.pwr.kSlope ∧
          u.pwr.kSlope ≤ max 1 (min s.pwr.kSlope s.pwr.keep - 1)) ∧
        (slope ≠ 0 → 100 * pin ≤ slope + 100 * s.pwr.prevPin → s.pwr.kSlope ≤ 64 → s.pwr.kSlope ≤ u.pwr.kSlope ∧ u.pwr.kSlope ≤ 64) ∧
        (bound → filled → (u.pwr.fill : Int) = max 0 (s.pwr.fill + gap)) ∧
        (bound → ¬ filled → 0 < gap → u.pwr.fill = 0 ∧ u.ev bPWR s.pwrInst 4 = true ∧
          u.cnt bPWR s.pwrInst 0xC18 = s.cntUp bPWR s.pwrInst 0xC18 1) ∧
        (¬ bound ∨ filled ∨ gap ≤ 0 → u.cnt bPWR s.pwrInst 0xC18 = s.cnt bPWR s.pwrInst 0xC18) ∧
        (¬ bound ∨ ¬ filled → u.pwr.fill = 0)) ∧
    (∀ (c : Cmd) (watts : Nat), s.takes c = true → s.locked bPWR 0 = false → watts < 4096 →
      ∃ u, exec (.powerCap c watts) s = .next u ∧ u.acked 0 = true ∧ u.mem = s.mem ∧
      u.fld bPWR 0 0x040 0 12 = (if watts < 800 then 800 else if 3200 < watts then 3200 else watts)) ∧
    (∀ (c : Cmd) (p watts nonTile : Nat), s.takes c = true → p ≠ 0 → p < 1024 → watts < 4096 →
      s.locked bPART p = false → (s.part p).lstate ≠ .free →
      let room : Prop := s.shareSum - s.fld bPART p 0x078 0 12 + watts + nonTile ≤ s.fld bPWR 0 0x040 0 12
      ∃ u, exec (.powerShare c p watts nonTile) s = .next u ∧ u.mem = s.mem ∧ u.pwr = s.pwr ∧
        (room → u.acked 0 = true ∧ u.fld bPART p 0x078 0 12 = watts ∧
          ∀ r, r ≠ p → u.fld bPART r 0x078 0 12 = s.fld bPART r 0x078 0 12) ∧
        (¬ room → u.acked 5 = true ∧ u.regs = s.regs))

/-- Requests for power states (R77-R79): GATE selects state M2; state M3 is entered only with no tile owned by a
tenant and switches the compute rails off; its exit gives idle tiles and zero SRAM; state M4 by request needs no
tenant. A refused request leaves DOWN as it was and sets REQ_REFUSED. -/
def Obligations.PowerStateRequests : Prop :=
  ∀ (s : State),
    let x := s.pwr
    let down (u : State) : Nat := u.fld bPWR 0 0x048 1 2
    (s.powered = true → s.locked bPWR 0 = false →
      (∀ on : Bool, ∃ u, exec (.stateReqGate on) s = .next u ∧ u.fld bPWR 0 0x048 0 1 = on.toNat ∧ down u = down s ∧
        (x.state < 3 → on = true → u.pwr.state = 2) ∧
        (x.state < 3 → on = false → u.pwr.state = (if s.fld bPWR 0 0x040 0 12 = 3200 then 0 else 1)) ∧ u.tiles = s.tiles) ∧
      (x.phase = .on → x.state ≠ 3 →
        ∃ u, exec .stateReqM3 s = .next u ∧ u.mem = s.mem ∧ u.tiles = s.tiles ∧
          (s.tenantTiles = false → u.pwr.phase = .toM3 ∧ down u = 1) ∧
          (s.tenantTiles = true → u.pwr.phase = .on ∧ down u = down s ∧ u.ev bPWR s.pwrInst 8 = true)) ∧
      (x.phase = .on → ∃ u, exec .stateReqM4 s = .next u ∧
          (s.tenants = false → u.pwr.phase = .down .requested ∧ down u = 2) ∧
          (s.tenants = true → u.pwr.phase = .on ∧ down u = down s ∧ u.ev bPWR s.pwrInst 8 = true)) ∧
      (x.phase = .on → x.state = 3 → ∃ u, exec .stateReqRun s = .next u ∧ u.pwr.phase = .fromM3 ∧ down u = 0 ∧ u.mem = s.mem)) ∧
    (x.phase = .toM3 → ∃ u, exec .m3EntryDone s = .next u ∧ u.pwr.phase = .on ∧ u.pwr.state = 3 ∧ u.pwr.rails = 6 ∧
      (∀ t, (u.tile t).run = .unavailable) ∧ u.conns = s.conns ∧ u.queues = s.queues ∧ u.parts = s.parts ∧
      (∀ a, inDram a = true → mget 0 u.mem a = mget 0 s.mem a)) ∧
    (x.phase = .fromM3 → ∃ u, exec .m3ExitDone s = .next u ∧ u.pwr.phase = .on ∧ u.pwr.rails = 8 ∧ u.mem = s.mem ∧
      u.pwr.state = s.mState ∧ u.ident.gridReady = true ∧ (u.ident.map, u.ident.second) = s.store.repair ∧
      (∀ t, t < 1440 → (u.tile t).run = (if u.degraded (tileN t) = true then .unavailable else .idle))) ∧
    (∀ (c : Cmd) (gate : Bool), x.vaux = true → c.chan = .manager → (s.mb .manager true).full = true →
      s.locked bPWR 0 = false → x.phase = .on → x.state < 3 → ∃ u, exec (.powerState c gate 0) s = .next u ∧
      u.fld bPWR 0 0x048 0 1 = gate.toNat ∧ down u = 0 ∧ (u.mb .manager true).full = false ∧
      (u.mb .manager true).rc = 0 ∧ u.pwr.phase = .on ∧ u.tiles = s.tiles)

/-- Module-fatal causes, the last gasp and the power managers (R55, R72, R75, R81, R481): a fatal cause sends records,
erases every key, stops the data ports and goes down; a rail fault fails a start-up but is fatal in service; the
standby power manager takes over with K held; a lost SerDes reference takes down only its die's ports. -/
def Obligations.FatalCausesAndTakeover : Prop :=
  ∀ (s : State),
    let x := s.pwr
    let stopped (u : State) (cause : Nat) : Prop := u.pwr.phase = .down .fatal ∧ u.pwr.keep = 0 ∧ u.store.lastFatal = cause ∧
      (∀ p, (u.pkeys p).root = none) ∧ u.ciph.storageRoot = 0 ∧
      (∀ n, n < 24 → (u.port n).up0 = false ∧ (u.port n).up1 = false) ∧
      .mgmt false 3 false 0 0 [s.timeWord, BitVec.ofNat 64 (cause * 2 ^ 56)] ∈ u.out ∧
      .mgmt true 3 false 0 0 [s.timeWord, BitVec.ofNat 64 (cause * 2 ^ 56)] ∈ u.out ∧ u.mem = s.mem
    (x.phase = .on →
      (∀ (die : Nat) (pll : Bool), die < 6 → ∃ u, exec (.referenceLost die pll) s = .next u ∧ stopped u 0x10 ∧
        u.ev bCLK die (if pll then 0 else 1) = true) ∧
      (∀ rail, 1 ≤ rail → rail ≤ 8 → ∃ u, exec (.railFault rail) s = .next u ∧ stopped u 0x11 ∧ u.ev bPWR s.pwrInst 6 = true) ∧
      (x.pmStandbyOk = false → ∃ u, exec .pmFailover s = .next u ∧ stopped u 0x15) ∧
      (x.pmStandbyOk = true → ∃ u, exec .pmFailover s = .next u ∧ u.pwr.phase = .on ∧ u.pwr.keep = x.keep ∧
        u.pwr.pmRole = !x.pmRole ∧ u.pwr.pmStandbyOk = false ∧ u.ev bPWR u.pwrInst 7 = true ∧ u.tiles = s.tiles ∧ u.mem = s.mem) ∧
      (x.sag = true → x.vaux = true → x.onBank = true → 2 ≤ s.ident.stage → ∀ r : Bool, ∃ u, exec (.lastGasp r) s = .next u ∧
        u.pwr.bank = (if r then 60 else x.bank) ∧ u.pwr.phase = .down .lastGasp ∧ u.ev bPWR s.pwrInst 1 = true ∧ u.stopping = true ∧ u.mem = s.mem ∧
        (s.tray.cond.getLsbD 3 = false → u.tray.alert.getLsbD 3 = true) ∧
        .mgmt false 3 false 0 0 [s.timeWord, BitVec.ofNat 64 ((if r then 2 else 1) * 2 ^ 56)] ∈ u.out ∧
        .mgmt true 3 false 0 0 [s.timeWord, BitVec.ofNat 64 ((if r then 2 else 1) * 2 ^ 56)] ∈ u.out) ∧
      (∀ fd1 : Bool, ∃ u, exec (.serdesRefLost fd1) s = .next u ∧ u.pwr = x ∧ u.mem = s.mem ∧
        (∀ n, n < 24 → (12 ≤ n ↔ fd1 = true) → u.portUp n = false) ∧
        (∀ n, n < 24 → ¬ (12 ≤ n ↔ fd1 = true) → u.port n = s.port n))) ∧
    (x.phase = .starting → ∀ rail, 1 ≤ rail → rail ≤ 8 → ∃ u, exec (.railFault rail) s = .next u ∧
      u.pwr.phase = .down .failed ∧ u.ev bPWR s.pwrInst 6 = true ∧ u.ident.failCode = stageCode s.ident.stage ∧
      .startFail s.ident.stage (stageCode s.ident.stage) ∈ u.out) ∧
    (exec .pmStandbyLost s = .next { s with pwr := { x with pmStandbyOk := false } })


/-! ## Tiles and what moves on their behalf -/

/-- CTRL of a tile and TILE_STOP, TILE_RESUME and TILE_ABORT (R105-R109, R505, R509): ARM arms an idle, done or
trapped tile, a gated one after ungating; STOP and RESUME move it on, STOP with no effect where it has taken effect
already; ABORT, of a held tile too, clears its registers and tallies and leaves memory alone; a refused command sets
CMD_REFUSED; a locked page ignores all but ABORT.
The engagement of a patch column (R101, R102, R493): the shift begins once no affected tile of the row runs, the rest
of them being held then; its end writes the repair map and its record and lets the tiles go on with what they held,
but a program whose state could not be read traps with cause 0x42. -/
def Obligations.TileControlAndPatching : Prop :=
  (∀ (s : State) (t : Nat), tileOk t = true → s.fld bTILE t oEVENT_ROUTE 0 2 < 2 →
    let x := s.tile t
    let onlyTile (u : State) : Prop := u.mem = s.mem ∧ ∀ k, k ≠ t → u.tile k = s.tile k
    let refused (u : State) : Prop := u.tiles = s.tiles ∧ u.mem = s.mem ∧ u.ev bTILE t 6 = true
    (s.locked bTILE t = false →
      (s.armRefused t = false → s.testing t = false →
        (s.gated t = true → exec (.tileCtrlArm t) s = .next (s.setTile t { x with armPending := true })) ∧
        (s.gated t = false →
          exec (.tileCtrlArm t) s = .next (s.setTile t { x with run := .armed, armPending := false }))) ∧
      (s.armRefused t = true → ∃ u, exec (.tileCtrlArm t) s = .next u ∧ refused u) ∧
      (x.run = .running →
        exec (.tileCtrlStop t) s = .next (s.setTile t { x with run := .stopping, stopReq := true })) ∧
      (x.run = .stopping ∨ x.run = .stopped ∨ x.run = .held → exec (.tileCtrlStop t) s = .next s) ∧
      (x.run = .idle ∨ x.run = .armed ∨ x.run = .done ∨ x.run = .trapped →
        ∃ u, exec (.tileCtrlStop t) s = .next u ∧ refused u) ∧
      (x.run = .stopped → exec (.tileCtrlResume t) s =
        .next (s.setTile t { x with run := .running, stopReq := false, waitFor := some .phase })) ∧
      (x.run ≠ .stopped → ∃ u, exec (.tileCtrlResume t) s = .next u ∧ refused u)) ∧
    (s.locked bTILE t = true → ∃ u, exec (.tileCtrlArm t) s = .next u ∧ u.tiles = s.tiles ∧ u.mem = s.mem ∧
      u.ev bERR 0 6 = true ∧ u.cnt bERR 0 0xC40 = s.cntUp bERR 0 0xC40 1) ∧
    (x.run ≠ .idle → x.run ≠ .gated → x.run ≠ .unavailable → s.gated t = false → s.testing t = false →
      (∀ m, x.injq.head? = some m → m.sent = 0) →
      ∃ u, exec (.tileCtrlAbort t) s = .next u ∧ onlyTile u ∧ (u.tile t).run = .idle ∧ (u.tile t).s = [] ∧
        (u.tile t).v = [] ∧ (u.tile t).p = [] ∧ (u.tile t).banks = [] ∧ (u.tile t).acc = [] ∧ (u.tile t).tallies = [] ∧
        (u.tile t).landing = x.landing) ∧
    (∀ c : Cmd, s.takes c = true →
      (s.locked bTILE t = false → x.run = .running → ∃ u, exec (.tileStop c t) s = .next u ∧ u.acked 0 = true ∧ onlyTile u ∧
        u.tile t = { x with run := .stopping, stopReq := true }) ∧
      (s.locked bTILE t = false → x.run = .stopped → ∃ u, exec (.tileResume c t) s = .next u ∧ u.acked 0 = true ∧ onlyTile u ∧
        u.tile t = { x with run := .running, stopReq := false, waitFor := some .phase }) ∧
      (s.locked bTILE t = true → ∃ u, exec (.tileStop c t) s = .next u ∧ u.acked 4 = true ∧ u.tiles = s.tiles) ∧
      (x.run = .running ∨ x.run = .stopped ∨ x.run = .armed ∨ x.run = .held →
        (∀ m, x.injq.head? = some m → m.sent = 0) → ∃ u, exec (.tileAbort c t) s = .next u ∧ u.acked 0 = true ∧
        onlyTile u ∧ (u.tile t).run = .idle ∧ (u.tile t).tallies = [])) ∧
    (x.clearing = true → s.tileEdges t = true → ∃ u, exec (.tileClearDone t) s = .next u ∧
      u.tile t = { x with clearing := false } ∧ (∀ k, k ≠ t → u.tile k = s.tile k) ∧ u.regs = s.regs ∧
      (s.tileOwner t = none → u = s.setTile t { x with clearing := false }))) ∧
  (∀ (s : State) (die row : Nat), die < 4 → row < 20 →
    let n := die * 20 + row
    let c := mget (31, false) s.test.patch n
    c.1 ≠ 31 →
    let local_ : Prop := ∀ t, t < 1440 → s.fld bTILE t oEVENT_ROUTE 0 2 < 2
    (c.2 = false → (∀ t, t ∈ rowTiles n c.1 → (s.tile t).run ≠ .running ∧ (s.tile t).run ≠ .stopping) → local_ →
      ∃ u, exec (.patchEngage die row) s = .next u ∧ mget (31, false) u.test.patch n = (c.1, true) ∧
        (∀ m, m ≠ n → mget (31, false) u.test.patch m = mget (31, false) s.test.patch m) ∧ u.mem = s.mem ∧
        (∀ t, t ∉ rowTiles n c.1 → u.tile t = s.tile t) ∧
        ∀ t, t ∈ rowTiles n c.1 →
          let x := s.tile t
          (x.run = .held ∨ x.run = .unavailable → u.tile t = x) ∧
          (x.run ≠ .held → x.run ≠ .unavailable →
            u.tile t = { x with heldFrom := some x.run, run := .held } ∧ u.ev bTILE t 1 = true)) ∧
    (∀ lost : Bool, c.2 = true → ∃ u, exec (.patchMoveDone die ⟨row, lost⟩) s = .next u ∧ u.retired n = c.1 ∧
      u.store.repair = (u.ident.map, u.ident.second) ∧ (u.ptest n c.1).retired = true ∧ (mget (31, false) u.test.patch n).1 = 31 ∧
      (∀ m, m ≠ n → u.retired m = s.retired m) ∧ u.ev bGRID 0 0 = true ∧
      (∀ t, t ∈ rowTiles n c.1 → u.ev bTILE t 7 = true) ∧
      (local_ → (lost = true → (s.tile (tileAt n c.1)).flight = []) → u.mem = s.mem ∧
        (∀ t, t ∉ rowTiles n c.1 → u.tile t = s.tile t) ∧
        ∀ t r, t ∈ rowTiles n c.1 → (s.tile t).run = .held → (s.tile t).heldFrom = some r →
          let x := s.tile t
          (lost = false ∨ tileLc t ≠ c.1 → u.tile t = (if r = .running then
              { x with run := .running, heldFrom := none, waitFor := some .phase, flag := true, soiled := true }
            else { x with run := r, heldFrom := none })) ∧
          (lost = true → tileLc t = c.1 → r = .running ∨ r = .stopped ∨ r = .armed →
            (u.tile t).run = .trapped ∧ u.fld bTILE t 0x05C 0 8 = 0x42 ∧ u.ev bTILE t 2 = true))))

/-- COPY_COMPLETE of a tile's spill whose run is translated and lies in one mapped slab (R170, R194, R213, R222-R224): at
an edge of the tile's clocks the bytes of its SRAM, which have not changed since the engine took the request, are at
the physical address of the run and nothing else of memory changes; the request leaves the engine, is counted, and its
tally counts up by 1.
XFLD_DONE (R174): the oldest far load of a tile puts the 256 bytes that its virtual address reads, all of the DRAM
tier, into its vector register; a read that fails, or that leaves the DRAM tier, traps the tile with cause 0x12 while
its program has not ended. -/
def Obligations.CopiesAndFarLoadsArrive : Prop :=
  (∀ (s : State) (eng t k : Nat) (j : CopyJob) (r : Held),
    s.jobs = [j] → j.eng = eng → j.from_ = .tile t → j.parked = false → j.spill = true → j.im = false → j.moved = 0 →
    j.tally = some k → j.runs = [r] → tileOk t = true → 0 < j.len → j.len % 64 = 0 → j.tva + j.len ≤ 0x600000 →
    r.va ≤ j.lva → j.lva + j.len ≤ r.va + r.n → j.lva + j.len ≤ 2 ^ 48 →
    let pa := r.at_ j.lva
    pa % 64 = 0 → pa + j.len ≤ dramTop → pa % 2 ^ 30 + j.len ≤ 2 ^ 30 → s.reach pa = true → s.keyGone j.part = false →
    r.logs = false → s.tileEdges t = true → s.soft = [] → (s.tile t).landing = [] → (s.tile t).waitFor ≠ some .copies → s.queuesIdle = true →
    hits s.ue (sramAt t j.tva) j.len = [] → hits s.ce (sramAt t j.tva) j.len = [] →
    (∀ i, i < j.len → (pa + i, mget 0 s.mem (sramAt t j.tva + i)) ∈ j.cells) → j.cells.length = j.len →
    ∃ u, exec (.copyComplete eng 0) s = .next u ∧ u.jobs = [] ∧
      (∀ i, i < j.len → mget 0 u.mem (pa + i) = mget 0 s.mem (sramAt t j.tva + i)) ∧
      (∀ a, a < pa ∨ pa + j.len ≤ a → mget 0 u.mem a = mget 0 s.mem a) ∧
      (∀ l, pa / 64 ≤ l → l < (pa + j.len) / 64 → mget 0 u.lineKey l = s.keyId j.part r.ksel) ∧
      ((u.tile t).tally k).toNat = min (((s.tile t).tally k).toNat + 1) 0xFFFFFFFF ∧
      (∀ i, i ≠ k → (u.tile t).tally i = (s.tile t).tally i) ∧ (u.tile t).copies = (s.tile t).copies - 1 ∧
      (u.tile t).xerr = (s.tile t).xerr ∧ (∀ i, i ≠ t → u.tile i = s.tile i) ∧
      u.cnt bCOPY eng 0xC08 = s.cntUp bCOPY eng 0xC08 1) ∧
  (∀ (s v : State) (t : Nat) (f : Nat × Nat × Nat) (fs : List (Nat × Nat × Nat)) (res : VRes),
    (s.tile t).far = f :: fs →
    s.vget (decide (tileFd t = 1)) ((s.tileOwner t).getD 0) accR f.2.1 256 [] = (v, res) →
    s.tileEdges t = true → (s.tile t).run ≠ .held →
    let y := v.tile t
    let left := v.setTile t { y with far := fs }
    (∀ bs hs, res = .ok bs hs → (∀ r, r ∈ hs → inDram r.pa = true) → y.waitFor ≠ some .far → y.flight = [] →
      ∃ u, exec (.xfldDone t) s = .next u ∧ u.tile t = { y.setV f.1 (BitVec.ofNat 2048 (leNat bs)) with far := fs } ∧
        (∀ k, k ≠ t → u.tile k = v.tile k) ∧ u.mem = v.mem ∧ u.regs = v.regs ∧ u.cnts = v.cnts) ∧
    ((∀ bs hs, res = .ok bs hs → ∃ r, r ∈ hs ∧ inDram r.pa = false) →
      (y.run = .running ∨ y.run = .stopping ∨ y.run = .stopped → exec (.xfldDone t) s = .next (left.trapTile t 0x12 y.pc)) ∧
      (y.run ≠ .running → y.run ≠ .stopping → y.run ≠ .stopped → exec (.xfldDone t) s = .next left)))

/-- TILE_LAUNCH and LAUNCH_MEASURE_DONE (R371, R460, R461): with every tile of a good launch table measured, PART_PM is
extended, each tile gets its entry bundle, mode, seed and group and is armed, a gated one after ungating, and the group
is launched once a tile of it is armed; with a tile not yet measured the launch is held until the hashes are taken.
GRID_LOAD (R200): an image that reads well and conflicts with nothing gives the group exactly its links, with their
slot tables; one for a group that is not quiet is answered 0x0004 and a bad one 0x0003, and neither changes a link. -/
def Obligations.TileLaunchesAndGridLoads : Prop :=
  (∀ (s : State) (p q g : Nat) (tbl : List Byte),
    let l := launchRows tbl
    let launched (v u : State) (idx : Nat) : Prop := (u.part p).launch = none ∧
      (u.part p).launches = (v.part p).launches + 1 ∧
      ((∃ x, x ∈ l ∧ v.gated x.1 = false) → (u.group g).launchAt = some v.align) ∧
      (u.group g).entry = some (p * 4096 + q, idx) ∧ u.mem = v.mem ∧ (∀ i, i ≠ p → u.part i = v.part i) ∧
      (u.part p).pm = Config.sha384 (digestBytes (v.part p).pm ++ digestBytes (u.launchDigest g tbl)) ∧
      (∀ x, x ∈ l → u.fld bTILE x.1 0x040 0 14 = x.2.1 ∧ u.fld bTILE x.1 0x044 0 1 = x.2.2.1.toNat ∧
        u.reg bTILE x.1 0x04C = x.2.2.2.setWidth 32 ∧ u.reg bTILE x.1 0x050 = (x.2.2.2 >>> 32).setWidth 32 ∧
        u.tileGroup x.1 = g ∧ (u.tile x.1).measured.isSome = true ∧
        (if v.gated x.1 then (u.tile x.1).armPending = true else (u.tile x.1).run = .armed)) ∧
      (∀ t, (∀ x, x ∈ l → x.1 ≠ t) → u.tile t = v.tile t)
    l ≠ [] → g < 2 ^ 11 →
    (∀ idx, (s.part p).launch = some (q, idx, g, tbl) → s.launchOk p g l = true → s.queuesIdle = true →
      (∀ x, x ∈ l → (s.tile x.1).clearing = false ∧ s.testing x.1 = false) →
      ∃ u, exec (.launchMeasureDone p) s = .next u ∧ launched s u idx) ∧
    (∀ (d : Desc) (v : State) (hs : List Held), s.readyFor p q 0x35 d = true →
      d.len.toNat = tbl.length → tbl.length % 16 = 0 → tbl.length ≤ 16 * 1440 → d.lva.toNat % 16 = 0 → d.imm.toNat % 2 ^ 11 = g →
      s.tallyOk p d.tally = true → ((s.taken p q 0x35 d).part p).launch = none →
      (s.taken p q 0x35 d).vget false p accR d.lva.toNat tbl.length [] = (v, .ok tbl hs) → v.launchOk p g l = true →
      (∀ x, x ∈ l → v.testing x.1 = false) → v.queuesTaken p q = true →
      (v.launchReady l = true → ∃ u, exec (.tileLaunch p q d) s = .next u ∧ launched v u (s.queue p q).c) ∧
      (v.launchReady l = false → ∃ u, exec (.tileLaunch p q d) s = .next u ∧
        (u.part p).launch = some (q, (s.queue p q).c, g, tbl) ∧ u.tiles = v.tiles ∧ u.mem = v.mem))) ∧
  (∀ (s v : State) (c : Cmd) (p len : Nat) (va : W64) (bs : List Byte) (hs : List Held),
    s.takes c = true → p < 1024 → va.toNat % 16 = 0 → 32 ≤ len → len ≤ 32 + 136 * 5760 →
    s.vget false p accR va.toNat len [] = (v, .ok bs hs) → v.mbox = s.mbox → v.queues = s.queues →
    let g := (field bs 4 2) % 2 ^ 11
    let steady := field bs 6 1 % 2 == 1
    let l := (unitsOf 136 bs.length (bs.drop 32)).map parseLink
    let good : Prop := field bs 0 4 = 1 ∧ v.imageBad p g steady (field bs 8 4) len l = false
    (good → v.groupQuiet g = true → v.locked bGRID 0 = false →
      (∀ r, r ∈ l → (v.link r.tile r.out).owned = true →
        (v.link r.tile r.out).part = p ∧ (v.link r.tile r.out).group = g) →
      ∃ u, exec (.gridLoad c p va len) s = .next u ∧ u.acked 9 = true ∧ u.mem = v.mem ∧ u.tiles = v.tiles ∧
        (∀ r, r ∈ l → (u.link r.tile r.out).owned = true ∧ (u.link r.tile r.out).part = p ∧
          (u.link r.tile r.out).group = g ∧ (u.link r.tile r.out).steady = steady ∧
          ∀ i, i < 256 → mget 0 (u.link r.tile r.out).table i = r.table.getD i 0) ∧
        (∀ t d, t < 1440 → (∀ r, r ∈ l → (r.tile, r.out) ≠ (t, d)) → neighbour t d ≠ none →
          ((v.link t d).owned = false → u.link t d = v.link t d) ∧
          ((v.link t d).owned = true → (v.link t d).part = p → (v.link t d).group = g → (u.link t d).owned = false))) ∧
    (good → v.groupQuiet g = false →
      ∃ u, exec (.gridLoad c p va len) s = .next u ∧ u.acked 4 = true ∧ u.links = v.links ∧ u.waves = v.waves) ∧
    (¬ good → ∃ u, exec (.gridLoad c p va len) s = .next u ∧ u.acked 3 = true ∧ u.links = v.links ∧ u.waves = v.waves))


/-! ## The memory system -/

/-- Refreshes, arbitration and the bus (R30-R34): one refresh goes ahead of a request that waits, the others are
postponed, at most eight, and a burst issues those postponed and is counted; a new window gives Q0 its tenth and Q2 its
quarter of the bus afresh, and what Q0 had beyond its limit goes first in it; the grant keeps Q0 to its limit and puts
Q2 below its floor ahead of Q1 directly after a Q0 or Q1 transaction; an access to an address the bus has nothing at
changes no memory and is counted and captured.
MEM_GRANT and MEM_RETURN (R387, R390): PART_MEM_USED follows what is granted and returned and stays within the
partition's quota; a grant past the quota is refused with 0x0005 and changes no account. -/
def Obligations.RefreshUnmappedAccessesAndAccounting : Prop :=
  (∀ (s : State) (d : Nat), d < 12 →
    let x := s.dev d
    (exec (.dramRefresh d false) s = .next (s.setDev d { x with postponed := 0, ahead := false })) ∧
    (x.ahead = false → exec (.dramRefresh d true) s = .next (s.setDev d { x with ahead := true })) ∧
    (x.ahead = true → x.postponed ≠ 8 →
      exec (.dramRefresh d true) s = .next (s.setDev d { x with postponed := x.postponed + 1 })) ∧
    (x.ahead = true → x.postponed = 8 → ∃ u, exec (.dramRefresh d true) s = .next u ∧ u.dev d = { x with postponed := 1 } ∧
      u.cnt bDRAMC d 0xC28 = s.cntUp bDRAMC d 0xC28 1 ∧ (∀ k, k ≠ d → u.dev k = s.dev k) ∧ u.mem = s.mem ∧ u.regs = s.regs) ∧
    (x.postponed = 8 → exec (.refreshBurst d) s =
      .next ((s.setDev d { x with postponed := 0 }).count bDRAMC d 0xC28 1)) ∧
    (exec (.dramArbWindow d) s =
      .next (s.setDev d { x with q0 := min x.late q0Limit, q2 := 0, late := x.late - min x.late q0Limit })) ∧
    (∀ waits : List Nat,
      (0 ∈ waits → x.q0 < q0Limit → x.grant waits = some 0) ∧
      (x.q0 < q0Limit → 0 ∉ waits → 2 ∈ waits → x.q2 < q2Floor → x.cls ≤ 1 → x.grant waits = some 2) ∧
      (q0Limit ≤ x.q0 → 2 ∈ waits → x.q2 < q2Floor → x.cls ≤ 1 → x.grant waits = some 2) ∧
      (q0Limit ≤ x.q0 ∨ 0 ∉ waits → 1 ∈ waits → q2Floor ≤ x.q2 ∨ 2 ∉ waits ∨ 1 < x.cls → x.grant waits = some 1)) ∧
    (∀ (addr : BitVec 48) (write : Bool) (core : BitVec 2) (complex : Bool), s.busHas addr.toNat = false →
      ∃ u, exec (.unmappedAccess addr write core complex) s = .next u ∧ u.mem = s.mem ∧ u.tiles = s.tiles ∧
        u.cnt bERR 0 0xC30 = s.cntUp bERR 0 0xC30 1 ∧ u.ev bERR 0 0 = true ∧
        ((s.reg bERR 0 oINFO2).getLsbD 5 = false → u.reg bERR 0 oINFO0 = BitVec.ofNat 32 addr.toNat ∧
          (u.reg bERR 0 oINFO1).toNat % 2 ^ 16 = addr.toNat / 2 ^ 32))) ∧
  (∀ (s : State) (c : Cmd) (p n : Nat), s.takes c = true → p ≠ 0 → p < 1024 → n < 2 ^ 19 → (s.part p).cmd = none →
    (s.part p).lstate ≠ .free → s.fld bPART p oEVENT_ROUTE 0 2 < 2 →
    let used := s.fld bPART p 0x05C 0 19
    let quota := s.fld bPART p 0x058 0 19
    (∃ u, exec (.memGrant c p n) s = .next u ∧ u.mem = s.mem ∧ u.tiles = s.tiles ∧
      (used + n ≤ quota → u.acked 0 = true ∧ u.fld bPART p 0x05C 0 19 = used + n ∧ ∀ r, r ≠ p → u.reg bPART r 0x05C = s.reg bPART r 0x05C) ∧
      (quota < used + n → u.acked 5 = true ∧ u.fld bPART p 0x05C 0 19 = used ∧ u.ev bPART p 5 = true)) ∧
    (∃ u, exec (.memReturn c p n) s = .next u ∧ u.mem = s.mem ∧ u.tiles = s.tiles ∧
      (n ≤ used → u.acked 0 = true ∧ u.fld bPART p 0x05C 0 19 = used - n ∧ ∀ r, r ≠ p → u.reg bPART r 0x05C = s.reg bPART r 0x05C) ∧
      (used < n → u.acked 3 = true ∧ u.fld bPART p 0x05C 0 19 = used)))

/-- The slab map, and the retirement and evacuation of devices (R213, R244-R248): an entry that would take a local
slab in use or change a valid one in place is refused; a device no valid entry names is retired for good; an
evacuation that ends moves its slab's entry to the new device and local slab, the old one being free again. -/
def Obligations.SlabsDevicesAndEvacuation : Prop :=
  ∀ (s : State) (d : Nat), d < 12 →
    let named : Prop := ∃ i v, (i, v) ∈ s.slabs ∧ slabValid v.toNat = true ∧ v.toNat / 2 ^ 8 % 16 = d
    (∀ v : W32, s.locked bDRAMC d = false →
      let i := s.fld bDRAMC d 0x040 0 10
      let w := v &&& 0x8007FFFF
      (i ≤ 863 → s.slabBad i w = false → ¬ (slabValid (s.slab i) = true ∧ slabValid w.toNat = false) →
        exec (.dramcSlabDataWrite d v) s = .next { s with slabs := mset 0 s.slabs i w }) ∧
      (863 < i ∨ s.slabBad i w = true → ∃ u, exec (.dramcSlabDataWrite d v) s = .next u ∧ u.slabs = s.slabs ∧
        u.ev bDRAMC d 3 = true ∧ u.mem = s.mem)) ∧
    (∀ (c : Cmd) (i : Nat) (v : W32), s.takes c = true → s.locked bDRAMC 0 = false → i ≤ 863 → v &&& 0x7FF80000 = 0 →
      v.toNat / 16 % 16 ≤ 11 → v.toNat % 16 ≤ v.toNat / 16 % 16 → v.toNat / 256 % 16 ≤ 11 → v.toNat / 4096 % 128 ≤ 71 →
      slabValid (s.slab i) = false →
      ∃ u, exec (.slabWrite c i v) s = .next u ∧ u.mem = s.mem ∧
        (s.slabBad i v = false → u.acked 0 = true ∧ u.slab i = v.toNat ∧ ∀ k, k ≠ i → u.slab k = s.slab k) ∧
        (s.slabBad i v = true → u.acked 4 = true ∧ u.slabs = s.slabs)) ∧
    (s.locked bDRAMC d = false → ∃ u, exec (.devstateRetire d) s = .next u ∧ u.mem = s.mem ∧ u.slabs = s.slabs ∧
      (¬ named → (u.dev d).state = 2 ∧ d ∈ u.store.ledger.devs ∧ ∀ k, k ≠ d → u.dev k = s.dev k) ∧
      (named → u.devs = s.devs ∧ u.store = s.store ∧ u.ev bDRAMC d 4 = true)) ∧
    (∀ c : Cmd, s.takes c = true → s.locked bDRAMC d = false → (s.dev d).evac = none →
      ∃ u, exec (.devRetire c d) s = .next u ∧ u.mem = s.mem ∧
        (¬ named → u.acked 0 = true ∧ (u.dev d).state = 2) ∧ (named → u.acked 4 = true ∧ u.devs = s.devs)) ∧
    (∀ slab dd dl, slab < 864 → dd < 12 → dl < 72 → s.locked bDRAMC d = false → s.lostLog ≠ 0 →
      slabValid (s.slab slab) = true → s.slab slab / 256 % 16 = d → (s.dev d).evac = none → (s.dev dd).state ≠ 2 →
      (∀ i v, (i, v) ∈ s.slabs → slabValid v.toNat = true → (v.toNat / 256 % 16, v.toNat / 4096 % 128) ≠ (dd, dl)) →
      (∀ k y e, (k, y) ∈ s.devs → y.evac = some e → (e.dstDev, e.dstLocal) ≠ (dd, dl)) →
      let begun (u : State) : Prop := (u.dev d).status = 1 ∧ (u.dev d).state = 1 ∧ u.slabs = s.slabs ∧ u.mem = s.mem ∧
        ∃ e, (u.dev d).evac = some e ∧ e.slab = slab ∧ e.dstDev = dd ∧ e.dstLocal = dl ∧ e.auto = false
      (s.fld bDRAMC d 0x048 0 10 = slab → s.fld bDRAMC d 0x04C 0 4 = dd → s.fld bDRAMC d 0x04C 4 7 = dl →
        ∃ u, exec (.evacStart d) s = .next u ∧ begun u) ∧
      (∀ c : Cmd, s.takes c = true → ∃ u, exec (.devEvac c d slab dd dl) s = .next u ∧ u.acked 9 = true ∧ begun u)) ∧
    (∀ e, (s.dev d).evac = some e → e.auto = false → e.cmd = none → (s.dev d).logWait = [] → (s.dev d).lostRun = none →
      s.ue = [] → s.ce = [] → s.lost = [] → e.slab < 864 → e.dstDev < 12 → e.dstLocal < 72 →
      ∃ u, exec (.evacDone d []) s = .next u ∧ (u.dev d).evac = none ∧ (u.dev d).status = 2 ∧ (u.dev d).state = 0 ∧
        u.slab e.slab / 256 % 16 = e.dstDev ∧ u.slab e.slab / 4096 % 128 = e.dstLocal ∧
        u.slab e.slab % 256 = s.slab e.slab % 256 ∧ (∀ k, k ≠ e.slab → u.slab k = s.slab k) ∧
        u.ev bDRAMC d 2 = true ∧ u.mem = s.mem) ∧
    (∀ (e : Evac) (r : Nat × Nat) (v : State) (n : Option Nat), (s.dev d).evac = some e → e.auto = false → e.cmd = none →
      (s.dev d).logWait = [r] → s.lostLog ≠ 0 → s.load0 s.lostBase 8 3 = (v, n) →
      let space : Prop := ∃ k, n = some k ∧ idxDiff (k % 2 ^ 32) (k / 2 ^ 32) < 2 ^ s.lostLog
      ∃ u, exec (.lostLogReread d) s = .next u ∧
        (¬ space → (u.dev d).logWait = [r] ∧ u.mem = s.mem) ∧
        (space → (u.dev d).logWait = [] ∧ u.ev bDRAMC d 5 = true) ∧
        (space → 262144 ≤ (s.dev d).ptr → (u.dev d).evac = none ∧ ∀ k, k ≠ e.slab → u.slab k = s.slab k) ∧
        (¬ space ∨ (s.dev d).ptr < 262144 → (u.dev d).evac = some e ∧ (u.dev d).ptr = (s.dev d).ptr ∧ u.slabs = s.slabs))

/-- Translation (R226, R229-R234, R238-R240, R476): a walk that finds a leaf with the rights puts it into the die's
buffer; one that does not parks the stream and reports the fault; a record is cached anew once both copies of
XLAT_RELOAD name the partition; a fence advances the epoch, drops unpinned entries, and completes when no earlier
translation is held. -/
def Obligations.TranslationAndFences : Prop :=
  ∀ (s : State),
    (∀ (fd1 : Bool) (p : Nat) (va : BitVec 48) (acc : BitVec 4) (st : Stream), p < 1024 → acc ≠ 0 → s.streamLive p st = true →
      s.bad (s.recAddr p) 32 = false → (s.tbOf fd1).find? (fun e => e.holds p va.toNat) = none →
      (∀ lv base bits, s.walk p va.toNat = .leaf lv base bits → rightsOk bits acc.toNat = true →
        ∃ u, exec (.translationWalkDone fd1 p va acc st) s = .next u ∧ u.mem = s.mem ∧ u.tiles = s.tiles ∧ u.jobs = s.jobs ∧
          u.queues = s.queues ∧ u.conns = s.conns ∧ u.faults = s.faults ∧ u.parts = s.parts ∧
          (∃ e, e ∈ u.tbOf fd1 ∧ e.holds p va.toNat = true ∧ e.bits = bits ∧
            e.pa + (va.toNat - e.va) = base + va.toNat % lvSize lv) ∧ u.tbOf (!fd1) = s.tbOf (!fd1)) ∧
      (∀ lv reason, s.walk p va.toNat = .fault lv reason →
        ∃ u, exec (.translationWalkDone fd1 p va acc st) s = .next u ∧
          (match st with
            | .conn cid => (u.conn cid).parked = true ∧ u.tb = s.tb
            | .tileReq t sp => u.tb = s.tb ∧ (u.headJob (.tileReq t sp)).any (fun j => j.parked) = true
            | .queue a q i => (u.queue a q).entries.any (fun y => y.idx == i && y.parked) = true) ∧
          ((s.faults.filter (fun e => e.fd1 == fd1)).length < 4096 → ∃ e, e ∈ u.faults ∧ e.fd1 = fd1 ∧ e.part = p ∧
            e.lo ≤ va.toNat ∧ va.toNat < e.lo + e.size ∧ st ∈ e.streams))) ∧
    (∀ p, p < 1024 → s.faults = [] → s.faultWaits = [] →
      exec (.fqReread p) s = .next s ∧
      ∀ (inst : Nat) (v : W32), inst < 2 → v.toNat % 1024 = p → s.locked bXLAT inst = false →
        exec (.xlatFqKick inst v) s = .next s) ∧
    (∀ p e, p < 1024 → s.faults = [e] → s.faultWaits = [] → e.part = p → e.slot = none →
      ((s.fqRoom p (s.faultCls e)).2 = none → ∃ u, exec (.fqReread p) s = .next u ∧ u.faults = [e] ∧ u.mem = s.mem) ∧
      (∀ prod, (s.fqRoom p (s.faultCls e)).2 = some prod →
        ∃ u f, exec (.fqReread p) s = .next u ∧ u.faults = [f] ∧ f.slot = some (prod % s.fqSize p) ∧ f.token = e.token ∧
          u.ev bXLAT (dieInst e.fd1) 0 = true ∧ u.tiles = s.tiles ∧ u.conns = s.conns)) ∧
    (∀ (inst : Nat) (v : W32), inst < 2 → s.locked bXLAT inst = false → s.queuesIdle = true →
      let p := v.toNat % 1024
      ((s.part p).reload = 0 → exec (.xlatReload inst v) s = .next (s.setPart p { s.part p with reload := inst + 1 })) ∧
      ((s.part p).reload = 2 - inst → s.reach (s.recAddr p) = true → inDram (s.recAddr p) = true →
        s.bad (s.recAddr p) 32 = false →
        ∃ u, exec (.xlatReload inst v) s = .next u ∧ u.mem = s.mem ∧ u.queues = s.queues ∧
          u.part p = { s.part p with reload := 0, rec_ := parseRec (s.dramBytes 0 (s.recAddr p) 32) })) ∧
    (∀ (q : Nat) (d : Desc), s.readyFor 0 q 0x36 d = true →
      let v := s.taken 0 q 0x36 d
      let p := d.tally.toNat % 1024
      ∃ u, exec (.xlatFence q d) s = .next u ∧ (u.part p).epoch = (v.part p).epoch + 1 ∧
        u.fences = v.fences ++ [{ part := p, q := q, idx := (s.queue 0 q).c, epoch := (v.part p).epoch + 1 }] ∧
        u.tb = v.tb.filter (fun y => y.2.part != p || y.2.pinned) ∧ u.mem = v.mem ∧ u.tiles = v.tiles) ∧
    (∀ p f fs, p < 1024 → s.fences = f :: fs → f.part = p →
      (s.holdsOld p f.epoch = true → exec (.xlatFenceDone p) s = .next s) ∧
      (s.holdsOld p f.epoch = false → ∀ e, (s.queue 0 f.q).entries = [e] → e.idx = f.idx → e.done = none →
        s.queuesTaken 0 f.q = true → e.started = true →
        ∃ u, exec (.xlatFenceDone p) s = .next u ∧ u.fences = fs ∧ (u.queue 0 f.q).entries = [] ∧
          (u.queue 0 f.q).h = ((s.queue 0 f.q).h + 1) % 2 ^ 32))

/-- RESUME_RETRY, RESUME_FAIL and FAULT_RESUME (R239, R241): the entry that the token names leaves the table; a parked
tile request is free to go on, or fails with 0x0005; an unknown token sets RESUME_UNKNOWN and changes no entry. -/
def Obligations.FaultResumes : Prop :=
  ∀ (s : State) (token : W32) (e : FaultEntry) (t : Nat) (j : CopyJob),
    let i := token.toNat % 2
    s.faults = [e] → s.faultWaits = [] → e.slot.isSome = true → e.streams = [.tileReq t j.spill] → s.queuesIdle = true →
    s.jobs = [j] → j.from_ = .tile t → j.parked = true → j.tally.isSome = true → (s.tile t).waitFor ≠ some .copies →
    s.fld bCOPY j.eng oEVENT_ROUTE 0 2 < 2 → s.locked bXLAT i = false →
    let at_ : State := s.setReg bXLAT i 0x050 token
    let gone (u : State) : Prop := u.faults = [] ∧ u.jobs = [{ j with parked := false }] ∧ u.mem = s.mem ∧ u.tiles = s.tiles
    let failed (u : State) : Prop := u.faults = [] ∧ u.jobs = [] ∧ (u.tile t).copies = (s.tile t).copies - 1 ∧
      u.cnt bCOPY j.eng 0xC10 = s.cntUp bCOPY j.eng 0xC10 1 ∧ u.ev bCOPY j.eng 0 = true ∧
      ((s.tile t).xerr.getLsbD 16 = false → (u.tile t).xerr = 0x10005)
    (e.token = token.toNat →
      (∃ u, exec (.resumeRetry i) at_ = .next u ∧ gone u) ∧ (∃ u, exec (.resumeFail i) at_ = .next u ∧ failed u) ∧
      (∀ c : Cmd, s.takes c = true → (∃ u, exec (.faultResume c token 1) s = .next u ∧ gone u ∧ u.acked 0 = true) ∧
        (∃ u, exec (.faultResume c token 2) s = .next u ∧ failed u ∧ u.acked 0 = true))) ∧
    (e.token ≠ token.toNat →
      (∃ u, exec (.resumeRetry i) at_ = .next u ∧ u.faults = s.faults ∧ u.jobs = s.jobs ∧ u.ev bXLAT i 3 = true) ∧
      (∀ c : Cmd, s.takes c = true → ∃ u, exec (.faultResume c token 1) s = .next u ∧ u.acked 4 = true ∧ u.jobs = s.jobs))


/-! ## Ports, network time and scheduling -/

/-- Ports and their links (R42, R252, R253, R260): EN starts training and its end takes both halves down with their
queued frames; PORT_MODE changes only while EN is 0; a half comes up and goes down by itself, a management port with the
rails off too, and each loss is counted. -/
def Obligations.PortsAndLinks : Prop :=
  ∀ (s : State) (n : Nat), s.portOk n = true →
    let x := s.port n
    let others (u : State) : Prop := u.mem = s.mem ∧ u.tiles = s.tiles ∧ ∀ k, k ≠ n → u.port k = s.port k
    (s.locked bPORT n = false →
      (s.fld bPORT n 0x040 0 1 = 0 → exec (.portEnable n) s =
        .next ((s.setReg bPORT n 0x040 1).setPort n { x with training := true })) ∧
      (s.fld bPORT n 0x040 0 1 = 1 → exec (.portEnable n) s = .next s) ∧
      (∃ u, exec (.portDisable n) s = .next u ∧ others u ∧ u.fld bPORT n 0x040 0 1 = 0 ∧ u.portUp n = false ∧
        (u.port n).txq = [] ∧ (u.port n).pauseOut = [] ∧ (u.port n).training = false) ∧
      (∀ v : W32, n < 24 → s.fld bPORT n 0x040 0 1 = 0 →
        exec (.portModeWrite n v) s = .next (s.setReg bPORT n 0x044 (v &&& 1))) ∧
      (∀ v : W32, n < 24 → s.fld bPORT n 0x040 0 1 = 1 → ∃ u, exec (.portModeWrite n v) s = .next u ∧ u.ports = s.ports ∧
        u.reg bPORT n 0x044 = s.reg bPORT n 0x044 ∧ u.ev bPORT n 4 = true ∧ u.mem = s.mem)) ∧
    (∀ h : Bool, s.powered = true → s.fld bPORT n 0x040 0 1 = 1 → (h = true → s.halves n = true) → s.halfUp n h = false →
      ∃ u, exec (.linkUp n h) s = .next u ∧ others u ∧ u.halfUp n h = true ∧ u.halfUp n (!h) = s.halfUp n (!h) ∧
        u.ev bPORT n 1 = true ∧ (u.port n).txq = x.txq) ∧
    (24 ≤ n → s.powered = false → s.pwr.vaux = true → s.halfUp n false = false →
      ∃ u, exec (.linkUp n false) s = .next u ∧ others u ∧ u.halfUp n false = true) ∧
    (∀ h : Bool, s.halfUp n h = true → ∃ u, exec (.linkDown n h) s = .next u ∧ others u ∧ u.halfUp n h = false ∧
      u.halfUp n (!h) = s.halfUp n (!h) ∧ (u.port n).txq = x.txq.filter (fun f => f.half1 != h) ∧
      u.cnt bPORT n 0xCA0 = s.cntUp bPORT n 0xCA0 1 ∧ u.ev bPORT n 0 = true) ∧
    (∀ h : Bool, s.halfUp n h = false → exec (.linkDown n h) s = .next s)

/-- Received frames and pauses (R254-R261, R264): a frame outside 64 to 9,216 bytes or not admitted is counted and gone;
an admitted frame is counted, and with a bad FCS or a pool error counted as failed, a KVT frame's space being held for
the transport; an event message is stamped with network time at the MDI within 2 ns; a pause of the port's mode pauses
its lossless classes for the quanta it names, any other is counted as ignored. How many FEC codewords a frame corrected
is free (log entry 64). -/
def Obligations.FramesReceivedAndPauses : Prop :=
  ∀ (s : State) (n : Nat) (f : RxFrame), s.portOk n = true → s.halfUp n f.half1 = true →
    let x := s.port n
    let cls := frameCls f
    let fec := s.fecCount n f
    (f.len < 64 ∨ 9216 < f.len → exec (.frameReceive n f) s = .next (fec.count bPORT n 0xC68 1)) ∧
    (64 ≤ f.len → f.len ≤ 9216 → s.admits n cls f.len = false →
      exec (.frameReceive n f) s = .next (fec.count bPORT n (0xC20 + 8 * cls) 1)) ∧
    (64 ≤ f.len → f.len ≤ 9216 → s.admits n cls f.len = true →
      s.fcMode n = 0 ∨ (x.pausing = false ∧ s.headroom n < poolSize n - (x.pool + f.len)) →
      ∃ u, exec (.frameReceive n f) s = .next u ∧ u.mem = s.mem ∧ u.tiles = s.tiles ∧
        u.cnt bPORT n 0xC00 = s.cntUp bPORT n 0xC00 1 ∧ u.cnt bPORT n 0xC10 = s.cntUp bPORT n 0xC10 f.len ∧
        (f.poolUe = true → u.cnt bPORT n 0xC70 = s.cntUp bPORT n 0xC70 1 ∧ u.ev bPORT n 3 = true) ∧
        (f.poolUe = false → f.fcsOk = false → u.cnt bPORT n 0xC60 = s.cntUp bPORT n 0xC60 1) ∧
        (f.poolUe = true ∨ f.fcsOk = false → u.time = s.time ∧
          u.port n = (if f.kvt = true then { x with pool := x.pool + f.len } else x)) ∧
        (f.poolUe = false → f.fcsOk = true → f.kvt = false → (u.port n).pool = x.pool) ∧
        (f.poolUe = false → f.fcsOk = true → f.metered = false → f.kvt = true → (u.port n).pool = x.pool + f.len) ∧
        (∀ e, f.poolUe = false → f.fcsOk = true → f.metered = false → f.ptpEvent = some e → x.tsRx.length < 16 →
          ∃ t, (u.port n).tsRx = x.tsRx ++ [t] ∧ t.seq = e.1 ∧ t.kind = e.2 ∧ t.half1 = f.half1 ∧ ∃ off : Int,
            -(2 ^ 33) ≤ off ∧ off ≤ 2 ^ 33 ∧ (((t.sec * 1000000000 + t.ns) * 2 ^ 16 + t.frac : Nat) : Int) =
              ((s.time.fine : Int) + mget 0 s.ident.asym (2 * n + 1) + off) % (2 ^ 48 * 1000000000 * 2 ^ 32) / 2 ^ 16)) ∧
    (∀ (pfc : Bool) (classes : Byte) (quanta : List (BitVec 16)),
      (s.fcMode n ≠ (if pfc = true then 1 else 2) →
        exec (.pauseReceive n pfc classes quanta) s = .next (s.count bPORT n 0xC98 1)) ∧
      (s.fcMode n = (if pfc = true then 1 else 2) → ∃ u, exec (.pauseReceive n pfc classes quanta) s = .next u ∧
        u.cnt bPORT n 0xC88 = s.cntUp bPORT n 0xC88 1 ∧ u.mem = s.mem ∧ (∀ k, k ≠ n → u.port k = s.port k) ∧
        (u.port n).pool = x.pool ∧ (u.port n).txq = x.txq ∧
        ∀ c, c < 8 → mget 0 (u.port n).paused c =
          (if pfc = true then (if classes.getLsbD c = true ∧ s.lossless n c = true then (quanta.getD c 0).toNat else mget 0 x.paused c)
            else (quanta.headD 0).toNat))) ∧
    (∀ c, exec (.pauseExpire n c) s = .next (s.setPort n { x with paused := mset 0 x.paused c 0 })) ∧
    (n < 24 → x.pausing = true → s.fcMode n ≠ 0 → s.poolFreeSpace n ≤ s.headroom n + s.hysteresis n →
      exec (.pauseRefresh n) s = .next (s.setPort n { x with
        pausing := true, pauseOut := x.pauseOut ++ [(s.fcMode n == 1, s.fld bPORT n 0x058 0 16)] })) ∧
    (∀ c, n < 24 → mget 0 x.paused c ≠ 0 → s.fld bPORT n 0x05C 0 16 ≠ 0 → ∃ u, exec (.pfcStorm n c) s = .next u ∧
      u.ev bPORT n 2 = true ∧ u.ports = s.ports ∧ u.mem = s.mem ∧
      ((s.reg bPORT n oINFO2).getLsbD 5 = false → u.reg bPORT n oINFO0 = BitVec.ofNat 32 c))

/-- FRAME_TRANSMIT (R255, R259, R270, R275, R277, R284): a waiting pause frame goes first; else the first frame of the
highest class that is open, eligible, not paused and not guarded starts, tagged with its class and the port's VID, its
packet under the IP header of R284, is counted, and draws on its shaper's bucket. -/
def Obligations.FramesTransmitted : Prop :=
  ∀ (s : State) (n : Nat) (h : Bool), s.portOk n = true → s.halfUp n h = true →
    let x := s.port n
    (∀ pfc q rest, x.pauseOut = (pfc, q) :: rest → ∃ u, exec (.frameTransmit n h) s = .next u ∧
      (u.port n).pauseOut = rest ∧ (u.port n).txq = x.txq ∧ u.mem = s.mem ∧ u.scheds = s.scheds ∧
      u.cnt bPORT n 0xC90 = s.cntUp bPORT n 0xC90 1 ∧
      u.out = s.out ++ [.pause n pfc (if pfc = true then BitVec.ofNat 8 (s.fld bPORT n 0x050 8 8) else 0xFF) q]) ∧
    (∀ f c, x.pauseOut = [] → n < 24 → c < 8 → s.fld bSCHED n 0x040 1 1 = 0 → x.head h c = some f → s.openFor n c = true →
      (∀ d, c < d → d < 8 → s.openFor n d = true → x.head h d = none) → f.ptp = none → f.cls = c →
      let y := s.sched n
      ∃ u, exec (.frameTransmit n h) s = .next u ∧ u.out = s.out ++
          [.frame n f.half1 c (some (s.fld bPORT n 0x04C 0 12)) f.len f.pkt (f.pkt.map (fun x => ipOf x.2))] ∧
        (u.port n).txq = x.txq.erase f ∧ u.cnt bPORT n 0xC08 = s.cntUp bPORT n 0xC08 1 ∧
        u.cnt bPORT n 0xC18 = s.cntUp bPORT n 0xC18 f.len ∧ u.mem = s.mem ∧
        mget 0 (u.sched n).tokens c =
          (if (mget {} y.shp c).en = true then mget 0 y.tokens c - max 0 ((f.len : Int) + y.ovh) * 2025 else mget 0 y.tokens c) ∧
        (∀ d, d ≠ c → mget 0 (u.sched n).tokens d = mget 0 y.tokens d) ∧ (u.sched n).mask = y.mask) ∧
    (x.pauseOut = [] → (∀ c, c < 8 → s.openFor n c = true → x.head h c = none) →
      exec (.frameTransmit n h) s = .next s)

/-- Network time (R262-R266): a pop shows the oldest timestamp or none; a step moves network time by signed seconds
and nanoseconds, to every reader at once, and places the gates anew; a latch copies it; a missing sync message loses
lock; the clock moves to the lowest port that is up when its own is not.
R263 to R262: an NCLK edge adds PTP_INCR to network time, which counts 2^-32 ns, and time runs on through the
second: NCLK edges one after the other add up. -/
def Obligations.NetworkTime : Prop :=
  (∀ (s : State),
    let shown (n : Nat) (t : Stamp) (u : State) : Prop := u.reg bPORT n 0x068 = 0x100 ∧ u.mem = s.mem ∧ u.time = s.time ∧
      u.reg bPORT n 0x070 = BitVec.ofNat 32 t.sec ∧
      u.reg bPORT n 0x074 = BitVec.ofNat 32 (t.sec / 2 ^ 32 % 65536 + t.seq.toNat * 65536) ∧
      u.reg bPORT n 0x078 = BitVec.ofNat 32 t.ns ∧
      u.reg bPORT n 0x07C = BitVec.ofNat 32 (t.frac + t.kind.toNat * 65536 + t.half1.toNat * 2 ^ 20)
    (∀ n, s.portOk n = true → s.locked bPORT n = false →
      ((s.port n).tsRx = [] → exec (.tsPopRx n) s = .next (s.setReg bPORT n 0x068 0)) ∧
      ((s.port n).tsTx = [] → exec (.tsPopTx n) s = .next (s.setReg bPORT n 0x068 0)) ∧
      (∀ t ts,
        ((s.port n).tsRx = t :: ts → ∃ u, exec (.tsPopRx n) s = .next u ∧ shown n t u ∧ (u.port n).tsRx = ts ∧
          (u.port n).tsTx = (s.port n).tsTx) ∧
        ((s.port n).tsTx = t :: ts → ∃ u, exec (.tsPopTx n) s = .next u ∧ shown n t u ∧ (u.port n).tsTx = ts ∧
          (u.port n).tsRx = (s.port n).tsRx))) ∧
    (s.locked bPTP 0 = false →
      (∃ u, exec .ptpStep s = .next u ∧ u.mem = s.mem ∧ u.ev bPTP 0 2 = true ∧ u.cnt bPTP 0 0xC08 = s.cntUp bPTP 0 0xC08 1 ∧
        ((u.time.sec * 1000000000 + u.time.ns : Nat) : Int) = (((s.time.sec * 1000000000 + s.time.ns : Nat) : Int) +
          (s.reg bPTP 0 0x050).toInt * 1000000000 + (s.reg bPTP 0 0x054).toInt) % (2 ^ 48 * 1000000000) ∧
        u.time.ns < 1000000000 ∧ u.time.sub = s.time.sub) ∧
      (∃ u, exec .ptpLatch s = .next u ∧ u = { s with regs := u.regs } ∧ u.reg bPTP 0 0x058 = BitVec.ofNat 32 s.time.sec ∧
        u.reg bPTP 0 0x060 = BitVec.ofNat 32 s.time.ns ∧
        u.reg bPTP 0 0x05C = BitVec.ofNat 32 (s.time.sec / 2 ^ 32 % 65536 + s.time.frac * 65536))) ∧
    (∃ u, exec .ptpSyncTimeout s = .next u ∧ u.timeLocked = false ∧ u.time.inLock = 0 ∧ u.time.outLock = 0 ∧
      u.time.sec = s.time.sec ∧ u.time.ns = s.time.ns ∧ u.tray.ppsOut = (s.tray.ppsOut && !s.timeLocked) ∧
      (s.timeLocked = true → u.ev bPTP 0 1 = true) ∧ u.mem = s.mem) ∧
    (s.portUp s.clockPort = true → exec .ptpPortMove s = .next s) ∧
    (∀ n, s.portUp s.clockPort = false → n < 26 → s.portOk n = true → s.portUp n = true →
      (∀ k, k < n → (s.portOk k && s.portUp k) = false) → ∃ u, exec .ptpPortMove s = .next u ∧ u.clockPort = n ∧
      u.ev bPTP 0 3 = true ∧ u.time = s.time ∧ u.mem = s.mem)) ∧
  (∀ (s : State) (j k : Nat), s.time.ns < 1000000000 → s.time.sub < 2 ^ 32 → s.time.sec < 2 ^ 48 →
    ((s.nclk j).nclk k).time = (s.nclk (j + k)).time ∧
    (s.nclk k).time.fine = (s.time.fine + k * (s.reg bPTP 0 0x048).toNat) % (2 ^ 48 * 1000000000 * 2 ^ 32) ∧
    (s.nclk k).time.ns < 1000000000 ∧ (s.nclk k).time.sub < 2 ^ 32)

/-- Gates, shapers and meters (R271-R282): GATE_EN copies the shadow list and waits for its first cycle; the boundary of
an entry opens the next one's mask; a swap takes effect at the first cycle boundary at or after its time; commits take
effect at a refill, which never fills a bucket past its burst. -/
def Obligations.GatesShapersAndMeters : Prop :=
  ∀ (s : State) (n : Nat), s.dataPort n = true →
    let x := s.sched n
    let base := time3 (s.reg bSCHED n 0x054) (s.reg bSCHED n 0x058) (s.reg bSCHED n 0x05C)
    let others (u : State) : Prop := u.mem = s.mem ∧ u.ports = s.ports ∧ ∀ k, k ≠ n → u.sched k = s.sched k
    (s.locked bSCHED n = false →
      (s.fld bSCHED n 0x040 0 1 = 0 → ∃ u, exec (.gateEnable n) s = .next u ∧ others u ∧ (u.sched n).active = true ∧
        (u.sched n).act = x.shadow ∧ (u.sched n).going = false ∧ (u.sched n).mask = 0xFF ∧ u.fld bSCHED n 0x040 0 1 = 1 ∧
        (0 < x.shadow.cycle → ∃ t : Int, (u.sched n).start = some t ∧ s.timeNs ≤ t ∧ base ≤ t ∧
          (base < t → t - x.shadow.cycle < s.timeNs ∧ (t - base) % x.shadow.cycle = 0))) ∧
      (x.active = true → exec (.gateSwap n) s = .next (s.setSched n { x with
        swapPend := true, swapAt := time3 (s.reg bSCHED n 0x060) (s.reg bSCHED n 0x064) (s.reg bSCHED n 0x068) })) ∧
      (x.active = false → ∃ u, exec (.gateSwap n) s = .next u ∧ u.scheds = s.scheds ∧ u.ev bSCHED n 1 = true) ∧
      (exec (.shpCommit n) s = .next (s.setSched n { x with shpPend := true }))) ∧
    (∀ t, x.active = true → x.start = some t → x.going = true →
      (∀ e, x.nextEntry = some e →
        exec (.gateEntryBoundary n) s = .next (s.setSched n { x with entry := e.1, mask := e.2.2 })) ∧
      (x.nextEntry = none → ∃ u, exec (.gateEntryBoundary n) s = .next u ∧ others u ∧
        (u.sched n).start = some (t + x.act.cycle) ∧
        (x.swapPend = true → x.swapAt ≤ t + x.act.cycle → (u.sched n).act = x.shadow ∧ (u.sched n).shadow = x.act ∧
          (u.sched n).swapPend = false ∧ u.ev bSCHED n 0 = true) ∧
        (x.swapPend = false ∨ t + x.act.cycle < x.swapAt → (u.sched n).act = x.act ∧ (u.sched n).swapPend = x.swapPend) ∧
        (x.act.cycle < x.act.total → u.ev bSCHED n 2 = true ∧ u.cnt bSCHED n 0xC08 = s.cntUp bSCHED n 0xC08 1))) ∧
    (∃ u, exec (.shaperRefill n) s = .next u ∧ others u ∧ (u.sched n).shpPend = false ∧
      (x.shpPend = false → (u.sched n).shp = x.shp ∧ (u.sched n).ovh = x.ovh) ∧
      (x.shpPend = true → (u.sched n).shp = x.staged) ∧
      ∀ c, c < 8 → let g := mget {} (u.sched n).shp c
        mget 0 (u.sched n).tokens c = min (mget 0 x.tokens c + 16 * (min g.rate 800000 : Nat)) ((g.burst * 2025 : Nat) : Int)) ∧
    (∀ fd1 : Bool, s.locked bMETER (dieInst fd1) = false →
      let k := meterKey fd1 (s.fld bMETER (dieInst fd1) 0x040 0 10) (s.fld bMETER (dieInst fd1) 0x040 16 3)
      exec (.meterCommit fd1) s = .next (s.setMeter k { s.meter k with pend := true })) ∧
    (∀ fd1 : Bool, ∃ u, exec (.meterRefill fd1) s = .next u ∧ u.mem = s.mem ∧ u.scheds = s.scheds ∧ ∀ k,
      (((k / 8192 == 1) == fd1) = false → u.meter k = s.meter k) ∧
      (((k / 8192 == 1) == fd1) = true → k ∈ s.meters.map Prod.fst → (s.meters.map Prod.fst).Nodup →
        (u.meter k).cfg = (if (s.meter k).pend = true then (s.meter k).staged else (s.meter k).cfg) ∧
        (u.meter k).pend = false ∧ (u.meter k).tc ≤ (u.meter k).cfg.cbs * 2025 ∧ (u.meter k).tx ≤ (u.meter k).cfg.xbs * 2025)) ∧
    (∀ (c : Cmd) (v : W32), s.takes c = true → s.locked bSCHED n = false → v &&& 0xFFFFFF00 = 0 → x.shpPend = false →
      ∃ u, exec (.schedSet c n 0x048 v) s = .next u ∧ u.acked 0 = true ∧ others u ∧ u.fld bSCHED n 0x048 0 8 = v.toNat)


/-! ## The KVT transport -/

/-- Messages hem (R301, R310-R314, R327-R332, R337, R356): a message that is whole and next in order is placed at its
target, or read, or combined, exactly once, is passed by E and the hem order, and completes what waits for it; a
receive takes its record, a response its request's entry, a COLL message its run's chunk, and a CLOSE its connection. -/
def Obligations.KvtMessagesHem : Prop :=
  ∀ (s : State) (k : Pkt),
    let cid := k.cid.toNat
    let c := s.conn cid
    let p := c.part
    let va := k.rva.toNat
    let n := k.payload.length
    let i := kvtInst c
    (∀ pa, s.rxWhole 1 k = true → s.isDbKey p k.key = false → s.winCheck p 1 k.key va n = 0 → s.lineAt p accW va n = some pa →
      ∃ u, exec (.kvtWrite k) s = .next u ∧ s.hemmedIn u 1 k = true ∧ u.mem = writeBytes s.mem pa k.payload ∧ u.queues = s.queues) ∧
    (s.rxWhole 1 k = true → s.isDbKey p k.key = true → s.dbCheck p 1 va n = 0 → s.bellLost p (va / 8) = true →
      ∃ u, exec (.kvtWrite k) s = .next u ∧ s.hemmedIn u 1 k = true ∧ u.mem = s.mem ∧ u.queues = s.queues ∧
        u.cnt bPART p 0xC08 = s.cntUp bPART p 0xC08 1) ∧
    (∀ pa ra r, s.rxWhole 2 k = true → s.isDbKey p k.key = false → s.winCheck p 2 k.key va n = 0 →
      s.lineAt p accW va n = some pa → inSram pa = true → c.recvs = [r] → s.loneEntry p r.q r.idx = true → r.p = p →
      r.d.rva ≠ 0 → s.lineAt p accW r.d.rva.toNat 16 = some ra → inSram ra = true → (ra + 16 ≤ pa ∨ pa + n ≤ ra) →
      ∃ u, exec (.kvtWriteImm k) s = .next u ∧ s.hemmedIn u 2 k = true ∧ s.entryDone u p r.q = true ∧
        (u.conn cid).recvs = [] ∧ readBytes u.mem pa n = k.payload ∧
        readBytes u.mem ra 16 = leBytes 4 n ++ leBytes 4 k.imm.toNat ++ [2, 0, 0, 0, 0, 0, 0, 0]) ∧
    (∀ pa r, s.rxWhole 5 k = true → s.lineAt p accW r.d.lva.toNat n = some pa → inSram pa = true → c.recvs = [r] →
      n ≤ r.d.len.toNat → s.loneEntry p r.q r.idx = true → r.p = p → r.d.rva = 0 →
      ∃ u, exec (.kvtSend k) s = .next u ∧ s.hemmedIn u 5 k = true ∧ s.entryDone u p r.q = true ∧
        (u.conn cid).recvs = [] ∧ readBytes u.mem pa n = k.payload ∧
        ∀ a, inSram a = true → a < pa ∨ pa + n ≤ a → mget 0 u.mem a = mget 0 s.mem a) ∧
    (∀ pa, s.rxWhole 3 k = true → s.isDbKey p k.key = false → s.winCheck p 3 k.key va k.length.toNat = 0 →
      s.lineAt p accR va k.length.toNat = some pa →
      ∃ u m, exec (.kvtReadReq k) s = .next u ∧ s.hemmedIn u 3 k = true ∧ u.mem = s.mem ∧ (u.conn cid).txq = c.txq ++ [m] ∧
        m.op = 4 ∧ m.org = .readResp k.msgId ∧ m.len = k.length.toNat ∧ m.rva = k.rva ∧ m.sent = 0) ∧
    (∀ pa, s.rxWhole 6 k = true → s.isDbKey p k.key = false → s.winCheck p 6 k.key va n = 0 → s.lineAt p accAT va 8 = some pa →
      inDram pa = true → k.imm.toNat % 16 = 1 ∨ k.imm.toNat % 16 = 2 → n = 8 * (k.imm.toNat % 16) → va % 8 = 0 →
      let old := leNat (readBytes s.mem pa 8)
      let x := beNat (k.payload.take 8)
      let new := if k.imm.toNat % 16 = 1 then (old + x) % 2 ^ 64 else if old = x then beNat (k.payload.drop 8) else old
      ∃ u m, exec (.kvtAtomicReq k) s = .next u ∧ s.hemmedIn u 6 k = true ∧ u.mem = writeBytes s.mem pa (leBytes 8 new) ∧
        (u.conn cid).txq = c.txq ++ [m] ∧ m.op = 7 ∧ m.org = .atomicResp k.msgId (BitVec.ofNat 64 old) ∧ m.data = beBytes 8 old) ∧
    (∀ pa, s.rxWhole 8 k = true → s.isDbKey p k.key = false → s.winCheck p 8 k.key va n = 0 → s.lineAt p accRD va n = some pa →
      inDram pa = true → k.imm.toNat % 16 ≤ 2 → k.imm.toNat / 16 % 16 ≤ 5 → n % unitBytes (k.imm.toNat / 16 % 16) = 0 →
      ∃ u, exec (.kvtReduce k) s = .next u ∧ s.hemmedIn u 8 k = true ∧ u.queues = s.queues ∧
        u.mem = writeBytes s.mem pa (reduceBytes (k.imm.toNat / 16 % 16) (k.imm.toNat % 16) (readBytes s.mem pa n) k.payload)) ∧
    (∀ a q j pa, s.rxWhole 4 k = true → c.awaits = [a] → a.op = 3 → a.msgId = k.op24.extractLsb' 16 16 → a.len = n →
      a.runs = [] → a.org = .entry p q j → s.loneEntry p q j = true → s.lineAt p accW a.lva n = some pa → inSram pa = true →
      ∃ u, exec (.kvtReadResp k) s = .next u ∧ s.hemmedIn u 4 k = true ∧ s.entryDone u p q = true ∧
        (u.conn cid).awaits = [] ∧ readBytes u.mem pa n = k.payload ∧
        ∀ a, inSram a = true → a < pa ∨ pa + n ≤ a → mget 0 u.mem a = mget 0 s.mem a) ∧
    (∀ a q j pa, s.rxWhole 7 k = true → c.awaits = [a] → a.op = 6 → a.msgId = k.op24.extractLsb' 16 16 → n = 8 →
      a.runs = [] → a.org = .entry p q j → s.loneEntry p q j = true → s.lineAt p accW a.lva 8 = some pa → inSram pa = true →
      ∃ u, exec (.kvtAtomicResp k) s = .next u ∧ s.hemmedIn u 7 k = true ∧ s.entryDone u p q = true ∧
        (u.conn cid).awaits = [] ∧ readBytes u.mem pa 8 = k.payload.reverse) ∧
    (∀ h r e chunk m, s.rxWhole 0x20 k = true → c.edge = some h → (s.coll h).run = some r → edgeIdx (s.coll h).d cid = some (e + 1) →
      chunk = beNat ((k.payload.drop 8).take 4) → m = beNat ((k.payload.drop 20).take 4) → s.collEarly c 0x20 k = false →
      s.collOver c 0x20 k = false → s.slotBusy h cid 0x20 chunk = false → headerOk (s.coll h).d r (e + 1) 0x20 k.payload = true → n = 32 + upBytes r m →
      ∃ u, exec (.kvtCollUp k) s = .next u ∧ s.hemmedIn u 0x20 k = true ∧ u.mem = s.mem ∧
        (u.coll h).run = some { r with got := r.got ++ [(e, chunk, k.payload.drop 32)] }) ∧
    (∀ h r chunk pa, s.rxWhole 0x21 k = true → c.edge = some h → (s.coll h).run = some r → edgeIdx (s.coll h).d cid = some 0 →
      chunk = beNat ((k.payload.drop 8).take 4) → s.collEarly c 0x21 k = false → s.collOver c 0x21 k = false →
      s.slotBusy h cid 0x21 chunk = false →
      headerOk (s.coll h).d r 0 0x21 k.payload = true →
      n = 32 + tyBytes r.ty (chunkSpan (downElems (s.coll h).d r) (runC r) chunk).2 →
      let o := ownPart (s.coll h).d r chunk (k.payload.drop 32)
      s.heldAt r.p r.dstRuns (r.dst + o.1) o.2.length = some pa → (s.coll h).d.children = [] →
      s.collUnacked h = true →
      ∃ u, exec (.kvtCollDown k) s = .next u ∧ s.hemmedIn u 0x21 k = true ∧ u.mem = writeBytes s.mem pa o.2 ∧
        (u.coll h).run = some { r with downNext := chunk + 1 } ∧
        u.cnt bCOLL (dieInst (s.coll h).d.home) 0xC18 = s.cntUp bCOLL (dieInst (s.coll h).d.home) 0xC18 1) ∧
    (s.rxWhole 0x32 k = true → k.op24.toNat % 256 ≠ 1 → c.cmd = none →
      ∃ u, exec (.kvtClose k) s = .next u ∧ (u.conn cid).state = .free ∧ u.cached cid = false ∧ u.mem = s.mem ∧
        u.cnt bKVT i 0xC00 = if (s.linkOf cid c.nextLabel).isSome then s.cntUp bKVT i 0xC00 1 else s.cnt bKVT i 0xC00) ∧
    (s.rxGood 0x32 k = true → k.op24.toNat % 256 = 1 → c.edge = none → c.cmd = none → c.txq = [] → c.rxq = [] → c.recvs = [] →
      c.awaits = [] → ∃ u, exec (.kvtClose k) s = .next u ∧ (u.conn cid).state = .error ∧ (u.conn cid).cause = 1 ∧
        u.cnt bKVT i 0xC68 = s.cntUp bKVT i 0xC68 1 ∧ u.ev bKVT i 0 = true ∧ (s.soft = [] → u.mem = s.mem))


/-- Control packets (R294, R295, R298, R300, R302-R305, R307, R318, R320, R521, Table 12-6): an ACK moves A on and
completes what it covers; a NAK resends, ends one message, parks or fails the connection; a GRANT raises an allowance;
a MOVED gives the peer a new address; a probe is answered; CONNECT and ACCEPT open; an unknown CID is NAKed. -/
def Obligations.KvtControlPackets : Prop :=
  ∀ (s : State) (k : Pkt),
    let cid := k.cid.toNat
    let c := s.conn cid
    let p := c.part
    let i := kvtInst c
    let id := k.op28.extractLsb' 16 16
    let psn := k.op24.toNat / 256
    let x := dieInst (decide (12 ≤ k.port))
    (∀ m q j, s.rxGood 0x10 k = true → k.flags.getLsbD 6 = false → psnDiff psn c.a ≠ 0 → psnDiff psn c.a ≤ psnDiff c.nMax c.a →
      c.txq = [m] → m.covered c.mtu psn = true → m.ended = false → m.op = 1 → m.org = .entry p q j → s.loneEntry p q j = true →
      ∃ u, exec (.kvtAck k) s = .next u ∧ (u.conn cid).a = psn ∧ (u.conn cid).txq = [] ∧ (u.conn cid).retries = 0 ∧
        s.entryDone u p q = true) ∧
    (s.rxGood 0x10 k = true → k.flags.getLsbD 6 = true → k.probe = false → psnDiff psn c.a = 0 → c.echoed = false →
      ∃ u, exec (.kvtAck k) s = .next u ∧ (u.conn cid).uc = max 4096 (c.uc / 2) ∧ (u.conn cid).echoed = true ∧
        (u.conn cid).a = c.a ∧ (u.conn cid).txq = c.txq ∧ u.mem = s.mem) ∧
    (s.rxGood 0x11 k = true → k.op28.getLsbD 0 = false →
      (k.op24.toNat % 256 = 1 → psnDiff psn c.a < psnDiff c.nMax c.a → ∃ u, exec (.kvtNak k) s = .next u ∧
        (u.conn cid).n = psn ∧ (u.conn cid).retries = c.retries + 1 ∧ (u.conn cid).a = c.a ∧ u.mem = s.mem ∧
        u.cnt bKVT i 0xC20 = s.cntUp bKVT i 0xC20 1) ∧
      (∀ m q j r, k.op24.toNat % 256 = r → r = 2 ∨ r = 3 ∨ r = 4 ∨ r = 6 ∨ r = 7 → c.txq = [m] → m.first.isSome = true →
        m.msgId = id → m.ended = false → m.op = 1 → c.awaits = [] → m.org = .entry p q j → s.loneEntry p q j = true →
        ∃ u, exec (.kvtNak k) s = .next u ∧ s.entryDone u p q = true ∧ (u.queue p q).err = true ∧
          (u.conn cid).txq = [{ m with ended := true }] ∧ (u.conn cid).state = .open_) ∧
      (k.op24.toNat % 256 = 9 → ∃ u, exec (.kvtNak k) s = .next u ∧ (u.conn cid).txParked = true ∧ (u.conn cid).n = c.a ∧
        u.mem = s.mem) ∧
      (k.op24.toNat % 256 = 8 ∨ k.op24.toNat % 256 = 10 → c.bare = true → s.soft = [] → ∃ u, exec (.kvtNak k) s = .next u ∧
        s.errorIn u cid (if k.op24.toNat % 256 = 8 then 8 else 0x0B) = true ∧ u.mem = s.mem)) ∧
    (s.rxGood 0x12 k = true → ∃ u, exec (.kvtGrant k) s = .next u ∧ u.mem = s.mem ∧ (u.conn cid).a = c.a ∧
      (u.conn cid).txq = c.txq.map (fun m => if m.first.isSome ∧ m.msgId = id then
        { m with granted := max m.granted k.op24.toNat } else m)) ∧
    (s.rxGood 0x13 k = true → (k.payload.getD 12 0).getLsbD 0 = false → ∃ u, exec (.kvtMoved k) s = .next u ∧ u.mem = s.mem ∧
      (u.conn cid).peerCid = beNat (k.payload.take 4) / 4096 ∧ (u.conn cid).n = c.a ∧ (u.conn cid).txq = c.txq ∧
      (u.conn cid).peerAddr = BitVec.ofNat 128 (beNat ((k.payload.drop 16).take 16)) ∧
      (u.conn cid).peerPort = beNat ((k.payload.drop 14).take 2)) ∧
    (s.rxGood 0x13 k = true → (k.payload.getD 12 0).getLsbD 0 = true → c.bare = true → ∃ u, exec (.kvtMoved k) s = .next u ∧
      s.errorIn u cid 0x0C = true) ∧
    (s.rxGood 0x10 k = true → psn = c.a → k.flags.getLsbD 6 = false →
      ∃ u, exec (.kvtProbe k) s = .next u ∧ u.mem = s.mem ∧
        u.conn cid = { c with pktsInt := c.pktsInt + 1, ceInt := c.ceInt + k.ce.toNat } ∧
        s.sentOn u cid 0x10 c.nextLabel (fun y => y.probe && y.op24 == BitVec.ofNat 32 (c.ackLimit * 256)) = true) ∧
    (k.version = 1 → k.fcsOk = true → k.trailerOk = true → s.conns.all (fun y => y.2.peerAddr != k.src) = true → ∀ m : Pick,
      let b := k.payload
      let f := b.getD 13 0
      let tag : W32 := BitVec.ofNat 32 (beNat ((b.drop 16).take 4))
      (s.connectPart k.dst = none → ∃ u, exec (.kvtConnect k m) s = .next u ∧ u.conns = s.conns ∧ u.mem = s.mem ∧
        u.cnt bKVT x 0xC78 = s.cntUp bKVT x 0xC78 1) ∧
      (∀ t j, s.connectPart k.dst = some t → j < 4 → tag ≠ 0 → s.reg bPART t (0x080 + 4 * j) = tag → f.getLsbD 1 = false →
        s.connRoom t (bitsAt f.toNat 2 3) (f.getLsbD 0) = true → s.cidFree m.cid = true →
        ∃ u, exec (.kvtConnect k m) s = .next u ∧ u.mem = s.mem ∧ (∀ d, d ≠ m.cid → u.conn d = s.conn d) ∧
          let d := u.conn m.cid
          d.state = .open_ ∧ d.part = t ∧ d.peerAddr = k.src ∧ d.localAddr = k.dst ∧ d.peerCid = beNat (b.take 4) / 4096 ∧
          d.e = beNat ((b.drop 4).take 4) / 256 ∧ d.enc = f.getLsbD 0 ∧ d.a = m.psn.toNat ∧ d.nMax = m.psn.toNat ∧
          d.home = s.newHome ∧ u.cached m.cid = true)) ∧
    (k.version = 1 → k.fcsOk = true → k.trailerOk = true → c.state = .connecting → ∀ y, c.cmd = some y → y.chan = .manager →
      s.outFree .manager = true → ∃ u, exec (.kvtAccept k) s = .next u ∧ u.mem = s.mem ∧ u.finished y 0 [BitVec.ofNat 64 cid] = true ∧
        (u.conn cid).state = .open_ ∧ (u.conn cid).cmd = none ∧ (u.conn cid).peerCid = beNat (k.payload.take 4) / 4096 ∧
        (u.conn cid).e = beNat ((k.payload.drop 4).take 4) / 256 ∧
        (u.conn cid).mtu = min (mtuOf ((k.payload.getD 12 0).setWidth 2)) (mtuOf c.offer)) ∧
    (∀ o : Byte, s.queuesIdle = true → c.state = .free →
      (k.version ≠ 1 ∨ opKnown o.toNat = false → ∃ u, exec (.unknownCidPacket k o) s = .next u ∧ u.conns = s.conns ∧
        u.mem = s.mem ∧ u.ev bKVT x 2 = true ∧ u.cnt bKVT x 0xC48 = s.cntUp bKVT x 0xC48 1) ∧
      (k.version = 1 → opKnown o.toNat = true → k.fcsOk = true → k.flags.getLsbD 5 = true ∨ k.trailerOk = true → ∃ u, exec (.unknownCidPacket k o) s = .next u ∧
        u.conns = s.conns ∧ u.mem = s.mem ∧ u.cnt bKVT x 0xC18 =
          (if unanswered o.toNat = true ∨ s.naks.any (fun y => y.1 == k.src.toNat && y.2.1 == cid && decide (s.align < y.2.2 + tenMicros)) = true
            then s.cnt bKVT x 0xC18 else s.cntUp bKVT x 0xC18 1)))


/-- What connections and collective runs do by themselves (R295-R298, R300, R302-R308, R320, R351, R355-R357): a
context comes into the cache; a data packet goes out or again; each timer sends, resends, ends a hold or fails its
connection; windows grow; a run combines its next chunk, or gets its slots. -/
def Obligations.KvtTimersAndSending : Prop :=
  ∀ (s : State) (cid : Nat), s.queuesIdle = true →
    let c := s.conn cid
    let i := kvtInst c
    let lab := c.nextLabel
    let clear := connLive c = true ∧ c.enc = false
    let sends (u : State) : Prop := u.cnt bKVT i 0xC00 =
      if (s.linkOf cid lab).isSome then s.cntUp bKVT i 0xC00 1 else s.cnt bKVT i 0xC00
    let still (u : State) : Prop := u.mem = s.mem ∧ u.queues = s.queues ∧ ∀ d, d ≠ cid → u.conn d = s.conn d
    let base := (s.reg bKVT 0 0x068).toNat / 4096 * 4096 + s.fld bKVT 0 0x06C 0 16 * 2 ^ 32
    ((s.kvtDie c.home).fetch = [cid] → (s.kvtDie c.home).misses = [] →
      (s.bad (base + cid * 256) 256 = false → ∃ u, exec (.contextFetchDone cid) s = .next u ∧ still u ∧ u.conn cid = c ∧
        u.cached cid = true ∧ (u.kvtDie c.home).fetch = []) ∧
      (s.bad (base + cid * 256) 256 = true → c.state = .open_ → c.bare = true → s.soft = [] →
        ∃ u, exec (.contextFetchDone cid) s = .next u ∧ still u ∧ s.errorIn u cid 6 = true)) ∧
    (clear → c.txParked = false → s.cached cid = true →
      (∀ m pa, s.msgParked cid m = false → c.n = c.nMax → psnDiff c.nMax c.a < 256 → c.txq = [m] → m.op = 1 → m.ended = false → m.sent = 0 → m.data = [] →
        (∀ r, m.org ≠ .readResp r) → m.first = none → m.len ≤ c.mtu → m.len ≤ c.uc → s.heldAt c.part m.runs m.lva m.len = some pa →
        ∃ u, exec (.kvtSendPacket cid) s = .next u ∧ still u ∧ (u.conn cid).nMax = psnAdd c.nMax 1 ∧
          (u.conn cid).n = psnAdd c.nMax 1 ∧ (u.conn cid).a = c.a ∧ (u.conn cid).nextMsg = c.nextMsg + 1 ∧
          (u.conn cid).label = (lab + 1) % 64 ∧ sends u ∧
          (u.conn cid).txq.map (fun y => (y.msgId, y.first, y.sent)) = [(c.nextMsg, some c.nMax, 1)] ∧
          s.sentOn u cid 1 lab (fun k => k.payload == readBytes s.mem pa m.len && k.psn == BitVec.ofNat 24 c.nMax &&
            k.msgId == c.nextMsg && k.rva == m.rva && k.key == m.key && k.flags.getLsbD 0 && k.flags.getLsbD 1 && !k.flags.getLsbD 7) = true) ∧
      (∀ m y, s.msgParked cid m = false → c.n ≠ c.nMax → c.sent = [y] → y.psn = c.n → c.txq = [m] → m.msgId = y.msgId → m.first.isSome = true → m.op = 1 →
        m.ended = false → m.data ≠ [] → m.data.length = m.len → m.len ≤ c.mtu → y.off = 0 → 0 < c.mtu → (∀ r, m.org ≠ .readResp r) →
        ∃ u, exec (.kvtSendPacket cid) s = .next u ∧ still u ∧ (u.conn cid).n = psnAdd c.n 1 ∧ (u.conn cid).nMax = c.nMax ∧
          u.cnt bKVT i 0xC10 = s.cntUp bKVT i 0xC10 1 ∧
          s.sentOn u cid 1 lab (fun k => k.payload == m.data && k.psn == BitVec.ofNat 24 c.n && k.msgId == m.msgId && k.flags.getLsbD 7) = true)) ∧
    (clear → 0 < c.accepted → ∃ u, exec (.ackTimer cid) s = .next u ∧ still u ∧ (u.conn cid).accepted = 0 ∧
      (u.conn cid).ce = c.ce.filter (fun x => !ackCovers c.ackLimit x) ∧ (u.conn cid).e = c.e ∧ s.sentOn u cid 0x10 lab (fun k =>
        k.op24 == BitVec.ofNat 32 (c.ackLimit * 256) && k.flags.getLsbD 6 == c.ce.any (ackCovers c.ackLimit)) = true) ∧
    (clear → c.parked = false → c.got ≠ [] → ∃ u, exec (.reorderTimeout cid) s = .next u ∧ still u ∧ u.conn cid = c ∧
      u.cnt bKVT i 0xC18 = s.cntUp bKVT i 0xC18 1 ∧
      s.sentOn u cid 0x11 lab (fun k => k.op24 == BitVec.ofNat 32 (c.e * 256 + 1)) = true) ∧
    (connLive c = true → c.a ≠ c.nMax → c.txParked = false →
      (c.retries < s.fld bKVT 0 0x04C 16 4 → ∃ u, exec (.retransmitTimeout cid) s = .next u ∧ still u ∧
        (u.conn cid).n = c.noRecv.getD c.a ∧ (u.conn cid).retries = c.retries + 1 ∧ (u.conn cid).a = c.a ∧ (u.conn cid).txq = c.txq) ∧
      (s.fld bKVT 0 0x04C 16 4 ≤ c.retries → c.bare = true → s.soft = [] → ∃ u, exec (.retransmitTimeout cid) s = .next u ∧ still u ∧
        s.errorIn u cid 0x0A = true)) ∧
    (∀ k, clear → c.suspect.contains k = true → c.probing.contains k = false → ∃ u, exec (.labelHoldExpire cid k) s = .next u ∧
      still u ∧ u.conn cid = { c with probing := c.probing ++ [k] } ∧ s.sentOn u cid 0x10 k (fun y => y.probe) = true) ∧
    (∀ k, exec (.probeTimeout cid k) s = .next (s.setConn cid { c with probing := c.probing.filter (· != k) })) ∧
    (c.state = .connecting → c.sends < 8 → ∃ u, exec (.connectResend cid) s = .next u ∧ still u ∧
      u.conn cid = { c with sends := c.sends + 1 } ∧ sends u) ∧
    (∀ y, c.state = .connecting → 8 ≤ c.sends → c.cmd = some y → y.chan = .manager → s.outFree .manager = true →
      ∃ u, exec (.connectResend cid) s = .next u ∧ still u ∧ (u.conn cid).state = .free ∧ u.finished y 4 [] = true) ∧
    (connLive c = true → exec (.unsolTimer cid) s = .next (s.setConn cid (if c.echoed = true then { c with echoed := false }
      else { c with uc := max c.uc (min (c.uc + 4096) (s.fld bKVT 0 0x050 0 7 * 1024)) }))) ∧
    (connLive c = true → s.conns.all (fun x => x.2.rxq.isEmpty) = true → ∃ u, exec (.grantWindowUpdate cid) s = .next u ∧ still u ∧
      (u.conn cid).pktsInt = 0 ∧ (u.conn cid).ceInt = 0 ∧
      (c.ceInt = 0 → (u.conn cid).wc = min (s.fld bKVT 0 0x054 16 8 * 65536) (c.wc + 65536)) ∧
      (c.ceInt ≠ 0 → c.ceInt ≤ c.pktsInt → 4096 ≤ (u.conn cid).wc ∧
        (4096 < (u.conn cid).wc → (u.conn cid).wc * (2 * c.pktsInt) < c.wc * (2 * c.pktsInt - c.ceInt) + 2 * c.pktsInt ∧
          c.wc * (2 * c.pktsInt - c.ceInt) < (u.conn cid).wc * (2 * c.pktsInt) + 2 * c.pktsInt))) ∧
    (∀ m, clear → c.rxq = [m] → m.ended = false → m.granted = m.len → (∀ d, d ≠ cid → (s.conn d).rxq = []) →
      (m.grantSent < m.granted → ∃ u, exec (.grantTimer cid) s = .next u ∧ still u ∧ (u.conn cid).rxq = [{ m with grantSent := m.granted }] ∧
        s.sentOn u cid 0x12 lab (fun k => k.op24 == BitVec.ofNat 32 m.granted && k.msgId == m.msgId) = true) ∧
      (0 < m.pendingGrant c.mtu → m.unsol < m.grantSent → ∃ u, exec (.grantResend cid m.msgId) s = .next u ∧ still u ∧
        u.conn cid = c ∧ s.sentOn u cid 0x12 lab (fun k => k.op24 == BitVec.ofNat 32 m.grantSent && k.msgId == m.msgId) = true)) ∧
    (c.state = .forwarding → (s.part c.part).cmd = none → ∃ u, exec (.movedHoldExpire cid) s = .next u ∧ still u ∧
      (u.conn cid).state = .free ∧ u.cached cid = false) ∧
    (∀ h r pc pa kids, s.conns.all (fun x => x.2.rxq.isEmpty) = true → (s.coll h).run = some r → (s.coll h).d.parent = some pc →
      let d := (s.coll h).d
      let n := r.upNext
      let x := chunkSpan (upElems d r) (runC r) n
      isRoot d = false → r.kind ≠ 1 → r.kind ≠ 4 → r.waiting = false → n < chunksOf (upElems d r) (runC r) →
      (2 ≤ n → s.collSending h 0x20 (n - 2) = false ∧ s.collSending h 0x21 (n - 2) = false) → s.chunkKids h r n = some kids →
      s.heldAt r.p r.srcRuns (r.src + tyBytes r.ty x.1) (tyBytes r.ty x.2) = some pa →
      (r.src0.drop (tyBytes r.ty x.1)).take (tyBytes r.ty x.2) = readBytes s.mem pa (tyBytes r.ty x.2) →
      ∃ u m, exec (.collChunkCombine h) s = .next u ∧ u.mem = s.mem ∧
        (u.coll h).run = some { r with upNext := n + 1, got := dropGot d r n } ∧ (u.conn pc).txq = (s.conn pc).txq ++ [m] ∧
        m.op = 0x20 ∧ m.org = .coll h n ∧ m.data = collHeader d.tag r n d.rank x.2 ++
          (foldChunk r.ty r.op r.form (readBytes s.mem pa (tyBytes r.ty x.2)) kids).1 ∧
        u.cnt bCOLL (dieInst d.home) 0xC10 = s.cntUp bCOLL (dieInst d.home) 0xC10 1) ∧
    (∀ h r, s.conns.all (fun x => x.2.rxq.isEmpty) = true → s.collWait = [h] → (s.coll h).run = some r → r.slots ≤ s.slotsFree (s.coll h).d.home →
      ∃ u, exec (.collSlotsGranted (s.coll h).d.home) s = .next u ∧ u.mem = s.mem ∧ u.collWait = [] ∧
        (u.coll h).run = some { r with waiting := false })


/-! ## Queues and descriptors -/

/-- Transfer descriptors (R323-R325, R328, R373, R375, R377): an entry that fails a check completes at once with the
status; else its message joins its connection's transmit order, a RECV joins the receives, a FILL or SPILL goes to the
copy engine of its tile, a FENCE holds the queue until FENCE_DONE, and the entry is in progress. -/
def Obligations.TransferDescriptors : Prop :=
  ∀ (s : State) (p q : Nat) (d : Desc),
    let x := s.queue p q
    let cid := d.cid.toNat
    let transfer (op : Nat) (r : Host.Outcome State Fault Refusal) : Prop := s.readyAlone p q op d = true →
      let v := s.taken p q op d
      let st := v.transferStatus p op d
      (st ≠ 0 → ∃ u, r = .next u ∧ s.tookNow u p q st = true ∧ u.conns = v.conns ∧ u.jobs = v.jobs) ∧
      (st = 0 → v.cached cid = true → (d.len ≠ 0 → ∃ h, (v.xlate (v.conn cid).home p d.lva.toNat (localAcc op)).2 = .inr h) →
        ∃ u, r = .next u ∧ s.tookBegun u p q op d = true ∧ (∀ k, k ≠ cid → u.conn k = v.conn k) ∧
          (op = 5 → (u.conn cid).recvs = (v.conn cid).recvs ++ [{ p := p, q := q, idx := x.c, d := d }] ∧
            (u.conn cid).txq = (v.conn cid).txq) ∧
          (op ≠ 5 → (u.conn cid).recvs = (v.conn cid).recvs ∧
            (u.conn cid).txq.map (fun m => { m with runs := [] }) = (v.conn cid).txq.map (fun m => { m with runs := [] }) ++
              [{ org := .entry p q x.c, op := kvtOp op, msgId := 0, len := d.len.toNat, lva := d.lva.toNat, rva := d.rva,
                 key := d.key, imm := (transferMsg .close op d []).imm, first := none, sent := 0, unsol := 0, granted := 0, d := d,
                 data := [], fence := d.flags.getLsbD 0 && (op == 1 || op == 2 || op == 4 || op == 8),
                 small := (op == 1 || op == 2) && smallWrite d.rva.toNat d.len.toNat }])) ∧
      (st = 0 → v.cached cid = false → ((v.kvtDie (v.conn cid).home).fetch.contains cid = false) →
        ∃ u, r = .next u ∧ (u.kvtDie (v.conn cid).home).fetch = (v.kvtDie (v.conn cid).home).fetch ++ [cid] ∧ u.conns = v.conns ∧
          (u.queue p q).entries.map (fun e => (e.idx, e.started)) = [(x.c, false)])
    let copy (op : Nat) (spill : Bool) (r : Host.Outcome State Fault Refusal) : Prop := s.readyAlone p q op d = true →
      let v := s.taken p q op d
      (copyCheck d ≠ 0 → ∃ u, r = .next u ∧ s.tookNow u p q (copyCheck d) = true ∧ u.jobs = v.jobs) ∧
      (∀ ta, copyCheck d = 0 → v.tbSame p (d.rva.toNat % 2 ^ 48) = true → v.tbSame p (d.lva.toNat % 2 ^ 48) = true → v.jobs.all (fun j => j.id != v.fresh) = true →
        v.pureXl p d.rva.toNat (if spill = true then accR else accW) = some ta →
        let side := inSram ta = true ∨ spill = false ∧ inIm ta = true
        (side → (v.pureXl p d.lva.toNat (if spill = true then accW else accR)).isSome = true →
          ∃ u j, r = .next u ∧ s.tookBegun u p q op d = true ∧ u.jobs = v.jobs ++ [j] ∧
            j.eng = copyEngine (if inSram ta = true then sramTile ta else imTile ta) spill ∧ j.spill = spill ∧
            j.from_ = .entry p q x.c ∧ j.part = p ∧ j.lva = d.lva.toNat ∧ j.tva = d.rva.toNat ∧ j.len = d.len.toNat ∧
            j.moved = 0 ∧ j.ctally = d.tally ∧ u.tiles = v.tiles) ∧
        (¬ side → ∃ u, r = .next u ∧ s.tookNow u p q 3 = true ∧ u.jobs = v.jobs))
    transfer 1 (exec (.write p q d) s) ∧ transfer 2 (exec (.writeImm p q d) s) ∧ transfer 3 (exec (.read p q d) s) ∧
    transfer 4 (exec (.send p q d) s) ∧ transfer 5 (exec (.recv p q d) s) ∧ transfer 6 (exec (.fadd p q d) s) ∧
    transfer 7 (exec (.cswap p q d) s) ∧ transfer 8 (exec (.reduce p q d) s) ∧
    copy 0x20 false (exec (.fill p q d) s) ∧ copy 0x21 true (exec (.spill p q d) s) ∧
    (s.readyAlone p q 0x0F d = true → ∃ u, exec (.fence p q d) s = .next u ∧ s.tookBegun u p q 0x0F d = true ∧
      (u.queue p q).fence = true ∧ u.conns = (s.taken p q 0x0F d).conns) ∧
    (∀ e, p < 1024 → s.loneEntry p q e.idx = true → x.entries = [e] → e.started = true → e.op = 0x0F → x.fence = true → s.queuesIdle = true →
      ∃ u, exec (.fenceDone p q) s = .next u ∧ s.entryDone u p q = true ∧ (u.queue p q).fence = false)

/-- Control descriptors (R336-R343, R351, R369, R372, R375, R376, R380, R382): windows open, close and finish their
revocation; armed operations, tallies and collective runs start; a doorbell re-reads P and consumes; a lap stamp that
does not match stops the queue; a record is formed when its timer ends. -/
def Obligations.ControlDescriptors : Prop :=
  ∀ (s : State) (p q : Nat) (d : Desc), p < 1024 → q < 4096 →
    let x := s.queue p q
    let i := d.key.toNat / 256
    (s.readyAlone p q 0x30 d = true →
      let v := s.taken p q 0x30 d
      let st := v.windowOpenStatus p d
      ∃ u, exec (.windowOpen p q d) s = .next u ∧ s.tookNow u p q st = true ∧ (∀ k, k ≠ i → u.window k = s.window k) ∧
        u.window i = (if st = 0 then { ever := true, open_ := true, part := p, gen := d.key.setWidth 8, base := d.lva.toNat,
                                       len := d.rva.toNat, rights := d.imm.setWidth 4 } else s.window i)) ∧
    (s.readyAlone p q 0x31 d = true →
      let v := s.taken p q 0x31 d
      let w := s.window i
      (v.isDbKey p d.key = true → (v.part p).dbLive = true → ∃ u, exec (.windowRevoke p q d) s = .next u ∧
        s.tookNow u p q 0 = true ∧ (u.part p).dbLive = false ∧ u.windows = s.windows) ∧
      (v.isDbKey p d.key = false → (w.ever && w.open_ && w.part == p && w.gen == d.key.setWidth 8) = false →
        ∃ u, exec (.windowRevoke p q d) s = .next u ∧ s.tookNow u p q 4 = true ∧ u.windows = s.windows) ∧
      (v.isDbKey p d.key = false → (w.ever && w.open_ && w.part == p && w.gen == d.key.setWidth 8) = true →
        v.conns.all (fun y => y.2.rxq.isEmpty) = true → ∃ u, exec (.windowRevoke p q d) s = .next u ∧
        s.tookBegun u p q 0x31 d = true ∧ u.window i = { w with open_ := false } ∧ (∀ k, k ≠ i → u.window k = s.window k) ∧
        u.revokes = s.revokes ++ [{ p := p, q := q, idx := x.c, win := i }])) ∧
    (∀ r, s.revokes = [r] → r.p = p → r.q = q → s.queuesIdle = true →
      (s.windowRead r.win = true → exec (.windowRevokeDone p q) s = .next s) ∧
      (s.windowRead r.win = false → s.loneEntry p q r.idx = true → x.entries.all (·.started) = true →
        ∃ u, exec (.windowRevokeDone p q) s = .next u ∧ u.revokes = [] ∧ s.entryDone u p q = true)) ∧
    (s.readyAlone p q 0x32 d = true → d.lva.toNat % 64 = 0 → kind0 d.tally = true →
      let v := s.taken p q 0x32 d
      ∀ pa w h, v.armedCount p < 16384 → v.xlate false p d.lva.toNat accR = (w, .inr h) → pa = h.at_ d.lva.toNat →
      w.lineOk p h.ksel pa 64 = true →
      let e := parseDesc (readBytes v.mem pa 64)
      (w.embeddedOk p e.1 e.2 = false → ∃ u, exec (.arm p q d) s = .next u ∧ s.tookNow u p q 3 = true ∧ u.armed = v.armed) ∧
      (w.embeddedOk p e.1 e.2 = true → mget 0 (v.part p).tallies (tnIdx d.tally) < d.rva →
        v.armed.all (fun a => a.p != p) = true → ∃ u a, exec (.arm p q d) s = .next u ∧ s.tookNow u p q 0 = true ∧
        u.armed = v.armed ++ [a] ∧ a.p = p ∧ a.tally = tnIdx d.tally ∧ a.threshold = d.rva ∧ a.op = e.1 ∧ a.d = e.2 ∧ a.embPa = pa ∧ a.embK = h.ksel ∧
        a.embDl = h.logs)) ∧
    (∀ a l, s.armedDue = a :: l → a.p = p → a.parked = false → a.op = 0x33 → kind0 a.d.tally = true → s.armed = [] → s.queuesIdle = true →
      ∃ u, exec (.armedFire p) s = .next u ∧ u.armedDue = l ∧ u.mem = s.mem ∧
        ∀ k, mget 0 (u.part p).tallies k = (if k = tnIdx a.d.tally then a.d.rva else mget 0 (s.part p).tallies k)) ∧
    (s.readyAlone p q 0x33 d = true →
      let v := s.taken p q 0x33 d
      (kind0 d.tally = false → ∃ u, exec (.tallySet p q d) s = .next u ∧ s.tookNow u p q 3 = true ∧ u.part p = v.part p) ∧
      (kind0 d.tally = true → v.armed = [] → ∃ u, exec (.tallySet p q d) s = .next u ∧ s.tookNow u p q 0 = true ∧
        ∀ k, mget 0 (u.part p).tallies k = (if k = tnIdx d.tally then d.rva else mget 0 (v.part p).tallies k))) ∧
    (s.readyAlone p q 0x34 d = true →
      let v := s.taken p q 0x34 d
      let h := csHandle d
      let g := v.coll h
      let st := v.collCheck p d
      (st ≠ 0 → ∃ u, exec (.collStart p q d) s = .next u ∧ s.tookNow u p q st = true ∧ u.colls = v.colls) ∧
      (st = 0 → d.len = 0 → ∃ u, exec (.collStart p q d) s = .next u ∧ s.tookNow u p q 0 = true ∧
        (u.coll h).number = (g.number + 1) % 2 ^ 32 ∧ (u.coll h).run = g.run) ∧
      (∀ w1 w2 hs ht r, st = 0 → d.len ≠ 0 → g.run = none → g.later = [] →
        r = ({ p := p, q := q, idx := x.c, number := (g.number + 1) % 2 ^ 32, len := d.len.toNat, src := d.lva.toNat,
               dst := d.rva.toNat, kind := csKind d, op := csOp d, ty := csTy d, form := csForm d, tally := d.tally,
               slots := slotsNeeded g.d (csKind d), waiting := false, srcRuns := hs, dstRuns := ht } : CollRun) →
        v.vhold g.d.home p accRD (runsOf (srcBytes g.d r)) r.src (srcBytes g.d r) [] = (w1, .inr hs) →
        w1.vhold g.d.home p accW (runsOf (dstBytes g.d r)) r.dst (dstBytes g.d r) [] = (w2, .inr ht) →
        (pinnedRuns hs = false ∨ pinnedRuns ht = false → ∃ u, exec (.collStart p q d) s = .next u ∧
          s.tookNow u p q 5 = true ∧ (u.coll h).run = none) ∧
        (pinnedRuns hs = true → pinnedRuns ht = true → w2.collWait = [] → r.slots ≤ w2.slotsFree g.d.home → v.colls = w2.colls →
          ∃ u b, exec (.collStart p q d) s = .next u ∧ s.tookBegun u p q 0x34 d = true ∧
          (u.coll h).state = .running ∧ (u.coll h).number = r.number ∧ (u.coll h).later = [] ∧
          (u.coll h).run = some { r with downNext := (downWanted g.d r).headD 0, src0 := b } ∧
          ∀ bs l, (w2.vget g.d.home p accRD r.src (srcBytes g.d r) hs).2 = .ok bs l → b = bs))) ∧
    (∀ fw, s.stopping = false →
      (s.bellLost p q = true → s.queuesIdle = true → exec (.doorbell p q fw) s = .next (s.count bPART p 0xC08 1)) ∧
      (∀ pa bs, s.bellLost p q = false → (s.part p).lstate = .active → x.qstate = 0 → x.parked = false → s.queuesIdle = true →
        s.lineAt p accR x.cb 64 = some pa → bs = readBytes s.mem pa 64 →
        (field bs 0 4 = x.c → ∃ u, exec (.doorbell p q fw) s = .next u ∧ (u.queue p q).c = x.c ∧ (u.queue p q).h = x.h ∧
          u.mem = s.mem ∧ u.cnt bPART p 0xC00 = s.cntUp bPART p 0xC00 1 ∧ (u.queue p q).ncount = field bs 16 2 ∧
          (u.queue p q).naddr = field bs 32 8 % 2 ^ 48) ∧
        (∀ sa e, field bs 0 4 = (x.c + 1) % 2 ^ 32 → x.used = true → x.fence = false → x.entries = [] → x.kind = 2 → x.err = false →
          field bs 20 1 % 4 = 0 → s.lineAt p accR (x.slotVa x.c) 64 = some sa → parseDesc (readBytes s.mem sa 64) = (0x33, e) →
          e.lap.toNat = x.lapOf x.c → kind0 e.tally = true → s.armed = [] → ∃ u, exec (.doorbell p q fw) s = .next u ∧
          s.tookNow u p q 0 = true ∧ mget 0 (u.part p).tallies (tnIdx e.tally) = e.rva) ∧
        (2 ^ x.sizeLog2 < idxDiff (field bs 0 4) x.c → field bs 20 1 % 4 = 0 → ∃ u, exec (.doorbell p q fw) s = .next u ∧
          (u.queue p q).qstate = 3 ∧ (u.queue p q).c = x.c ∧ (u.queue p q).entries = x.entries))) ∧
    (∀ sa e, s.canConsume p q = true → x.qstate = 1 → s.queues = [(p * 4096 + q, x)] →
      x.p = (x.c + 1) % 2 ^ 32 → x.entries = [] → x.kind = 2 → x.err = false → x.nkind = 0 →
      s.lineAt p accR (x.slotVa x.c) 64 = some sa → parseDesc (readBytes s.mem sa 64) = (0x33, e) →
      (e.lap.toNat ≠ x.lapOf x.c → ∃ u, exec (.lapReread p q) s = .next u ∧ (u.queue p q).qstate = 1 ∧ (u.queue p q).c = x.c ∧
        (u.part p).tallies = (s.part p).tallies) ∧
      (e.lap.toNat = x.lapOf x.c → kind0 e.tally = true → s.armed = [] → ∃ u, exec (.lapReread p q) s = .next u ∧
        s.tookNow u p q 0 = true ∧ mget 0 (u.part p).tallies (tnIdx e.tally) = e.rva)) ∧
    (x.used = true → x.timer = true → x.ncount ≠ 0 → x.nkind = 2 → ∃ u, exec (.notifyTimer p q) s = .next u ∧
      (u.queue p q).count = 0 ∧ (u.queue p q).timer = false ∧ (u.queue p q).seq = x.seq + 1 ∧ (u.queue p q).c = x.c ∧
      (u.queue p q).h = x.h ∧ (u.mb (.part p) true).full = true ∧
      (u.mb (.part p) true).words.flatMap (fun w => leBytes 8 w.toNat) = recordBytes x q false false)


/-! ## Firmware commands -/

/-- Queues, connections and groups (R294, R305, R346-R349, R363, R366, R379, R386): each command of the manager's
channel is answered with its code, 0x0009 where a final reply follows, and has its effect or none. -/
def Obligations.QueueConnectionAndGroupCommands : Prop :=
  ∀ (s : State) (c : Cmd), s.takes c = true →
    (∀ (p q kind lg : Nat) (ring cb : BitVec 48) (v : State) (bs : List Byte) (hs : List Held),
      (s.queueCheck p q kind lg ring.toNat cb.toNat ≠ 0 → ∃ u, exec (.queueCreate c p q kind lg ring cb) s = .next u ∧
        u.acked (s.queueCheck p q kind lg ring.toNat cb.toNat) = true ∧ u.queues = s.queues ∧ u.mem = s.mem) ∧
      (s.queueCheck p q kind lg ring.toNat cb.toNat = 0 → s.vget false p accR cb.toNat 64 [] = (v, .ok bs hs) →
        (v.mb .manager true).full = true → v.queues = s.queues → ∃ u, exec (.queueCreate c p q kind lg ring cb) s = .next u ∧
        u.acked 0 = true ∧ (∀ k, k ≠ q → u.queue p k = s.queue p k) ∧
        let x := u.queue p q
        x.used = true ∧ x.kind = kind ∧ x.sizeLog2 = lg ∧ x.ring = ring.toNat ∧ x.cb = cb.toNat ∧ x.p = field bs 0 4 ∧
          x.c = field bs 0 4 ∧ x.h = field bs 0 4 ∧ x.qstate = 0 ∧ x.entries = [] ∧ x.ncount = field bs 16 2)) ∧
    (∀ (p q : Nat), p < 1024 → q < 4096 →
      let x := s.queue p q
      (x.used = false → ∃ u, exec (.queueDestroy c p q) s = .next u ∧ u.acked 4 = true ∧ u.queues = s.queues) ∧
      (∀ pa, x.used = true → x.cmd = none → x.qstate < 4 → x.entries = [] → x.nkind = 0 → s.lineAt p accR x.cb 4 = some pa →
        leNat (readBytes s.mem pa 4) = x.c → s.outFree .manager = true → ∃ u, exec (.queueDestroy c p q) s = .next u ∧
        u.acked 9 = true ∧ u.finished c 0 [] = true ∧ (u.queue p q).used = false ∧ (u.queue p q).qstate = 5)) ∧
    (∀ (p : Nat) (peer : BitVec 128) (listen : W32) (mtu : BitVec 2) (cls : BitVec 3) (e pin : Bool) (m : Pick), p < 1024 →
      ((p ≠ 0 → (s.part p).lstate = .active) → (e = true → (s.pkeys p).root.isSome = true) →
        (s.quotaRoom p cls.toNat = false → ∃ u, exec (.connOpen c p peer listen mtu cls e pin m) s = .next u ∧ u.acked 5 = true ∧
          u.conns = s.conns) ∧
        (s.quotaRoom p cls.toNat = true → (pin = true → s.diePinned s.newHome < 4096) → s.cidFree m.cid = true →
          ∃ u, exec (.connOpen c p peer listen mtu cls e pin m) s = .next u ∧ u.acked 9 = true ∧ u.mem = s.mem ∧
          (∀ k, k ≠ m.cid → u.conn k = s.conn k) ∧ u.cached m.cid = true ∧
          let x := u.conn m.cid
          x.state = .connecting ∧ x.part = p ∧ x.peerAddr = peer ∧ x.listen = listen ∧ x.offer = mtu ∧ x.cls = cls.toNat ∧
            x.enc = e ∧ x.pin = pin ∧ x.opener = true ∧ x.salt = m.salt ∧ x.nMax = m.psn.toNat ∧ x.sends = 1 ∧ x.cmd = some c)) ∧
      (p ≠ 0 → (s.part p).lstate ≠ .active → ∃ u, exec (.connOpen c p peer listen mtu cls e pin m) s = .next u ∧
        u.acked 4 = true ∧ u.conns = s.conns)) ∧
    (∀ (cid : Nat) (abort : Bool), cid < 2 ^ 20 →
      let x := s.conn cid
      (x.state = .error → x.cmd = none → ∃ u, exec (.connClose c cid abort) s = .next u ∧ u.acked 0 = true ∧
        (u.conn cid).state = .free ∧ u.cached cid = false ∧ u.mem = s.mem) ∧
      (x.state = .open_ → abort = false → ∃ u, exec (.connClose c cid abort) s = .next u ∧ u.acked 9 = true ∧ u.mem = s.mem ∧
        u.conn cid = { x with state := .closing, cmd := some c, txq := x.txq ++ [closeMsg] }) ∧
      (x.state = .open_ → abort = true → x.bare = true → ∃ u, exec (.connClose c cid abort) s = .next u ∧ u.acked 0 = true ∧
        s.errorIn u cid 1 = true) ∧
      (x.state = .closing ∨ x.state = .connecting → ∃ u, exec (.connClose c cid abort) s = .next u ∧ u.acked 6 = true ∧
        u.conns = s.conns) ∧
      (x.state = .free ∨ x.state = .forwarding ∨ x.state = .frozen → ∃ u, exec (.connClose c cid abort) s = .next u ∧
        u.acked 4 = true ∧ u.conns = s.conns)) ∧
    (∀ (h : Nat) (d : CollDef),
      (h < 4096 → treeOk d = true → s.collMay h = true → s.edgesOk h d = true → ∃ u, exec (.collDefine c h d) s = .next u ∧
        u.acked 0 = true ∧ u.coll h = { state := .idle, d := d, pedge := (s.coll h).pedge } ∧ (∀ k, k ≠ h → u.coll k = s.coll k) ∧ u.mem = s.mem ∧
        (∀ cid, cid ∈ collEdges d → u.conn cid = { s.conn cid with edge := some h }) ∧
        (∀ cid, cid ∉ collEdges d → u.conn cid =
          (if (s.coll h).state = .idle ∧ cid ∈ collEdges (s.coll h).d then { s.conn cid with edge := none } else s.conn cid))) ∧
      (4095 < h ∨ treeOk d = false → ∃ u, exec (.collDefine c h d) s = .next u ∧ u.acked 3 = true ∧ u.colls = s.colls ∧
        u.conns = s.conns ∧ u.ev bCOLL (dieInst d.home) 1 = true) ∧
      (h < 4096 → treeOk d = true → s.collMay h = false ∨ s.edgesOk h d = false → ∃ u, exec (.collDefine c h d) s = .next u ∧
        u.acked 4 = true ∧ u.colls = s.colls ∧ u.conns = s.conns ∧ u.ev bCOLL (dieInst d.home) 1 = true)) ∧
    (∀ h, h < 4096 →
      let g := s.coll h
      (g.state = .undef → ∃ u, exec (.collRemove c h) s = .next u ∧ u.acked 4 = true ∧ u.colls = s.colls) ∧
      (g.state = .running → ∃ u, exec (.collRemove c h) s = .next u ∧ u.acked 4 = true ∧ u.colls = s.colls ∧
        u.ev bCOLL (dieInst g.d.home) 1 = true) ∧
      (g.state = .idle ∨ g.state = .failed → ∃ u, exec (.collRemove c h) s = .next u ∧ u.acked 0 = true ∧
        (u.coll h).state = .undef ∧ (∀ k, k ≠ h → u.coll k = s.coll k) ∧
        ∀ cid, cid ∈ collEdges g.d → u.conn cid = { s.conn cid with edge := none }))

/-- The life cycle of a partition (R384-R400, Tables 16-2 and 16-3): create, set, activate, quiesce and its end,
destroy, freeze and its end, thaw, save, restore and its end, release: each answers with its code, moves the state as
the table says, and does its part of the work. -/
def Obligations.PartitionLifeCycle : Prop :=
  ∀ (s : State) (c : Cmd) (p : Nat), s.takes c = true → 0 < p → p < 1024 → s.locked bPART p = false →
    s.fld bPART p oEVENT_ROUTE 0 2 < 2 →
    let x := s.part p
    let l := x.lstate
    let bare := s.queues = [] ∧ s.conns = [] ∧ s.colls = [] ∧ s.armed = [] ∧ s.armedDue = [] ∧ x.held = [] ∧ s.jobs = [] ∧
      s.revokes = [] ∧ x.launch = none ∧ s.groups = []
    (x.cmd = none → s.outFree .manager = true → s.locked bXLAT 0 = false → s.locked bXLAT 1 = false → s.partLocked p = false →
      (l = .free → ∃ u, exec (.partCreate c p) s = .next u ∧ u.acked 0 = true ∧ (u.part p).lstate = .configuring ∧
        (u.part p).tallies = [] ∧ u.fld bPART p 0x060 0 21 = 0 ∧ (∀ k, k ≠ p → u.part k = s.part k) ∧ u.tiles = s.tiles) ∧
      (l ≠ .free → ∃ u, exec (.partCreate c p) s = .next u ∧ u.acked 4 = true ∧ (u.part p).lstate = l ∧ u.ev bPART p 5 = true) ∧
      (x.launch = none → l = .configuring ∨ l = .active ∨ l = .quiesced →
        (∀ n, n ≤ 4096 → (s.usedQueues p).length ≤ n → ∃ u, exec (.partSet c p (.queueMax n)) s = .next u ∧ u.acked 0 = true ∧
          u.reg bPART p 0x068 = BitVec.ofNat 32 n ∧ u.parts = s.parts ∧ u.mem = s.mem) ∧
        (∀ n, 4096 < n → ∃ u, exec (.partSet c p (.queueMax n)) s = .next u ∧ u.acked 3 = true ∧ u.ev bPART p 5 = true ∧
          u.reg bPART p 0x068 = s.reg bPART p 0x068) ∧
        (∀ k, ∃ u, exec (.partSet c p (.dbKey k)) s = .next u ∧ u.acked 0 = true ∧ u.reg bPART p 0x07C = k ∧
          (u.part p).dbLive = (k != 0)) ∧
        (∀ i k, i < 4 → ∃ u, exec (.partSet c p (.listen i k)) s = .next u ∧ u.acked 0 = true ∧ u.reg bPART p (0x080 + 4 * i) = k) ∧
        (∀ t, t < 1440 → s.rect p 0 = none → s.tileOwner t = none → (s.tile t).run = .idle → s.locked bTILE t = false →
          ∃ u, exec (.partSet c p (.rect 0 (t / 36) (t / 36) (t % 36) (t % 36))) s = .next u ∧ u.acked 0 = true ∧
          u.tileOwner t = some p ∧ (u.tile t).clearing = true ∧ u.rect p 0 = some (t / 36, t / 36, t % 36, t % 36) ∧
          (∀ k, k ≠ t → u.tile k = s.tile k) ∧ (∀ a, sramAt t 0 ≤ a → a < sramAt (t + 1) 0 → mget 0 u.mem a = 0)) ∧
        (∀ va : BitVec 48, va.toNat % 256 = 0 → ∃ u, exec (.partSet c p (.channel va)) s = .next u ∧ u.acked 0 = true ∧
          (u.part p).chan = some va.toNat)) ∧
      (l = .configuring → s.ident.gridReady = true → x.rec_.en = true → x.dbLive = true →
        (s.partClearing p = false → ∃ u, exec (.partActivate c p) s = .next u ∧ u.acked 0 = true ∧
          u.part p = { x with lstate := .active }) ∧
        (s.partClearing p = true → ∃ u, exec (.partActivate c p) s = .next u ∧ u.acked 9 = true ∧
          u.part p = { x with cmd := some c })) ∧
      (s.ident.gridReady = false ∨ x.rec_.en = false ∨ x.dbLive = false ∨ (l ≠ .configuring ∧ l ≠ .quiesced) →
        ∃ u, exec (.partActivate c p) s = .next u ∧ u.acked 4 = true ∧ (u.part p).lstate = l ∧ u.ev bPART p 5 = true) ∧
      (∀ drain, l = .active → bare → ∃ u, exec (.partQuiesce c p drain) s = .next u ∧ u.acked 9 = true ∧
        (u.part p).lstate = .quiescing ∧ (u.part p).cmd = some c ∧ (u.part p).draining = drain ∧
        (drain = false → (u.part p).dbLive = false ∧ ∀ t, t ∈ s.partTiles p → (s.tile t).run = .running →
          (u.tile t).run = .idle ∧ (u.tile t).s = [])) ∧
      (l = .quiesced → s.conns = [] → ∃ u, exec (.partDestroy c p) s = .next u ∧ u.acked 0 = true ∧ (u.part p).lstate = .free ∧
        (u.pkeys p).root = none ∧ (∀ t, t < 1440 → s.tileOwner t = some p → u.tileOwner t = none) ∧ (u.part p).rec_.en = false) ∧
      (l ≠ .quiesced → ∃ u, exec (.partDestroy c p) s = .next u ∧ u.acked 4 = true ∧ (u.part p).lstate = l ∧ u.tiles = s.tiles) ∧
      (l = .active → ∃ u, exec (.partFreeze c p) s = .next u ∧ u.acked 9 = true ∧ u.part p = { x with lstate := .freezing, cmd := some c } ∧
        (∀ t, t ∈ s.partTiles p → u.tile t = (s.tile t).freeze) ∧ (∀ t, t ∉ s.partTiles p → u.tile t = s.tile t)) ∧
      (l ≠ .active → ∃ u, exec (.partFreeze c p) s = .next u ∧ u.acked 4 = true ∧ (u.part p).lstate = l) ∧
      (l = .frozen → s.queues = [] → ∃ u, exec (.partThaw c p) s = .next u ∧ u.acked 0 = true ∧ (u.part p).lstate = .active ∧
        (u.part p).held = [] ∧ u.armedDue = s.armedDue ++ x.held ∧ (∀ t, t ∈ s.partTiles p → u.tile t = (s.tile t).thaw) ∧
        (∀ k, (s.conn k).part = p → (s.conn k).state = .frozen → (u.conn k).state = .open_) ∧ u.mem = s.mem) ∧
      (∀ (d : BitVec 128) k, l = .frozen → (s.pkeys p).root.isSome = true → s.alarmed = false → (s.conn k).state = .open_ →
        ∃ u n, exec (.partSave c p d k) s = .next u ∧ u.acked 9 = true ∧ (n, s.partImage p) ∈ u.images ∧ u.mem = s.mem ∧
        ((u.part p).lstate = .frozen ∧ u.finished c 4 [] = true ∧ u.conns = s.conns ∨
          (u.part p).lstate = .forwarding ∧ u.finished c 0 [] = true ∧ ∀ j, (s.conn j).part = p → (s.conn j).state = .frozen →
            (u.conn j).state = .forwarding ∧ (u.conn j).fwdAddr = d)) ∧
      (∀ m ok, l = .configuring → s.alarmed = false → s.restoreCheck p (s.imageOf m) = 0 →
        (ok = true → (s.pkeys p).root.isSome = true → (s.pkeys p).rootId = (s.imageOf m).rootId →
          ∃ u, exec (.partRestore c p m ok) s = .next u ∧ u.acked 9 = true ∧ (u.part p).lstate = .restoring ∧ (u.part p).image = m ∧
          (u.part p).cmd = some c) ∧
        (ok = false → ∃ u, exec (.partRestore c p m ok) s = .next u ∧ u.acked 7 = true ∧ (u.part p).lstate = .restoring ∧
          u.ev bPART p 5 = true ∧ u.tiles = s.tiles)) ∧
      (l = .forwarding → s.holdsLeft p = true → ∃ u, exec (.partRelease c p) s = .next u ∧ u.acked 9 = true ∧
        u.part p = { x with cmd := some c }) ∧
      (l = .forwarding → s.conns = [] → ∃ u, exec (.partRelease c p) s = .next u ∧ u.acked 0 = true ∧ (u.part p).lstate = .free)) ∧
    (x.cmd = some c → s.outFree .manager = true → x.cmd2 = none → s.reg bPART p oEVENT_EN = 0 →
      (l = .quiescing → x.draining = false → bare → ∃ u, exec (.partQuiesceDone p) s = .next u ∧ (u.part p).lstate = .quiesced ∧
        u.finished c 0 [] = true ∧ (u.part p).cmd = none ∧ u.ev bPART p 0 = true ∧
        u.cnt bPART p 0xC10 = s.cntUp bPART p 0xC10 1 ∧ ∀ i, (u.window i).part = p → (u.window i).open_ = false) ∧
      (l = .freezing → s.freezeReady p = true → ∃ u, exec (.partFreezeDone p) s = .next u ∧ (u.part p).lstate = .frozen ∧
        u.finished c 0 [] = true ∧ (u.part p).cmd = none ∧ u.ev bPART p 1 = true ∧ u.cnt bPART p 0xC18 = s.cntUp bPART p 0xC18 1 ∧
        (∀ k, (s.conn k).part = p → (s.conn k).state = .open_ → (u.conn k).state = .frozen)) ∧
      (∀ m, l = .restoring → s.imageOf x.image = m → m.queues = [] → s.queues = [] → m.conns = [] → m.tiles = [] →
        ∃ u, exec (.partRestoreDone p) s = .next u ∧ (u.part p).lstate = .active ∧ u.finished c 0 [] = true ∧ u.ev bPART p 2 = true ∧
        (u.part p).tallies = m.tallies ∧ (u.part p).pm = m.pm ∧ (∀ w i, m.windows = [(i, w)] → u.window i = { w with part := p })))


/-! ## Mailboxes and MGMT -/

/-- Mailbox directions and MGMT packets (R408, R409, R412-R416, R456, R473, R509): a post fills a direction, an
acknowledge empties a privileged one, a take an ordinary one; MGMT posts, acknowledges, echoes and resends carry the
manager's; page locks apply at once; the channel block carries a partition's. -/
def Obligations.MailboxesAndManagement : Prop :=
  ∀ (s : State),
    (∀ ch words, chanOkay ch = true → words ≠ [] → words.length ≤ 8 →
      let m := s.mb ch true
      (∃ u, exec (.mboxPost ch true words) s = .next u ∧ u.mb ch true = m.post words false ∧ u.mb ch false = s.mb ch false ∧
        u.tiles = s.tiles ∧ ((∀ p, ch ≠ .part p) → u = s.setMb ch true (m.post words false))) ∧
      (s.outFree ch = true → ∃ u, exec (.mboxPost ch false words) s = .next u ∧ (u.mb ch false).full = true ∧
        (u.mb ch false).words = words ∧ (u.mb ch false).len = words.length ∧ u.mb ch true = m)) ∧
    (∀ ch, chanOkay ch = true → s.fwReady = true → s.outranked ch = false → (s.mb ch true).full = true → (s.mb ch true).src = false →
      let w := ((s.mb ch true).words.getD 0 0).toNat
      (knownOps.contains (w % 2 ^ 16) = true → chanPriv ch = false → ∃ u, exec (.mboxTake ch true) s = .next u ∧
        u.mb ch true = { s.mb ch true with full := false, src := false } ∧ u.mb ch false = s.mb ch false ∧
        u.cnt bCTRL (dieInst s.ident.active) 0xC08 = s.cntUp bCTRL (dieInst s.ident.active) 0xC08 1) ∧
      (knownOps.contains (w % 2 ^ 16) = true → chanPriv ch = true → exec (.mboxTake ch true) s = .next s) ∧
      (knownOps.contains (w % 2 ^ 16) = false → chanPriv ch = true → ∃ u, exec (.mboxTake ch true) s = .next u ∧
        (u.mb ch true).full = false ∧ (u.mb ch true).acked = true ∧ (u.mb ch true).rc = 1)) ∧
    (∀ t sn, t < 1440 → (s.tile t).waitFor = some (.mbox sn) → (s.mb (.tile t) false).full = true → (s.mb (.tile t) false).pend = [] →
      s.tileEdges t = true → ∃ u, exec (.mboxTake (.tile t) false) s = .next u ∧ (u.tile t).waitFor = none ∧
      (u.mb (.tile t) false).full = false ∧ u.mem = s.mem ∧ ∀ k, k ≠ t → u.tile k = s.tile k) ∧
    (∀ ch toFw rc,
      (chanPriv ch = true → (s.mb ch toFw).full = true → (s.mb ch toFw).pend = [] → ∃ u, exec (.mboxAck ch toFw rc) s = .next u ∧
        (u.mb ch toFw).full = false ∧ (u.mb ch toFw).acked = true ∧ (u.mb ch toFw).rc = rc ∧
        (u.mb ch toFw).words = (s.mb ch toFw).words ∧ u.mb ch (!toFw) = s.mb ch (!toFw) ∧ u.mem = s.mem) ∧
      (chanPriv ch = false ∨ (s.mb ch toFw).full = false → exec (.mboxAck ch toFw rc) s = .next s)) ∧
    (∀ (sec mp1 : Bool) (seq : W32) (src : BitVec 128), s.mgmtFrom src = true →
      let ch := mgmtChan sec
      let m := s.mb ch true
      (∀ words, m.last ≠ some seq → words ≠ [] → words.length ≤ 8 → ∃ u x, exec (.mgmtPost sec false mp1 seq words src) s = .next u ∧
        (u.mb ch true).words = words ∧ (u.mb ch true).full = true ∧ (u.mb ch true).last = some seq ∧ (u.mb ch true).seq = seq ∧
        (u.mb ch true).collision = (m.collision || m.full) ∧ u.out = s.out ++ [.mgmt mp1 2 sec seq x []]) ∧
      (∀ words ns, m.last = some seq → ∃ u x, exec (.mgmtPost sec ns mp1 seq words src) s = .next u ∧
        u.mb ch true = { m with mp1 := mp1 } ∧ u.out = s.out ++ [.mgmt mp1 2 sec seq x []]) ∧
      (∀ rc, (s.mb ch false).full = true → (s.mb ch false).seq = seq → (s.mb ch false).pend = [] →
        ∃ u x, exec (.mgmtAck sec mp1 seq rc src) s = .next u ∧ (u.mb ch false).full = false ∧ (u.mb ch false).acked = true ∧
        (u.mb ch false).rc = rc ∧ u.out = s.out ++ [.mgmt mp1 2 sec seq x []]) ∧
      (∀ st k rc w, (s.mb ch false).awaiting = some (k, seq, rc, w) → ∃ u, exec (.mgmtStateEcho sec mp1 seq st src) s = .next u ∧
        (u.mb ch false).awaiting = none ∧ (u.mb ch false).full = (s.mb ch false).full ∧ u.mem = s.mem) ∧
      (∀ (b : Byte) (inst : BitVec 12) lock, instOk b.toNat inst.toNat = true → ∃ u, exec (.mgmtPageLock seq b inst lock false mp1 src) s = .next u ∧
        u.reg b.toNat inst.toNat oPAGE_LOCK = BitVec.ofNat 32 lock.toNat ∧ u.mem = s.mem ∧ u.mbox = s.mbox ∧
        u.out = s.out ++ [.mgmt mp1 2 false seq (BitVec.ofNat 16 ((u.locked b.toNat inst.toNat).toNat * 16)) []])) ∧
    (∀ src sec mp1 seq words, s.mgmtFrom src = false → exec (.mgmtPost sec false mp1 seq words src) s = .next s) ∧
    (∀ sec k q rc w, s.pwr.vaux = true → (s.mb (mgmtChan sec) true).awaiting = none → (s.mb (mgmtChan sec) false).awaiting = some (k, q, rc, w) →
      exec (.mgmtResend sec) s = .next (s.emit (.mgmt (s.mb (mgmtChan sec) false).mp1 k sec q rc w))) ∧
    (∀ src k h, s.powered = true → s.queuesIdle = true → s.conns.map Prod.fst = [k] → isOpen (s.conn k) = true →
      (s.conn k).peerAddr = src → (s.conn k).edge = some h → (s.coll h).state = .idle → collEdges (s.coll h).d = [k] → (s.coll h).run = none →
      (s.coll h).later = [] → (s.conn k).txq = [] → (s.conn k).recvs = [] → (s.conn k).awaits = [] → (s.conn k).rxq = [] → (s.conn k).cmd = none →
      s.soft = [] → ∃ u, exec (.mgmtLastGasp src true) s = .next u ∧ (u.coll h).state = .failed ∧ s.errorIn u k 1 = true ∧ u.mem = s.mem) ∧
    (∀ off bytes, s.pwr.vaux = true → s.ident.recovery = true → bytes.length ≤ 4096 → ∃ u, exec (.mgmtRecoveryData off bytes) s = .next u ∧
      u.ident.recBuf = writeBytes s.ident.recBuf off.toNat bytes ∧ u.out = s.out ++ [.mgmt false 2 false off 0 []] ∧ u.mem = s.mem) ∧
    (s.pwr.vaux = true → s.ident.recovery = true →
      let dests : List (Option (BitVec 128)) := if (s.store.inForce 7).isSome = true then s.store.operator.1.map some else [none]
      exec .recoveryRequest s = .next { s with out := s.out ++ dests.flatMap (fun a => [.recovery false a, .recovery true a]) }) ∧
    (∀ p words seq (len : BitVec 4), p < 1024 → (s.part p).chan.isSome = true → len ≠ 0 → len.toNat ≤ 8 → len.toNat ≤ words.length →
      ∃ u, exec (.channelPost p words seq len) s = .next u ∧ u.tiles = s.tiles ∧
      u.mb (.part p) true = { (s.mb (.part p) true).post (words.take len.toNat) false with seq := seq }) ∧
    (∀ p seq, p < 1024 → (s.mb (.part p) false).full = true → (s.mb (.part p) false).seq = seq → (s.mb (.part p) false).pend = [] →
      ∃ u, exec (.channelTaken p seq) s = .next u ∧ u.mb (.part p) false = { s.mb (.part p) false with full := false }) ∧
    (∀ (k : Pkt), s.queuesIdle = true → s.mgmtFrom k.src = true → k.port = 24 → k.version = 1 → k.fcsOk = true → k.trailerOk = true →
      k.payload.getD 0 0 = 0 →
      k.payload.getD 1 0 = 0 → mgmtWords k.payload ≠ [] → (mgmtWords k.payload).length ≤ 8 →
      (s.mb .manager true).last ≠ some (BitVec.ofNat 32 (beNat ((k.payload.drop 4).take 4))) → ∃ u, exec (.kvtMgmt k) s = .next u ∧
      (u.mb .manager true).full = true ∧ (u.mb .manager true).words = mgmtWords k.payload ∧
      (u.port 24).pool = (s.port 24).pool - pktLen 0x3F k)


/-! ## Keys, identity, start-up, firmware -/

/-- Keys, alarms and attestation (R426-R431, R435-R441, R460-R462): a root is delivered once, erased on command and by
every alarm with the encrypted connections of its partition; a failed double computation releases nothing; an epoch
key is released; a report is taken, written and answered. -/
def Obligations.KeysAlarmsAndAttestation : Prop :=
  ∀ (s : State) (c : Cmd) (t : Twice), s.fwReady = true → s.queuesIdle = true → c.chan = .security → (s.mb .security true).full = true →
    (s.mb .manager true).full = false →
    let acked (u : State) (rc : Nat) : Prop := (u.mb .security true).full = false ∧ (u.mb .security true).acked = true ∧
      (u.mb .security true).rc = BitVec.ofNat 16 rc
    let i := dieInst s.ident.active
    (∀ p id w, p < 1024 →
      let y := s.pkeys p
      (s.alarmed = true ∨ y.root.isSome = true → ∃ u, exec (.keyRoot c p id w t) s = .next u ∧ acked u 4 ∧ u.keys = s.keys) ∧
      (∀ r, s.alarmed = false → y.root = none → t.agrees = true → Config.unwrap s.keyWrap w = some r →
        ∃ u, exec (.keyRoot c p id w t) s = .next u ∧ acked u 0 ∧ (u.pkeys p).root = some r ∧ (u.pkeys p).rootId = id ∧
        (u.pkeys p).prov = y.prov + 1 ∧ (∀ k, k ≠ p → u.pkeys k = s.pkeys k) ∧ u.cnt bCIPH i 0xC08 = s.cntUp bCIPH i 0xC08 17) ∧
      (s.alarmed = false → y.root = none → t.agrees = false → t.rerun = false → ∃ u, exec (.keyRoot c p id w t) s = .next u ∧
        acked u 7 ∧ u.keys = s.keys ∧ u.ev bCIPH i 2 = true) ∧
      (s.conns = [] → ∃ u, exec (.keyErase c p) s = .next u ∧ acked u 0 ∧ (u.pkeys p).root = none ∧ (u.pkeys p).erased = true ∧
        (u.pkeys p).pkek = 0 ∧ (∀ k, k ≠ p → u.pkeys k = s.pkeys k) ∧ u.mem = s.mem ∧ u.ev bCIPH 0 1 = true ∧ u.ev bCIPH 1 1 = true ∧
        ∀ j, j < 2 → u.cnt bCIPH j 0xC30 = s.cntUp bCIPH j 0xC30 1) ∧
      (∀ k d, s.conns = [(k, d)] → d.part = p → d.enc = true → d.state = .open_ → d.bare = true →
        ∃ u, exec (.keyErase c p) s = .next u ∧ (u.conn k).state = .error ∧ (u.conn k).cause = 8)) ∧
    (∀ a, 1 ≤ a → a ≤ 4 →
      (s.powered = true → s.conns = [] → s.parts.all (fun x => x.2.lstate != .restoring) = true →
        ∃ u, exec (.alarm a) s = .next u ∧ u.ciph.cond = s.ciph.cond ||| BitVec.ofNat 4 (2 ^ (a - 1)) ∧
        u.ciph.lid = (s.ciph.lid || a == 4) ∧ (∀ p, p ≠ 0 → (u.pkeys p).root = none) ∧ u.pkeys 0 = s.pkeys 0 ∧ u.mem = s.mem ∧
        u.ev bCIPH 0 0 = true ∧ u.ev bCIPH 1 0 = true) ∧
      (exec (.alarmClear a) s = .next { s with ciph := { s.ciph with cond := s.ciph.cond &&& ~~~(BitVec.ofNat 4 (2 ^ (a - 1))) } })) ∧
    (∀ cid,
      let d := s.conn cid
      let j := kvtInst d
      ((s.epochHands d.home).contains (cid, true) = true → t.agrees = true → ∃ u, exec (.epochKeyDerived cid true t) s = .next u ∧
        u.conn cid = { d with txNext := true, txNextLog2 := s.fld bCIPH 0 0x040 0 6, stall := false } ∧
        u.cnt bCIPH j 0xC08 = s.cntUp bCIPH j 0xC08 1 ∧ u.mem = s.mem) ∧
      ((s.epochHands d.home).contains (cid, false) = true → t.agrees = false → t.rerun = false → d.bare = true →
        ∃ u, exec (.epochKeyDerived cid false t) s = .next u ∧ s.errorIn u cid 6 = true)) ∧
    (∀ nonce sel p (addr : W64), p < 1024 →
      (s.ident.attests.any (fun a => a.p == p) = true → ∃ u, exec (.attest c nonce sel p addr) s = .next u ∧ acked u 6 ∧ u.ident = s.ident) ∧
      (s.ident.attests.any (fun a => a.p == p) = false → ∃ u, exec (.attest c nonce sel p addr) s = .next u ∧ acked u 9 ∧
        u.ident.attests = s.ident.attests ++ [{ cmd := c, p := p, nonce := nonce, sel := sel, addr := addr.toNat }]) ∧
      (∀ a sig, s.ident.attests = [a] → a.p = p → a.cmd = c → s.outFree .security = true →
        (t.agrees = true → inDram a.addr = true → s.ue = [] → s.lost = [] → a.sel.getLsbD 3 = false → a.addr % 64 = 0 →
          a.addr + 368 < dramTop → s.reach a.addr = true → s.reach (a.addr + 367) = true →
          (∀ k, k < 6 → mget 0 s.lineKey (a.addr / 64 + k) = 0) →
          ∃ u, exec (.attestDone p sig t) s = .next u ∧ u.finished c 0 [368] = true ∧ u.ident.attests = [] ∧
          (∀ b, b < a.addr ∨ a.addr + 368 ≤ b → mget 0 u.mem b = mget 0 s.mem b) ∧
          readBytes u.mem (a.addr + 8) 32 = beBytes 32 a.nonce.toNat ∧
          readBytes u.mem (a.addr + 272) 96 = (sig ++ List.replicate 96 0).take 96 ∧
          u.cnt bID 0 0xC08 = s.cntUp bID 0 0xC08 1) ∧
        (t.agrees = false → t.rerun = false → s.reg bCIPH i oEVENT_EN = 0 → ∃ u, exec (.attestDone p sig t) s = .next u ∧
          u.finished c 7 [] = true ∧ u.ident.attests = [] ∧ u.mem = s.mem)))

/-- Firmware replacement, start-up, control complexes and seams (R446-R459, R463-R465, R480, R481): images are staged,
verified and activated at a quiet point; stages end in the next stage or in failure; the standby takes over or the
module stops; a seam lane is replaced by a spare. -/
def Obligations.FirmwareStartupAndComplexes : Prop :=
  ∀ (s : State) (c : Cmd) (t : Twice),
    let x := s.ident
    let i := dieInst (!x.active)
    (s.fwReady = true → c.chan = .security → (s.mb .security true).full = true → (s.mb .manager true).full = false →
      (∀ svn rm ok, x.actStep = 0 → x.stageCmd = none → x.standbyOk = true → ∃ u, exec (.fwStage c (.image svn rm ok)) s = .next u ∧
        u.ident.staging = some (.image svn rm ok) ∧ u.ident.stageCmd = some c ∧ u.ident.staged = none ∧ (u.mb .security true).rc = 9) ∧
      (x.actStep ≠ 0 ∨ x.stageCmd.isSome = true → ∀ o, ∃ u, exec (.fwStage c o) s = .next u ∧ u.ident = x ∧ (u.mb .security true).rc = 6) ∧
      (x.actStep = 0 → x.ccRestart = false → x.stageCmd = none → x.staged.isSome = true → x.standbyOk = true →
        ∃ u, exec (.fwActivate c) s = .next u ∧ u.ident = { x with actStep := 1, actCmd := some c } ∧ (u.mb .security true).rc = 9) ∧
      (x.actStep = 0 → x.ccRestart = false → x.stageCmd = none → x.staged = none →
        ∃ u, exec (.fwActivate c) s = .next u ∧ u.ident = x ∧ (u.mb .security true).rc = 4)) ∧
    (∀ svn rm ok, x.stageCmd = some c → x.staging = some (.image svn rm ok) → s.goingDown = false → c.chan = .security →
      s.outFree .security = true → t.agrees = true → ∃ u, exec (.fwStageDone t) s = .next u ∧ u.ident.stageCmd = none ∧
        u.ident.staging = none ∧ u.ident.staged = (if ok = true ∧ s.store.ledger.minSvn ≤ svn then some (svn, rm, x.stagingId) else x.staged) ∧
        u.finished c (if ok = true ∧ s.store.ledger.minSvn ≤ svn then 0 else 7) [] = true ∧ u.cnt bCIPH i 0xC08 = s.cntUp bCIPH i 0xC08 1) ∧
    (∀ svn rm id, x.staged = some (svn, rm, id) → x.actStep = 1 → x.standbyOk = true → s.goingDown = false →
      ∃ u, exec .fwQuietPoint s = .next u ∧ u.ident.active = !x.active ∧ u.ident.fwSvn = svn ∧ u.ident.fwId = id ∧ u.ident.actStep = 3 ∧
        u.pwr.pmRole = (if s.pwr.pmStandbyOk = true then !s.pwr.pmRole else s.pwr.pmRole) ∧ u.ev bMOD 0 0 = true ∧ u.mem = s.mem) ∧
    (x.actStep = 3 → x.actCmd = none → s.goingDown = false → ∃ u, exec .fwActivateDone s = .next u ∧ u.ident.actStep = 0 ∧
      u.store.image = { svn := x.fwSvn, raiseMin := x.fwMin, id := x.fwId } ∧
      u.store.ledger.minSvn = (if x.fwMin = true then max s.store.ledger.minSvn x.fwSvn else s.store.ledger.minSvn) ∧
      u.ev bID 0 4 = true ∧ u.cnt bID 0 0xC18 = s.cntUp bID 0 0xC18 1 ∧ u.mem = s.mem) ∧
    (∀ r : StageFind, s.pwr.phase = .starting → r.ten = false →
      (x.stage = 1 → x.recovery = false → r.ok = true → r.added = [] → r.bad = [] → s.store.image.ok = true →
        (s.store.ledger.minSvn ≤ s.store.image.svn → ∃ u, exec (.startupStageDone r) s = .next u ∧ u.ident.stage = 2 ∧
          u.ident.fwSvn = s.store.image.svn ∧ u.ident.fwId = s.store.image.id ∧
          u.ident.standbyOk = true ∧ u.mem = s.mem) ∧
        (s.store.image.svn < s.store.ledger.minSvn → ∃ u, exec (.startupStageDone r) s = .next u ∧ u.ident = { x with recovery := true })) ∧
      (x.stage = 2 → r.ok = true → ∃ u, exec (.startupStageDone r) s = .next u ∧ u.ident.stage = 3 ∧ u.pwr.rails = 8 ∧ u.mem = s.mem) ∧
      (x.stage = 5 → r = {} → s.store.complete = true → ∃ u, exec (.startupStageDone r) s = .next u ∧ u.ident.stage = 6 ∧
        u.store.ledger = { s.store.ledger with boots := s.store.ledger.boots + 1
                                               unclean := s.store.ledger.unclean + s.store.unclean.toNat } ∧
        u.ciph.kek = true ∧ u.ident.idKey = true ∧ u.ident.n16 = s.store.n16) ∧
      (x.stage = 5 → r = {} → s.store.complete = false → ∃ u, exec (.startupStageDone r) s = .next u ∧ u.pwr.phase = .down .failed ∧
        u.ident.failCode = 5) ∧
      (x.stage = 6 → r.ok = true → s.store.ledger.devs = [] → ∃ u, exec (.startupStageDone r) s = .next u ∧ u.ident.stage = 7 ∧
        (∀ k, k < 864 → u.slab k = k % 12 + 11 * 16 + k % 12 * 256 + k / 12 * 4096 + 2 ^ 31)) ∧
      (x.stage = 9 → s.timeLocked = true → ∃ u, exec (.startupStageDone r) s = .next u ∧ u.ident.netReady = true ∧
        u.ident.nolock = false ∧ u.pwr.phase = (if x.done10 = true then .on else .starting)) ∧
      (2 ≤ x.stage → x.stage ≤ 7 → r.ok = false → ∃ u, exec (.startupStageDone r) s = .next u ∧ u.pwr.phase = .down .failed ∧
        u.ident.failCode = x.stage) ∧
      (2 ≤ x.stage → x.stage ≤ 7 → x.recovery = false → ∃ u, exec .startupStageTimeout s = .next u ∧ u.pwr.phase = .down .failed ∧
        u.ident.failCode = x.stage ∧ u.mem = s.mem) ∧
      (x.stage = 9 → x.recovery = false → ∃ u, exec .startupStageTimeout s = .next u ∧ u.ident.netReady = true ∧ u.ident.nolock = true ∧
        u.ev bID 0 3 = true)) ∧
    (s.powered = true → s.goingDown = false → s.pwr.phase = .on →
      (∀ ue, x.standbyOk = true → ∃ u, exec (.ccFailover ue) s = .next u ∧ u.ident.active = !x.active ∧ u.ident.standbyOk = false ∧
        u.ident.ccRestart = true ∧ u.ev bMOD 0 1 = true ∧ u.ev bERR 0 4 = true ∧ u.ev bCTRL i 1 = true ∧
        (ue = true → u.ev bCTRL (dieInst x.active) 0 = true) ∧ u.pwr.phase = .on) ∧
      (x.standbyOk = false → ∃ u, exec (.ccFailover false) s = .next u ∧ u.pwr.phase = .down .fatal ∧ u.store.lastFatal = 0x13) ∧
      (x.standbyOk = true → ∃ u, exec .standbyLost s = .next u ∧ u.ident.active = x.active ∧ u.ident.standbyOk = false ∧
        u.ident.ccRestart = true ∧ u.ev bMOD 0 1 = true) ∧
      (∀ m l d, m ≤ 4 → l ≤ 255 → (∃ u, exec (.seamLaneReplace m l d true) s = .next u ∧ u.ev bERR 0 5 = true ∧ u.pwr = s.pwr ∧ u.mem = s.mem) ∧
        (∃ u, exec (.seamLaneReplace m l d false) s = .next u ∧ u.pwr.phase = .down .fatal ∧ u.store.lastFatal = 0x14)) ∧
      (c.chan = .manager → s.pwr.vaux = true → (s.mb .manager true).full = true → ∃ u, exec (.modRestart c) s = .next u ∧
        u.pwr.phase = .down .restart ∧ u.ciph.lid = false ∧ u.acked 0 = true)) ∧
    (∀ ok, x.ccRestart = true → ∃ u, exec (.ccRestartDone ok) s = .next u ∧ u.ident = { x with ccRestart := false, standbyOk := ok } ∧
      u.mem = s.mem ∧ (ok = false → u.ev bCTRL i 2 = true))


/-! ## Tests, telemetry, registers -/

/-- In-service test (R487, R490-R498, R503): which segment starts and when, what a segment that passes or fails
leaves, the second failure that condemns a tile, overdue tiles and devices, patrol, known-answer tests, lane margins
and TEST_CTRL. -/
def Obligations.InServiceTest : Prop :=
  ∀ (s : State) (c : Cmd) (die row col : Nat),
    let n := die * 20 + row
    let r := s.ptest n col
    let k := match s.logicalAt n col with | some t => s.tileKeep t | none => s.pwr.keep
    die < 4 → row < 20 → col < 19 →
    (∀ idle g, s.powered = true → s.goingDown = false → s.pwr.rails = 8 → s.fld bTEST 0 0x040 0 1 = 1 → s.pwr.kSlope = 64 →
      r.segment = none → r.retired = false → r.next s.align (decide (0 < s.pwr.fill)) (s.matBusy n col) = some g → k ≠ 0 →
      (r.hot s.align g = true ∨ s.hotWaits n col = false) →
      exec (.testSegmentStart die row col idle) s = .next (
        if 20000 * 64 / k + 5000 ≤ s.physIdle n col idle then
          let u := s.setPtest n col { r with segment := some g }
          if 0 < s.pwr.fill then u.count bTEST 0 0xC38 1 else u
        else s)) ∧
    (∀ g, r.segment = some g → r.passed.contains g = false →
      let w := match s.logicalAt n col with | some t => segRange t g | none => (0, 0)
      let v := { s with ce := s.ce.filter (fun a => !(decide (w.1 ≤ a) && decide (a < w.2))) }
      (r.passed.length < 159 → exec (.testSegmentDone die row col true none none) s = .next ((v.count bTEST 0 0xC00 1).setPtest n col
        { r with segment := none, passed := r.passed ++ [g], failedOnce := if r.failedOnce = some g then none else r.failedOnce })) ∧
      (r.passed.length = 159 → exec (.testSegmentDone die row col true none none) s = .next (((v.count bTEST 0 0xC00 1).setPtest n col
        { r with segment := none, passed := [], failedOnce := if r.failedOnce = some g then none else r.failedOnce, passAt := s.align, overdue := false }).count bTEST 0 0xC08 1)) ∧
      (r.failedOnce ≠ some g → ∃ u, exec (.testSegmentDone die row col false none none) s = .next u ∧
        u.ptest n col = { r with segment := none, failedOnce := some g } ∧ u.ev bTEST 0 0 = true ∧
        u.cnt bTEST 0 0xC10 = s.cntUp bTEST 0 0xC10 1 ∧ u.mem = s.mem ∧ u.tiles = s.tiles) ∧
      (r.condemned = false → r.retired = false → s.degraded n = false → s.retired n = 31 →
        (mget (31, false) s.test.patch n).1 = 31 →
        (r.failedOnce = some g → ∃ u, exec (.testSegmentDone die row col false none none) s = .next u ∧
          (u.ptest n col).condemned = true ∧ u.ev bTEST 0 0 = true ∧ u.ev bTEST 0 1 = true ∧ u.mem = s.mem ∧
          (if col = 18 then u.retired n = 18 ∧ u.ev bGRID 0 0 = true else (mget (31, false) u.test.patch n).1 = col)) ∧
        (∀ a : BitVec 48, ∃ u, exec (.testSegmentDone die row col true (some a) none) s = .next u ∧
          (u.ptest n col).condemned = true ∧ u.mem = s.mem ∧
          (w.1 ≤ a.toNat / grain a.toNat * grain a.toNat → a.toNat / grain a.toNat * grain a.toNat < w.2 →
            a.toNat / grain a.toNat * grain a.toNat ∈ u.ue)))) ∧
    (s.powered = true → r.retired = false → r.overdue = false → s.hoursOver 0 r.passAt = true → ∃ u, exec (.tileTestOverdue die row col) s = .next u ∧
      u.ptest n col = { r with overdue := true } ∧ u.ev bTEST 0 2 = true ∧ u.mem = s.mem) ∧
    (∀ dev (pa : BitVec 48),
      let line := pa.toNat / 64 * 64
      let y := (s.lineRead 3 line).dev dev
      let z := if y.patrol + 1 = devLines then { y with patrol := 0, patrolAt := s.align, overdue := false }
        else { y with patrol := y.patrol + 1 }
      dev < 12 → s.powered = true →
      (s.fld bTEST 0 0x040 1 1 = 1 → (s.dev dev).state ≠ 2 → inDram line = true → s.groupOk line = true → s.devOf line = dev →
        s.evacuating line = false → exec (.patrolRead dev pa .clean) s = .next ((s.lineRead 3 line).setDev dev z) ∧
        (∃ u, exec (.patrolRead dev pa .corrected) s = .next u ∧ u.cnt bTEST 0 0xC20 = s.cntUp bTEST 0 0xC20 1 ∧
          line ∉ u.ce ∧ (u.dev dev).patrol = z.patrol ∧ u.ev bDRAMC dev 0 = true ∧ u.mem = s.mem ∧ u.ue = s.ue) ∧
        (∃ u, exec (.patrolRead dev pa .uncorrectable) s = .next u ∧ u.cnt bTEST 0 0xC28 = s.cntUp bTEST 0 0xC28 1 ∧
          line ∈ u.ue ∧ (u.dev dev).patrol = z.patrol ∧ u.ev bTEST 0 7 = true ∧ u.ev bDRAMC dev 1 = true ∧ u.mem = s.mem)) ∧
      ((s.dev dev).state ≠ 2 → (s.dev dev).overdue = false → s.hoursOver 8 (s.dev dev).patrolAt = true →
        ∃ u, exec (.patrolOverdue dev) s = .next u ∧ u.dev dev = { s.dev dev with overdue := true } ∧ u.ev bTEST 0 2 = true ∧ u.mem = s.mem)) ∧
    (∀ fd1 core, s.powered = true → core < 46 → s.fld bTEST 0 0x040 2 1 = 1 → s.ciph.retired.contains (dieInst fd1, core) = false →
      (∀ again, exec (.katRun fd1 core true again) s = .next (s.count bTEST 0 0xC30 1)) ∧
      exec (.katRun fd1 core false true) s = .next ((s.count bTEST 0 0xC30 1).count bTEST 0 0xC30 1) ∧
      (∃ u, exec (.katRun fd1 core false false) s = .next u ∧ u.ciph.retired.contains (dieInst fd1, core) = true ∧
        u.ev bTEST 0 5 = true ∧ u.mem = s.mem)) ∧
    (∀ port lane, s.portOk port = true → lane < 8 → s.powered = true → s.fld bTEST 0 0x040 3 1 = 1 →
      ∃ u, exec (.marginLow port lane) s = .next u ∧ mget false u.test.margins (port * 8 + lane) = true ∧ u.ev bTEST 0 6 = true ∧
        (s.fld bTEST 0 0x040 5 1 = 0 → u.ports = s.ports ∧ u.mem = s.mem) ∧
        (s.mayRetrain port = true → (u.port port).training = true ∧ (u.port port).up0 = false ∧
          mget 0 u.test.retrained port = s.align + 1)) ∧
    (∀ cls en period, s.takes c = true →
      (s.locked bTEST 0 = true → ∃ u, exec (.testCtrl c cls en period) s = .next u ∧ u.acked 4 = true ∧ u.regs = s.regs) ∧
      (s.locked bTEST 0 = false → ∃ u, exec (.testCtrl c cls en period) s = .next u ∧ u.acked 0 = true ∧
        u.fld bTEST 0 0x040 (classBit cls) 1 = en.toNat ∧
        (∀ j, j < 32 → j ≠ classBit cls → u.fld bTEST 0 0x040 j 1 = s.fld bTEST 0 0x040 j 1) ∧
        (cls = .margin → u.reg bTEST 0 0x044 = s.reg bTEST 0 0x044) ∧
        (cls ≠ .margin → u.fld bTEST 0 0x044 (8 * classBit cls) 8 = clampN 1 (if cls = .kat then 255 else 168) period)))

/-- Counter snapshots and register reads (R499-R501, R508, R510, R511, R516): arming, the snapshot edge, TELEM_READ, and
the latch of a counter's high word. -/
def Obligations.SnapshotsAndTelemetry : Prop :=
  ∀ (s : State) (c : Cmd) (w : W64) (blk : Byte) (inst off : BitVec 12) (core cnt : Nat),
    let sec := w.toNat / 2 ^ 30
    let ns := w.toNat % 2 ^ 30
    (s.takes c = true →
      (((sec * 1000000000 + ns : Nat) : Int) < s.timeNs + 10000 → ∃ u, exec (.snapArm c w) s = .next u ∧ u.acked 3 = true ∧
        u.test = s.test ∧ u.regs = s.regs) ∧
      (s.timeNs + 10000 ≤ ((sec * 1000000000 + ns : Nat) : Int) → ns < 1000000000 → s.locked bSNAP 0 = false →
        ∃ u, exec (.snapArm c w) s = .next u ∧ u.acked 0 = true ∧ u.test = { s.test with armed := some (sec, ns) } ∧
          u.reg bSNAP 0 0x040 = BitVec.ofNat 32 sec ∧ u.reg bSNAP 0 0x048 = BitVec.ofNat 32 ns ∧
          (s.test.armed.isSome = true → u.ev bSNAP 0 1 = true) ∧ u.mem = s.mem)) ∧
    (s.locked bSNAP 0 = false → ∃ u, exec .snapCtrlArm s = .next u ∧ u.mem = s.mem ∧
      u.test = { s.test with armed := some ((s.reg bSNAP 0 0x040).toNat + s.fld bSNAP 0 0x044 0 16 * 2 ^ 32, (s.reg bSNAP 0 0x048).toNat) } ∧
      (s.test.armed = none → u = { s with test := u.test }) ∧ (s.test.armed.isSome = true → u.ev bSNAP 0 1 = true)) ∧
    (s.snapDue = true → ∃ u, exec .snapshot s = .next u ∧ u.shadows = s.cnts ∧
      u.test = { s.test with armed := none, snaps := s.test.snaps + 1 } ∧
      u.reg bSNAP 0 0x050 = BitVec.ofNat 32 s.time.sec ∧ u.reg bSNAP 0 0x058 = BitVec.ofNat 32 s.time.ns ∧
      (u.reg bSNAP 0 0x05C).getLsbD 0 = !s.timeLocked ∧ u.ev bSNAP 0 0 = true ∧
      u.cnt bSNAP 0 0xC00 = s.cntUp bSNAP 0 0xC00 1 ∧ (∀ b i, u.headRead b i oSNAP_SEQ = s.test.snaps + 1) ∧ u.mem = s.mem) ∧
    (s.snapDue = false → exec .snapshot s = .next s) ∧
    (s.fwReady = true → s.pwr.vaux = true → c.chan = .manager → (s.mb .manager true).full = true → s.outFree .manager = true →
      instOk blk.toNat inst.toNat = true → off.toNat % 4 = 0 → off.toNat < 0xC00 → off.toNat + 4 * cnt ≤ 0xC00 → 1 ≤ cnt → cnt ≤ 6 →
      blk.toNat ≠ bMETER →
      ∃ u, exec (.telemRead c blk inst off cnt) s = .next u ∧ u.acked 0 = true ∧ u.regs = s.regs ∧ u.mem = s.mem ∧
        (u.mb .manager false).words.drop 1 =
          (List.range cnt).map (fun i => (s.readReg blk.toNat inst.toNat (off.toNat + 4 * i)).setWidth 64)) ∧
    (∀ p, s.pwr.vaux = true → c.chan = .part p → s.fwReady = true → p < 1024 → instOk blk.toNat inst.toNat = true →
      blk.toNat ≠ bTILE → blk.toNat ≠ bGRID → (blk.toNat = bPART → inst.toNat ≠ p) → (s.part p).chan = none → s.outFree (.part p) = true →
      ∃ u, exec (.telemRead c blk inst off cnt) s = .next u ∧ u.regs = s.regs ∧
        (u.mb (.part p) false).words = [BitVec.ofNat 64 (0x0C01 + c.tag.toNat * 2 ^ 16 + 2 * 2 ^ 32)]) ∧
    (instOk blk.toNat inst.toNat = true → core < 8 → off.toNat % 8 = 0 → liveWord blk.toNat off.toNat = true →
      ∃ u, exec (.counterLowRead blk inst off core) s = .next u ∧
        u = { s with latch := u.latch } ∧
        (∀ t : State, t.latch = u.latch → (t.coreRead blk.toNat inst.toNat (off.toNat + 4) core).2 =
          ((s.cnt blk.toNat inst.toNat off.toNat) >>> 32).setWidth 32) ∧
        (∀ j, j ≠ latchKey blk.toNat inst.toNat off.toNat core → mget none u.latch j = mget none s.latch j)) ∧
    (instOk blk.toNat inst.toNat = false → core < 8 → off.toNat % 8 = 0 → ∃ u, exec (.counterLowRead blk inst off core) s = .next u ∧
      u.ev bERR 0 0 = true ∧ u.cnt bERR 0 0xC30 = s.cntUp bERR 0 0xC30 1 ∧ u.mem = s.mem)

/-- Register writes (R14, R16, R17, R469, R505, R509, R510): a stored register takes its bits, clamped, and nothing
else changes; EVENTS clears by ones; EVENT_EN routes a bit that is already set; a lock makes a write ignored and
counted; header fields, shadows and counters ignore writes; a page that does not exist is an unmapped access. -/
def Obligations.RegisterAndEventWrites : Prop :=
  ∀ (s : State) (blk : Byte) (inst off : BitVec 12) (v again : W32),
    let b := blk.toNat
    let i := inst.toNat
    let o := off.toNat
    (instOk b i = true →
      (∃ u, exec (.eventsClear blk inst v 0) s = .next u ∧
        u.reg b i oEVENTS = s.reg b i oEVENTS &&& ~~~v ∧ u.reg b i oINFO0 = s.reg b i oINFO0 ∧ u.reg b i oINFO1 = s.reg b i oINFO1 ∧
        (u.reg b i oINFO2).getLsbD 5 = ((s.reg b i oINFO2).getLsbD 5 && !v.getLsbD ((s.reg b i oINFO2).toNat % 32)) ∧
        u = { s with regs := u.regs }) ∧
      (∀ j, j < evBits b → again = BitVec.ofNat 32 (2 ^ j) → s.fld b i oEVENT_ROUTE 0 2 < 2 →
        ∃ u, exec (.eventsClear blk inst v again) s = .next u ∧ u.ev b i j = true ∧ (u.reg b i oINFO2).getLsbD 5 = true ∧
          u.mem = s.mem ∧ u.tiles = s.tiles) ∧
      (s.locked b i = false →
        (v &&& evMask b &&& ~~~(s.reg b i oEVENT_EN) &&& s.reg b i oEVENTS = 0 →
          exec (.eventEnWrite blk inst v) s = .next (s.setReg b i oEVENT_EN (v &&& evMask b))) ∧
        (∀ j, j < 32 → v &&& evMask b &&& ~~~(s.reg b i oEVENT_EN) &&& s.reg b i oEVENTS = BitVec.ofNat 32 (2 ^ j) →
          exec (.eventEnWrite blk inst v) s = .next ((s.setReg b i oEVENT_EN (v &&& evMask b)).route b i j)) ∧
        (∀ d, findReg b o = some d → o % 4 = 0 → 0x040 ≤ o → o < 0x800 → d.wmask ≠ 0 →
          b ∈ [bTILE, bCOPY, bKVT, bCIPH, bID, bTEST] →
          exec (.registerWrite blk inst off { v := v }) s = .next (s.setReg b i o (clampReg b o (v &&& d.wmask)))) ∧
        (o % 4 = 0 → (o < oCTRL ∨ o = oSTATE ∨ 0x024 ≤ o ∧ o < 0x040 ∨ 0x800 ≤ o) → exec (.registerWrite blk inst off { v := v }) s = .next s)) ∧
      (s.locked b i = true → o % 4 = 0 → 0x040 ≤ o → o < 0x800 →
        ∃ u, exec (.registerWrite blk inst off { v := v }) s = .next u ∧ u.cnt bERR 0 0xC40 = s.cntUp bERR 0 0xC40 1 ∧
          u.ev bERR 0 6 = true ∧ u.reg b i o = s.reg b i o ∧ u.mem = s.mem ∧ u.tiles = s.tiles) ∧
      (s.locked b i = true → ∃ u, exec (.eventEnWrite blk inst v) s = .next u ∧
        u.reg b i oEVENT_EN = s.reg b i oEVENT_EN ∧ u.cnt bERR 0 0xC40 = s.cntUp bERR 0 0xC40 1 ∧ u.mem = s.mem)) ∧
    (instOk b i = true → i ≤ 1 → instOk b 1 = true → home b 0 o = home b 1 o → ∀ w,
      exec (.registerWrite blk inst off { v := v, also := some w }) s = exec (.registerWrite blk inst off
        { v := if i = (if b = bPWR then s.pwrInst else dieInst s.ident.active) then v else w }) s) ∧
    (instOk b i = false → ∀ c ∈ [Instr.registerWrite blk inst off { v := v }, .eventsClear blk inst v again,
        .eventEnWrite blk inst v], ∃ u, exec c s = .next u ∧ u.ev bERR 0 0 = true ∧
      u.cnt bERR 0 0xC30 = s.cntUp bERR 0 0xC30 1 ∧ u.mem = s.mem ∧ u.tiles = s.tiles)

/-- The first-error capture of a page (R470): an event raised while no capture is held writes ERR_INFO0 to ERR_INFO2
and freezes them; while one is held, only MISSED counts; clearing the bit that owns the capture returns VALID to 0,
clearing any other leaves the capture, and ERR_INFO0 and ERR_INFO1 keep their values. -/
def Obligations.FirstErrorCapture : Prop :=
  ∀ (s : State) (blk : Byte) (inst : BitVec 12) (bit : Nat) (i0 i1 v : W32),
    let b := blk.toNat
    let i := inst.toNat
    let i2 := s.reg b i oINFO2
    let u := s.raise b i bit i0 i1
    instOk b i = true → bit < 32 →
    (i2.getLsbD 5 = false → u.reg b i oINFO0 = i0 ∧ u.reg b i oINFO1 = i1 ∧ u.reg b i oINFO2 = BitVec.ofNat 32 (bit + 0x20)) ∧
    (i2.getLsbD 5 = true → u.reg b i oINFO0 = s.reg b i oINFO0 ∧ u.reg b i oINFO1 = s.reg b i oINFO1 ∧
      u.reg b i oINFO2 = BitVec.ofNat 32 (i2.toNat % 64 + min (i2.toNat / 256 % 256 + 1) 255 * 256)) ∧
    ∃ t, exec (.eventsClear blk inst v 0) s = .next t ∧
      t.reg b i oINFO0 = s.reg b i oINFO0 ∧ t.reg b i oINFO1 = s.reg b i oINFO1 ∧
      (i2.getLsbD 5 = true → v.getLsbD (i2.toNat % 32) = true → t.reg b i oINFO2 = i2 &&& 0xFFFFFFDF) ∧
      (i2.getLsbD 5 = false ∨ v.getLsbD (i2.toNat % 32) = false → t.reg b i oINFO2 = i2)


/-! ## The block as a whole -/

/-- A step with a command waiting is that command's effect on the state with the rest of the queue. -/
def Obligations.StepRunsTheFrontCommand : Prop :=
  ∀ (s : State) (c : Instr) (rest : List Instr), s.pending = c :: rest → step s = exec c { s with pending := rest }

/-- With no command waiting a step of a powered module is one alignment period: network time is six NCLK further
(R26, R263), MOD_CNT_PCLK and CLK_CNT_ALIGN count it, and the queue, and where no evacuation runs and no finding of
firmware's reads is unreported memory and registers, are as they were (the model's choice, log entry 2). -/
def Obligations.AnIdleStepIsAPeriod : Prop :=
  ∀ s : State, s.pending = [] → s.powered = true →
    ∃ t, step s = .next t ∧ t.pending = [] ∧ t.align = s.align + 1 ∧
      (s.fwEcc = [] → s.devs.all (fun d => d.2.evac.isNone) = true → t.mem = s.mem ∧ t.regs = s.regs) ∧
      t.time.fine % (10 ^ 9 * 2 ^ 32 * 2 ^ 48) = (s.time.fine + 6 * (s.reg bPTP 0 0x048).toNat) % (10 ^ 9 * 2 ^ 32 * 2 ^ 48) ∧
      t.cnt bMOD 0 0xC00 = s.cntUp bMOD 0 0xC00 3 ∧ (∀ i, i < 6 → t.cnt bCLK i 0xC00 = s.cntUp bCLK i 0xC00 1) ∧
      (s.pwr.frame ≠ 63 → t.pwr.frame = s.pwr.frame + 1 ∧ t.pwr.keep = s.pwr.keep)

/-- Every command answers with a next state, and none takes a waiting command out of the queue or puts one in: the
queue is first in, first out. -/
def Obligations.CommandsAnswerAndKeepTheQueue : Prop :=
  ∀ (c : Instr) (s : State), ∃ t, exec c s = .next t ∧ t.pending = s.pending

/-- Memory keeps its canonical form over every step, of a command or of a period: addresses strictly rising, no byte
listed at what an unlisted byte reads as (log entry 3). -/
def Obligations.MemoryKeepsItsForm : Prop :=
  ∀ s t : State, Memory.wf s.mem = true → step s = .next t → Memory.wf t.mem = true

/-- What reset leaves (R23, R77, R469, R500, R505, R509, R510): no command waits, memory lists nothing, every register
stands at its page's reset value with every event enabled and routed to the manager, no page is locked, counters and
shadows are 0, no tile has an owner, no window is open, no connection, queue, partition or root exists, K is 64, and the
complex on FD0 is active. That the module is then seated in state M4 is the model's choice (log entry 6). -/
def Obligations.ResetState : Prop :=
  State.reset.pending = [] ∧ State.reset.mem = [] ∧ Memory.wf State.reset.mem = true ∧
    (∀ b i o, State.reset.reg b i o = regReset b o) ∧
    (∀ b i, State.reset.reg b i oEVENT_EN = evMask b ∧ State.reset.reg b i oEVENT_ROUTE = 1 ∧
      State.reset.reg b i oEVENTS = 0 ∧ State.reset.reg b i oINFO2 = 0 ∧ State.reset.locked b i = false ∧
      State.reset.headRead b i oSNAP_SEQ = 0) ∧
    (∀ b i o, State.reset.cnt b i o = 0 ∧ (∀ k, mget 0 State.reset.shadows k = 0) ∧ State.reset.shadowRead b i o = 0) ∧
    (∀ t, State.reset.tileOwner t = none ∧ (State.reset.tile t).run = .unavailable) ∧
    (∀ k, (State.reset.window k).open_ = false) ∧ State.reset.conns = [] ∧ State.reset.queues = [] ∧
    (∀ p, p ≠ 0 → (State.reset.part p).lstate = .free ∧ (State.reset.pkeys p).root = none) ∧
    State.reset.fld bPWR 0 0x040 0 12 = 3200 ∧ State.reset.pwr.keep = 64 ∧ State.reset.pwr.state = 4 ∧
    State.reset.powered = false ∧ State.reset.ident.active = false ∧ State.reset.fwReady = false ∧
    (∀ c, State.reset.outFree c = true ∧ (State.reset.mb c true).full = false)
end

