-- ==== Sys2Proof/Laws/Map.lean ====
section
/-! SUPPORT. Laws of sparse maps: what a read gives after a write, and that every operation keeps the
canonical form. -/

namespace Sys2Proof.Machine

variable {α : Type}

theorem mget_minsert (d : α) (m : SMap α) (k j : Nat) (v : α) :
    mget d (minsert m k v) j = if j = k then v else mget d m j := by
  induction m with
  | nil => simp [minsert, mget]
  | cons c m ih =>
    obtain ⟨a, x⟩ := c
    simp only [minsert]
    split
    · simp [mget]
    · split
      · subst_vars; simp only [mget]; split <;> simp_all
      · simp only [mget, ih]
        split
        · split <;> simp_all
        · rfl

theorem mget_merase (d : α) (m : SMap α) (k j : Nat) :
    mget d (merase m k) j = if j = k then d else mget d m j := by
  induction m with
  | nil => simp [merase, mget]
  | cons c m ih =>
    obtain ⟨a, x⟩ := c
    simp only [merase]
    split
    · subst_vars; simp only [mget, ih]; split <;> simp_all
    · simp only [mget, ih]
      split
      · split <;> simp_all
      · rfl

/-- A read after a write: the value written at its key, every other key as before. -/
@[simp] theorem mget_mset [DecidableEq α] (d : α) (m : SMap α) (k j : Nat) (v : α) :
    mget d (mset d m k v) j = if j = k then v else mget d m j := by
  unfold mset
  split
  · subst_vars; rw [mget_merase]
  · rw [mget_minsert]

theorem mem_minsert {m : SMap α} {k : Nat} {v : α} {c : Nat × α} (h : c ∈ minsert m k v) :
    c = (k, v) ∨ c ∈ m := by
  induction m with
  | nil => simpa [minsert] using h
  | cons e m ih =>
    obtain ⟨a, x⟩ := e
    simp only [minsert] at h
    split at h
    · simpa using h
    · split at h
      · rcases List.mem_cons.1 h with h | h
        · exact .inl h
        · exact .inr (List.mem_cons_of_mem _ h)
      · rcases List.mem_cons.1 h with h | h
        · exact .inr (h ▸ List.mem_cons_self)
        · rcases ih h with h | h
          · exact .inl h
          · exact .inr (List.mem_cons_of_mem _ h)

theorem mem_merase {m : SMap α} {k : Nat} {c : Nat × α} (h : c ∈ merase m k) : c ∈ m := by
  induction m with
  | nil => simp [merase] at h
  | cons e m ih =>
    obtain ⟨a, x⟩ := e
    simp only [merase] at h
    split at h
    · exact List.mem_cons_of_mem _ (ih h)
    · rcases List.mem_cons.1 h with h | h
      · exact h ▸ List.mem_cons_self
      · exact List.mem_cons_of_mem _ (ih h)

theorem mwf_minsert {d v : α} {m : SMap α} {k : Nat} (hv : v ≠ d) (h : mwf d m) : mwf d (minsert m k v) := by
  induction m with
  | nil => exact ⟨by simp [minsert], by simpa [minsert] using hv⟩
  | cons e m ih =>
    obtain ⟨a, x⟩ := e
    obtain ⟨hp, hd⟩ := h
    have hp' := List.pairwise_cons.1 hp
    have hm : mwf d m := ⟨hp'.2, fun c hc => hd c (List.mem_cons_of_mem _ hc)⟩
    simp only [minsert]
    split
    · rename_i hk
      refine ⟨List.pairwise_cons.2 ⟨fun c hc => ?_, hp⟩, fun c hc => ?_⟩
      · rcases List.mem_cons.1 hc with hc | hc
        · subst hc; exact hk
        · exact Nat.lt_trans hk (hp'.1 c hc)
      · rcases List.mem_cons.1 hc with hc | hc
        · subst hc; exact hv
        · exact hd c hc
    · split
      · rename_i hk
        subst hk
        refine ⟨List.pairwise_cons.2 ⟨hp'.1, hp'.2⟩, fun c hc => ?_⟩
        rcases List.mem_cons.1 hc with hc | hc
        · subst hc; exact hv
        · exact hm.2 c hc
      · rename_i h1 h2
        have hi := ih hm
        refine ⟨List.pairwise_cons.2 ⟨fun c hc => ?_, hi.1⟩, fun c hc => ?_⟩
        · rcases mem_minsert hc with hc | hc
          · subst hc; change a < k; omega
          · exact hp'.1 c hc
        · rcases List.mem_cons.1 hc with hc | hc
          · subst hc; exact hd _ List.mem_cons_self
          · exact hi.2 c hc

theorem mwf_merase {d : α} {m : SMap α} {k : Nat} (h : mwf d m) : mwf d (merase m k) := by
  induction m with
  | nil => simpa [merase] using h
  | cons e m ih =>
    obtain ⟨a, x⟩ := e
    obtain ⟨hp, hd⟩ := h
    have hp' := List.pairwise_cons.1 hp
    have hm : mwf d m := ⟨hp'.2, fun c hc => hd c (List.mem_cons_of_mem _ hc)⟩
    simp only [merase]
    split
    · exact ih hm
    · have hi := ih hm
      refine ⟨List.pairwise_cons.2 ⟨fun c hc => hp'.1 c (mem_merase hc), hi.1⟩, fun c hc => ?_⟩
      rcases List.mem_cons.1 hc with hc | hc
      · subst hc; exact hd _ List.mem_cons_self
      · exact hi.2 c hc

/-- A write keeps the canonical form. -/
theorem mwf_mset [DecidableEq α] {d : α} {m : SMap α} (k : Nat) (v : α) (h : mwf d m) : mwf d (mset d m k v) := by
  unfold mset
  split
  · exact mwf_merase h
  · rename_i hv; exact mwf_minsert hv h

/-- Dropping entries keeps the canonical form. -/
theorem mwf_filter {d : α} {m : SMap α} (p : Nat × α → Bool) (h : mwf d m) : mwf d (m.filter p) :=
  ⟨h.1.filter _, fun c hc => h.2 c (List.mem_filter.1 hc).1⟩

theorem mwf_mclear {d : α} {m : SMap α} (lo hi : Nat) (h : mwf d m) : mwf d (mclear m lo hi) := mwf_filter _ h

theorem mget_filter (d : α) (m : SMap α) (p : Nat → Bool) (j : Nat) :
    mget d (m.filter (fun c => p c.1)) j = if p j then mget d m j else d := by
  induction m with
  | nil => simp [mget]
  | cons c m ih =>
    obtain ⟨a, x⟩ := c
    by_cases hp : p a
    · simp only [List.filter_cons, hp, if_true, mget, ih]
      split
      · subst_vars; simp [hp]
      · rfl
    · simp only [List.filter_cons, hp, mget]
      by_cases hj : j = a
      · subst hj; simp [hp, ih]
      · simp [hj, ih]

/-- Clearing a range: its keys read as unlisted, every other as before. -/
@[simp] theorem mget_mclear (d : α) (m : SMap α) (lo hi j : Nat) :
    mget d (mclear m lo hi) j = if lo ≤ j ∧ j < hi then d else mget d m j := by
  rw [mclear, mget_filter d m (fun k => k < lo || hi ≤ k)]
  by_cases h1 : lo ≤ j <;> by_cases h2 : j < hi <;> simp [h1, h2]

theorem mwf_writeBytes {m : SMap Byte} (a : Nat) (bs : List Byte) (h : mwf 0 m) : mwf 0 (writeBytes m a bs) := by
  induction bs generalizing m a with
  | nil => exact h
  | cons b bs ih => exact ih (a + 1) (mwf_mset a b h)

/-- Bytes written: inside the range the byte written, outside it as before. -/
@[simp] theorem mget_writeBytes (m : SMap Byte) (a : Nat) (bs : List Byte) (j : Nat) :
    mget 0 (writeBytes m a bs) j = if a ≤ j ∧ j < a + bs.length then bs.getD (j - a) 0 else mget 0 m j := by
  induction bs generalizing m a with
  | nil => simp [writeBytes]
  | cons b bs ih =>
    simp only [writeBytes, ih, mget_mset, List.length_cons]
    by_cases h : j = a
    · subst h; simp
    · by_cases h1 : a ≤ j
      · have h2 : a + 1 ≤ j := by omega
        have h3 : j - a = (j - (a + 1)) + 1 := by omega
        simp only [h1, h2, true_and, h3, List.getD_cons_succ, h, if_false]
        by_cases h4 : j < a + 1 + bs.length
        · have h5 : j < a + (bs.length + 1) := by omega
          simp [h4, h5]
        · have h5 : ¬ j < a + (bs.length + 1) := by omega
          simp [h4, h5]
      · have h2 : ¬ a + 1 ≤ j := by omega
        simp [h, h1, h2]

theorem mwf_writeCells {m : SMap Byte} (l : List (Nat × Byte)) (h : mwf 0 m) : mwf 0 (writeCells m l) := by
  induction l generalizing m with
  | nil => exact h
  | cons c l ih => exact ih (mwf_mset c.1 c.2 h)

@[simp] theorem length_leBytes (n x : Nat) : (leBytes n x).length = n := by
  induction n generalizing x with
  | zero => rfl
  | succ n ih => simp [leBytes, ih]

/-- Little-endian bytes and back (R11). -/
theorem leNat_leBytes (n x : Nat) : leNat (leBytes n x) = x % 256 ^ n := by
  induction n generalizing x with
  | zero => simp [leBytes, leNat, Nat.mod_one]
  | succ n ih =>
    have h : (256 : Nat) ^ (n + 1) = 256 * 256 ^ n := by rw [Nat.pow_succ, Nat.mul_comm]
    rw [h, Nat.mod_mul]
    simp [leBytes, leNat, ih]

end Sys2Proof.Machine
end

