-- ==== Sys2Proof/Laws/State.lean ====
section
/-! SUPPORT. One lemma per field per update of State: every named update changes its own field and no other,
so that no later proof unfolds a record update. Written out by rule, one line each. -/

namespace Sys2Proof.Machine.State

variable (s : State)

@[simp] theorem setTile_pending (t : Nat) (x : Tile) : (s.setTile t x).pending = s.pending := rfl
@[simp] theorem setTile_fresh (t : Nat) (x : Tile) : (s.setTile t x).fresh = s.fresh := rfl
@[simp] theorem setTile_align (t : Nat) (x : Tile) : (s.setTile t x).align = s.align := rfl
@[simp] theorem setTile_out (t : Nat) (x : Tile) : (s.setTile t x).out = s.out := rfl
@[simp] theorem setTile_pwr (t : Nat) (x : Tile) : (s.setTile t x).pwr = s.pwr := rfl
@[simp] theorem setTile_tray (t : Nat) (x : Tile) : (s.setTile t x).tray = s.tray := rfl
@[simp] theorem setTile_time (t : Nat) (x : Tile) : (s.setTile t x).time = s.time := rfl
@[simp] theorem setTile_regs (t : Nat) (x : Tile) : (s.setTile t x).regs = s.regs := rfl
@[simp] theorem setTile_cnts (t : Nat) (x : Tile) : (s.setTile t x).cnts = s.cnts := rfl
@[simp] theorem setTile_shadows (t : Nat) (x : Tile) : (s.setTile t x).shadows = s.shadows := rfl
@[simp] theorem setTile_latch (t : Nat) (x : Tile) : (s.setTile t x).latch = s.latch := rfl
@[simp] theorem setTile_links (t : Nat) (x : Tile) : (s.setTile t x).links = s.links := rfl
@[simp] theorem setTile_beats (t : Nat) (x : Tile) : (s.setTile t x).beats = s.beats := rfl
@[simp] theorem setTile_groups (t : Nat) (x : Tile) : (s.setTile t x).groups = s.groups := rfl
@[simp] theorem setTile_waves (t : Nat) (x : Tile) : (s.setTile t x).waves = s.waves := rfl
@[simp] theorem setTile_mem (t : Nat) (x : Tile) : (s.setTile t x).mem = s.mem := rfl
@[simp] theorem setTile_ue (t : Nat) (x : Tile) : (s.setTile t x).ue = s.ue := rfl
@[simp] theorem setTile_ce (t : Nat) (x : Tile) : (s.setTile t x).ce = s.ce := rfl
@[simp] theorem setTile_lost (t : Nat) (x : Tile) : (s.setTile t x).lost = s.lost := rfl
@[simp] theorem setTile_lineKey (t : Nat) (x : Tile) : (s.setTile t x).lineKey = s.lineKey := rfl
@[simp] theorem setTile_soft (t : Nat) (x : Tile) : (s.setTile t x).soft = s.soft := rfl
@[simp] theorem setTile_imOld (t : Nat) (x : Tile) : (s.setTile t x).imOld = s.imOld := rfl
@[simp] theorem setTile_fwEcc (t : Nat) (x : Tile) : (s.setTile t x).fwEcc = s.fwEcc := rfl
@[simp] theorem setTile_slabs (t : Nat) (x : Tile) : (s.setTile t x).slabs = s.slabs := rfl
@[simp] theorem setTile_devs (t : Nat) (x : Tile) : (s.setTile t x).devs = s.devs := rfl
@[simp] theorem setTile_tb (t : Nat) (x : Tile) : (s.setTile t x).tb = s.tb := rfl
@[simp] theorem setTile_faults (t : Nat) (x : Tile) : (s.setTile t x).faults = s.faults := rfl
@[simp] theorem setTile_faultWaits (t : Nat) (x : Tile) : (s.setTile t x).faultWaits = s.faultWaits := rfl
@[simp] theorem setTile_fences (t : Nat) (x : Tile) : (s.setTile t x).fences = s.fences := rfl
@[simp] theorem setTile_token (t : Nat) (x : Tile) : (s.setTile t x).token = s.token := rfl
@[simp] theorem setTile_jobs (t : Nat) (x : Tile) : (s.setTile t x).jobs = s.jobs := rfl
@[simp] theorem setTile_ports (t : Nat) (x : Tile) : (s.setTile t x).ports = s.ports := rfl
@[simp] theorem setTile_scheds (t : Nat) (x : Tile) : (s.setTile t x).scheds = s.scheds := rfl
@[simp] theorem setTile_meters (t : Nat) (x : Tile) : (s.setTile t x).meters = s.meters := rfl
@[simp] theorem setTile_conns (t : Nat) (x : Tile) : (s.setTile t x).conns = s.conns := rfl
@[simp] theorem setTile_kvt (t : Nat) (x : Tile) : (s.setTile t x).kvt = s.kvt := rfl
@[simp] theorem setTile_naks (t : Nat) (x : Tile) : (s.setTile t x).naks = s.naks := rfl
@[simp] theorem setTile_windows (t : Nat) (x : Tile) : (s.setTile t x).windows = s.windows := rfl
@[simp] theorem setTile_revokes (t : Nat) (x : Tile) : (s.setTile t x).revokes = s.revokes := rfl
@[simp] theorem setTile_armed (t : Nat) (x : Tile) : (s.setTile t x).armed = s.armed := rfl
@[simp] theorem setTile_armedDue (t : Nat) (x : Tile) : (s.setTile t x).armedDue = s.armedDue := rfl
@[simp] theorem setTile_queues (t : Nat) (x : Tile) : (s.setTile t x).queues = s.queues := rfl
@[simp] theorem setTile_colls (t : Nat) (x : Tile) : (s.setTile t x).colls = s.colls := rfl
@[simp] theorem setTile_collWait (t : Nat) (x : Tile) : (s.setTile t x).collWait = s.collWait := rfl
@[simp] theorem setTile_parts (t : Nat) (x : Tile) : (s.setTile t x).parts = s.parts := rfl
@[simp] theorem setTile_images (t : Nat) (x : Tile) : (s.setTile t x).images = s.images := rfl
@[simp] theorem setTile_mbox (t : Nat) (x : Tile) : (s.setTile t x).mbox = s.mbox := rfl
@[simp] theorem setTile_keys (t : Nat) (x : Tile) : (s.setTile t x).keys = s.keys := rfl
@[simp] theorem setTile_ciph (t : Nat) (x : Tile) : (s.setTile t x).ciph = s.ciph := rfl
@[simp] theorem setTile_ident (t : Nat) (x : Tile) : (s.setTile t x).ident = s.ident := rfl
@[simp] theorem setTile_store (t : Nat) (x : Tile) : (s.setTile t x).store = s.store := rfl
@[simp] theorem setTile_test (t : Nat) (x : Tile) : (s.setTile t x).test = s.test := rfl

@[simp] theorem setPort_pending (n : Nat) (x : Port) : (s.setPort n x).pending = s.pending := rfl
@[simp] theorem setPort_fresh (n : Nat) (x : Port) : (s.setPort n x).fresh = s.fresh := rfl
@[simp] theorem setPort_align (n : Nat) (x : Port) : (s.setPort n x).align = s.align := rfl
@[simp] theorem setPort_out (n : Nat) (x : Port) : (s.setPort n x).out = s.out := rfl
@[simp] theorem setPort_pwr (n : Nat) (x : Port) : (s.setPort n x).pwr = s.pwr := rfl
@[simp] theorem setPort_tray (n : Nat) (x : Port) : (s.setPort n x).tray = s.tray := rfl
@[simp] theorem setPort_time (n : Nat) (x : Port) : (s.setPort n x).time = s.time := rfl
@[simp] theorem setPort_regs (n : Nat) (x : Port) : (s.setPort n x).regs = s.regs := rfl
@[simp] theorem setPort_cnts (n : Nat) (x : Port) : (s.setPort n x).cnts = s.cnts := rfl
@[simp] theorem setPort_shadows (n : Nat) (x : Port) : (s.setPort n x).shadows = s.shadows := rfl
@[simp] theorem setPort_latch (n : Nat) (x : Port) : (s.setPort n x).latch = s.latch := rfl
@[simp] theorem setPort_tiles (n : Nat) (x : Port) : (s.setPort n x).tiles = s.tiles := rfl
@[simp] theorem setPort_links (n : Nat) (x : Port) : (s.setPort n x).links = s.links := rfl
@[simp] theorem setPort_beats (n : Nat) (x : Port) : (s.setPort n x).beats = s.beats := rfl
@[simp] theorem setPort_groups (n : Nat) (x : Port) : (s.setPort n x).groups = s.groups := rfl
@[simp] theorem setPort_waves (n : Nat) (x : Port) : (s.setPort n x).waves = s.waves := rfl
@[simp] theorem setPort_mem (n : Nat) (x : Port) : (s.setPort n x).mem = s.mem := rfl
@[simp] theorem setPort_ue (n : Nat) (x : Port) : (s.setPort n x).ue = s.ue := rfl
@[simp] theorem setPort_ce (n : Nat) (x : Port) : (s.setPort n x).ce = s.ce := rfl
@[simp] theorem setPort_lost (n : Nat) (x : Port) : (s.setPort n x).lost = s.lost := rfl
@[simp] theorem setPort_lineKey (n : Nat) (x : Port) : (s.setPort n x).lineKey = s.lineKey := rfl
@[simp] theorem setPort_soft (n : Nat) (x : Port) : (s.setPort n x).soft = s.soft := rfl
@[simp] theorem setPort_imOld (n : Nat) (x : Port) : (s.setPort n x).imOld = s.imOld := rfl
@[simp] theorem setPort_fwEcc (n : Nat) (x : Port) : (s.setPort n x).fwEcc = s.fwEcc := rfl
@[simp] theorem setPort_slabs (n : Nat) (x : Port) : (s.setPort n x).slabs = s.slabs := rfl
@[simp] theorem setPort_devs (n : Nat) (x : Port) : (s.setPort n x).devs = s.devs := rfl
@[simp] theorem setPort_tb (n : Nat) (x : Port) : (s.setPort n x).tb = s.tb := rfl
@[simp] theorem setPort_faults (n : Nat) (x : Port) : (s.setPort n x).faults = s.faults := rfl
@[simp] theorem setPort_faultWaits (n : Nat) (x : Port) : (s.setPort n x).faultWaits = s.faultWaits := rfl
@[simp] theorem setPort_fences (n : Nat) (x : Port) : (s.setPort n x).fences = s.fences := rfl
@[simp] theorem setPort_token (n : Nat) (x : Port) : (s.setPort n x).token = s.token := rfl
@[simp] theorem setPort_jobs (n : Nat) (x : Port) : (s.setPort n x).jobs = s.jobs := rfl
@[simp] theorem setPort_scheds (n : Nat) (x : Port) : (s.setPort n x).scheds = s.scheds := rfl
@[simp] theorem setPort_meters (n : Nat) (x : Port) : (s.setPort n x).meters = s.meters := rfl
@[simp] theorem setPort_conns (n : Nat) (x : Port) : (s.setPort n x).conns = s.conns := rfl
@[simp] theorem setPort_kvt (n : Nat) (x : Port) : (s.setPort n x).kvt = s.kvt := rfl
@[simp] theorem setPort_naks (n : Nat) (x : Port) : (s.setPort n x).naks = s.naks := rfl
@[simp] theorem setPort_windows (n : Nat) (x : Port) : (s.setPort n x).windows = s.windows := rfl
@[simp] theorem setPort_revokes (n : Nat) (x : Port) : (s.setPort n x).revokes = s.revokes := rfl
@[simp] theorem setPort_armed (n : Nat) (x : Port) : (s.setPort n x).armed = s.armed := rfl
@[simp] theorem setPort_armedDue (n : Nat) (x : Port) : (s.setPort n x).armedDue = s.armedDue := rfl
@[simp] theorem setPort_queues (n : Nat) (x : Port) : (s.setPort n x).queues = s.queues := rfl
@[simp] theorem setPort_colls (n : Nat) (x : Port) : (s.setPort n x).colls = s.colls := rfl
@[simp] theorem setPort_collWait (n : Nat) (x : Port) : (s.setPort n x).collWait = s.collWait := rfl
@[simp] theorem setPort_parts (n : Nat) (x : Port) : (s.setPort n x).parts = s.parts := rfl
@[simp] theorem setPort_images (n : Nat) (x : Port) : (s.setPort n x).images = s.images := rfl
@[simp] theorem setPort_mbox (n : Nat) (x : Port) : (s.setPort n x).mbox = s.mbox := rfl
@[simp] theorem setPort_keys (n : Nat) (x : Port) : (s.setPort n x).keys = s.keys := rfl
@[simp] theorem setPort_ciph (n : Nat) (x : Port) : (s.setPort n x).ciph = s.ciph := rfl
@[simp] theorem setPort_ident (n : Nat) (x : Port) : (s.setPort n x).ident = s.ident := rfl
@[simp] theorem setPort_store (n : Nat) (x : Port) : (s.setPort n x).store = s.store := rfl
@[simp] theorem setPort_test (n : Nat) (x : Port) : (s.setPort n x).test = s.test := rfl

@[simp] theorem setSched_pending (n : Nat) (x : Sched) : (s.setSched n x).pending = s.pending := rfl
@[simp] theorem setSched_fresh (n : Nat) (x : Sched) : (s.setSched n x).fresh = s.fresh := rfl
@[simp] theorem setSched_align (n : Nat) (x : Sched) : (s.setSched n x).align = s.align := rfl
@[simp] theorem setSched_out (n : Nat) (x : Sched) : (s.setSched n x).out = s.out := rfl
@[simp] theorem setSched_pwr (n : Nat) (x : Sched) : (s.setSched n x).pwr = s.pwr := rfl
@[simp] theorem setSched_tray (n : Nat) (x : Sched) : (s.setSched n x).tray = s.tray := rfl
@[simp] theorem setSched_time (n : Nat) (x : Sched) : (s.setSched n x).time = s.time := rfl
@[simp] theorem setSched_regs (n : Nat) (x : Sched) : (s.setSched n x).regs = s.regs := rfl
@[simp] theorem setSched_cnts (n : Nat) (x : Sched) : (s.setSched n x).cnts = s.cnts := rfl
@[simp] theorem setSched_shadows (n : Nat) (x : Sched) : (s.setSched n x).shadows = s.shadows := rfl
@[simp] theorem setSched_latch (n : Nat) (x : Sched) : (s.setSched n x).latch = s.latch := rfl
@[simp] theorem setSched_tiles (n : Nat) (x : Sched) : (s.setSched n x).tiles = s.tiles := rfl
@[simp] theorem setSched_links (n : Nat) (x : Sched) : (s.setSched n x).links = s.links := rfl
@[simp] theorem setSched_beats (n : Nat) (x : Sched) : (s.setSched n x).beats = s.beats := rfl
@[simp] theorem setSched_groups (n : Nat) (x : Sched) : (s.setSched n x).groups = s.groups := rfl
@[simp] theorem setSched_waves (n : Nat) (x : Sched) : (s.setSched n x).waves = s.waves := rfl
@[simp] theorem setSched_mem (n : Nat) (x : Sched) : (s.setSched n x).mem = s.mem := rfl
@[simp] theorem setSched_ue (n : Nat) (x : Sched) : (s.setSched n x).ue = s.ue := rfl
@[simp] theorem setSched_ce (n : Nat) (x : Sched) : (s.setSched n x).ce = s.ce := rfl
@[simp] theorem setSched_lost (n : Nat) (x : Sched) : (s.setSched n x).lost = s.lost := rfl
@[simp] theorem setSched_lineKey (n : Nat) (x : Sched) : (s.setSched n x).lineKey = s.lineKey := rfl
@[simp] theorem setSched_soft (n : Nat) (x : Sched) : (s.setSched n x).soft = s.soft := rfl
@[simp] theorem setSched_imOld (n : Nat) (x : Sched) : (s.setSched n x).imOld = s.imOld := rfl
@[simp] theorem setSched_fwEcc (n : Nat) (x : Sched) : (s.setSched n x).fwEcc = s.fwEcc := rfl
@[simp] theorem setSched_slabs (n : Nat) (x : Sched) : (s.setSched n x).slabs = s.slabs := rfl
@[simp] theorem setSched_devs (n : Nat) (x : Sched) : (s.setSched n x).devs = s.devs := rfl
@[simp] theorem setSched_tb (n : Nat) (x : Sched) : (s.setSched n x).tb = s.tb := rfl
@[simp] theorem setSched_faults (n : Nat) (x : Sched) : (s.setSched n x).faults = s.faults := rfl
@[simp] theorem setSched_faultWaits (n : Nat) (x : Sched) : (s.setSched n x).faultWaits = s.faultWaits := rfl
@[simp] theorem setSched_fences (n : Nat) (x : Sched) : (s.setSched n x).fences = s.fences := rfl
@[simp] theorem setSched_token (n : Nat) (x : Sched) : (s.setSched n x).token = s.token := rfl
@[simp] theorem setSched_jobs (n : Nat) (x : Sched) : (s.setSched n x).jobs = s.jobs := rfl
@[simp] theorem setSched_ports (n : Nat) (x : Sched) : (s.setSched n x).ports = s.ports := rfl
@[simp] theorem setSched_meters (n : Nat) (x : Sched) : (s.setSched n x).meters = s.meters := rfl
@[simp] theorem setSched_conns (n : Nat) (x : Sched) : (s.setSched n x).conns = s.conns := rfl
@[simp] theorem setSched_kvt (n : Nat) (x : Sched) : (s.setSched n x).kvt = s.kvt := rfl
@[simp] theorem setSched_naks (n : Nat) (x : Sched) : (s.setSched n x).naks = s.naks := rfl
@[simp] theorem setSched_windows (n : Nat) (x : Sched) : (s.setSched n x).windows = s.windows := rfl
@[simp] theorem setSched_revokes (n : Nat) (x : Sched) : (s.setSched n x).revokes = s.revokes := rfl
@[simp] theorem setSched_armed (n : Nat) (x : Sched) : (s.setSched n x).armed = s.armed := rfl
@[simp] theorem setSched_armedDue (n : Nat) (x : Sched) : (s.setSched n x).armedDue = s.armedDue := rfl
@[simp] theorem setSched_queues (n : Nat) (x : Sched) : (s.setSched n x).queues = s.queues := rfl
@[simp] theorem setSched_colls (n : Nat) (x : Sched) : (s.setSched n x).colls = s.colls := rfl
@[simp] theorem setSched_collWait (n : Nat) (x : Sched) : (s.setSched n x).collWait = s.collWait := rfl
@[simp] theorem setSched_parts (n : Nat) (x : Sched) : (s.setSched n x).parts = s.parts := rfl
@[simp] theorem setSched_images (n : Nat) (x : Sched) : (s.setSched n x).images = s.images := rfl
@[simp] theorem setSched_mbox (n : Nat) (x : Sched) : (s.setSched n x).mbox = s.mbox := rfl
@[simp] theorem setSched_keys (n : Nat) (x : Sched) : (s.setSched n x).keys = s.keys := rfl
@[simp] theorem setSched_ciph (n : Nat) (x : Sched) : (s.setSched n x).ciph = s.ciph := rfl
@[simp] theorem setSched_ident (n : Nat) (x : Sched) : (s.setSched n x).ident = s.ident := rfl
@[simp] theorem setSched_store (n : Nat) (x : Sched) : (s.setSched n x).store = s.store := rfl
@[simp] theorem setSched_test (n : Nat) (x : Sched) : (s.setSched n x).test = s.test := rfl

@[simp] theorem setMeter_pending (k : Nat) (x : Meter) : (s.setMeter k x).pending = s.pending := rfl
@[simp] theorem setMeter_fresh (k : Nat) (x : Meter) : (s.setMeter k x).fresh = s.fresh := rfl
@[simp] theorem setMeter_align (k : Nat) (x : Meter) : (s.setMeter k x).align = s.align := rfl
@[simp] theorem setMeter_out (k : Nat) (x : Meter) : (s.setMeter k x).out = s.out := rfl
@[simp] theorem setMeter_pwr (k : Nat) (x : Meter) : (s.setMeter k x).pwr = s.pwr := rfl
@[simp] theorem setMeter_tray (k : Nat) (x : Meter) : (s.setMeter k x).tray = s.tray := rfl
@[simp] theorem setMeter_time (k : Nat) (x : Meter) : (s.setMeter k x).time = s.time := rfl
@[simp] theorem setMeter_regs (k : Nat) (x : Meter) : (s.setMeter k x).regs = s.regs := rfl
@[simp] theorem setMeter_cnts (k : Nat) (x : Meter) : (s.setMeter k x).cnts = s.cnts := rfl
@[simp] theorem setMeter_shadows (k : Nat) (x : Meter) : (s.setMeter k x).shadows = s.shadows := rfl
@[simp] theorem setMeter_latch (k : Nat) (x : Meter) : (s.setMeter k x).latch = s.latch := rfl
@[simp] theorem setMeter_tiles (k : Nat) (x : Meter) : (s.setMeter k x).tiles = s.tiles := rfl
@[simp] theorem setMeter_links (k : Nat) (x : Meter) : (s.setMeter k x).links = s.links := rfl
@[simp] theorem setMeter_beats (k : Nat) (x : Meter) : (s.setMeter k x).beats = s.beats := rfl
@[simp] theorem setMeter_groups (k : Nat) (x : Meter) : (s.setMeter k x).groups = s.groups := rfl
@[simp] theorem setMeter_waves (k : Nat) (x : Meter) : (s.setMeter k x).waves = s.waves := rfl
@[simp] theorem setMeter_mem (k : Nat) (x : Meter) : (s.setMeter k x).mem = s.mem := rfl
@[simp] theorem setMeter_ue (k : Nat) (x : Meter) : (s.setMeter k x).ue = s.ue := rfl
@[simp] theorem setMeter_ce (k : Nat) (x : Meter) : (s.setMeter k x).ce = s.ce := rfl
@[simp] theorem setMeter_lost (k : Nat) (x : Meter) : (s.setMeter k x).lost = s.lost := rfl
@[simp] theorem setMeter_lineKey (k : Nat) (x : Meter) : (s.setMeter k x).lineKey = s.lineKey := rfl
@[simp] theorem setMeter_soft (k : Nat) (x : Meter) : (s.setMeter k x).soft = s.soft := rfl
@[simp] theorem setMeter_imOld (k : Nat) (x : Meter) : (s.setMeter k x).imOld = s.imOld := rfl
@[simp] theorem setMeter_fwEcc (k : Nat) (x : Meter) : (s.setMeter k x).fwEcc = s.fwEcc := rfl
@[simp] theorem setMeter_slabs (k : Nat) (x : Meter) : (s.setMeter k x).slabs = s.slabs := rfl
@[simp] theorem setMeter_devs (k : Nat) (x : Meter) : (s.setMeter k x).devs = s.devs := rfl
@[simp] theorem setMeter_tb (k : Nat) (x : Meter) : (s.setMeter k x).tb = s.tb := rfl
@[simp] theorem setMeter_faults (k : Nat) (x : Meter) : (s.setMeter k x).faults = s.faults := rfl
@[simp] theorem setMeter_faultWaits (k : Nat) (x : Meter) : (s.setMeter k x).faultWaits = s.faultWaits := rfl
@[simp] theorem setMeter_fences (k : Nat) (x : Meter) : (s.setMeter k x).fences = s.fences := rfl
@[simp] theorem setMeter_token (k : Nat) (x : Meter) : (s.setMeter k x).token = s.token := rfl
@[simp] theorem setMeter_jobs (k : Nat) (x : Meter) : (s.setMeter k x).jobs = s.jobs := rfl
@[simp] theorem setMeter_ports (k : Nat) (x : Meter) : (s.setMeter k x).ports = s.ports := rfl
@[simp] theorem setMeter_scheds (k : Nat) (x : Meter) : (s.setMeter k x).scheds = s.scheds := rfl
@[simp] theorem setMeter_conns (k : Nat) (x : Meter) : (s.setMeter k x).conns = s.conns := rfl
@[simp] theorem setMeter_kvt (k : Nat) (x : Meter) : (s.setMeter k x).kvt = s.kvt := rfl
@[simp] theorem setMeter_naks (k : Nat) (x : Meter) : (s.setMeter k x).naks = s.naks := rfl
@[simp] theorem setMeter_windows (k : Nat) (x : Meter) : (s.setMeter k x).windows = s.windows := rfl
@[simp] theorem setMeter_revokes (k : Nat) (x : Meter) : (s.setMeter k x).revokes = s.revokes := rfl
@[simp] theorem setMeter_armed (k : Nat) (x : Meter) : (s.setMeter k x).armed = s.armed := rfl
@[simp] theorem setMeter_armedDue (k : Nat) (x : Meter) : (s.setMeter k x).armedDue = s.armedDue := rfl
@[simp] theorem setMeter_queues (k : Nat) (x : Meter) : (s.setMeter k x).queues = s.queues := rfl
@[simp] theorem setMeter_colls (k : Nat) (x : Meter) : (s.setMeter k x).colls = s.colls := rfl
@[simp] theorem setMeter_collWait (k : Nat) (x : Meter) : (s.setMeter k x).collWait = s.collWait := rfl
@[simp] theorem setMeter_parts (k : Nat) (x : Meter) : (s.setMeter k x).parts = s.parts := rfl
@[simp] theorem setMeter_images (k : Nat) (x : Meter) : (s.setMeter k x).images = s.images := rfl
@[simp] theorem setMeter_mbox (k : Nat) (x : Meter) : (s.setMeter k x).mbox = s.mbox := rfl
@[simp] theorem setMeter_keys (k : Nat) (x : Meter) : (s.setMeter k x).keys = s.keys := rfl
@[simp] theorem setMeter_ciph (k : Nat) (x : Meter) : (s.setMeter k x).ciph = s.ciph := rfl
@[simp] theorem setMeter_ident (k : Nat) (x : Meter) : (s.setMeter k x).ident = s.ident := rfl
@[simp] theorem setMeter_store (k : Nat) (x : Meter) : (s.setMeter k x).store = s.store := rfl
@[simp] theorem setMeter_test (k : Nat) (x : Meter) : (s.setMeter k x).test = s.test := rfl

@[simp] theorem setConn_pending (c : Nat) (x : Conn) : (s.setConn c x).pending = s.pending := rfl
@[simp] theorem setConn_fresh (c : Nat) (x : Conn) : (s.setConn c x).fresh = s.fresh := rfl
@[simp] theorem setConn_align (c : Nat) (x : Conn) : (s.setConn c x).align = s.align := rfl
@[simp] theorem setConn_out (c : Nat) (x : Conn) : (s.setConn c x).out = s.out := rfl
@[simp] theorem setConn_pwr (c : Nat) (x : Conn) : (s.setConn c x).pwr = s.pwr := rfl
@[simp] theorem setConn_tray (c : Nat) (x : Conn) : (s.setConn c x).tray = s.tray := rfl
@[simp] theorem setConn_time (c : Nat) (x : Conn) : (s.setConn c x).time = s.time := rfl
@[simp] theorem setConn_regs (c : Nat) (x : Conn) : (s.setConn c x).regs = s.regs := rfl
@[simp] theorem setConn_cnts (c : Nat) (x : Conn) : (s.setConn c x).cnts = s.cnts := rfl
@[simp] theorem setConn_shadows (c : Nat) (x : Conn) : (s.setConn c x).shadows = s.shadows := rfl
@[simp] theorem setConn_latch (c : Nat) (x : Conn) : (s.setConn c x).latch = s.latch := rfl
@[simp] theorem setConn_tiles (c : Nat) (x : Conn) : (s.setConn c x).tiles = s.tiles := rfl
@[simp] theorem setConn_links (c : Nat) (x : Conn) : (s.setConn c x).links = s.links := rfl
@[simp] theorem setConn_beats (c : Nat) (x : Conn) : (s.setConn c x).beats = s.beats := rfl
@[simp] theorem setConn_groups (c : Nat) (x : Conn) : (s.setConn c x).groups = s.groups := rfl
@[simp] theorem setConn_waves (c : Nat) (x : Conn) : (s.setConn c x).waves = s.waves := rfl
@[simp] theorem setConn_mem (c : Nat) (x : Conn) : (s.setConn c x).mem = s.mem := rfl
@[simp] theorem setConn_ue (c : Nat) (x : Conn) : (s.setConn c x).ue = s.ue := rfl
@[simp] theorem setConn_ce (c : Nat) (x : Conn) : (s.setConn c x).ce = s.ce := rfl
@[simp] theorem setConn_lost (c : Nat) (x : Conn) : (s.setConn c x).lost = s.lost := rfl
@[simp] theorem setConn_lineKey (c : Nat) (x : Conn) : (s.setConn c x).lineKey = s.lineKey := rfl
@[simp] theorem setConn_soft (c : Nat) (x : Conn) : (s.setConn c x).soft = s.soft := rfl
@[simp] theorem setConn_imOld (c : Nat) (x : Conn) : (s.setConn c x).imOld = s.imOld := rfl
@[simp] theorem setConn_fwEcc (c : Nat) (x : Conn) : (s.setConn c x).fwEcc = s.fwEcc := rfl
@[simp] theorem setConn_slabs (c : Nat) (x : Conn) : (s.setConn c x).slabs = s.slabs := rfl
@[simp] theorem setConn_devs (c : Nat) (x : Conn) : (s.setConn c x).devs = s.devs := rfl
@[simp] theorem setConn_tb (c : Nat) (x : Conn) : (s.setConn c x).tb = s.tb := rfl
@[simp] theorem setConn_faults (c : Nat) (x : Conn) : (s.setConn c x).faults = s.faults := rfl
@[simp] theorem setConn_faultWaits (c : Nat) (x : Conn) : (s.setConn c x).faultWaits = s.faultWaits := rfl
@[simp] theorem setConn_fences (c : Nat) (x : Conn) : (s.setConn c x).fences = s.fences := rfl
@[simp] theorem setConn_token (c : Nat) (x : Conn) : (s.setConn c x).token = s.token := rfl
@[simp] theorem setConn_jobs (c : Nat) (x : Conn) : (s.setConn c x).jobs = s.jobs := rfl
@[simp] theorem setConn_ports (c : Nat) (x : Conn) : (s.setConn c x).ports = s.ports := rfl
@[simp] theorem setConn_scheds (c : Nat) (x : Conn) : (s.setConn c x).scheds = s.scheds := rfl
@[simp] theorem setConn_meters (c : Nat) (x : Conn) : (s.setConn c x).meters = s.meters := rfl
@[simp] theorem setConn_kvt (c : Nat) (x : Conn) : (s.setConn c x).kvt = s.kvt := rfl
@[simp] theorem setConn_naks (c : Nat) (x : Conn) : (s.setConn c x).naks = s.naks := rfl
@[simp] theorem setConn_windows (c : Nat) (x : Conn) : (s.setConn c x).windows = s.windows := rfl
@[simp] theorem setConn_revokes (c : Nat) (x : Conn) : (s.setConn c x).revokes = s.revokes := rfl
@[simp] theorem setConn_armed (c : Nat) (x : Conn) : (s.setConn c x).armed = s.armed := rfl
@[simp] theorem setConn_armedDue (c : Nat) (x : Conn) : (s.setConn c x).armedDue = s.armedDue := rfl
@[simp] theorem setConn_queues (c : Nat) (x : Conn) : (s.setConn c x).queues = s.queues := rfl
@[simp] theorem setConn_colls (c : Nat) (x : Conn) : (s.setConn c x).colls = s.colls := rfl
@[simp] theorem setConn_collWait (c : Nat) (x : Conn) : (s.setConn c x).collWait = s.collWait := rfl
@[simp] theorem setConn_parts (c : Nat) (x : Conn) : (s.setConn c x).parts = s.parts := rfl
@[simp] theorem setConn_images (c : Nat) (x : Conn) : (s.setConn c x).images = s.images := rfl
@[simp] theorem setConn_mbox (c : Nat) (x : Conn) : (s.setConn c x).mbox = s.mbox := rfl
@[simp] theorem setConn_keys (c : Nat) (x : Conn) : (s.setConn c x).keys = s.keys := rfl
@[simp] theorem setConn_ciph (c : Nat) (x : Conn) : (s.setConn c x).ciph = s.ciph := rfl
@[simp] theorem setConn_ident (c : Nat) (x : Conn) : (s.setConn c x).ident = s.ident := rfl
@[simp] theorem setConn_store (c : Nat) (x : Conn) : (s.setConn c x).store = s.store := rfl
@[simp] theorem setConn_test (c : Nat) (x : Conn) : (s.setConn c x).test = s.test := rfl

@[simp] theorem setPart_pending (p : Nat) (x : Part) : (s.setPart p x).pending = s.pending := rfl
@[simp] theorem setPart_fresh (p : Nat) (x : Part) : (s.setPart p x).fresh = s.fresh := rfl
@[simp] theorem setPart_align (p : Nat) (x : Part) : (s.setPart p x).align = s.align := rfl
@[simp] theorem setPart_out (p : Nat) (x : Part) : (s.setPart p x).out = s.out := rfl
@[simp] theorem setPart_pwr (p : Nat) (x : Part) : (s.setPart p x).pwr = s.pwr := rfl
@[simp] theorem setPart_tray (p : Nat) (x : Part) : (s.setPart p x).tray = s.tray := rfl
@[simp] theorem setPart_time (p : Nat) (x : Part) : (s.setPart p x).time = s.time := rfl
@[simp] theorem setPart_regs (p : Nat) (x : Part) : (s.setPart p x).regs = s.regs := rfl
@[simp] theorem setPart_cnts (p : Nat) (x : Part) : (s.setPart p x).cnts = s.cnts := rfl
@[simp] theorem setPart_shadows (p : Nat) (x : Part) : (s.setPart p x).shadows = s.shadows := rfl
@[simp] theorem setPart_latch (p : Nat) (x : Part) : (s.setPart p x).latch = s.latch := rfl
@[simp] theorem setPart_tiles (p : Nat) (x : Part) : (s.setPart p x).tiles = s.tiles := rfl
@[simp] theorem setPart_links (p : Nat) (x : Part) : (s.setPart p x).links = s.links := rfl
@[simp] theorem setPart_beats (p : Nat) (x : Part) : (s.setPart p x).beats = s.beats := rfl
@[simp] theorem setPart_groups (p : Nat) (x : Part) : (s.setPart p x).groups = s.groups := rfl
@[simp] theorem setPart_waves (p : Nat) (x : Part) : (s.setPart p x).waves = s.waves := rfl
@[simp] theorem setPart_mem (p : Nat) (x : Part) : (s.setPart p x).mem = s.mem := rfl
@[simp] theorem setPart_ue (p : Nat) (x : Part) : (s.setPart p x).ue = s.ue := rfl
@[simp] theorem setPart_ce (p : Nat) (x : Part) : (s.setPart p x).ce = s.ce := rfl
@[simp] theorem setPart_lost (p : Nat) (x : Part) : (s.setPart p x).lost = s.lost := rfl
@[simp] theorem setPart_lineKey (p : Nat) (x : Part) : (s.setPart p x).lineKey = s.lineKey := rfl
@[simp] theorem setPart_soft (p : Nat) (x : Part) : (s.setPart p x).soft = s.soft := rfl
@[simp] theorem setPart_imOld (p : Nat) (x : Part) : (s.setPart p x).imOld = s.imOld := rfl
@[simp] theorem setPart_fwEcc (p : Nat) (x : Part) : (s.setPart p x).fwEcc = s.fwEcc := rfl
@[simp] theorem setPart_slabs (p : Nat) (x : Part) : (s.setPart p x).slabs = s.slabs := rfl
@[simp] theorem setPart_devs (p : Nat) (x : Part) : (s.setPart p x).devs = s.devs := rfl
@[simp] theorem setPart_tb (p : Nat) (x : Part) : (s.setPart p x).tb = s.tb := rfl
@[simp] theorem setPart_faults (p : Nat) (x : Part) : (s.setPart p x).faults = s.faults := rfl
@[simp] theorem setPart_faultWaits (p : Nat) (x : Part) : (s.setPart p x).faultWaits = s.faultWaits := rfl
@[simp] theorem setPart_fences (p : Nat) (x : Part) : (s.setPart p x).fences = s.fences := rfl
@[simp] theorem setPart_token (p : Nat) (x : Part) : (s.setPart p x).token = s.token := rfl
@[simp] theorem setPart_jobs (p : Nat) (x : Part) : (s.setPart p x).jobs = s.jobs := rfl
@[simp] theorem setPart_ports (p : Nat) (x : Part) : (s.setPart p x).ports = s.ports := rfl
@[simp] theorem setPart_scheds (p : Nat) (x : Part) : (s.setPart p x).scheds = s.scheds := rfl
@[simp] theorem setPart_meters (p : Nat) (x : Part) : (s.setPart p x).meters = s.meters := rfl
@[simp] theorem setPart_conns (p : Nat) (x : Part) : (s.setPart p x).conns = s.conns := rfl
@[simp] theorem setPart_kvt (p : Nat) (x : Part) : (s.setPart p x).kvt = s.kvt := rfl
@[simp] theorem setPart_naks (p : Nat) (x : Part) : (s.setPart p x).naks = s.naks := rfl
@[simp] theorem setPart_windows (p : Nat) (x : Part) : (s.setPart p x).windows = s.windows := rfl
@[simp] theorem setPart_revokes (p : Nat) (x : Part) : (s.setPart p x).revokes = s.revokes := rfl
@[simp] theorem setPart_armed (p : Nat) (x : Part) : (s.setPart p x).armed = s.armed := rfl
@[simp] theorem setPart_armedDue (p : Nat) (x : Part) : (s.setPart p x).armedDue = s.armedDue := rfl
@[simp] theorem setPart_queues (p : Nat) (x : Part) : (s.setPart p x).queues = s.queues := rfl
@[simp] theorem setPart_colls (p : Nat) (x : Part) : (s.setPart p x).colls = s.colls := rfl
@[simp] theorem setPart_collWait (p : Nat) (x : Part) : (s.setPart p x).collWait = s.collWait := rfl
@[simp] theorem setPart_images (p : Nat) (x : Part) : (s.setPart p x).images = s.images := rfl
@[simp] theorem setPart_mbox (p : Nat) (x : Part) : (s.setPart p x).mbox = s.mbox := rfl
@[simp] theorem setPart_keys (p : Nat) (x : Part) : (s.setPart p x).keys = s.keys := rfl
@[simp] theorem setPart_ciph (p : Nat) (x : Part) : (s.setPart p x).ciph = s.ciph := rfl
@[simp] theorem setPart_ident (p : Nat) (x : Part) : (s.setPart p x).ident = s.ident := rfl
@[simp] theorem setPart_store (p : Nat) (x : Part) : (s.setPart p x).store = s.store := rfl
@[simp] theorem setPart_test (p : Nat) (x : Part) : (s.setPart p x).test = s.test := rfl

@[simp] theorem setGroup_pending (g : Nat) (x : Group) : (s.setGroup g x).pending = s.pending := rfl
@[simp] theorem setGroup_fresh (g : Nat) (x : Group) : (s.setGroup g x).fresh = s.fresh := rfl
@[simp] theorem setGroup_align (g : Nat) (x : Group) : (s.setGroup g x).align = s.align := rfl
@[simp] theorem setGroup_out (g : Nat) (x : Group) : (s.setGroup g x).out = s.out := rfl
@[simp] theorem setGroup_pwr (g : Nat) (x : Group) : (s.setGroup g x).pwr = s.pwr := rfl
@[simp] theorem setGroup_tray (g : Nat) (x : Group) : (s.setGroup g x).tray = s.tray := rfl
@[simp] theorem setGroup_time (g : Nat) (x : Group) : (s.setGroup g x).time = s.time := rfl
@[simp] theorem setGroup_regs (g : Nat) (x : Group) : (s.setGroup g x).regs = s.regs := rfl
@[simp] theorem setGroup_cnts (g : Nat) (x : Group) : (s.setGroup g x).cnts = s.cnts := rfl
@[simp] theorem setGroup_shadows (g : Nat) (x : Group) : (s.setGroup g x).shadows = s.shadows := rfl
@[simp] theorem setGroup_latch (g : Nat) (x : Group) : (s.setGroup g x).latch = s.latch := rfl
@[simp] theorem setGroup_tiles (g : Nat) (x : Group) : (s.setGroup g x).tiles = s.tiles := rfl
@[simp] theorem setGroup_links (g : Nat) (x : Group) : (s.setGroup g x).links = s.links := rfl
@[simp] theorem setGroup_beats (g : Nat) (x : Group) : (s.setGroup g x).beats = s.beats := rfl
@[simp] theorem setGroup_waves (g : Nat) (x : Group) : (s.setGroup g x).waves = s.waves := rfl
@[simp] theorem setGroup_mem (g : Nat) (x : Group) : (s.setGroup g x).mem = s.mem := rfl
@[simp] theorem setGroup_ue (g : Nat) (x : Group) : (s.setGroup g x).ue = s.ue := rfl
@[simp] theorem setGroup_ce (g : Nat) (x : Group) : (s.setGroup g x).ce = s.ce := rfl
@[simp] theorem setGroup_lost (g : Nat) (x : Group) : (s.setGroup g x).lost = s.lost := rfl
@[simp] theorem setGroup_lineKey (g : Nat) (x : Group) : (s.setGroup g x).lineKey = s.lineKey := rfl
@[simp] theorem setGroup_soft (g : Nat) (x : Group) : (s.setGroup g x).soft = s.soft := rfl
@[simp] theorem setGroup_imOld (g : Nat) (x : Group) : (s.setGroup g x).imOld = s.imOld := rfl
@[simp] theorem setGroup_fwEcc (g : Nat) (x : Group) : (s.setGroup g x).fwEcc = s.fwEcc := rfl
@[simp] theorem setGroup_slabs (g : Nat) (x : Group) : (s.setGroup g x).slabs = s.slabs := rfl
@[simp] theorem setGroup_devs (g : Nat) (x : Group) : (s.setGroup g x).devs = s.devs := rfl
@[simp] theorem setGroup_tb (g : Nat) (x : Group) : (s.setGroup g x).tb = s.tb := rfl
@[simp] theorem setGroup_faults (g : Nat) (x : Group) : (s.setGroup g x).faults = s.faults := rfl
@[simp] theorem setGroup_faultWaits (g : Nat) (x : Group) : (s.setGroup g x).faultWaits = s.faultWaits := rfl
@[simp] theorem setGroup_fences (g : Nat) (x : Group) : (s.setGroup g x).fences = s.fences := rfl
@[simp] theorem setGroup_token (g : Nat) (x : Group) : (s.setGroup g x).token = s.token := rfl
@[simp] theorem setGroup_jobs (g : Nat) (x : Group) : (s.setGroup g x).jobs = s.jobs := rfl
@[simp] theorem setGroup_ports (g : Nat) (x : Group) : (s.setGroup g x).ports = s.ports := rfl
@[simp] theorem setGroup_scheds (g : Nat) (x : Group) : (s.setGroup g x).scheds = s.scheds := rfl
@[simp] theorem setGroup_meters (g : Nat) (x : Group) : (s.setGroup g x).meters = s.meters := rfl
@[simp] theorem setGroup_conns (g : Nat) (x : Group) : (s.setGroup g x).conns = s.conns := rfl
@[simp] theorem setGroup_kvt (g : Nat) (x : Group) : (s.setGroup g x).kvt = s.kvt := rfl
@[simp] theorem setGroup_naks (g : Nat) (x : Group) : (s.setGroup g x).naks = s.naks := rfl
@[simp] theorem setGroup_windows (g : Nat) (x : Group) : (s.setGroup g x).windows = s.windows := rfl
@[simp] theorem setGroup_revokes (g : Nat) (x : Group) : (s.setGroup g x).revokes = s.revokes := rfl
@[simp] theorem setGroup_armed (g : Nat) (x : Group) : (s.setGroup g x).armed = s.armed := rfl
@[simp] theorem setGroup_armedDue (g : Nat) (x : Group) : (s.setGroup g x).armedDue = s.armedDue := rfl
@[simp] theorem setGroup_queues (g : Nat) (x : Group) : (s.setGroup g x).queues = s.queues := rfl
@[simp] theorem setGroup_colls (g : Nat) (x : Group) : (s.setGroup g x).colls = s.colls := rfl
@[simp] theorem setGroup_collWait (g : Nat) (x : Group) : (s.setGroup g x).collWait = s.collWait := rfl
@[simp] theorem setGroup_parts (g : Nat) (x : Group) : (s.setGroup g x).parts = s.parts := rfl
@[simp] theorem setGroup_images (g : Nat) (x : Group) : (s.setGroup g x).images = s.images := rfl
@[simp] theorem setGroup_mbox (g : Nat) (x : Group) : (s.setGroup g x).mbox = s.mbox := rfl
@[simp] theorem setGroup_keys (g : Nat) (x : Group) : (s.setGroup g x).keys = s.keys := rfl
@[simp] theorem setGroup_ciph (g : Nat) (x : Group) : (s.setGroup g x).ciph = s.ciph := rfl
@[simp] theorem setGroup_ident (g : Nat) (x : Group) : (s.setGroup g x).ident = s.ident := rfl
@[simp] theorem setGroup_store (g : Nat) (x : Group) : (s.setGroup g x).store = s.store := rfl
@[simp] theorem setGroup_test (g : Nat) (x : Group) : (s.setGroup g x).test = s.test := rfl

@[simp] theorem setDev_pending (d : Nat) (x : Device) : (s.setDev d x).pending = s.pending := rfl
@[simp] theorem setDev_fresh (d : Nat) (x : Device) : (s.setDev d x).fresh = s.fresh := rfl
@[simp] theorem setDev_align (d : Nat) (x : Device) : (s.setDev d x).align = s.align := rfl
@[simp] theorem setDev_out (d : Nat) (x : Device) : (s.setDev d x).out = s.out := rfl
@[simp] theorem setDev_pwr (d : Nat) (x : Device) : (s.setDev d x).pwr = s.pwr := rfl
@[simp] theorem setDev_tray (d : Nat) (x : Device) : (s.setDev d x).tray = s.tray := rfl
@[simp] theorem setDev_time (d : Nat) (x : Device) : (s.setDev d x).time = s.time := rfl
@[simp] theorem setDev_regs (d : Nat) (x : Device) : (s.setDev d x).regs = s.regs := rfl
@[simp] theorem setDev_cnts (d : Nat) (x : Device) : (s.setDev d x).cnts = s.cnts := rfl
@[simp] theorem setDev_shadows (d : Nat) (x : Device) : (s.setDev d x).shadows = s.shadows := rfl
@[simp] theorem setDev_latch (d : Nat) (x : Device) : (s.setDev d x).latch = s.latch := rfl
@[simp] theorem setDev_tiles (d : Nat) (x : Device) : (s.setDev d x).tiles = s.tiles := rfl
@[simp] theorem setDev_links (d : Nat) (x : Device) : (s.setDev d x).links = s.links := rfl
@[simp] theorem setDev_beats (d : Nat) (x : Device) : (s.setDev d x).beats = s.beats := rfl
@[simp] theorem setDev_groups (d : Nat) (x : Device) : (s.setDev d x).groups = s.groups := rfl
@[simp] theorem setDev_waves (d : Nat) (x : Device) : (s.setDev d x).waves = s.waves := rfl
@[simp] theorem setDev_mem (d : Nat) (x : Device) : (s.setDev d x).mem = s.mem := rfl
@[simp] theorem setDev_ue (d : Nat) (x : Device) : (s.setDev d x).ue = s.ue := rfl
@[simp] theorem setDev_ce (d : Nat) (x : Device) : (s.setDev d x).ce = s.ce := rfl
@[simp] theorem setDev_lost (d : Nat) (x : Device) : (s.setDev d x).lost = s.lost := rfl
@[simp] theorem setDev_lineKey (d : Nat) (x : Device) : (s.setDev d x).lineKey = s.lineKey := rfl
@[simp] theorem setDev_soft (d : Nat) (x : Device) : (s.setDev d x).soft = s.soft := rfl
@[simp] theorem setDev_imOld (d : Nat) (x : Device) : (s.setDev d x).imOld = s.imOld := rfl
@[simp] theorem setDev_fwEcc (d : Nat) (x : Device) : (s.setDev d x).fwEcc = s.fwEcc := rfl
@[simp] theorem setDev_slabs (d : Nat) (x : Device) : (s.setDev d x).slabs = s.slabs := rfl
@[simp] theorem setDev_tb (d : Nat) (x : Device) : (s.setDev d x).tb = s.tb := rfl
@[simp] theorem setDev_faults (d : Nat) (x : Device) : (s.setDev d x).faults = s.faults := rfl
@[simp] theorem setDev_faultWaits (d : Nat) (x : Device) : (s.setDev d x).faultWaits = s.faultWaits := rfl
@[simp] theorem setDev_fences (d : Nat) (x : Device) : (s.setDev d x).fences = s.fences := rfl
@[simp] theorem setDev_token (d : Nat) (x : Device) : (s.setDev d x).token = s.token := rfl
@[simp] theorem setDev_jobs (d : Nat) (x : Device) : (s.setDev d x).jobs = s.jobs := rfl
@[simp] theorem setDev_ports (d : Nat) (x : Device) : (s.setDev d x).ports = s.ports := rfl
@[simp] theorem setDev_scheds (d : Nat) (x : Device) : (s.setDev d x).scheds = s.scheds := rfl
@[simp] theorem setDev_meters (d : Nat) (x : Device) : (s.setDev d x).meters = s.meters := rfl
@[simp] theorem setDev_conns (d : Nat) (x : Device) : (s.setDev d x).conns = s.conns := rfl
@[simp] theorem setDev_kvt (d : Nat) (x : Device) : (s.setDev d x).kvt = s.kvt := rfl
@[simp] theorem setDev_naks (d : Nat) (x : Device) : (s.setDev d x).naks = s.naks := rfl
@[simp] theorem setDev_windows (d : Nat) (x : Device) : (s.setDev d x).windows = s.windows := rfl
@[simp] theorem setDev_revokes (d : Nat) (x : Device) : (s.setDev d x).revokes = s.revokes := rfl
@[simp] theorem setDev_armed (d : Nat) (x : Device) : (s.setDev d x).armed = s.armed := rfl
@[simp] theorem setDev_armedDue (d : Nat) (x : Device) : (s.setDev d x).armedDue = s.armedDue := rfl
@[simp] theorem setDev_queues (d : Nat) (x : Device) : (s.setDev d x).queues = s.queues := rfl
@[simp] theorem setDev_colls (d : Nat) (x : Device) : (s.setDev d x).colls = s.colls := rfl
@[simp] theorem setDev_collWait (d : Nat) (x : Device) : (s.setDev d x).collWait = s.collWait := rfl
@[simp] theorem setDev_parts (d : Nat) (x : Device) : (s.setDev d x).parts = s.parts := rfl
@[simp] theorem setDev_images (d : Nat) (x : Device) : (s.setDev d x).images = s.images := rfl
@[simp] theorem setDev_mbox (d : Nat) (x : Device) : (s.setDev d x).mbox = s.mbox := rfl
@[simp] theorem setDev_keys (d : Nat) (x : Device) : (s.setDev d x).keys = s.keys := rfl
@[simp] theorem setDev_ciph (d : Nat) (x : Device) : (s.setDev d x).ciph = s.ciph := rfl
@[simp] theorem setDev_ident (d : Nat) (x : Device) : (s.setDev d x).ident = s.ident := rfl
@[simp] theorem setDev_store (d : Nat) (x : Device) : (s.setDev d x).store = s.store := rfl
@[simp] theorem setDev_test (d : Nat) (x : Device) : (s.setDev d x).test = s.test := rfl

@[simp] theorem setWindow_pending (wi : Nat) (x : Window) : (s.setWindow wi x).pending = s.pending := rfl
@[simp] theorem setWindow_fresh (wi : Nat) (x : Window) : (s.setWindow wi x).fresh = s.fresh := rfl
@[simp] theorem setWindow_align (wi : Nat) (x : Window) : (s.setWindow wi x).align = s.align := rfl
@[simp] theorem setWindow_out (wi : Nat) (x : Window) : (s.setWindow wi x).out = s.out := rfl
@[simp] theorem setWindow_pwr (wi : Nat) (x : Window) : (s.setWindow wi x).pwr = s.pwr := rfl
@[simp] theorem setWindow_tray (wi : Nat) (x : Window) : (s.setWindow wi x).tray = s.tray := rfl
@[simp] theorem setWindow_time (wi : Nat) (x : Window) : (s.setWindow wi x).time = s.time := rfl
@[simp] theorem setWindow_regs (wi : Nat) (x : Window) : (s.setWindow wi x).regs = s.regs := rfl
@[simp] theorem setWindow_cnts (wi : Nat) (x : Window) : (s.setWindow wi x).cnts = s.cnts := rfl
@[simp] theorem setWindow_shadows (wi : Nat) (x : Window) : (s.setWindow wi x).shadows = s.shadows := rfl
@[simp] theorem setWindow_latch (wi : Nat) (x : Window) : (s.setWindow wi x).latch = s.latch := rfl
@[simp] theorem setWindow_tiles (wi : Nat) (x : Window) : (s.setWindow wi x).tiles = s.tiles := rfl
@[simp] theorem setWindow_links (wi : Nat) (x : Window) : (s.setWindow wi x).links = s.links := rfl
@[simp] theorem setWindow_beats (wi : Nat) (x : Window) : (s.setWindow wi x).beats = s.beats := rfl
@[simp] theorem setWindow_groups (wi : Nat) (x : Window) : (s.setWindow wi x).groups = s.groups := rfl
@[simp] theorem setWindow_waves (wi : Nat) (x : Window) : (s.setWindow wi x).waves = s.waves := rfl
@[simp] theorem setWindow_mem (wi : Nat) (x : Window) : (s.setWindow wi x).mem = s.mem := rfl
@[simp] theorem setWindow_ue (wi : Nat) (x : Window) : (s.setWindow wi x).ue = s.ue := rfl
@[simp] theorem setWindow_ce (wi : Nat) (x : Window) : (s.setWindow wi x).ce = s.ce := rfl
@[simp] theorem setWindow_lost (wi : Nat) (x : Window) : (s.setWindow wi x).lost = s.lost := rfl
@[simp] theorem setWindow_lineKey (wi : Nat) (x : Window) : (s.setWindow wi x).lineKey = s.lineKey := rfl
@[simp] theorem setWindow_soft (wi : Nat) (x : Window) : (s.setWindow wi x).soft = s.soft := rfl
@[simp] theorem setWindow_imOld (wi : Nat) (x : Window) : (s.setWindow wi x).imOld = s.imOld := rfl
@[simp] theorem setWindow_fwEcc (wi : Nat) (x : Window) : (s.setWindow wi x).fwEcc = s.fwEcc := rfl
@[simp] theorem setWindow_slabs (wi : Nat) (x : Window) : (s.setWindow wi x).slabs = s.slabs := rfl
@[simp] theorem setWindow_devs (wi : Nat) (x : Window) : (s.setWindow wi x).devs = s.devs := rfl
@[simp] theorem setWindow_tb (wi : Nat) (x : Window) : (s.setWindow wi x).tb = s.tb := rfl
@[simp] theorem setWindow_faults (wi : Nat) (x : Window) : (s.setWindow wi x).faults = s.faults := rfl
@[simp] theorem setWindow_faultWaits (wi : Nat) (x : Window) : (s.setWindow wi x).faultWaits = s.faultWaits := rfl
@[simp] theorem setWindow_fences (wi : Nat) (x : Window) : (s.setWindow wi x).fences = s.fences := rfl
@[simp] theorem setWindow_token (wi : Nat) (x : Window) : (s.setWindow wi x).token = s.token := rfl
@[simp] theorem setWindow_jobs (wi : Nat) (x : Window) : (s.setWindow wi x).jobs = s.jobs := rfl
@[simp] theorem setWindow_ports (wi : Nat) (x : Window) : (s.setWindow wi x).ports = s.ports := rfl
@[simp] theorem setWindow_scheds (wi : Nat) (x : Window) : (s.setWindow wi x).scheds = s.scheds := rfl
@[simp] theorem setWindow_meters (wi : Nat) (x : Window) : (s.setWindow wi x).meters = s.meters := rfl
@[simp] theorem setWindow_conns (wi : Nat) (x : Window) : (s.setWindow wi x).conns = s.conns := rfl
@[simp] theorem setWindow_kvt (wi : Nat) (x : Window) : (s.setWindow wi x).kvt = s.kvt := rfl
@[simp] theorem setWindow_naks (wi : Nat) (x : Window) : (s.setWindow wi x).naks = s.naks := rfl
@[simp] theorem setWindow_revokes (wi : Nat) (x : Window) : (s.setWindow wi x).revokes = s.revokes := rfl
@[simp] theorem setWindow_armed (wi : Nat) (x : Window) : (s.setWindow wi x).armed = s.armed := rfl
@[simp] theorem setWindow_armedDue (wi : Nat) (x : Window) : (s.setWindow wi x).armedDue = s.armedDue := rfl
@[simp] theorem setWindow_queues (wi : Nat) (x : Window) : (s.setWindow wi x).queues = s.queues := rfl
@[simp] theorem setWindow_colls (wi : Nat) (x : Window) : (s.setWindow wi x).colls = s.colls := rfl
@[simp] theorem setWindow_collWait (wi : Nat) (x : Window) : (s.setWindow wi x).collWait = s.collWait := rfl
@[simp] theorem setWindow_parts (wi : Nat) (x : Window) : (s.setWindow wi x).parts = s.parts := rfl
@[simp] theorem setWindow_images (wi : Nat) (x : Window) : (s.setWindow wi x).images = s.images := rfl
@[simp] theorem setWindow_mbox (wi : Nat) (x : Window) : (s.setWindow wi x).mbox = s.mbox := rfl
@[simp] theorem setWindow_keys (wi : Nat) (x : Window) : (s.setWindow wi x).keys = s.keys := rfl
@[simp] theorem setWindow_ciph (wi : Nat) (x : Window) : (s.setWindow wi x).ciph = s.ciph := rfl
@[simp] theorem setWindow_ident (wi : Nat) (x : Window) : (s.setWindow wi x).ident = s.ident := rfl
@[simp] theorem setWindow_store (wi : Nat) (x : Window) : (s.setWindow wi x).store = s.store := rfl
@[simp] theorem setWindow_test (wi : Nat) (x : Window) : (s.setWindow wi x).test = s.test := rfl

@[simp] theorem setColl_pending (h : Nat) (x : CollGroup) : (s.setColl h x).pending = s.pending := rfl
@[simp] theorem setColl_fresh (h : Nat) (x : CollGroup) : (s.setColl h x).fresh = s.fresh := rfl
@[simp] theorem setColl_align (h : Nat) (x : CollGroup) : (s.setColl h x).align = s.align := rfl
@[simp] theorem setColl_out (h : Nat) (x : CollGroup) : (s.setColl h x).out = s.out := rfl
@[simp] theorem setColl_pwr (h : Nat) (x : CollGroup) : (s.setColl h x).pwr = s.pwr := rfl
@[simp] theorem setColl_tray (h : Nat) (x : CollGroup) : (s.setColl h x).tray = s.tray := rfl
@[simp] theorem setColl_time (h : Nat) (x : CollGroup) : (s.setColl h x).time = s.time := rfl
@[simp] theorem setColl_regs (h : Nat) (x : CollGroup) : (s.setColl h x).regs = s.regs := rfl
@[simp] theorem setColl_cnts (h : Nat) (x : CollGroup) : (s.setColl h x).cnts = s.cnts := rfl
@[simp] theorem setColl_shadows (h : Nat) (x : CollGroup) : (s.setColl h x).shadows = s.shadows := rfl
@[simp] theorem setColl_latch (h : Nat) (x : CollGroup) : (s.setColl h x).latch = s.latch := rfl
@[simp] theorem setColl_tiles (h : Nat) (x : CollGroup) : (s.setColl h x).tiles = s.tiles := rfl
@[simp] theorem setColl_links (h : Nat) (x : CollGroup) : (s.setColl h x).links = s.links := rfl
@[simp] theorem setColl_beats (h : Nat) (x : CollGroup) : (s.setColl h x).beats = s.beats := rfl
@[simp] theorem setColl_groups (h : Nat) (x : CollGroup) : (s.setColl h x).groups = s.groups := rfl
@[simp] theorem setColl_waves (h : Nat) (x : CollGroup) : (s.setColl h x).waves = s.waves := rfl
@[simp] theorem setColl_mem (h : Nat) (x : CollGroup) : (s.setColl h x).mem = s.mem := rfl
@[simp] theorem setColl_ue (h : Nat) (x : CollGroup) : (s.setColl h x).ue = s.ue := rfl
@[simp] theorem setColl_ce (h : Nat) (x : CollGroup) : (s.setColl h x).ce = s.ce := rfl
@[simp] theorem setColl_lost (h : Nat) (x : CollGroup) : (s.setColl h x).lost = s.lost := rfl
@[simp] theorem setColl_lineKey (h : Nat) (x : CollGroup) : (s.setColl h x).lineKey = s.lineKey := rfl
@[simp] theorem setColl_soft (h : Nat) (x : CollGroup) : (s.setColl h x).soft = s.soft := rfl
@[simp] theorem setColl_imOld (h : Nat) (x : CollGroup) : (s.setColl h x).imOld = s.imOld := rfl
@[simp] theorem setColl_fwEcc (h : Nat) (x : CollGroup) : (s.setColl h x).fwEcc = s.fwEcc := rfl
@[simp] theorem setColl_slabs (h : Nat) (x : CollGroup) : (s.setColl h x).slabs = s.slabs := rfl
@[simp] theorem setColl_devs (h : Nat) (x : CollGroup) : (s.setColl h x).devs = s.devs := rfl
@[simp] theorem setColl_tb (h : Nat) (x : CollGroup) : (s.setColl h x).tb = s.tb := rfl
@[simp] theorem setColl_faults (h : Nat) (x : CollGroup) : (s.setColl h x).faults = s.faults := rfl
@[simp] theorem setColl_faultWaits (h : Nat) (x : CollGroup) : (s.setColl h x).faultWaits = s.faultWaits := rfl
@[simp] theorem setColl_fences (h : Nat) (x : CollGroup) : (s.setColl h x).fences = s.fences := rfl
@[simp] theorem setColl_token (h : Nat) (x : CollGroup) : (s.setColl h x).token = s.token := rfl
@[simp] theorem setColl_jobs (h : Nat) (x : CollGroup) : (s.setColl h x).jobs = s.jobs := rfl
@[simp] theorem setColl_ports (h : Nat) (x : CollGroup) : (s.setColl h x).ports = s.ports := rfl
@[simp] theorem setColl_scheds (h : Nat) (x : CollGroup) : (s.setColl h x).scheds = s.scheds := rfl
@[simp] theorem setColl_meters (h : Nat) (x : CollGroup) : (s.setColl h x).meters = s.meters := rfl
@[simp] theorem setColl_conns (h : Nat) (x : CollGroup) : (s.setColl h x).conns = s.conns := rfl
@[simp] theorem setColl_kvt (h : Nat) (x : CollGroup) : (s.setColl h x).kvt = s.kvt := rfl
@[simp] theorem setColl_naks (h : Nat) (x : CollGroup) : (s.setColl h x).naks = s.naks := rfl
@[simp] theorem setColl_windows (h : Nat) (x : CollGroup) : (s.setColl h x).windows = s.windows := rfl
@[simp] theorem setColl_revokes (h : Nat) (x : CollGroup) : (s.setColl h x).revokes = s.revokes := rfl
@[simp] theorem setColl_armed (h : Nat) (x : CollGroup) : (s.setColl h x).armed = s.armed := rfl
@[simp] theorem setColl_armedDue (h : Nat) (x : CollGroup) : (s.setColl h x).armedDue = s.armedDue := rfl
@[simp] theorem setColl_queues (h : Nat) (x : CollGroup) : (s.setColl h x).queues = s.queues := rfl
@[simp] theorem setColl_collWait (h : Nat) (x : CollGroup) : (s.setColl h x).collWait = s.collWait := rfl
@[simp] theorem setColl_parts (h : Nat) (x : CollGroup) : (s.setColl h x).parts = s.parts := rfl
@[simp] theorem setColl_images (h : Nat) (x : CollGroup) : (s.setColl h x).images = s.images := rfl
@[simp] theorem setColl_mbox (h : Nat) (x : CollGroup) : (s.setColl h x).mbox = s.mbox := rfl
@[simp] theorem setColl_keys (h : Nat) (x : CollGroup) : (s.setColl h x).keys = s.keys := rfl
@[simp] theorem setColl_ciph (h : Nat) (x : CollGroup) : (s.setColl h x).ciph = s.ciph := rfl
@[simp] theorem setColl_ident (h : Nat) (x : CollGroup) : (s.setColl h x).ident = s.ident := rfl
@[simp] theorem setColl_store (h : Nat) (x : CollGroup) : (s.setColl h x).store = s.store := rfl
@[simp] theorem setColl_test (h : Nat) (x : CollGroup) : (s.setColl h x).test = s.test := rfl

@[simp] theorem setPkeys_pending (p : Nat) (x : PKeys) : (s.setPkeys p x).pending = s.pending := rfl
@[simp] theorem setPkeys_fresh (p : Nat) (x : PKeys) : (s.setPkeys p x).fresh = s.fresh := rfl
@[simp] theorem setPkeys_align (p : Nat) (x : PKeys) : (s.setPkeys p x).align = s.align := rfl
@[simp] theorem setPkeys_out (p : Nat) (x : PKeys) : (s.setPkeys p x).out = s.out := rfl
@[simp] theorem setPkeys_pwr (p : Nat) (x : PKeys) : (s.setPkeys p x).pwr = s.pwr := rfl
@[simp] theorem setPkeys_tray (p : Nat) (x : PKeys) : (s.setPkeys p x).tray = s.tray := rfl
@[simp] theorem setPkeys_time (p : Nat) (x : PKeys) : (s.setPkeys p x).time = s.time := rfl
@[simp] theorem setPkeys_regs (p : Nat) (x : PKeys) : (s.setPkeys p x).regs = s.regs := rfl
@[simp] theorem setPkeys_cnts (p : Nat) (x : PKeys) : (s.setPkeys p x).cnts = s.cnts := rfl
@[simp] theorem setPkeys_shadows (p : Nat) (x : PKeys) : (s.setPkeys p x).shadows = s.shadows := rfl
@[simp] theorem setPkeys_latch (p : Nat) (x : PKeys) : (s.setPkeys p x).latch = s.latch := rfl
@[simp] theorem setPkeys_tiles (p : Nat) (x : PKeys) : (s.setPkeys p x).tiles = s.tiles := rfl
@[simp] theorem setPkeys_links (p : Nat) (x : PKeys) : (s.setPkeys p x).links = s.links := rfl
@[simp] theorem setPkeys_beats (p : Nat) (x : PKeys) : (s.setPkeys p x).beats = s.beats := rfl
@[simp] theorem setPkeys_groups (p : Nat) (x : PKeys) : (s.setPkeys p x).groups = s.groups := rfl
@[simp] theorem setPkeys_waves (p : Nat) (x : PKeys) : (s.setPkeys p x).waves = s.waves := rfl
@[simp] theorem setPkeys_mem (p : Nat) (x : PKeys) : (s.setPkeys p x).mem = s.mem := rfl
@[simp] theorem setPkeys_ue (p : Nat) (x : PKeys) : (s.setPkeys p x).ue = s.ue := rfl
@[simp] theorem setPkeys_ce (p : Nat) (x : PKeys) : (s.setPkeys p x).ce = s.ce := rfl
@[simp] theorem setPkeys_lost (p : Nat) (x : PKeys) : (s.setPkeys p x).lost = s.lost := rfl
@[simp] theorem setPkeys_lineKey (p : Nat) (x : PKeys) : (s.setPkeys p x).lineKey = s.lineKey := rfl
@[simp] theorem setPkeys_soft (p : Nat) (x : PKeys) : (s.setPkeys p x).soft = s.soft := rfl
@[simp] theorem setPkeys_imOld (p : Nat) (x : PKeys) : (s.setPkeys p x).imOld = s.imOld := rfl
@[simp] theorem setPkeys_fwEcc (p : Nat) (x : PKeys) : (s.setPkeys p x).fwEcc = s.fwEcc := rfl
@[simp] theorem setPkeys_slabs (p : Nat) (x : PKeys) : (s.setPkeys p x).slabs = s.slabs := rfl
@[simp] theorem setPkeys_devs (p : Nat) (x : PKeys) : (s.setPkeys p x).devs = s.devs := rfl
@[simp] theorem setPkeys_tb (p : Nat) (x : PKeys) : (s.setPkeys p x).tb = s.tb := rfl
@[simp] theorem setPkeys_faults (p : Nat) (x : PKeys) : (s.setPkeys p x).faults = s.faults := rfl
@[simp] theorem setPkeys_faultWaits (p : Nat) (x : PKeys) : (s.setPkeys p x).faultWaits = s.faultWaits := rfl
@[simp] theorem setPkeys_fences (p : Nat) (x : PKeys) : (s.setPkeys p x).fences = s.fences := rfl
@[simp] theorem setPkeys_token (p : Nat) (x : PKeys) : (s.setPkeys p x).token = s.token := rfl
@[simp] theorem setPkeys_jobs (p : Nat) (x : PKeys) : (s.setPkeys p x).jobs = s.jobs := rfl
@[simp] theorem setPkeys_ports (p : Nat) (x : PKeys) : (s.setPkeys p x).ports = s.ports := rfl
@[simp] theorem setPkeys_scheds (p : Nat) (x : PKeys) : (s.setPkeys p x).scheds = s.scheds := rfl
@[simp] theorem setPkeys_meters (p : Nat) (x : PKeys) : (s.setPkeys p x).meters = s.meters := rfl
@[simp] theorem setPkeys_conns (p : Nat) (x : PKeys) : (s.setPkeys p x).conns = s.conns := rfl
@[simp] theorem setPkeys_kvt (p : Nat) (x : PKeys) : (s.setPkeys p x).kvt = s.kvt := rfl
@[simp] theorem setPkeys_naks (p : Nat) (x : PKeys) : (s.setPkeys p x).naks = s.naks := rfl
@[simp] theorem setPkeys_windows (p : Nat) (x : PKeys) : (s.setPkeys p x).windows = s.windows := rfl
@[simp] theorem setPkeys_revokes (p : Nat) (x : PKeys) : (s.setPkeys p x).revokes = s.revokes := rfl
@[simp] theorem setPkeys_armed (p : Nat) (x : PKeys) : (s.setPkeys p x).armed = s.armed := rfl
@[simp] theorem setPkeys_armedDue (p : Nat) (x : PKeys) : (s.setPkeys p x).armedDue = s.armedDue := rfl
@[simp] theorem setPkeys_queues (p : Nat) (x : PKeys) : (s.setPkeys p x).queues = s.queues := rfl
@[simp] theorem setPkeys_colls (p : Nat) (x : PKeys) : (s.setPkeys p x).colls = s.colls := rfl
@[simp] theorem setPkeys_collWait (p : Nat) (x : PKeys) : (s.setPkeys p x).collWait = s.collWait := rfl
@[simp] theorem setPkeys_parts (p : Nat) (x : PKeys) : (s.setPkeys p x).parts = s.parts := rfl
@[simp] theorem setPkeys_images (p : Nat) (x : PKeys) : (s.setPkeys p x).images = s.images := rfl
@[simp] theorem setPkeys_mbox (p : Nat) (x : PKeys) : (s.setPkeys p x).mbox = s.mbox := rfl
@[simp] theorem setPkeys_ciph (p : Nat) (x : PKeys) : (s.setPkeys p x).ciph = s.ciph := rfl
@[simp] theorem setPkeys_ident (p : Nat) (x : PKeys) : (s.setPkeys p x).ident = s.ident := rfl
@[simp] theorem setPkeys_store (p : Nat) (x : PKeys) : (s.setPkeys p x).store = s.store := rfl
@[simp] theorem setPkeys_test (p : Nat) (x : PKeys) : (s.setPkeys p x).test = s.test := rfl

@[simp] theorem setQueue_pending (p q : Nat) (x : Queue) : (s.setQueue p q x).pending = s.pending := rfl
@[simp] theorem setQueue_fresh (p q : Nat) (x : Queue) : (s.setQueue p q x).fresh = s.fresh := rfl
@[simp] theorem setQueue_align (p q : Nat) (x : Queue) : (s.setQueue p q x).align = s.align := rfl
@[simp] theorem setQueue_out (p q : Nat) (x : Queue) : (s.setQueue p q x).out = s.out := rfl
@[simp] theorem setQueue_pwr (p q : Nat) (x : Queue) : (s.setQueue p q x).pwr = s.pwr := rfl
@[simp] theorem setQueue_tray (p q : Nat) (x : Queue) : (s.setQueue p q x).tray = s.tray := rfl
@[simp] theorem setQueue_time (p q : Nat) (x : Queue) : (s.setQueue p q x).time = s.time := rfl
@[simp] theorem setQueue_regs (p q : Nat) (x : Queue) : (s.setQueue p q x).regs = s.regs := rfl
@[simp] theorem setQueue_cnts (p q : Nat) (x : Queue) : (s.setQueue p q x).cnts = s.cnts := rfl
@[simp] theorem setQueue_shadows (p q : Nat) (x : Queue) : (s.setQueue p q x).shadows = s.shadows := rfl
@[simp] theorem setQueue_latch (p q : Nat) (x : Queue) : (s.setQueue p q x).latch = s.latch := rfl
@[simp] theorem setQueue_tiles (p q : Nat) (x : Queue) : (s.setQueue p q x).tiles = s.tiles := rfl
@[simp] theorem setQueue_links (p q : Nat) (x : Queue) : (s.setQueue p q x).links = s.links := rfl
@[simp] theorem setQueue_beats (p q : Nat) (x : Queue) : (s.setQueue p q x).beats = s.beats := rfl
@[simp] theorem setQueue_groups (p q : Nat) (x : Queue) : (s.setQueue p q x).groups = s.groups := rfl
@[simp] theorem setQueue_waves (p q : Nat) (x : Queue) : (s.setQueue p q x).waves = s.waves := rfl
@[simp] theorem setQueue_mem (p q : Nat) (x : Queue) : (s.setQueue p q x).mem = s.mem := rfl
@[simp] theorem setQueue_ue (p q : Nat) (x : Queue) : (s.setQueue p q x).ue = s.ue := rfl
@[simp] theorem setQueue_ce (p q : Nat) (x : Queue) : (s.setQueue p q x).ce = s.ce := rfl
@[simp] theorem setQueue_lost (p q : Nat) (x : Queue) : (s.setQueue p q x).lost = s.lost := rfl
@[simp] theorem setQueue_lineKey (p q : Nat) (x : Queue) : (s.setQueue p q x).lineKey = s.lineKey := rfl
@[simp] theorem setQueue_soft (p q : Nat) (x : Queue) : (s.setQueue p q x).soft = s.soft := rfl
@[simp] theorem setQueue_imOld (p q : Nat) (x : Queue) : (s.setQueue p q x).imOld = s.imOld := rfl
@[simp] theorem setQueue_fwEcc (p q : Nat) (x : Queue) : (s.setQueue p q x).fwEcc = s.fwEcc := rfl
@[simp] theorem setQueue_slabs (p q : Nat) (x : Queue) : (s.setQueue p q x).slabs = s.slabs := rfl
@[simp] theorem setQueue_devs (p q : Nat) (x : Queue) : (s.setQueue p q x).devs = s.devs := rfl
@[simp] theorem setQueue_tb (p q : Nat) (x : Queue) : (s.setQueue p q x).tb = s.tb := rfl
@[simp] theorem setQueue_faults (p q : Nat) (x : Queue) : (s.setQueue p q x).faults = s.faults := rfl
@[simp] theorem setQueue_faultWaits (p q : Nat) (x : Queue) : (s.setQueue p q x).faultWaits = s.faultWaits := rfl
@[simp] theorem setQueue_fences (p q : Nat) (x : Queue) : (s.setQueue p q x).fences = s.fences := rfl
@[simp] theorem setQueue_token (p q : Nat) (x : Queue) : (s.setQueue p q x).token = s.token := rfl
@[simp] theorem setQueue_jobs (p q : Nat) (x : Queue) : (s.setQueue p q x).jobs = s.jobs := rfl
@[simp] theorem setQueue_ports (p q : Nat) (x : Queue) : (s.setQueue p q x).ports = s.ports := rfl
@[simp] theorem setQueue_scheds (p q : Nat) (x : Queue) : (s.setQueue p q x).scheds = s.scheds := rfl
@[simp] theorem setQueue_meters (p q : Nat) (x : Queue) : (s.setQueue p q x).meters = s.meters := rfl
@[simp] theorem setQueue_conns (p q : Nat) (x : Queue) : (s.setQueue p q x).conns = s.conns := rfl
@[simp] theorem setQueue_kvt (p q : Nat) (x : Queue) : (s.setQueue p q x).kvt = s.kvt := rfl
@[simp] theorem setQueue_naks (p q : Nat) (x : Queue) : (s.setQueue p q x).naks = s.naks := rfl
@[simp] theorem setQueue_windows (p q : Nat) (x : Queue) : (s.setQueue p q x).windows = s.windows := rfl
@[simp] theorem setQueue_revokes (p q : Nat) (x : Queue) : (s.setQueue p q x).revokes = s.revokes := rfl
@[simp] theorem setQueue_armed (p q : Nat) (x : Queue) : (s.setQueue p q x).armed = s.armed := rfl
@[simp] theorem setQueue_armedDue (p q : Nat) (x : Queue) : (s.setQueue p q x).armedDue = s.armedDue := rfl
@[simp] theorem setQueue_colls (p q : Nat) (x : Queue) : (s.setQueue p q x).colls = s.colls := rfl
@[simp] theorem setQueue_collWait (p q : Nat) (x : Queue) : (s.setQueue p q x).collWait = s.collWait := rfl
@[simp] theorem setQueue_parts (p q : Nat) (x : Queue) : (s.setQueue p q x).parts = s.parts := rfl
@[simp] theorem setQueue_images (p q : Nat) (x : Queue) : (s.setQueue p q x).images = s.images := rfl
@[simp] theorem setQueue_mbox (p q : Nat) (x : Queue) : (s.setQueue p q x).mbox = s.mbox := rfl
@[simp] theorem setQueue_keys (p q : Nat) (x : Queue) : (s.setQueue p q x).keys = s.keys := rfl
@[simp] theorem setQueue_ciph (p q : Nat) (x : Queue) : (s.setQueue p q x).ciph = s.ciph := rfl
@[simp] theorem setQueue_ident (p q : Nat) (x : Queue) : (s.setQueue p q x).ident = s.ident := rfl
@[simp] theorem setQueue_store (p q : Nat) (x : Queue) : (s.setQueue p q x).store = s.store := rfl
@[simp] theorem setQueue_test (p q : Nat) (x : Queue) : (s.setQueue p q x).test = s.test := rfl

@[simp] theorem setLink_pending (t : Nat) (d : Dir) (x : Link) : (s.setLink t d x).pending = s.pending := rfl
@[simp] theorem setLink_fresh (t : Nat) (d : Dir) (x : Link) : (s.setLink t d x).fresh = s.fresh := rfl
@[simp] theorem setLink_align (t : Nat) (d : Dir) (x : Link) : (s.setLink t d x).align = s.align := rfl
@[simp] theorem setLink_out (t : Nat) (d : Dir) (x : Link) : (s.setLink t d x).out = s.out := rfl
@[simp] theorem setLink_pwr (t : Nat) (d : Dir) (x : Link) : (s.setLink t d x).pwr = s.pwr := rfl
@[simp] theorem setLink_tray (t : Nat) (d : Dir) (x : Link) : (s.setLink t d x).tray = s.tray := rfl
@[simp] theorem setLink_time (t : Nat) (d : Dir) (x : Link) : (s.setLink t d x).time = s.time := rfl
@[simp] theorem setLink_regs (t : Nat) (d : Dir) (x : Link) : (s.setLink t d x).regs = s.regs := rfl
@[simp] theorem setLink_cnts (t : Nat) (d : Dir) (x : Link) : (s.setLink t d x).cnts = s.cnts := rfl
@[simp] theorem setLink_shadows (t : Nat) (d : Dir) (x : Link) : (s.setLink t d x).shadows = s.shadows := rfl
@[simp] theorem setLink_latch (t : Nat) (d : Dir) (x : Link) : (s.setLink t d x).latch = s.latch := rfl
@[simp] theorem setLink_tiles (t : Nat) (d : Dir) (x : Link) : (s.setLink t d x).tiles = s.tiles := rfl
@[simp] theorem setLink_beats (t : Nat) (d : Dir) (x : Link) : (s.setLink t d x).beats = s.beats := rfl
@[simp] theorem setLink_groups (t : Nat) (d : Dir) (x : Link) : (s.setLink t d x).groups = s.groups := rfl
@[simp] theorem setLink_waves (t : Nat) (d : Dir) (x : Link) : (s.setLink t d x).waves = s.waves := rfl
@[simp] theorem setLink_mem (t : Nat) (d : Dir) (x : Link) : (s.setLink t d x).mem = s.mem := rfl
@[simp] theorem setLink_ue (t : Nat) (d : Dir) (x : Link) : (s.setLink t d x).ue = s.ue := rfl
@[simp] theorem setLink_ce (t : Nat) (d : Dir) (x : Link) : (s.setLink t d x).ce = s.ce := rfl
@[simp] theorem setLink_lost (t : Nat) (d : Dir) (x : Link) : (s.setLink t d x).lost = s.lost := rfl
@[simp] theorem setLink_lineKey (t : Nat) (d : Dir) (x : Link) : (s.setLink t d x).lineKey = s.lineKey := rfl
@[simp] theorem setLink_soft (t : Nat) (d : Dir) (x : Link) : (s.setLink t d x).soft = s.soft := rfl
@[simp] theorem setLink_imOld (t : Nat) (d : Dir) (x : Link) : (s.setLink t d x).imOld = s.imOld := rfl
@[simp] theorem setLink_fwEcc (t : Nat) (d : Dir) (x : Link) : (s.setLink t d x).fwEcc = s.fwEcc := rfl
@[simp] theorem setLink_slabs (t : Nat) (d : Dir) (x : Link) : (s.setLink t d x).slabs = s.slabs := rfl
@[simp] theorem setLink_devs (t : Nat) (d : Dir) (x : Link) : (s.setLink t d x).devs = s.devs := rfl
@[simp] theorem setLink_tb (t : Nat) (d : Dir) (x : Link) : (s.setLink t d x).tb = s.tb := rfl
@[simp] theorem setLink_faults (t : Nat) (d : Dir) (x : Link) : (s.setLink t d x).faults = s.faults := rfl
@[simp] theorem setLink_faultWaits (t : Nat) (d : Dir) (x : Link) : (s.setLink t d x).faultWaits = s.faultWaits := rfl
@[simp] theorem setLink_fences (t : Nat) (d : Dir) (x : Link) : (s.setLink t d x).fences = s.fences := rfl
@[simp] theorem setLink_token (t : Nat) (d : Dir) (x : Link) : (s.setLink t d x).token = s.token := rfl
@[simp] theorem setLink_jobs (t : Nat) (d : Dir) (x : Link) : (s.setLink t d x).jobs = s.jobs := rfl
@[simp] theorem setLink_ports (t : Nat) (d : Dir) (x : Link) : (s.setLink t d x).ports = s.ports := rfl
@[simp] theorem setLink_scheds (t : Nat) (d : Dir) (x : Link) : (s.setLink t d x).scheds = s.scheds := rfl
@[simp] theorem setLink_meters (t : Nat) (d : Dir) (x : Link) : (s.setLink t d x).meters = s.meters := rfl
@[simp] theorem setLink_conns (t : Nat) (d : Dir) (x : Link) : (s.setLink t d x).conns = s.conns := rfl
@[simp] theorem setLink_kvt (t : Nat) (d : Dir) (x : Link) : (s.setLink t d x).kvt = s.kvt := rfl
@[simp] theorem setLink_naks (t : Nat) (d : Dir) (x : Link) : (s.setLink t d x).naks = s.naks := rfl
@[simp] theorem setLink_windows (t : Nat) (d : Dir) (x : Link) : (s.setLink t d x).windows = s.windows := rfl
@[simp] theorem setLink_revokes (t : Nat) (d : Dir) (x : Link) : (s.setLink t d x).revokes = s.revokes := rfl
@[simp] theorem setLink_armed (t : Nat) (d : Dir) (x : Link) : (s.setLink t d x).armed = s.armed := rfl
@[simp] theorem setLink_armedDue (t : Nat) (d : Dir) (x : Link) : (s.setLink t d x).armedDue = s.armedDue := rfl
@[simp] theorem setLink_queues (t : Nat) (d : Dir) (x : Link) : (s.setLink t d x).queues = s.queues := rfl
@[simp] theorem setLink_colls (t : Nat) (d : Dir) (x : Link) : (s.setLink t d x).colls = s.colls := rfl
@[simp] theorem setLink_collWait (t : Nat) (d : Dir) (x : Link) : (s.setLink t d x).collWait = s.collWait := rfl
@[simp] theorem setLink_parts (t : Nat) (d : Dir) (x : Link) : (s.setLink t d x).parts = s.parts := rfl
@[simp] theorem setLink_images (t : Nat) (d : Dir) (x : Link) : (s.setLink t d x).images = s.images := rfl
@[simp] theorem setLink_mbox (t : Nat) (d : Dir) (x : Link) : (s.setLink t d x).mbox = s.mbox := rfl
@[simp] theorem setLink_keys (t : Nat) (d : Dir) (x : Link) : (s.setLink t d x).keys = s.keys := rfl
@[simp] theorem setLink_ciph (t : Nat) (d : Dir) (x : Link) : (s.setLink t d x).ciph = s.ciph := rfl
@[simp] theorem setLink_ident (t : Nat) (d : Dir) (x : Link) : (s.setLink t d x).ident = s.ident := rfl
@[simp] theorem setLink_store (t : Nat) (d : Dir) (x : Link) : (s.setLink t d x).store = s.store := rfl
@[simp] theorem setLink_test (t : Nat) (d : Dir) (x : Link) : (s.setLink t d x).test = s.test := rfl

@[simp] theorem setWave_pending (p w x : Nat) : (s.setWave p w x).pending = s.pending := rfl
@[simp] theorem setWave_fresh (p w x : Nat) : (s.setWave p w x).fresh = s.fresh := rfl
@[simp] theorem setWave_align (p w x : Nat) : (s.setWave p w x).align = s.align := rfl
@[simp] theorem setWave_out (p w x : Nat) : (s.setWave p w x).out = s.out := rfl
@[simp] theorem setWave_pwr (p w x : Nat) : (s.setWave p w x).pwr = s.pwr := rfl
@[simp] theorem setWave_tray (p w x : Nat) : (s.setWave p w x).tray = s.tray := rfl
@[simp] theorem setWave_time (p w x : Nat) : (s.setWave p w x).time = s.time := rfl
@[simp] theorem setWave_regs (p w x : Nat) : (s.setWave p w x).regs = s.regs := rfl
@[simp] theorem setWave_cnts (p w x : Nat) : (s.setWave p w x).cnts = s.cnts := rfl
@[simp] theorem setWave_shadows (p w x : Nat) : (s.setWave p w x).shadows = s.shadows := rfl
@[simp] theorem setWave_latch (p w x : Nat) : (s.setWave p w x).latch = s.latch := rfl
@[simp] theorem setWave_tiles (p w x : Nat) : (s.setWave p w x).tiles = s.tiles := rfl
@[simp] theorem setWave_links (p w x : Nat) : (s.setWave p w x).links = s.links := rfl
@[simp] theorem setWave_beats (p w x : Nat) : (s.setWave p w x).beats = s.beats := rfl
@[simp] theorem setWave_groups (p w x : Nat) : (s.setWave p w x).groups = s.groups := rfl
@[simp] theorem setWave_mem (p w x : Nat) : (s.setWave p w x).mem = s.mem := rfl
@[simp] theorem setWave_ue (p w x : Nat) : (s.setWave p w x).ue = s.ue := rfl
@[simp] theorem setWave_ce (p w x : Nat) : (s.setWave p w x).ce = s.ce := rfl
@[simp] theorem setWave_lost (p w x : Nat) : (s.setWave p w x).lost = s.lost := rfl
@[simp] theorem setWave_lineKey (p w x : Nat) : (s.setWave p w x).lineKey = s.lineKey := rfl
@[simp] theorem setWave_soft (p w x : Nat) : (s.setWave p w x).soft = s.soft := rfl
@[simp] theorem setWave_imOld (p w x : Nat) : (s.setWave p w x).imOld = s.imOld := rfl
@[simp] theorem setWave_fwEcc (p w x : Nat) : (s.setWave p w x).fwEcc = s.fwEcc := rfl
@[simp] theorem setWave_slabs (p w x : Nat) : (s.setWave p w x).slabs = s.slabs := rfl
@[simp] theorem setWave_devs (p w x : Nat) : (s.setWave p w x).devs = s.devs := rfl
@[simp] theorem setWave_tb (p w x : Nat) : (s.setWave p w x).tb = s.tb := rfl
@[simp] theorem setWave_faults (p w x : Nat) : (s.setWave p w x).faults = s.faults := rfl
@[simp] theorem setWave_faultWaits (p w x : Nat) : (s.setWave p w x).faultWaits = s.faultWaits := rfl
@[simp] theorem setWave_fences (p w x : Nat) : (s.setWave p w x).fences = s.fences := rfl
@[simp] theorem setWave_token (p w x : Nat) : (s.setWave p w x).token = s.token := rfl
@[simp] theorem setWave_jobs (p w x : Nat) : (s.setWave p w x).jobs = s.jobs := rfl
@[simp] theorem setWave_ports (p w x : Nat) : (s.setWave p w x).ports = s.ports := rfl
@[simp] theorem setWave_scheds (p w x : Nat) : (s.setWave p w x).scheds = s.scheds := rfl
@[simp] theorem setWave_meters (p w x : Nat) : (s.setWave p w x).meters = s.meters := rfl
@[simp] theorem setWave_conns (p w x : Nat) : (s.setWave p w x).conns = s.conns := rfl
@[simp] theorem setWave_kvt (p w x : Nat) : (s.setWave p w x).kvt = s.kvt := rfl
@[simp] theorem setWave_naks (p w x : Nat) : (s.setWave p w x).naks = s.naks := rfl
@[simp] theorem setWave_windows (p w x : Nat) : (s.setWave p w x).windows = s.windows := rfl
@[simp] theorem setWave_revokes (p w x : Nat) : (s.setWave p w x).revokes = s.revokes := rfl
@[simp] theorem setWave_armed (p w x : Nat) : (s.setWave p w x).armed = s.armed := rfl
@[simp] theorem setWave_armedDue (p w x : Nat) : (s.setWave p w x).armedDue = s.armedDue := rfl
@[simp] theorem setWave_queues (p w x : Nat) : (s.setWave p w x).queues = s.queues := rfl
@[simp] theorem setWave_colls (p w x : Nat) : (s.setWave p w x).colls = s.colls := rfl
@[simp] theorem setWave_collWait (p w x : Nat) : (s.setWave p w x).collWait = s.collWait := rfl
@[simp] theorem setWave_parts (p w x : Nat) : (s.setWave p w x).parts = s.parts := rfl
@[simp] theorem setWave_images (p w x : Nat) : (s.setWave p w x).images = s.images := rfl
@[simp] theorem setWave_mbox (p w x : Nat) : (s.setWave p w x).mbox = s.mbox := rfl
@[simp] theorem setWave_keys (p w x : Nat) : (s.setWave p w x).keys = s.keys := rfl
@[simp] theorem setWave_ciph (p w x : Nat) : (s.setWave p w x).ciph = s.ciph := rfl
@[simp] theorem setWave_ident (p w x : Nat) : (s.setWave p w x).ident = s.ident := rfl
@[simp] theorem setWave_store (p w x : Nat) : (s.setWave p w x).store = s.store := rfl
@[simp] theorem setWave_test (p w x : Nat) : (s.setWave p w x).test = s.test := rfl

@[simp] theorem setPtest_pending (n c : Nat) (x : TestTile) : (s.setPtest n c x).pending = s.pending := rfl
@[simp] theorem setPtest_fresh (n c : Nat) (x : TestTile) : (s.setPtest n c x).fresh = s.fresh := rfl
@[simp] theorem setPtest_align (n c : Nat) (x : TestTile) : (s.setPtest n c x).align = s.align := rfl
@[simp] theorem setPtest_out (n c : Nat) (x : TestTile) : (s.setPtest n c x).out = s.out := rfl
@[simp] theorem setPtest_pwr (n c : Nat) (x : TestTile) : (s.setPtest n c x).pwr = s.pwr := rfl
@[simp] theorem setPtest_tray (n c : Nat) (x : TestTile) : (s.setPtest n c x).tray = s.tray := rfl
@[simp] theorem setPtest_time (n c : Nat) (x : TestTile) : (s.setPtest n c x).time = s.time := rfl
@[simp] theorem setPtest_regs (n c : Nat) (x : TestTile) : (s.setPtest n c x).regs = s.regs := rfl
@[simp] theorem setPtest_cnts (n c : Nat) (x : TestTile) : (s.setPtest n c x).cnts = s.cnts := rfl
@[simp] theorem setPtest_shadows (n c : Nat) (x : TestTile) : (s.setPtest n c x).shadows = s.shadows := rfl
@[simp] theorem setPtest_latch (n c : Nat) (x : TestTile) : (s.setPtest n c x).latch = s.latch := rfl
@[simp] theorem setPtest_tiles (n c : Nat) (x : TestTile) : (s.setPtest n c x).tiles = s.tiles := rfl
@[simp] theorem setPtest_links (n c : Nat) (x : TestTile) : (s.setPtest n c x).links = s.links := rfl
@[simp] theorem setPtest_beats (n c : Nat) (x : TestTile) : (s.setPtest n c x).beats = s.beats := rfl
@[simp] theorem setPtest_groups (n c : Nat) (x : TestTile) : (s.setPtest n c x).groups = s.groups := rfl
@[simp] theorem setPtest_waves (n c : Nat) (x : TestTile) : (s.setPtest n c x).waves = s.waves := rfl
@[simp] theorem setPtest_mem (n c : Nat) (x : TestTile) : (s.setPtest n c x).mem = s.mem := rfl
@[simp] theorem setPtest_ue (n c : Nat) (x : TestTile) : (s.setPtest n c x).ue = s.ue := rfl
@[simp] theorem setPtest_ce (n c : Nat) (x : TestTile) : (s.setPtest n c x).ce = s.ce := rfl
@[simp] theorem setPtest_lost (n c : Nat) (x : TestTile) : (s.setPtest n c x).lost = s.lost := rfl
@[simp] theorem setPtest_lineKey (n c : Nat) (x : TestTile) : (s.setPtest n c x).lineKey = s.lineKey := rfl
@[simp] theorem setPtest_soft (n c : Nat) (x : TestTile) : (s.setPtest n c x).soft = s.soft := rfl
@[simp] theorem setPtest_imOld (n c : Nat) (x : TestTile) : (s.setPtest n c x).imOld = s.imOld := rfl
@[simp] theorem setPtest_fwEcc (n c : Nat) (x : TestTile) : (s.setPtest n c x).fwEcc = s.fwEcc := rfl
@[simp] theorem setPtest_slabs (n c : Nat) (x : TestTile) : (s.setPtest n c x).slabs = s.slabs := rfl
@[simp] theorem setPtest_devs (n c : Nat) (x : TestTile) : (s.setPtest n c x).devs = s.devs := rfl
@[simp] theorem setPtest_tb (n c : Nat) (x : TestTile) : (s.setPtest n c x).tb = s.tb := rfl
@[simp] theorem setPtest_faults (n c : Nat) (x : TestTile) : (s.setPtest n c x).faults = s.faults := rfl
@[simp] theorem setPtest_faultWaits (n c : Nat) (x : TestTile) : (s.setPtest n c x).faultWaits = s.faultWaits := rfl
@[simp] theorem setPtest_fences (n c : Nat) (x : TestTile) : (s.setPtest n c x).fences = s.fences := rfl
@[simp] theorem setPtest_token (n c : Nat) (x : TestTile) : (s.setPtest n c x).token = s.token := rfl
@[simp] theorem setPtest_jobs (n c : Nat) (x : TestTile) : (s.setPtest n c x).jobs = s.jobs := rfl
@[simp] theorem setPtest_ports (n c : Nat) (x : TestTile) : (s.setPtest n c x).ports = s.ports := rfl
@[simp] theorem setPtest_scheds (n c : Nat) (x : TestTile) : (s.setPtest n c x).scheds = s.scheds := rfl
@[simp] theorem setPtest_meters (n c : Nat) (x : TestTile) : (s.setPtest n c x).meters = s.meters := rfl
@[simp] theorem setPtest_conns (n c : Nat) (x : TestTile) : (s.setPtest n c x).conns = s.conns := rfl
@[simp] theorem setPtest_kvt (n c : Nat) (x : TestTile) : (s.setPtest n c x).kvt = s.kvt := rfl
@[simp] theorem setPtest_naks (n c : Nat) (x : TestTile) : (s.setPtest n c x).naks = s.naks := rfl
@[simp] theorem setPtest_windows (n c : Nat) (x : TestTile) : (s.setPtest n c x).windows = s.windows := rfl
@[simp] theorem setPtest_revokes (n c : Nat) (x : TestTile) : (s.setPtest n c x).revokes = s.revokes := rfl
@[simp] theorem setPtest_armed (n c : Nat) (x : TestTile) : (s.setPtest n c x).armed = s.armed := rfl
@[simp] theorem setPtest_armedDue (n c : Nat) (x : TestTile) : (s.setPtest n c x).armedDue = s.armedDue := rfl
@[simp] theorem setPtest_queues (n c : Nat) (x : TestTile) : (s.setPtest n c x).queues = s.queues := rfl
@[simp] theorem setPtest_colls (n c : Nat) (x : TestTile) : (s.setPtest n c x).colls = s.colls := rfl
@[simp] theorem setPtest_collWait (n c : Nat) (x : TestTile) : (s.setPtest n c x).collWait = s.collWait := rfl
@[simp] theorem setPtest_parts (n c : Nat) (x : TestTile) : (s.setPtest n c x).parts = s.parts := rfl
@[simp] theorem setPtest_images (n c : Nat) (x : TestTile) : (s.setPtest n c x).images = s.images := rfl
@[simp] theorem setPtest_mbox (n c : Nat) (x : TestTile) : (s.setPtest n c x).mbox = s.mbox := rfl
@[simp] theorem setPtest_keys (n c : Nat) (x : TestTile) : (s.setPtest n c x).keys = s.keys := rfl
@[simp] theorem setPtest_ciph (n c : Nat) (x : TestTile) : (s.setPtest n c x).ciph = s.ciph := rfl
@[simp] theorem setPtest_ident (n c : Nat) (x : TestTile) : (s.setPtest n c x).ident = s.ident := rfl
@[simp] theorem setPtest_store (n c : Nat) (x : TestTile) : (s.setPtest n c x).store = s.store := rfl

@[simp] theorem setKvtDie_pending (fd1 : Bool) (x : KvtDie) : (s.setKvtDie fd1 x).pending = s.pending := rfl
@[simp] theorem setKvtDie_fresh (fd1 : Bool) (x : KvtDie) : (s.setKvtDie fd1 x).fresh = s.fresh := rfl
@[simp] theorem setKvtDie_align (fd1 : Bool) (x : KvtDie) : (s.setKvtDie fd1 x).align = s.align := rfl
@[simp] theorem setKvtDie_out (fd1 : Bool) (x : KvtDie) : (s.setKvtDie fd1 x).out = s.out := rfl
@[simp] theorem setKvtDie_pwr (fd1 : Bool) (x : KvtDie) : (s.setKvtDie fd1 x).pwr = s.pwr := rfl
@[simp] theorem setKvtDie_tray (fd1 : Bool) (x : KvtDie) : (s.setKvtDie fd1 x).tray = s.tray := rfl
@[simp] theorem setKvtDie_time (fd1 : Bool) (x : KvtDie) : (s.setKvtDie fd1 x).time = s.time := rfl
@[simp] theorem setKvtDie_regs (fd1 : Bool) (x : KvtDie) : (s.setKvtDie fd1 x).regs = s.regs := rfl
@[simp] theorem setKvtDie_cnts (fd1 : Bool) (x : KvtDie) : (s.setKvtDie fd1 x).cnts = s.cnts := rfl
@[simp] theorem setKvtDie_shadows (fd1 : Bool) (x : KvtDie) : (s.setKvtDie fd1 x).shadows = s.shadows := rfl
@[simp] theorem setKvtDie_latch (fd1 : Bool) (x : KvtDie) : (s.setKvtDie fd1 x).latch = s.latch := rfl
@[simp] theorem setKvtDie_tiles (fd1 : Bool) (x : KvtDie) : (s.setKvtDie fd1 x).tiles = s.tiles := rfl
@[simp] theorem setKvtDie_links (fd1 : Bool) (x : KvtDie) : (s.setKvtDie fd1 x).links = s.links := rfl
@[simp] theorem setKvtDie_beats (fd1 : Bool) (x : KvtDie) : (s.setKvtDie fd1 x).beats = s.beats := rfl
@[simp] theorem setKvtDie_groups (fd1 : Bool) (x : KvtDie) : (s.setKvtDie fd1 x).groups = s.groups := rfl
@[simp] theorem setKvtDie_waves (fd1 : Bool) (x : KvtDie) : (s.setKvtDie fd1 x).waves = s.waves := rfl
@[simp] theorem setKvtDie_mem (fd1 : Bool) (x : KvtDie) : (s.setKvtDie fd1 x).mem = s.mem := rfl
@[simp] theorem setKvtDie_ue (fd1 : Bool) (x : KvtDie) : (s.setKvtDie fd1 x).ue = s.ue := rfl
@[simp] theorem setKvtDie_ce (fd1 : Bool) (x : KvtDie) : (s.setKvtDie fd1 x).ce = s.ce := rfl
@[simp] theorem setKvtDie_lost (fd1 : Bool) (x : KvtDie) : (s.setKvtDie fd1 x).lost = s.lost := rfl
@[simp] theorem setKvtDie_lineKey (fd1 : Bool) (x : KvtDie) : (s.setKvtDie fd1 x).lineKey = s.lineKey := rfl
@[simp] theorem setKvtDie_soft (fd1 : Bool) (x : KvtDie) : (s.setKvtDie fd1 x).soft = s.soft := rfl
@[simp] theorem setKvtDie_imOld (fd1 : Bool) (x : KvtDie) : (s.setKvtDie fd1 x).imOld = s.imOld := rfl
@[simp] theorem setKvtDie_fwEcc (fd1 : Bool) (x : KvtDie) : (s.setKvtDie fd1 x).fwEcc = s.fwEcc := rfl
@[simp] theorem setKvtDie_slabs (fd1 : Bool) (x : KvtDie) : (s.setKvtDie fd1 x).slabs = s.slabs := rfl
@[simp] theorem setKvtDie_devs (fd1 : Bool) (x : KvtDie) : (s.setKvtDie fd1 x).devs = s.devs := rfl
@[simp] theorem setKvtDie_tb (fd1 : Bool) (x : KvtDie) : (s.setKvtDie fd1 x).tb = s.tb := rfl
@[simp] theorem setKvtDie_faults (fd1 : Bool) (x : KvtDie) : (s.setKvtDie fd1 x).faults = s.faults := rfl
@[simp] theorem setKvtDie_faultWaits (fd1 : Bool) (x : KvtDie) : (s.setKvtDie fd1 x).faultWaits = s.faultWaits := rfl
@[simp] theorem setKvtDie_fences (fd1 : Bool) (x : KvtDie) : (s.setKvtDie fd1 x).fences = s.fences := rfl
@[simp] theorem setKvtDie_token (fd1 : Bool) (x : KvtDie) : (s.setKvtDie fd1 x).token = s.token := rfl
@[simp] theorem setKvtDie_jobs (fd1 : Bool) (x : KvtDie) : (s.setKvtDie fd1 x).jobs = s.jobs := rfl
@[simp] theorem setKvtDie_ports (fd1 : Bool) (x : KvtDie) : (s.setKvtDie fd1 x).ports = s.ports := rfl
@[simp] theorem setKvtDie_scheds (fd1 : Bool) (x : KvtDie) : (s.setKvtDie fd1 x).scheds = s.scheds := rfl
@[simp] theorem setKvtDie_meters (fd1 : Bool) (x : KvtDie) : (s.setKvtDie fd1 x).meters = s.meters := rfl
@[simp] theorem setKvtDie_conns (fd1 : Bool) (x : KvtDie) : (s.setKvtDie fd1 x).conns = s.conns := rfl
@[simp] theorem setKvtDie_naks (fd1 : Bool) (x : KvtDie) : (s.setKvtDie fd1 x).naks = s.naks := rfl
@[simp] theorem setKvtDie_windows (fd1 : Bool) (x : KvtDie) : (s.setKvtDie fd1 x).windows = s.windows := rfl
@[simp] theorem setKvtDie_revokes (fd1 : Bool) (x : KvtDie) : (s.setKvtDie fd1 x).revokes = s.revokes := rfl
@[simp] theorem setKvtDie_armed (fd1 : Bool) (x : KvtDie) : (s.setKvtDie fd1 x).armed = s.armed := rfl
@[simp] theorem setKvtDie_armedDue (fd1 : Bool) (x : KvtDie) : (s.setKvtDie fd1 x).armedDue = s.armedDue := rfl
@[simp] theorem setKvtDie_queues (fd1 : Bool) (x : KvtDie) : (s.setKvtDie fd1 x).queues = s.queues := rfl
@[simp] theorem setKvtDie_colls (fd1 : Bool) (x : KvtDie) : (s.setKvtDie fd1 x).colls = s.colls := rfl
@[simp] theorem setKvtDie_collWait (fd1 : Bool) (x : KvtDie) : (s.setKvtDie fd1 x).collWait = s.collWait := rfl
@[simp] theorem setKvtDie_parts (fd1 : Bool) (x : KvtDie) : (s.setKvtDie fd1 x).parts = s.parts := rfl
@[simp] theorem setKvtDie_images (fd1 : Bool) (x : KvtDie) : (s.setKvtDie fd1 x).images = s.images := rfl
@[simp] theorem setKvtDie_mbox (fd1 : Bool) (x : KvtDie) : (s.setKvtDie fd1 x).mbox = s.mbox := rfl
@[simp] theorem setKvtDie_keys (fd1 : Bool) (x : KvtDie) : (s.setKvtDie fd1 x).keys = s.keys := rfl
@[simp] theorem setKvtDie_ciph (fd1 : Bool) (x : KvtDie) : (s.setKvtDie fd1 x).ciph = s.ciph := rfl
@[simp] theorem setKvtDie_ident (fd1 : Bool) (x : KvtDie) : (s.setKvtDie fd1 x).ident = s.ident := rfl
@[simp] theorem setKvtDie_store (fd1 : Bool) (x : KvtDie) : (s.setKvtDie fd1 x).store = s.store := rfl
@[simp] theorem setKvtDie_test (fd1 : Bool) (x : KvtDie) : (s.setKvtDie fd1 x).test = s.test := rfl

@[simp] theorem freshen_pending : (s.freshen).pending = s.pending := rfl
@[simp] theorem freshen_align : (s.freshen).align = s.align := rfl
@[simp] theorem freshen_out : (s.freshen).out = s.out := rfl
@[simp] theorem freshen_pwr : (s.freshen).pwr = s.pwr := rfl
@[simp] theorem freshen_tray : (s.freshen).tray = s.tray := rfl
@[simp] theorem freshen_time : (s.freshen).time = s.time := rfl
@[simp] theorem freshen_regs : (s.freshen).regs = s.regs := rfl
@[simp] theorem freshen_cnts : (s.freshen).cnts = s.cnts := rfl
@[simp] theorem freshen_shadows : (s.freshen).shadows = s.shadows := rfl
@[simp] theorem freshen_latch : (s.freshen).latch = s.latch := rfl
@[simp] theorem freshen_tiles : (s.freshen).tiles = s.tiles := rfl
@[simp] theorem freshen_links : (s.freshen).links = s.links := rfl
@[simp] theorem freshen_beats : (s.freshen).beats = s.beats := rfl
@[simp] theorem freshen_groups : (s.freshen).groups = s.groups := rfl
@[simp] theorem freshen_waves : (s.freshen).waves = s.waves := rfl
@[simp] theorem freshen_mem : (s.freshen).mem = s.mem := rfl
@[simp] theorem freshen_ue : (s.freshen).ue = s.ue := rfl
@[simp] theorem freshen_ce : (s.freshen).ce = s.ce := rfl
@[simp] theorem freshen_lost : (s.freshen).lost = s.lost := rfl
@[simp] theorem freshen_lineKey : (s.freshen).lineKey = s.lineKey := rfl
@[simp] theorem freshen_soft : (s.freshen).soft = s.soft := rfl
@[simp] theorem freshen_imOld : (s.freshen).imOld = s.imOld := rfl
@[simp] theorem freshen_fwEcc : (s.freshen).fwEcc = s.fwEcc := rfl
@[simp] theorem freshen_slabs : (s.freshen).slabs = s.slabs := rfl
@[simp] theorem freshen_devs : (s.freshen).devs = s.devs := rfl
@[simp] theorem freshen_tb : (s.freshen).tb = s.tb := rfl
@[simp] theorem freshen_faults : (s.freshen).faults = s.faults := rfl
@[simp] theorem freshen_faultWaits : (s.freshen).faultWaits = s.faultWaits := rfl
@[simp] theorem freshen_fences : (s.freshen).fences = s.fences := rfl
@[simp] theorem freshen_token : (s.freshen).token = s.token := rfl
@[simp] theorem freshen_jobs : (s.freshen).jobs = s.jobs := rfl
@[simp] theorem freshen_ports : (s.freshen).ports = s.ports := rfl
@[simp] theorem freshen_scheds : (s.freshen).scheds = s.scheds := rfl
@[simp] theorem freshen_meters : (s.freshen).meters = s.meters := rfl
@[simp] theorem freshen_conns : (s.freshen).conns = s.conns := rfl
@[simp] theorem freshen_kvt : (s.freshen).kvt = s.kvt := rfl
@[simp] theorem freshen_naks : (s.freshen).naks = s.naks := rfl
@[simp] theorem freshen_windows : (s.freshen).windows = s.windows := rfl
@[simp] theorem freshen_revokes : (s.freshen).revokes = s.revokes := rfl
@[simp] theorem freshen_armed : (s.freshen).armed = s.armed := rfl
@[simp] theorem freshen_armedDue : (s.freshen).armedDue = s.armedDue := rfl
@[simp] theorem freshen_queues : (s.freshen).queues = s.queues := rfl
@[simp] theorem freshen_colls : (s.freshen).colls = s.colls := rfl
@[simp] theorem freshen_collWait : (s.freshen).collWait = s.collWait := rfl
@[simp] theorem freshen_parts : (s.freshen).parts = s.parts := rfl
@[simp] theorem freshen_images : (s.freshen).images = s.images := rfl
@[simp] theorem freshen_mbox : (s.freshen).mbox = s.mbox := rfl
@[simp] theorem freshen_keys : (s.freshen).keys = s.keys := rfl
@[simp] theorem freshen_ciph : (s.freshen).ciph = s.ciph := rfl
@[simp] theorem freshen_ident : (s.freshen).ident = s.ident := rfl
@[simp] theorem freshen_store : (s.freshen).store = s.store := rfl
@[simp] theorem freshen_test : (s.freshen).test = s.test := rfl

@[simp] theorem setMb_pending (ch : Chan) (b : Bool) (x : Mbox) : (s.setMb ch b x).pending = s.pending := rfl
@[simp] theorem setMb_fresh (ch : Chan) (b : Bool) (x : Mbox) : (s.setMb ch b x).fresh = s.fresh := rfl
@[simp] theorem setMb_align (ch : Chan) (b : Bool) (x : Mbox) : (s.setMb ch b x).align = s.align := rfl
@[simp] theorem setMb_out (ch : Chan) (b : Bool) (x : Mbox) : (s.setMb ch b x).out = s.out := rfl
@[simp] theorem setMb_pwr (ch : Chan) (b : Bool) (x : Mbox) : (s.setMb ch b x).pwr = s.pwr := rfl
@[simp] theorem setMb_tray (ch : Chan) (b : Bool) (x : Mbox) : (s.setMb ch b x).tray = s.tray := rfl
@[simp] theorem setMb_time (ch : Chan) (b : Bool) (x : Mbox) : (s.setMb ch b x).time = s.time := rfl
@[simp] theorem setMb_regs (ch : Chan) (b : Bool) (x : Mbox) : (s.setMb ch b x).regs = s.regs := rfl
@[simp] theorem setMb_cnts (ch : Chan) (b : Bool) (x : Mbox) : (s.setMb ch b x).cnts = s.cnts := rfl
@[simp] theorem setMb_shadows (ch : Chan) (b : Bool) (x : Mbox) : (s.setMb ch b x).shadows = s.shadows := rfl
@[simp] theorem setMb_latch (ch : Chan) (b : Bool) (x : Mbox) : (s.setMb ch b x).latch = s.latch := rfl
@[simp] theorem setMb_tiles (ch : Chan) (b : Bool) (x : Mbox) : (s.setMb ch b x).tiles = s.tiles := rfl
@[simp] theorem setMb_links (ch : Chan) (b : Bool) (x : Mbox) : (s.setMb ch b x).links = s.links := rfl
@[simp] theorem setMb_beats (ch : Chan) (b : Bool) (x : Mbox) : (s.setMb ch b x).beats = s.beats := rfl
@[simp] theorem setMb_groups (ch : Chan) (b : Bool) (x : Mbox) : (s.setMb ch b x).groups = s.groups := rfl
@[simp] theorem setMb_waves (ch : Chan) (b : Bool) (x : Mbox) : (s.setMb ch b x).waves = s.waves := rfl
@[simp] theorem setMb_mem (ch : Chan) (b : Bool) (x : Mbox) : (s.setMb ch b x).mem = s.mem := rfl
@[simp] theorem setMb_ue (ch : Chan) (b : Bool) (x : Mbox) : (s.setMb ch b x).ue = s.ue := rfl
@[simp] theorem setMb_ce (ch : Chan) (b : Bool) (x : Mbox) : (s.setMb ch b x).ce = s.ce := rfl
@[simp] theorem setMb_lost (ch : Chan) (b : Bool) (x : Mbox) : (s.setMb ch b x).lost = s.lost := rfl
@[simp] theorem setMb_lineKey (ch : Chan) (b : Bool) (x : Mbox) : (s.setMb ch b x).lineKey = s.lineKey := rfl
@[simp] theorem setMb_soft (ch : Chan) (b : Bool) (x : Mbox) : (s.setMb ch b x).soft = s.soft := rfl
@[simp] theorem setMb_imOld (ch : Chan) (b : Bool) (x : Mbox) : (s.setMb ch b x).imOld = s.imOld := rfl
@[simp] theorem setMb_fwEcc (ch : Chan) (b : Bool) (x : Mbox) : (s.setMb ch b x).fwEcc = s.fwEcc := rfl
@[simp] theorem setMb_slabs (ch : Chan) (b : Bool) (x : Mbox) : (s.setMb ch b x).slabs = s.slabs := rfl
@[simp] theorem setMb_devs (ch : Chan) (b : Bool) (x : Mbox) : (s.setMb ch b x).devs = s.devs := rfl
@[simp] theorem setMb_tb (ch : Chan) (b : Bool) (x : Mbox) : (s.setMb ch b x).tb = s.tb := rfl
@[simp] theorem setMb_faults (ch : Chan) (b : Bool) (x : Mbox) : (s.setMb ch b x).faults = s.faults := rfl
@[simp] theorem setMb_faultWaits (ch : Chan) (b : Bool) (x : Mbox) : (s.setMb ch b x).faultWaits = s.faultWaits := rfl
@[simp] theorem setMb_fences (ch : Chan) (b : Bool) (x : Mbox) : (s.setMb ch b x).fences = s.fences := rfl
@[simp] theorem setMb_token (ch : Chan) (b : Bool) (x : Mbox) : (s.setMb ch b x).token = s.token := rfl
@[simp] theorem setMb_jobs (ch : Chan) (b : Bool) (x : Mbox) : (s.setMb ch b x).jobs = s.jobs := rfl
@[simp] theorem setMb_ports (ch : Chan) (b : Bool) (x : Mbox) : (s.setMb ch b x).ports = s.ports := rfl
@[simp] theorem setMb_scheds (ch : Chan) (b : Bool) (x : Mbox) : (s.setMb ch b x).scheds = s.scheds := rfl
@[simp] theorem setMb_meters (ch : Chan) (b : Bool) (x : Mbox) : (s.setMb ch b x).meters = s.meters := rfl
@[simp] theorem setMb_conns (ch : Chan) (b : Bool) (x : Mbox) : (s.setMb ch b x).conns = s.conns := rfl
@[simp] theorem setMb_kvt (ch : Chan) (b : Bool) (x : Mbox) : (s.setMb ch b x).kvt = s.kvt := rfl
@[simp] theorem setMb_naks (ch : Chan) (b : Bool) (x : Mbox) : (s.setMb ch b x).naks = s.naks := rfl
@[simp] theorem setMb_windows (ch : Chan) (b : Bool) (x : Mbox) : (s.setMb ch b x).windows = s.windows := rfl
@[simp] theorem setMb_revokes (ch : Chan) (b : Bool) (x : Mbox) : (s.setMb ch b x).revokes = s.revokes := rfl
@[simp] theorem setMb_armed (ch : Chan) (b : Bool) (x : Mbox) : (s.setMb ch b x).armed = s.armed := rfl
@[simp] theorem setMb_armedDue (ch : Chan) (b : Bool) (x : Mbox) : (s.setMb ch b x).armedDue = s.armedDue := rfl
@[simp] theorem setMb_queues (ch : Chan) (b : Bool) (x : Mbox) : (s.setMb ch b x).queues = s.queues := rfl
@[simp] theorem setMb_colls (ch : Chan) (b : Bool) (x : Mbox) : (s.setMb ch b x).colls = s.colls := rfl
@[simp] theorem setMb_collWait (ch : Chan) (b : Bool) (x : Mbox) : (s.setMb ch b x).collWait = s.collWait := rfl
@[simp] theorem setMb_parts (ch : Chan) (b : Bool) (x : Mbox) : (s.setMb ch b x).parts = s.parts := rfl
@[simp] theorem setMb_images (ch : Chan) (b : Bool) (x : Mbox) : (s.setMb ch b x).images = s.images := rfl
@[simp] theorem setMb_keys (ch : Chan) (b : Bool) (x : Mbox) : (s.setMb ch b x).keys = s.keys := rfl
@[simp] theorem setMb_ciph (ch : Chan) (b : Bool) (x : Mbox) : (s.setMb ch b x).ciph = s.ciph := rfl
@[simp] theorem setMb_ident (ch : Chan) (b : Bool) (x : Mbox) : (s.setMb ch b x).ident = s.ident := rfl
@[simp] theorem setMb_store (ch : Chan) (b : Bool) (x : Mbox) : (s.setMb ch b x).store = s.store := rfl
@[simp] theorem setMb_test (ch : Chan) (b : Bool) (x : Mbox) : (s.setMb ch b x).test = s.test := rfl

@[simp] theorem emit_pending (o : Out) : (s.emit o).pending = s.pending := rfl
@[simp] theorem emit_fresh (o : Out) : (s.emit o).fresh = s.fresh := rfl
@[simp] theorem emit_align (o : Out) : (s.emit o).align = s.align := rfl
@[simp] theorem emit_pwr (o : Out) : (s.emit o).pwr = s.pwr := rfl
@[simp] theorem emit_tray (o : Out) : (s.emit o).tray = s.tray := rfl
@[simp] theorem emit_time (o : Out) : (s.emit o).time = s.time := rfl
@[simp] theorem emit_regs (o : Out) : (s.emit o).regs = s.regs := rfl
@[simp] theorem emit_cnts (o : Out) : (s.emit o).cnts = s.cnts := rfl
@[simp] theorem emit_shadows (o : Out) : (s.emit o).shadows = s.shadows := rfl
@[simp] theorem emit_latch (o : Out) : (s.emit o).latch = s.latch := rfl
@[simp] theorem emit_tiles (o : Out) : (s.emit o).tiles = s.tiles := rfl
@[simp] theorem emit_links (o : Out) : (s.emit o).links = s.links := rfl
@[simp] theorem emit_beats (o : Out) : (s.emit o).beats = s.beats := rfl
@[simp] theorem emit_groups (o : Out) : (s.emit o).groups = s.groups := rfl
@[simp] theorem emit_waves (o : Out) : (s.emit o).waves = s.waves := rfl
@[simp] theorem emit_mem (o : Out) : (s.emit o).mem = s.mem := rfl
@[simp] theorem emit_ue (o : Out) : (s.emit o).ue = s.ue := rfl
@[simp] theorem emit_ce (o : Out) : (s.emit o).ce = s.ce := rfl
@[simp] theorem emit_lost (o : Out) : (s.emit o).lost = s.lost := rfl
@[simp] theorem emit_lineKey (o : Out) : (s.emit o).lineKey = s.lineKey := rfl
@[simp] theorem emit_soft (o : Out) : (s.emit o).soft = s.soft := rfl
@[simp] theorem emit_imOld (o : Out) : (s.emit o).imOld = s.imOld := rfl
@[simp] theorem emit_fwEcc (o : Out) : (s.emit o).fwEcc = s.fwEcc := rfl
@[simp] theorem emit_slabs (o : Out) : (s.emit o).slabs = s.slabs := rfl
@[simp] theorem emit_devs (o : Out) : (s.emit o).devs = s.devs := rfl
@[simp] theorem emit_tb (o : Out) : (s.emit o).tb = s.tb := rfl
@[simp] theorem emit_faults (o : Out) : (s.emit o).faults = s.faults := rfl
@[simp] theorem emit_faultWaits (o : Out) : (s.emit o).faultWaits = s.faultWaits := rfl
@[simp] theorem emit_fences (o : Out) : (s.emit o).fences = s.fences := rfl
@[simp] theorem emit_token (o : Out) : (s.emit o).token = s.token := rfl
@[simp] theorem emit_jobs (o : Out) : (s.emit o).jobs = s.jobs := rfl
@[simp] theorem emit_ports (o : Out) : (s.emit o).ports = s.ports := rfl
@[simp] theorem emit_scheds (o : Out) : (s.emit o).scheds = s.scheds := rfl
@[simp] theorem emit_meters (o : Out) : (s.emit o).meters = s.meters := rfl
@[simp] theorem emit_conns (o : Out) : (s.emit o).conns = s.conns := rfl
@[simp] theorem emit_kvt (o : Out) : (s.emit o).kvt = s.kvt := rfl
@[simp] theorem emit_naks (o : Out) : (s.emit o).naks = s.naks := rfl
@[simp] theorem emit_windows (o : Out) : (s.emit o).windows = s.windows := rfl
@[simp] theorem emit_revokes (o : Out) : (s.emit o).revokes = s.revokes := rfl
@[simp] theorem emit_armed (o : Out) : (s.emit o).armed = s.armed := rfl
@[simp] theorem emit_armedDue (o : Out) : (s.emit o).armedDue = s.armedDue := rfl
@[simp] theorem emit_queues (o : Out) : (s.emit o).queues = s.queues := rfl
@[simp] theorem emit_colls (o : Out) : (s.emit o).colls = s.colls := rfl
@[simp] theorem emit_collWait (o : Out) : (s.emit o).collWait = s.collWait := rfl
@[simp] theorem emit_parts (o : Out) : (s.emit o).parts = s.parts := rfl
@[simp] theorem emit_images (o : Out) : (s.emit o).images = s.images := rfl
@[simp] theorem emit_mbox (o : Out) : (s.emit o).mbox = s.mbox := rfl
@[simp] theorem emit_keys (o : Out) : (s.emit o).keys = s.keys := rfl
@[simp] theorem emit_ciph (o : Out) : (s.emit o).ciph = s.ciph := rfl
@[simp] theorem emit_ident (o : Out) : (s.emit o).ident = s.ident := rfl
@[simp] theorem emit_store (o : Out) : (s.emit o).store = s.store := rfl
@[simp] theorem emit_test (o : Out) : (s.emit o).test = s.test := rfl

@[simp] theorem setReg_pending (blk inst off : Nat) (v : W32) : (s.setReg blk inst off v).pending = s.pending := rfl
@[simp] theorem setReg_fresh (blk inst off : Nat) (v : W32) : (s.setReg blk inst off v).fresh = s.fresh := rfl
@[simp] theorem setReg_align (blk inst off : Nat) (v : W32) : (s.setReg blk inst off v).align = s.align := rfl
@[simp] theorem setReg_out (blk inst off : Nat) (v : W32) : (s.setReg blk inst off v).out = s.out := rfl
@[simp] theorem setReg_pwr (blk inst off : Nat) (v : W32) : (s.setReg blk inst off v).pwr = s.pwr := rfl
@[simp] theorem setReg_tray (blk inst off : Nat) (v : W32) : (s.setReg blk inst off v).tray = s.tray := rfl
@[simp] theorem setReg_time (blk inst off : Nat) (v : W32) : (s.setReg blk inst off v).time = s.time := rfl
@[simp] theorem setReg_cnts (blk inst off : Nat) (v : W32) : (s.setReg blk inst off v).cnts = s.cnts := rfl
@[simp] theorem setReg_shadows (blk inst off : Nat) (v : W32) : (s.setReg blk inst off v).shadows = s.shadows := rfl
@[simp] theorem setReg_latch (blk inst off : Nat) (v : W32) : (s.setReg blk inst off v).latch = s.latch := rfl
@[simp] theorem setReg_tiles (blk inst off : Nat) (v : W32) : (s.setReg blk inst off v).tiles = s.tiles := rfl
@[simp] theorem setReg_links (blk inst off : Nat) (v : W32) : (s.setReg blk inst off v).links = s.links := rfl
@[simp] theorem setReg_beats (blk inst off : Nat) (v : W32) : (s.setReg blk inst off v).beats = s.beats := rfl
@[simp] theorem setReg_groups (blk inst off : Nat) (v : W32) : (s.setReg blk inst off v).groups = s.groups := rfl
@[simp] theorem setReg_waves (blk inst off : Nat) (v : W32) : (s.setReg blk inst off v).waves = s.waves := rfl
@[simp] theorem setReg_mem (blk inst off : Nat) (v : W32) : (s.setReg blk inst off v).mem = s.mem := rfl
@[simp] theorem setReg_ue (blk inst off : Nat) (v : W32) : (s.setReg blk inst off v).ue = s.ue := rfl
@[simp] theorem setReg_ce (blk inst off : Nat) (v : W32) : (s.setReg blk inst off v).ce = s.ce := rfl
@[simp] theorem setReg_lost (blk inst off : Nat) (v : W32) : (s.setReg blk inst off v).lost = s.lost := rfl
@[simp] theorem setReg_lineKey (blk inst off : Nat) (v : W32) : (s.setReg blk inst off v).lineKey = s.lineKey := rfl
@[simp] theorem setReg_soft (blk inst off : Nat) (v : W32) : (s.setReg blk inst off v).soft = s.soft := rfl
@[simp] theorem setReg_imOld (blk inst off : Nat) (v : W32) : (s.setReg blk inst off v).imOld = s.imOld := rfl
@[simp] theorem setReg_fwEcc (blk inst off : Nat) (v : W32) : (s.setReg blk inst off v).fwEcc = s.fwEcc := rfl
@[simp] theorem setReg_slabs (blk inst off : Nat) (v : W32) : (s.setReg blk inst off v).slabs = s.slabs := rfl
@[simp] theorem setReg_devs (blk inst off : Nat) (v : W32) : (s.setReg blk inst off v).devs = s.devs := rfl
@[simp] theorem setReg_tb (blk inst off : Nat) (v : W32) : (s.setReg blk inst off v).tb = s.tb := rfl
@[simp] theorem setReg_faults (blk inst off : Nat) (v : W32) : (s.setReg blk inst off v).faults = s.faults := rfl
@[simp] theorem setReg_faultWaits (blk inst off : Nat) (v : W32) : (s.setReg blk inst off v).faultWaits = s.faultWaits := rfl
@[simp] theorem setReg_fences (blk inst off : Nat) (v : W32) : (s.setReg blk inst off v).fences = s.fences := rfl
@[simp] theorem setReg_token (blk inst off : Nat) (v : W32) : (s.setReg blk inst off v).token = s.token := rfl
@[simp] theorem setReg_jobs (blk inst off : Nat) (v : W32) : (s.setReg blk inst off v).jobs = s.jobs := rfl
@[simp] theorem setReg_ports (blk inst off : Nat) (v : W32) : (s.setReg blk inst off v).ports = s.ports := rfl
@[simp] theorem setReg_scheds (blk inst off : Nat) (v : W32) : (s.setReg blk inst off v).scheds = s.scheds := rfl
@[simp] theorem setReg_meters (blk inst off : Nat) (v : W32) : (s.setReg blk inst off v).meters = s.meters := rfl
@[simp] theorem setReg_conns (blk inst off : Nat) (v : W32) : (s.setReg blk inst off v).conns = s.conns := rfl
@[simp] theorem setReg_kvt (blk inst off : Nat) (v : W32) : (s.setReg blk inst off v).kvt = s.kvt := rfl
@[simp] theorem setReg_naks (blk inst off : Nat) (v : W32) : (s.setReg blk inst off v).naks = s.naks := rfl
@[simp] theorem setReg_windows (blk inst off : Nat) (v : W32) : (s.setReg blk inst off v).windows = s.windows := rfl
@[simp] theorem setReg_revokes (blk inst off : Nat) (v : W32) : (s.setReg blk inst off v).revokes = s.revokes := rfl
@[simp] theorem setReg_armed (blk inst off : Nat) (v : W32) : (s.setReg blk inst off v).armed = s.armed := rfl
@[simp] theorem setReg_armedDue (blk inst off : Nat) (v : W32) : (s.setReg blk inst off v).armedDue = s.armedDue := rfl
@[simp] theorem setReg_queues (blk inst off : Nat) (v : W32) : (s.setReg blk inst off v).queues = s.queues := rfl
@[simp] theorem setReg_colls (blk inst off : Nat) (v : W32) : (s.setReg blk inst off v).colls = s.colls := rfl
@[simp] theorem setReg_collWait (blk inst off : Nat) (v : W32) : (s.setReg blk inst off v).collWait = s.collWait := rfl
@[simp] theorem setReg_parts (blk inst off : Nat) (v : W32) : (s.setReg blk inst off v).parts = s.parts := rfl
@[simp] theorem setReg_images (blk inst off : Nat) (v : W32) : (s.setReg blk inst off v).images = s.images := rfl
@[simp] theorem setReg_mbox (blk inst off : Nat) (v : W32) : (s.setReg blk inst off v).mbox = s.mbox := rfl
@[simp] theorem setReg_keys (blk inst off : Nat) (v : W32) : (s.setReg blk inst off v).keys = s.keys := rfl
@[simp] theorem setReg_ciph (blk inst off : Nat) (v : W32) : (s.setReg blk inst off v).ciph = s.ciph := rfl
@[simp] theorem setReg_ident (blk inst off : Nat) (v : W32) : (s.setReg blk inst off v).ident = s.ident := rfl
@[simp] theorem setReg_store (blk inst off : Nat) (v : W32) : (s.setReg blk inst off v).store = s.store := rfl
@[simp] theorem setReg_test (blk inst off : Nat) (v : W32) : (s.setReg blk inst off v).test = s.test := rfl

@[simp] theorem count_pending (blk inst off n : Nat) : (s.count blk inst off n).pending = s.pending := rfl
@[simp] theorem count_fresh (blk inst off n : Nat) : (s.count blk inst off n).fresh = s.fresh := rfl
@[simp] theorem count_align (blk inst off n : Nat) : (s.count blk inst off n).align = s.align := rfl
@[simp] theorem count_out (blk inst off n : Nat) : (s.count blk inst off n).out = s.out := rfl
@[simp] theorem count_pwr (blk inst off n : Nat) : (s.count blk inst off n).pwr = s.pwr := rfl
@[simp] theorem count_tray (blk inst off n : Nat) : (s.count blk inst off n).tray = s.tray := rfl
@[simp] theorem count_time (blk inst off n : Nat) : (s.count blk inst off n).time = s.time := rfl
@[simp] theorem count_regs (blk inst off n : Nat) : (s.count blk inst off n).regs = s.regs := rfl
@[simp] theorem count_shadows (blk inst off n : Nat) : (s.count blk inst off n).shadows = s.shadows := rfl
@[simp] theorem count_latch (blk inst off n : Nat) : (s.count blk inst off n).latch = s.latch := rfl
@[simp] theorem count_tiles (blk inst off n : Nat) : (s.count blk inst off n).tiles = s.tiles := rfl
@[simp] theorem count_links (blk inst off n : Nat) : (s.count blk inst off n).links = s.links := rfl
@[simp] theorem count_beats (blk inst off n : Nat) : (s.count blk inst off n).beats = s.beats := rfl
@[simp] theorem count_groups (blk inst off n : Nat) : (s.count blk inst off n).groups = s.groups := rfl
@[simp] theorem count_waves (blk inst off n : Nat) : (s.count blk inst off n).waves = s.waves := rfl
@[simp] theorem count_mem (blk inst off n : Nat) : (s.count blk inst off n).mem = s.mem := rfl
@[simp] theorem count_ue (blk inst off n : Nat) : (s.count blk inst off n).ue = s.ue := rfl
@[simp] theorem count_ce (blk inst off n : Nat) : (s.count blk inst off n).ce = s.ce := rfl
@[simp] theorem count_lost (blk inst off n : Nat) : (s.count blk inst off n).lost = s.lost := rfl
@[simp] theorem count_lineKey (blk inst off n : Nat) : (s.count blk inst off n).lineKey = s.lineKey := rfl
@[simp] theorem count_soft (blk inst off n : Nat) : (s.count blk inst off n).soft = s.soft := rfl
@[simp] theorem count_imOld (blk inst off n : Nat) : (s.count blk inst off n).imOld = s.imOld := rfl
@[simp] theorem count_fwEcc (blk inst off n : Nat) : (s.count blk inst off n).fwEcc = s.fwEcc := rfl
@[simp] theorem count_slabs (blk inst off n : Nat) : (s.count blk inst off n).slabs = s.slabs := rfl
@[simp] theorem count_devs (blk inst off n : Nat) : (s.count blk inst off n).devs = s.devs := rfl
@[simp] theorem count_tb (blk inst off n : Nat) : (s.count blk inst off n).tb = s.tb := rfl
@[simp] theorem count_faults (blk inst off n : Nat) : (s.count blk inst off n).faults = s.faults := rfl
@[simp] theorem count_faultWaits (blk inst off n : Nat) : (s.count blk inst off n).faultWaits = s.faultWaits := rfl
@[simp] theorem count_fences (blk inst off n : Nat) : (s.count blk inst off n).fences = s.fences := rfl
@[simp] theorem count_token (blk inst off n : Nat) : (s.count blk inst off n).token = s.token := rfl
@[simp] theorem count_jobs (blk inst off n : Nat) : (s.count blk inst off n).jobs = s.jobs := rfl
@[simp] theorem count_ports (blk inst off n : Nat) : (s.count blk inst off n).ports = s.ports := rfl
@[simp] theorem count_scheds (blk inst off n : Nat) : (s.count blk inst off n).scheds = s.scheds := rfl
@[simp] theorem count_meters (blk inst off n : Nat) : (s.count blk inst off n).meters = s.meters := rfl
@[simp] theorem count_conns (blk inst off n : Nat) : (s.count blk inst off n).conns = s.conns := rfl
@[simp] theorem count_kvt (blk inst off n : Nat) : (s.count blk inst off n).kvt = s.kvt := rfl
@[simp] theorem count_naks (blk inst off n : Nat) : (s.count blk inst off n).naks = s.naks := rfl
@[simp] theorem count_windows (blk inst off n : Nat) : (s.count blk inst off n).windows = s.windows := rfl
@[simp] theorem count_revokes (blk inst off n : Nat) : (s.count blk inst off n).revokes = s.revokes := rfl
@[simp] theorem count_armed (blk inst off n : Nat) : (s.count blk inst off n).armed = s.armed := rfl
@[simp] theorem count_armedDue (blk inst off n : Nat) : (s.count blk inst off n).armedDue = s.armedDue := rfl
@[simp] theorem count_queues (blk inst off n : Nat) : (s.count blk inst off n).queues = s.queues := rfl
@[simp] theorem count_colls (blk inst off n : Nat) : (s.count blk inst off n).colls = s.colls := rfl
@[simp] theorem count_collWait (blk inst off n : Nat) : (s.count blk inst off n).collWait = s.collWait := rfl
@[simp] theorem count_parts (blk inst off n : Nat) : (s.count blk inst off n).parts = s.parts := rfl
@[simp] theorem count_images (blk inst off n : Nat) : (s.count blk inst off n).images = s.images := rfl
@[simp] theorem count_mbox (blk inst off n : Nat) : (s.count blk inst off n).mbox = s.mbox := rfl
@[simp] theorem count_keys (blk inst off n : Nat) : (s.count blk inst off n).keys = s.keys := rfl
@[simp] theorem count_ciph (blk inst off n : Nat) : (s.count blk inst off n).ciph = s.ciph := rfl
@[simp] theorem count_ident (blk inst off n : Nat) : (s.count blk inst off n).ident = s.ident := rfl
@[simp] theorem count_store (blk inst off n : Nat) : (s.count blk inst off n).store = s.store := rfl
@[simp] theorem count_test (blk inst off n : Nat) : (s.count blk inst off n).test = s.test := rfl

@[simp] theorem updTile_pending (t : Nat) (f : Tile → Tile) : (s.updTile t f).pending = s.pending := rfl
@[simp] theorem updTile_fresh (t : Nat) (f : Tile → Tile) : (s.updTile t f).fresh = s.fresh := rfl
@[simp] theorem updTile_align (t : Nat) (f : Tile → Tile) : (s.updTile t f).align = s.align := rfl
@[simp] theorem updTile_out (t : Nat) (f : Tile → Tile) : (s.updTile t f).out = s.out := rfl
@[simp] theorem updTile_pwr (t : Nat) (f : Tile → Tile) : (s.updTile t f).pwr = s.pwr := rfl
@[simp] theorem updTile_tray (t : Nat) (f : Tile → Tile) : (s.updTile t f).tray = s.tray := rfl
@[simp] theorem updTile_time (t : Nat) (f : Tile → Tile) : (s.updTile t f).time = s.time := rfl
@[simp] theorem updTile_regs (t : Nat) (f : Tile → Tile) : (s.updTile t f).regs = s.regs := rfl
@[simp] theorem updTile_cnts (t : Nat) (f : Tile → Tile) : (s.updTile t f).cnts = s.cnts := rfl
@[simp] theorem updTile_shadows (t : Nat) (f : Tile → Tile) : (s.updTile t f).shadows = s.shadows := rfl
@[simp] theorem updTile_latch (t : Nat) (f : Tile → Tile) : (s.updTile t f).latch = s.latch := rfl
@[simp] theorem updTile_links (t : Nat) (f : Tile → Tile) : (s.updTile t f).links = s.links := rfl
@[simp] theorem updTile_beats (t : Nat) (f : Tile → Tile) : (s.updTile t f).beats = s.beats := rfl
@[simp] theorem updTile_groups (t : Nat) (f : Tile → Tile) : (s.updTile t f).groups = s.groups := rfl
@[simp] theorem updTile_waves (t : Nat) (f : Tile → Tile) : (s.updTile t f).waves = s.waves := rfl
@[simp] theorem updTile_mem (t : Nat) (f : Tile → Tile) : (s.updTile t f).mem = s.mem := rfl
@[simp] theorem updTile_ue (t : Nat) (f : Tile → Tile) : (s.updTile t f).ue = s.ue := rfl
@[simp] theorem updTile_ce (t : Nat) (f : Tile → Tile) : (s.updTile t f).ce = s.ce := rfl
@[simp] theorem updTile_lost (t : Nat) (f : Tile → Tile) : (s.updTile t f).lost = s.lost := rfl
@[simp] theorem updTile_lineKey (t : Nat) (f : Tile → Tile) : (s.updTile t f).lineKey = s.lineKey := rfl
@[simp] theorem updTile_soft (t : Nat) (f : Tile → Tile) : (s.updTile t f).soft = s.soft := rfl
@[simp] theorem updTile_imOld (t : Nat) (f : Tile → Tile) : (s.updTile t f).imOld = s.imOld := rfl
@[simp] theorem updTile_fwEcc (t : Nat) (f : Tile → Tile) : (s.updTile t f).fwEcc = s.fwEcc := rfl
@[simp] theorem updTile_slabs (t : Nat) (f : Tile → Tile) : (s.updTile t f).slabs = s.slabs := rfl
@[simp] theorem updTile_devs (t : Nat) (f : Tile → Tile) : (s.updTile t f).devs = s.devs := rfl
@[simp] theorem updTile_tb (t : Nat) (f : Tile → Tile) : (s.updTile t f).tb = s.tb := rfl
@[simp] theorem updTile_faults (t : Nat) (f : Tile → Tile) : (s.updTile t f).faults = s.faults := rfl
@[simp] theorem updTile_faultWaits (t : Nat) (f : Tile → Tile) : (s.updTile t f).faultWaits = s.faultWaits := rfl
@[simp] theorem updTile_fences (t : Nat) (f : Tile → Tile) : (s.updTile t f).fences = s.fences := rfl
@[simp] theorem updTile_token (t : Nat) (f : Tile → Tile) : (s.updTile t f).token = s.token := rfl
@[simp] theorem updTile_jobs (t : Nat) (f : Tile → Tile) : (s.updTile t f).jobs = s.jobs := rfl
@[simp] theorem updTile_ports (t : Nat) (f : Tile → Tile) : (s.updTile t f).ports = s.ports := rfl
@[simp] theorem updTile_scheds (t : Nat) (f : Tile → Tile) : (s.updTile t f).scheds = s.scheds := rfl
@[simp] theorem updTile_meters (t : Nat) (f : Tile → Tile) : (s.updTile t f).meters = s.meters := rfl
@[simp] theorem updTile_conns (t : Nat) (f : Tile → Tile) : (s.updTile t f).conns = s.conns := rfl
@[simp] theorem updTile_kvt (t : Nat) (f : Tile → Tile) : (s.updTile t f).kvt = s.kvt := rfl
@[simp] theorem updTile_naks (t : Nat) (f : Tile → Tile) : (s.updTile t f).naks = s.naks := rfl
@[simp] theorem updTile_windows (t : Nat) (f : Tile → Tile) : (s.updTile t f).windows = s.windows := rfl
@[simp] theorem updTile_revokes (t : Nat) (f : Tile → Tile) : (s.updTile t f).revokes = s.revokes := rfl
@[simp] theorem updTile_armed (t : Nat) (f : Tile → Tile) : (s.updTile t f).armed = s.armed := rfl
@[simp] theorem updTile_armedDue (t : Nat) (f : Tile → Tile) : (s.updTile t f).armedDue = s.armedDue := rfl
@[simp] theorem updTile_queues (t : Nat) (f : Tile → Tile) : (s.updTile t f).queues = s.queues := rfl
@[simp] theorem updTile_colls (t : Nat) (f : Tile → Tile) : (s.updTile t f).colls = s.colls := rfl
@[simp] theorem updTile_collWait (t : Nat) (f : Tile → Tile) : (s.updTile t f).collWait = s.collWait := rfl
@[simp] theorem updTile_parts (t : Nat) (f : Tile → Tile) : (s.updTile t f).parts = s.parts := rfl
@[simp] theorem updTile_images (t : Nat) (f : Tile → Tile) : (s.updTile t f).images = s.images := rfl
@[simp] theorem updTile_mbox (t : Nat) (f : Tile → Tile) : (s.updTile t f).mbox = s.mbox := rfl
@[simp] theorem updTile_keys (t : Nat) (f : Tile → Tile) : (s.updTile t f).keys = s.keys := rfl
@[simp] theorem updTile_ciph (t : Nat) (f : Tile → Tile) : (s.updTile t f).ciph = s.ciph := rfl
@[simp] theorem updTile_ident (t : Nat) (f : Tile → Tile) : (s.updTile t f).ident = s.ident := rfl
@[simp] theorem updTile_store (t : Nat) (f : Tile → Tile) : (s.updTile t f).store = s.store := rfl
@[simp] theorem updTile_test (t : Nat) (f : Tile → Tile) : (s.updTile t f).test = s.test := rfl

@[simp] theorem updPwr_pending (f : Pwr → Pwr) : (s.updPwr f).pending = s.pending := rfl
@[simp] theorem updPwr_fresh (f : Pwr → Pwr) : (s.updPwr f).fresh = s.fresh := rfl
@[simp] theorem updPwr_align (f : Pwr → Pwr) : (s.updPwr f).align = s.align := rfl
@[simp] theorem updPwr_out (f : Pwr → Pwr) : (s.updPwr f).out = s.out := rfl
@[simp] theorem updPwr_tray (f : Pwr → Pwr) : (s.updPwr f).tray = s.tray := rfl
@[simp] theorem updPwr_time (f : Pwr → Pwr) : (s.updPwr f).time = s.time := rfl
@[simp] theorem updPwr_regs (f : Pwr → Pwr) : (s.updPwr f).regs = s.regs := rfl
@[simp] theorem updPwr_cnts (f : Pwr → Pwr) : (s.updPwr f).cnts = s.cnts := rfl
@[simp] theorem updPwr_shadows (f : Pwr → Pwr) : (s.updPwr f).shadows = s.shadows := rfl
@[simp] theorem updPwr_latch (f : Pwr → Pwr) : (s.updPwr f).latch = s.latch := rfl
@[simp] theorem updPwr_tiles (f : Pwr → Pwr) : (s.updPwr f).tiles = s.tiles := rfl
@[simp] theorem updPwr_links (f : Pwr → Pwr) : (s.updPwr f).links = s.links := rfl
@[simp] theorem updPwr_beats (f : Pwr → Pwr) : (s.updPwr f).beats = s.beats := rfl
@[simp] theorem updPwr_groups (f : Pwr → Pwr) : (s.updPwr f).groups = s.groups := rfl
@[simp] theorem updPwr_waves (f : Pwr → Pwr) : (s.updPwr f).waves = s.waves := rfl
@[simp] theorem updPwr_mem (f : Pwr → Pwr) : (s.updPwr f).mem = s.mem := rfl
@[simp] theorem updPwr_ue (f : Pwr → Pwr) : (s.updPwr f).ue = s.ue := rfl
@[simp] theorem updPwr_ce (f : Pwr → Pwr) : (s.updPwr f).ce = s.ce := rfl
@[simp] theorem updPwr_lost (f : Pwr → Pwr) : (s.updPwr f).lost = s.lost := rfl
@[simp] theorem updPwr_lineKey (f : Pwr → Pwr) : (s.updPwr f).lineKey = s.lineKey := rfl
@[simp] theorem updPwr_soft (f : Pwr → Pwr) : (s.updPwr f).soft = s.soft := rfl
@[simp] theorem updPwr_imOld (f : Pwr → Pwr) : (s.updPwr f).imOld = s.imOld := rfl
@[simp] theorem updPwr_fwEcc (f : Pwr → Pwr) : (s.updPwr f).fwEcc = s.fwEcc := rfl
@[simp] theorem updPwr_slabs (f : Pwr → Pwr) : (s.updPwr f).slabs = s.slabs := rfl
@[simp] theorem updPwr_devs (f : Pwr → Pwr) : (s.updPwr f).devs = s.devs := rfl
@[simp] theorem updPwr_tb (f : Pwr → Pwr) : (s.updPwr f).tb = s.tb := rfl
@[simp] theorem updPwr_faults (f : Pwr → Pwr) : (s.updPwr f).faults = s.faults := rfl
@[simp] theorem updPwr_faultWaits (f : Pwr → Pwr) : (s.updPwr f).faultWaits = s.faultWaits := rfl
@[simp] theorem updPwr_fences (f : Pwr → Pwr) : (s.updPwr f).fences = s.fences := rfl
@[simp] theorem updPwr_token (f : Pwr → Pwr) : (s.updPwr f).token = s.token := rfl
@[simp] theorem updPwr_jobs (f : Pwr → Pwr) : (s.updPwr f).jobs = s.jobs := rfl
@[simp] theorem updPwr_ports (f : Pwr → Pwr) : (s.updPwr f).ports = s.ports := rfl
@[simp] theorem updPwr_scheds (f : Pwr → Pwr) : (s.updPwr f).scheds = s.scheds := rfl
@[simp] theorem updPwr_meters (f : Pwr → Pwr) : (s.updPwr f).meters = s.meters := rfl
@[simp] theorem updPwr_conns (f : Pwr → Pwr) : (s.updPwr f).conns = s.conns := rfl
@[simp] theorem updPwr_kvt (f : Pwr → Pwr) : (s.updPwr f).kvt = s.kvt := rfl
@[simp] theorem updPwr_naks (f : Pwr → Pwr) : (s.updPwr f).naks = s.naks := rfl
@[simp] theorem updPwr_windows (f : Pwr → Pwr) : (s.updPwr f).windows = s.windows := rfl
@[simp] theorem updPwr_revokes (f : Pwr → Pwr) : (s.updPwr f).revokes = s.revokes := rfl
@[simp] theorem updPwr_armed (f : Pwr → Pwr) : (s.updPwr f).armed = s.armed := rfl
@[simp] theorem updPwr_armedDue (f : Pwr → Pwr) : (s.updPwr f).armedDue = s.armedDue := rfl
@[simp] theorem updPwr_queues (f : Pwr → Pwr) : (s.updPwr f).queues = s.queues := rfl
@[simp] theorem updPwr_colls (f : Pwr → Pwr) : (s.updPwr f).colls = s.colls := rfl
@[simp] theorem updPwr_collWait (f : Pwr → Pwr) : (s.updPwr f).collWait = s.collWait := rfl
@[simp] theorem updPwr_parts (f : Pwr → Pwr) : (s.updPwr f).parts = s.parts := rfl
@[simp] theorem updPwr_images (f : Pwr → Pwr) : (s.updPwr f).images = s.images := rfl
@[simp] theorem updPwr_mbox (f : Pwr → Pwr) : (s.updPwr f).mbox = s.mbox := rfl
@[simp] theorem updPwr_keys (f : Pwr → Pwr) : (s.updPwr f).keys = s.keys := rfl
@[simp] theorem updPwr_ciph (f : Pwr → Pwr) : (s.updPwr f).ciph = s.ciph := rfl
@[simp] theorem updPwr_ident (f : Pwr → Pwr) : (s.updPwr f).ident = s.ident := rfl
@[simp] theorem updPwr_store (f : Pwr → Pwr) : (s.updPwr f).store = s.store := rfl
@[simp] theorem updPwr_test (f : Pwr → Pwr) : (s.updPwr f).test = s.test := rfl

@[simp] theorem updIdent_pending (f : Ident → Ident) : (s.updIdent f).pending = s.pending := rfl
@[simp] theorem updIdent_fresh (f : Ident → Ident) : (s.updIdent f).fresh = s.fresh := rfl
@[simp] theorem updIdent_align (f : Ident → Ident) : (s.updIdent f).align = s.align := rfl
@[simp] theorem updIdent_out (f : Ident → Ident) : (s.updIdent f).out = s.out := rfl
@[simp] theorem updIdent_pwr (f : Ident → Ident) : (s.updIdent f).pwr = s.pwr := rfl
@[simp] theorem updIdent_tray (f : Ident → Ident) : (s.updIdent f).tray = s.tray := rfl
@[simp] theorem updIdent_time (f : Ident → Ident) : (s.updIdent f).time = s.time := rfl
@[simp] theorem updIdent_regs (f : Ident → Ident) : (s.updIdent f).regs = s.regs := rfl
@[simp] theorem updIdent_cnts (f : Ident → Ident) : (s.updIdent f).cnts = s.cnts := rfl
@[simp] theorem updIdent_shadows (f : Ident → Ident) : (s.updIdent f).shadows = s.shadows := rfl
@[simp] theorem updIdent_latch (f : Ident → Ident) : (s.updIdent f).latch = s.latch := rfl
@[simp] theorem updIdent_tiles (f : Ident → Ident) : (s.updIdent f).tiles = s.tiles := rfl
@[simp] theorem updIdent_links (f : Ident → Ident) : (s.updIdent f).links = s.links := rfl
@[simp] theorem updIdent_beats (f : Ident → Ident) : (s.updIdent f).beats = s.beats := rfl
@[simp] theorem updIdent_groups (f : Ident → Ident) : (s.updIdent f).groups = s.groups := rfl
@[simp] theorem updIdent_waves (f : Ident → Ident) : (s.updIdent f).waves = s.waves := rfl
@[simp] theorem updIdent_mem (f : Ident → Ident) : (s.updIdent f).mem = s.mem := rfl
@[simp] theorem updIdent_ue (f : Ident → Ident) : (s.updIdent f).ue = s.ue := rfl
@[simp] theorem updIdent_ce (f : Ident → Ident) : (s.updIdent f).ce = s.ce := rfl
@[simp] theorem updIdent_lost (f : Ident → Ident) : (s.updIdent f).lost = s.lost := rfl
@[simp] theorem updIdent_lineKey (f : Ident → Ident) : (s.updIdent f).lineKey = s.lineKey := rfl
@[simp] theorem updIdent_soft (f : Ident → Ident) : (s.updIdent f).soft = s.soft := rfl
@[simp] theorem updIdent_imOld (f : Ident → Ident) : (s.updIdent f).imOld = s.imOld := rfl
@[simp] theorem updIdent_fwEcc (f : Ident → Ident) : (s.updIdent f).fwEcc = s.fwEcc := rfl
@[simp] theorem updIdent_slabs (f : Ident → Ident) : (s.updIdent f).slabs = s.slabs := rfl
@[simp] theorem updIdent_devs (f : Ident → Ident) : (s.updIdent f).devs = s.devs := rfl
@[simp] theorem updIdent_tb (f : Ident → Ident) : (s.updIdent f).tb = s.tb := rfl
@[simp] theorem updIdent_faults (f : Ident → Ident) : (s.updIdent f).faults = s.faults := rfl
@[simp] theorem updIdent_faultWaits (f : Ident → Ident) : (s.updIdent f).faultWaits = s.faultWaits := rfl
@[simp] theorem updIdent_fences (f : Ident → Ident) : (s.updIdent f).fences = s.fences := rfl
@[simp] theorem updIdent_token (f : Ident → Ident) : (s.updIdent f).token = s.token := rfl
@[simp] theorem updIdent_jobs (f : Ident → Ident) : (s.updIdent f).jobs = s.jobs := rfl
@[simp] theorem updIdent_ports (f : Ident → Ident) : (s.updIdent f).ports = s.ports := rfl
@[simp] theorem updIdent_scheds (f : Ident → Ident) : (s.updIdent f).scheds = s.scheds := rfl
@[simp] theorem updIdent_meters (f : Ident → Ident) : (s.updIdent f).meters = s.meters := rfl
@[simp] theorem updIdent_conns (f : Ident → Ident) : (s.updIdent f).conns = s.conns := rfl
@[simp] theorem updIdent_kvt (f : Ident → Ident) : (s.updIdent f).kvt = s.kvt := rfl
@[simp] theorem updIdent_naks (f : Ident → Ident) : (s.updIdent f).naks = s.naks := rfl
@[simp] theorem updIdent_windows (f : Ident → Ident) : (s.updIdent f).windows = s.windows := rfl
@[simp] theorem updIdent_revokes (f : Ident → Ident) : (s.updIdent f).revokes = s.revokes := rfl
@[simp] theorem updIdent_armed (f : Ident → Ident) : (s.updIdent f).armed = s.armed := rfl
@[simp] theorem updIdent_armedDue (f : Ident → Ident) : (s.updIdent f).armedDue = s.armedDue := rfl
@[simp] theorem updIdent_queues (f : Ident → Ident) : (s.updIdent f).queues = s.queues := rfl
@[simp] theorem updIdent_colls (f : Ident → Ident) : (s.updIdent f).colls = s.colls := rfl
@[simp] theorem updIdent_collWait (f : Ident → Ident) : (s.updIdent f).collWait = s.collWait := rfl
@[simp] theorem updIdent_parts (f : Ident → Ident) : (s.updIdent f).parts = s.parts := rfl
@[simp] theorem updIdent_images (f : Ident → Ident) : (s.updIdent f).images = s.images := rfl
@[simp] theorem updIdent_mbox (f : Ident → Ident) : (s.updIdent f).mbox = s.mbox := rfl
@[simp] theorem updIdent_keys (f : Ident → Ident) : (s.updIdent f).keys = s.keys := rfl
@[simp] theorem updIdent_ciph (f : Ident → Ident) : (s.updIdent f).ciph = s.ciph := rfl
@[simp] theorem updIdent_store (f : Ident → Ident) : (s.updIdent f).store = s.store := rfl
@[simp] theorem updIdent_test (f : Ident → Ident) : (s.updIdent f).test = s.test := rfl

@[simp] theorem updStore_pending (f : Store → Store) : (s.updStore f).pending = s.pending := rfl
@[simp] theorem updStore_fresh (f : Store → Store) : (s.updStore f).fresh = s.fresh := rfl
@[simp] theorem updStore_align (f : Store → Store) : (s.updStore f).align = s.align := rfl
@[simp] theorem updStore_out (f : Store → Store) : (s.updStore f).out = s.out := rfl
@[simp] theorem updStore_pwr (f : Store → Store) : (s.updStore f).pwr = s.pwr := rfl
@[simp] theorem updStore_tray (f : Store → Store) : (s.updStore f).tray = s.tray := rfl
@[simp] theorem updStore_time (f : Store → Store) : (s.updStore f).time = s.time := rfl
@[simp] theorem updStore_regs (f : Store → Store) : (s.updStore f).regs = s.regs := rfl
@[simp] theorem updStore_cnts (f : Store → Store) : (s.updStore f).cnts = s.cnts := rfl
@[simp] theorem updStore_shadows (f : Store → Store) : (s.updStore f).shadows = s.shadows := rfl
@[simp] theorem updStore_latch (f : Store → Store) : (s.updStore f).latch = s.latch := rfl
@[simp] theorem updStore_tiles (f : Store → Store) : (s.updStore f).tiles = s.tiles := rfl
@[simp] theorem updStore_links (f : Store → Store) : (s.updStore f).links = s.links := rfl
@[simp] theorem updStore_beats (f : Store → Store) : (s.updStore f).beats = s.beats := rfl
@[simp] theorem updStore_groups (f : Store → Store) : (s.updStore f).groups = s.groups := rfl
@[simp] theorem updStore_waves (f : Store → Store) : (s.updStore f).waves = s.waves := rfl
@[simp] theorem updStore_mem (f : Store → Store) : (s.updStore f).mem = s.mem := rfl
@[simp] theorem updStore_ue (f : Store → Store) : (s.updStore f).ue = s.ue := rfl
@[simp] theorem updStore_ce (f : Store → Store) : (s.updStore f).ce = s.ce := rfl
@[simp] theorem updStore_lost (f : Store → Store) : (s.updStore f).lost = s.lost := rfl
@[simp] theorem updStore_lineKey (f : Store → Store) : (s.updStore f).lineKey = s.lineKey := rfl
@[simp] theorem updStore_soft (f : Store → Store) : (s.updStore f).soft = s.soft := rfl
@[simp] theorem updStore_imOld (f : Store → Store) : (s.updStore f).imOld = s.imOld := rfl
@[simp] theorem updStore_fwEcc (f : Store → Store) : (s.updStore f).fwEcc = s.fwEcc := rfl
@[simp] theorem updStore_slabs (f : Store → Store) : (s.updStore f).slabs = s.slabs := rfl
@[simp] theorem updStore_devs (f : Store → Store) : (s.updStore f).devs = s.devs := rfl
@[simp] theorem updStore_tb (f : Store → Store) : (s.updStore f).tb = s.tb := rfl
@[simp] theorem updStore_faults (f : Store → Store) : (s.updStore f).faults = s.faults := rfl
@[simp] theorem updStore_faultWaits (f : Store → Store) : (s.updStore f).faultWaits = s.faultWaits := rfl
@[simp] theorem updStore_fences (f : Store → Store) : (s.updStore f).fences = s.fences := rfl
@[simp] theorem updStore_token (f : Store → Store) : (s.updStore f).token = s.token := rfl
@[simp] theorem updStore_jobs (f : Store → Store) : (s.updStore f).jobs = s.jobs := rfl
@[simp] theorem updStore_ports (f : Store → Store) : (s.updStore f).ports = s.ports := rfl
@[simp] theorem updStore_scheds (f : Store → Store) : (s.updStore f).scheds = s.scheds := rfl
@[simp] theorem updStore_meters (f : Store → Store) : (s.updStore f).meters = s.meters := rfl
@[simp] theorem updStore_conns (f : Store → Store) : (s.updStore f).conns = s.conns := rfl
@[simp] theorem updStore_kvt (f : Store → Store) : (s.updStore f).kvt = s.kvt := rfl
@[simp] theorem updStore_naks (f : Store → Store) : (s.updStore f).naks = s.naks := rfl
@[simp] theorem updStore_windows (f : Store → Store) : (s.updStore f).windows = s.windows := rfl
@[simp] theorem updStore_revokes (f : Store → Store) : (s.updStore f).revokes = s.revokes := rfl
@[simp] theorem updStore_armed (f : Store → Store) : (s.updStore f).armed = s.armed := rfl
@[simp] theorem updStore_armedDue (f : Store → Store) : (s.updStore f).armedDue = s.armedDue := rfl
@[simp] theorem updStore_queues (f : Store → Store) : (s.updStore f).queues = s.queues := rfl
@[simp] theorem updStore_colls (f : Store → Store) : (s.updStore f).colls = s.colls := rfl
@[simp] theorem updStore_collWait (f : Store → Store) : (s.updStore f).collWait = s.collWait := rfl
@[simp] theorem updStore_parts (f : Store → Store) : (s.updStore f).parts = s.parts := rfl
@[simp] theorem updStore_images (f : Store → Store) : (s.updStore f).images = s.images := rfl
@[simp] theorem updStore_mbox (f : Store → Store) : (s.updStore f).mbox = s.mbox := rfl
@[simp] theorem updStore_keys (f : Store → Store) : (s.updStore f).keys = s.keys := rfl
@[simp] theorem updStore_ciph (f : Store → Store) : (s.updStore f).ciph = s.ciph := rfl
@[simp] theorem updStore_ident (f : Store → Store) : (s.updStore f).ident = s.ident := rfl
@[simp] theorem updStore_test (f : Store → Store) : (s.updStore f).test = s.test := rfl

@[simp] theorem poke_pending (a : Nat) (bs : List Byte) : (s.poke a bs).pending = s.pending := rfl
@[simp] theorem poke_fresh (a : Nat) (bs : List Byte) : (s.poke a bs).fresh = s.fresh := rfl
@[simp] theorem poke_align (a : Nat) (bs : List Byte) : (s.poke a bs).align = s.align := rfl
@[simp] theorem poke_out (a : Nat) (bs : List Byte) : (s.poke a bs).out = s.out := rfl
@[simp] theorem poke_pwr (a : Nat) (bs : List Byte) : (s.poke a bs).pwr = s.pwr := rfl
@[simp] theorem poke_tray (a : Nat) (bs : List Byte) : (s.poke a bs).tray = s.tray := rfl
@[simp] theorem poke_time (a : Nat) (bs : List Byte) : (s.poke a bs).time = s.time := rfl
@[simp] theorem poke_regs (a : Nat) (bs : List Byte) : (s.poke a bs).regs = s.regs := rfl
@[simp] theorem poke_cnts (a : Nat) (bs : List Byte) : (s.poke a bs).cnts = s.cnts := rfl
@[simp] theorem poke_shadows (a : Nat) (bs : List Byte) : (s.poke a bs).shadows = s.shadows := rfl
@[simp] theorem poke_latch (a : Nat) (bs : List Byte) : (s.poke a bs).latch = s.latch := rfl
@[simp] theorem poke_tiles (a : Nat) (bs : List Byte) : (s.poke a bs).tiles = s.tiles := rfl
@[simp] theorem poke_links (a : Nat) (bs : List Byte) : (s.poke a bs).links = s.links := rfl
@[simp] theorem poke_beats (a : Nat) (bs : List Byte) : (s.poke a bs).beats = s.beats := rfl
@[simp] theorem poke_groups (a : Nat) (bs : List Byte) : (s.poke a bs).groups = s.groups := rfl
@[simp] theorem poke_waves (a : Nat) (bs : List Byte) : (s.poke a bs).waves = s.waves := rfl
@[simp] theorem poke_lineKey (a : Nat) (bs : List Byte) : (s.poke a bs).lineKey = s.lineKey := rfl
@[simp] theorem poke_fwEcc (a : Nat) (bs : List Byte) : (s.poke a bs).fwEcc = s.fwEcc := rfl
@[simp] theorem poke_slabs (a : Nat) (bs : List Byte) : (s.poke a bs).slabs = s.slabs := rfl
@[simp] theorem poke_devs (a : Nat) (bs : List Byte) : (s.poke a bs).devs = s.devs := rfl
@[simp] theorem poke_tb (a : Nat) (bs : List Byte) : (s.poke a bs).tb = s.tb := rfl
@[simp] theorem poke_faults (a : Nat) (bs : List Byte) : (s.poke a bs).faults = s.faults := rfl
@[simp] theorem poke_faultWaits (a : Nat) (bs : List Byte) : (s.poke a bs).faultWaits = s.faultWaits := rfl
@[simp] theorem poke_fences (a : Nat) (bs : List Byte) : (s.poke a bs).fences = s.fences := rfl
@[simp] theorem poke_token (a : Nat) (bs : List Byte) : (s.poke a bs).token = s.token := rfl
@[simp] theorem poke_jobs (a : Nat) (bs : List Byte) : (s.poke a bs).jobs = s.jobs := rfl
@[simp] theorem poke_ports (a : Nat) (bs : List Byte) : (s.poke a bs).ports = s.ports := rfl
@[simp] theorem poke_scheds (a : Nat) (bs : List Byte) : (s.poke a bs).scheds = s.scheds := rfl
@[simp] theorem poke_meters (a : Nat) (bs : List Byte) : (s.poke a bs).meters = s.meters := rfl
@[simp] theorem poke_conns (a : Nat) (bs : List Byte) : (s.poke a bs).conns = s.conns := rfl
@[simp] theorem poke_kvt (a : Nat) (bs : List Byte) : (s.poke a bs).kvt = s.kvt := rfl
@[simp] theorem poke_naks (a : Nat) (bs : List Byte) : (s.poke a bs).naks = s.naks := rfl
@[simp] theorem poke_windows (a : Nat) (bs : List Byte) : (s.poke a bs).windows = s.windows := rfl
@[simp] theorem poke_revokes (a : Nat) (bs : List Byte) : (s.poke a bs).revokes = s.revokes := rfl
@[simp] theorem poke_armed (a : Nat) (bs : List Byte) : (s.poke a bs).armed = s.armed := rfl
@[simp] theorem poke_armedDue (a : Nat) (bs : List Byte) : (s.poke a bs).armedDue = s.armedDue := rfl
@[simp] theorem poke_queues (a : Nat) (bs : List Byte) : (s.poke a bs).queues = s.queues := rfl
@[simp] theorem poke_colls (a : Nat) (bs : List Byte) : (s.poke a bs).colls = s.colls := rfl
@[simp] theorem poke_collWait (a : Nat) (bs : List Byte) : (s.poke a bs).collWait = s.collWait := rfl
@[simp] theorem poke_parts (a : Nat) (bs : List Byte) : (s.poke a bs).parts = s.parts := rfl
@[simp] theorem poke_images (a : Nat) (bs : List Byte) : (s.poke a bs).images = s.images := rfl
@[simp] theorem poke_mbox (a : Nat) (bs : List Byte) : (s.poke a bs).mbox = s.mbox := rfl
@[simp] theorem poke_keys (a : Nat) (bs : List Byte) : (s.poke a bs).keys = s.keys := rfl
@[simp] theorem poke_ciph (a : Nat) (bs : List Byte) : (s.poke a bs).ciph = s.ciph := rfl
@[simp] theorem poke_ident (a : Nat) (bs : List Byte) : (s.poke a bs).ident = s.ident := rfl
@[simp] theorem poke_store (a : Nat) (bs : List Byte) : (s.poke a bs).store = s.store := rfl
@[simp] theorem poke_test (a : Nat) (bs : List Byte) : (s.poke a bs).test = s.test := rfl

@[simp] theorem wipe_pending (lo hi : Nat) : (s.wipe lo hi).pending = s.pending := rfl
@[simp] theorem wipe_fresh (lo hi : Nat) : (s.wipe lo hi).fresh = s.fresh := rfl
@[simp] theorem wipe_align (lo hi : Nat) : (s.wipe lo hi).align = s.align := rfl
@[simp] theorem wipe_out (lo hi : Nat) : (s.wipe lo hi).out = s.out := rfl
@[simp] theorem wipe_pwr (lo hi : Nat) : (s.wipe lo hi).pwr = s.pwr := rfl
@[simp] theorem wipe_tray (lo hi : Nat) : (s.wipe lo hi).tray = s.tray := rfl
@[simp] theorem wipe_time (lo hi : Nat) : (s.wipe lo hi).time = s.time := rfl
@[simp] theorem wipe_regs (lo hi : Nat) : (s.wipe lo hi).regs = s.regs := rfl
@[simp] theorem wipe_cnts (lo hi : Nat) : (s.wipe lo hi).cnts = s.cnts := rfl
@[simp] theorem wipe_shadows (lo hi : Nat) : (s.wipe lo hi).shadows = s.shadows := rfl
@[simp] theorem wipe_latch (lo hi : Nat) : (s.wipe lo hi).latch = s.latch := rfl
@[simp] theorem wipe_tiles (lo hi : Nat) : (s.wipe lo hi).tiles = s.tiles := rfl
@[simp] theorem wipe_links (lo hi : Nat) : (s.wipe lo hi).links = s.links := rfl
@[simp] theorem wipe_beats (lo hi : Nat) : (s.wipe lo hi).beats = s.beats := rfl
@[simp] theorem wipe_groups (lo hi : Nat) : (s.wipe lo hi).groups = s.groups := rfl
@[simp] theorem wipe_waves (lo hi : Nat) : (s.wipe lo hi).waves = s.waves := rfl
@[simp] theorem wipe_lineKey (lo hi : Nat) : (s.wipe lo hi).lineKey = s.lineKey := rfl
@[simp] theorem wipe_soft (lo hi : Nat) : (s.wipe lo hi).soft = s.soft := rfl
@[simp] theorem wipe_imOld (lo hi : Nat) : (s.wipe lo hi).imOld = s.imOld := rfl
@[simp] theorem wipe_fwEcc (lo hi : Nat) : (s.wipe lo hi).fwEcc = s.fwEcc := rfl
@[simp] theorem wipe_slabs (lo hi : Nat) : (s.wipe lo hi).slabs = s.slabs := rfl
@[simp] theorem wipe_devs (lo hi : Nat) : (s.wipe lo hi).devs = s.devs := rfl
@[simp] theorem wipe_tb (lo hi : Nat) : (s.wipe lo hi).tb = s.tb := rfl
@[simp] theorem wipe_faults (lo hi : Nat) : (s.wipe lo hi).faults = s.faults := rfl
@[simp] theorem wipe_faultWaits (lo hi : Nat) : (s.wipe lo hi).faultWaits = s.faultWaits := rfl
@[simp] theorem wipe_fences (lo hi : Nat) : (s.wipe lo hi).fences = s.fences := rfl
@[simp] theorem wipe_token (lo hi : Nat) : (s.wipe lo hi).token = s.token := rfl
@[simp] theorem wipe_jobs (lo hi : Nat) : (s.wipe lo hi).jobs = s.jobs := rfl
@[simp] theorem wipe_ports (lo hi : Nat) : (s.wipe lo hi).ports = s.ports := rfl
@[simp] theorem wipe_scheds (lo hi : Nat) : (s.wipe lo hi).scheds = s.scheds := rfl
@[simp] theorem wipe_meters (lo hi : Nat) : (s.wipe lo hi).meters = s.meters := rfl
@[simp] theorem wipe_conns (lo hi : Nat) : (s.wipe lo hi).conns = s.conns := rfl
@[simp] theorem wipe_kvt (lo hi : Nat) : (s.wipe lo hi).kvt = s.kvt := rfl
@[simp] theorem wipe_naks (lo hi : Nat) : (s.wipe lo hi).naks = s.naks := rfl
@[simp] theorem wipe_windows (lo hi : Nat) : (s.wipe lo hi).windows = s.windows := rfl
@[simp] theorem wipe_revokes (lo hi : Nat) : (s.wipe lo hi).revokes = s.revokes := rfl
@[simp] theorem wipe_armed (lo hi : Nat) : (s.wipe lo hi).armed = s.armed := rfl
@[simp] theorem wipe_armedDue (lo hi : Nat) : (s.wipe lo hi).armedDue = s.armedDue := rfl
@[simp] theorem wipe_queues (lo hi : Nat) : (s.wipe lo hi).queues = s.queues := rfl
@[simp] theorem wipe_colls (lo hi : Nat) : (s.wipe lo hi).colls = s.colls := rfl
@[simp] theorem wipe_collWait (lo hi : Nat) : (s.wipe lo hi).collWait = s.collWait := rfl
@[simp] theorem wipe_parts (lo hi : Nat) : (s.wipe lo hi).parts = s.parts := rfl
@[simp] theorem wipe_images (lo hi : Nat) : (s.wipe lo hi).images = s.images := rfl
@[simp] theorem wipe_mbox (lo hi : Nat) : (s.wipe lo hi).mbox = s.mbox := rfl
@[simp] theorem wipe_keys (lo hi : Nat) : (s.wipe lo hi).keys = s.keys := rfl
@[simp] theorem wipe_ciph (lo hi : Nat) : (s.wipe lo hi).ciph = s.ciph := rfl
@[simp] theorem wipe_ident (lo hi : Nat) : (s.wipe lo hi).ident = s.ident := rfl
@[simp] theorem wipe_store (lo hi : Nat) : (s.wipe lo hi).store = s.store := rfl
@[simp] theorem wipe_test (lo hi : Nat) : (s.wipe lo hi).test = s.test := rfl

@[simp] theorem poke_mem (a : Nat) (bs : List Byte) : (s.poke a bs).mem = writeBytes s.mem a bs := rfl
@[simp] theorem wipe_mem (lo hi : Nat) : (s.wipe lo hi).mem = mclear s.mem lo hi := rfl
@[simp] theorem freshen_fresh : s.freshen.fresh = s.fresh + 1 := rfl
@[simp] theorem emit_out (o : Out) : (s.emit o).out = s.out ++ [o] := rfl
@[simp] theorem updPwr_pwr (f : Pwr → Pwr) : (s.updPwr f).pwr = f s.pwr := rfl
@[simp] theorem updIdent_ident (f : Ident → Ident) : (s.updIdent f).ident = f s.ident := rfl
@[simp] theorem updStore_store (f : Store → Store) : (s.updStore f).store = f s.store := rfl

end Sys2Proof.Machine.State
end

