-- ==== Sys2Proof/Laws/Access.lean ====
section
/-! SUPPORT. Reading one record after updating another: a named read is unchanged by every update of another
field, and after an update of its own field gives the record written or the one before. -/

namespace Sys2Proof.Machine.State

variable (s : State)

@[simp] theorem port_setTile (t : Nat) (x : Tile) (i : Nat) : (s.setTile t x).port i = s.port i := rfl
@[simp] theorem sched_setTile (t : Nat) (x : Tile) (i : Nat) : (s.setTile t x).sched i = s.sched i := rfl
@[simp] theorem meter_setTile (t : Nat) (x : Tile) (i : Nat) : (s.setTile t x).meter i = s.meter i := rfl
@[simp] theorem conn_setTile (t : Nat) (x : Tile) (i : Nat) : (s.setTile t x).conn i = s.conn i := rfl
@[simp] theorem part_setTile (t : Nat) (x : Tile) (i : Nat) : (s.setTile t x).part i = s.part i := rfl
@[simp] theorem group_setTile (t : Nat) (x : Tile) (i : Nat) : (s.setTile t x).group i = s.group i := rfl
@[simp] theorem dev_setTile (t : Nat) (x : Tile) (i : Nat) : (s.setTile t x).dev i = s.dev i := rfl
@[simp] theorem window_setTile (t : Nat) (x : Tile) (i : Nat) : (s.setTile t x).window i = s.window i := rfl
@[simp] theorem coll_setTile (t : Nat) (x : Tile) (i : Nat) : (s.setTile t x).coll i = s.coll i := rfl
@[simp] theorem pkeys_setTile (t : Nat) (x : Tile) (i : Nat) : (s.setTile t x).pkeys i = s.pkeys i := rfl
@[simp] theorem queue_setTile (t : Nat) (x : Tile) (i j : Nat) : (s.setTile t x).queue i j = s.queue i j := rfl
@[simp] theorem link_setTile (t : Nat) (x : Tile) (i : Nat) (e : Dir) : (s.setTile t x).link i e = s.link i e := rfl
@[simp] theorem wave_setTile (t : Nat) (x : Tile) (i j : Nat) : (s.setTile t x).wave i j = s.wave i j := rfl
@[simp] theorem ptest_setTile (t : Nat) (x : Tile) (i j : Nat) : (s.setTile t x).ptest i j = s.ptest i j := rfl
@[simp] theorem kvtDie_setTile (t : Nat) (x : Tile) (e : Bool) : (s.setTile t x).kvtDie e = s.kvtDie e := rfl
@[simp] theorem mb_setTile (t : Nat) (x : Tile) (e : Chan) (i : Bool) : (s.setTile t x).mb e i = s.mb e i := rfl
@[simp] theorem reg_setTile (t : Nat) (x : Tile) (i j l : Nat) : (s.setTile t x).reg i j l = s.reg i j l := rfl
@[simp] theorem fld_setTile (t : Nat) (x : Tile) (i j l z y : Nat) : (s.setTile t x).fld i j l z y = s.fld i j l z y := rfl
@[simp] theorem cnt_setTile (t : Nat) (x : Tile) (i j l : Nat) : (s.setTile t x).cnt i j l = s.cnt i j l := rfl

@[simp] theorem tile_setPort (n : Nat) (x : Port) (i : Nat) : (s.setPort n x).tile i = s.tile i := rfl
@[simp] theorem sched_setPort (n : Nat) (x : Port) (i : Nat) : (s.setPort n x).sched i = s.sched i := rfl
@[simp] theorem meter_setPort (n : Nat) (x : Port) (i : Nat) : (s.setPort n x).meter i = s.meter i := rfl
@[simp] theorem conn_setPort (n : Nat) (x : Port) (i : Nat) : (s.setPort n x).conn i = s.conn i := rfl
@[simp] theorem part_setPort (n : Nat) (x : Port) (i : Nat) : (s.setPort n x).part i = s.part i := rfl
@[simp] theorem group_setPort (n : Nat) (x : Port) (i : Nat) : (s.setPort n x).group i = s.group i := rfl
@[simp] theorem dev_setPort (n : Nat) (x : Port) (i : Nat) : (s.setPort n x).dev i = s.dev i := rfl
@[simp] theorem window_setPort (n : Nat) (x : Port) (i : Nat) : (s.setPort n x).window i = s.window i := rfl
@[simp] theorem coll_setPort (n : Nat) (x : Port) (i : Nat) : (s.setPort n x).coll i = s.coll i := rfl
@[simp] theorem pkeys_setPort (n : Nat) (x : Port) (i : Nat) : (s.setPort n x).pkeys i = s.pkeys i := rfl
@[simp] theorem queue_setPort (n : Nat) (x : Port) (i j : Nat) : (s.setPort n x).queue i j = s.queue i j := rfl
@[simp] theorem link_setPort (n : Nat) (x : Port) (i : Nat) (e : Dir) : (s.setPort n x).link i e = s.link i e := rfl
@[simp] theorem wave_setPort (n : Nat) (x : Port) (i j : Nat) : (s.setPort n x).wave i j = s.wave i j := rfl
@[simp] theorem ptest_setPort (n : Nat) (x : Port) (i j : Nat) : (s.setPort n x).ptest i j = s.ptest i j := rfl
@[simp] theorem kvtDie_setPort (n : Nat) (x : Port) (e : Bool) : (s.setPort n x).kvtDie e = s.kvtDie e := rfl
@[simp] theorem mb_setPort (n : Nat) (x : Port) (e : Chan) (i : Bool) : (s.setPort n x).mb e i = s.mb e i := rfl
@[simp] theorem reg_setPort (n : Nat) (x : Port) (i j l : Nat) : (s.setPort n x).reg i j l = s.reg i j l := rfl
@[simp] theorem fld_setPort (n : Nat) (x : Port) (i j l z y : Nat) : (s.setPort n x).fld i j l z y = s.fld i j l z y := rfl
@[simp] theorem cnt_setPort (n : Nat) (x : Port) (i j l : Nat) : (s.setPort n x).cnt i j l = s.cnt i j l := rfl

@[simp] theorem tile_setSched (n : Nat) (x : Sched) (i : Nat) : (s.setSched n x).tile i = s.tile i := rfl
@[simp] theorem port_setSched (n : Nat) (x : Sched) (i : Nat) : (s.setSched n x).port i = s.port i := rfl
@[simp] theorem meter_setSched (n : Nat) (x : Sched) (i : Nat) : (s.setSched n x).meter i = s.meter i := rfl
@[simp] theorem conn_setSched (n : Nat) (x : Sched) (i : Nat) : (s.setSched n x).conn i = s.conn i := rfl
@[simp] theorem part_setSched (n : Nat) (x : Sched) (i : Nat) : (s.setSched n x).part i = s.part i := rfl
@[simp] theorem group_setSched (n : Nat) (x : Sched) (i : Nat) : (s.setSched n x).group i = s.group i := rfl
@[simp] theorem dev_setSched (n : Nat) (x : Sched) (i : Nat) : (s.setSched n x).dev i = s.dev i := rfl
@[simp] theorem window_setSched (n : Nat) (x : Sched) (i : Nat) : (s.setSched n x).window i = s.window i := rfl
@[simp] theorem coll_setSched (n : Nat) (x : Sched) (i : Nat) : (s.setSched n x).coll i = s.coll i := rfl
@[simp] theorem pkeys_setSched (n : Nat) (x : Sched) (i : Nat) : (s.setSched n x).pkeys i = s.pkeys i := rfl
@[simp] theorem queue_setSched (n : Nat) (x : Sched) (i j : Nat) : (s.setSched n x).queue i j = s.queue i j := rfl
@[simp] theorem link_setSched (n : Nat) (x : Sched) (i : Nat) (e : Dir) : (s.setSched n x).link i e = s.link i e := rfl
@[simp] theorem wave_setSched (n : Nat) (x : Sched) (i j : Nat) : (s.setSched n x).wave i j = s.wave i j := rfl
@[simp] theorem ptest_setSched (n : Nat) (x : Sched) (i j : Nat) : (s.setSched n x).ptest i j = s.ptest i j := rfl
@[simp] theorem kvtDie_setSched (n : Nat) (x : Sched) (e : Bool) : (s.setSched n x).kvtDie e = s.kvtDie e := rfl
@[simp] theorem mb_setSched (n : Nat) (x : Sched) (e : Chan) (i : Bool) : (s.setSched n x).mb e i = s.mb e i := rfl
@[simp] theorem reg_setSched (n : Nat) (x : Sched) (i j l : Nat) : (s.setSched n x).reg i j l = s.reg i j l := rfl
@[simp] theorem fld_setSched (n : Nat) (x : Sched) (i j l z y : Nat) : (s.setSched n x).fld i j l z y = s.fld i j l z y := rfl
@[simp] theorem cnt_setSched (n : Nat) (x : Sched) (i j l : Nat) : (s.setSched n x).cnt i j l = s.cnt i j l := rfl

@[simp] theorem tile_setMeter (k : Nat) (x : Meter) (i : Nat) : (s.setMeter k x).tile i = s.tile i := rfl
@[simp] theorem port_setMeter (k : Nat) (x : Meter) (i : Nat) : (s.setMeter k x).port i = s.port i := rfl
@[simp] theorem sched_setMeter (k : Nat) (x : Meter) (i : Nat) : (s.setMeter k x).sched i = s.sched i := rfl
@[simp] theorem conn_setMeter (k : Nat) (x : Meter) (i : Nat) : (s.setMeter k x).conn i = s.conn i := rfl
@[simp] theorem part_setMeter (k : Nat) (x : Meter) (i : Nat) : (s.setMeter k x).part i = s.part i := rfl
@[simp] theorem group_setMeter (k : Nat) (x : Meter) (i : Nat) : (s.setMeter k x).group i = s.group i := rfl
@[simp] theorem dev_setMeter (k : Nat) (x : Meter) (i : Nat) : (s.setMeter k x).dev i = s.dev i := rfl
@[simp] theorem window_setMeter (k : Nat) (x : Meter) (i : Nat) : (s.setMeter k x).window i = s.window i := rfl
@[simp] theorem coll_setMeter (k : Nat) (x : Meter) (i : Nat) : (s.setMeter k x).coll i = s.coll i := rfl
@[simp] theorem pkeys_setMeter (k : Nat) (x : Meter) (i : Nat) : (s.setMeter k x).pkeys i = s.pkeys i := rfl
@[simp] theorem queue_setMeter (k : Nat) (x : Meter) (i j : Nat) : (s.setMeter k x).queue i j = s.queue i j := rfl
@[simp] theorem link_setMeter (k : Nat) (x : Meter) (i : Nat) (e : Dir) : (s.setMeter k x).link i e = s.link i e := rfl
@[simp] theorem wave_setMeter (k : Nat) (x : Meter) (i j : Nat) : (s.setMeter k x).wave i j = s.wave i j := rfl
@[simp] theorem ptest_setMeter (k : Nat) (x : Meter) (i j : Nat) : (s.setMeter k x).ptest i j = s.ptest i j := rfl
@[simp] theorem kvtDie_setMeter (k : Nat) (x : Meter) (e : Bool) : (s.setMeter k x).kvtDie e = s.kvtDie e := rfl
@[simp] theorem mb_setMeter (k : Nat) (x : Meter) (e : Chan) (i : Bool) : (s.setMeter k x).mb e i = s.mb e i := rfl
@[simp] theorem reg_setMeter (k : Nat) (x : Meter) (i j l : Nat) : (s.setMeter k x).reg i j l = s.reg i j l := rfl
@[simp] theorem fld_setMeter (k : Nat) (x : Meter) (i j l z y : Nat) : (s.setMeter k x).fld i j l z y = s.fld i j l z y := rfl
@[simp] theorem cnt_setMeter (k : Nat) (x : Meter) (i j l : Nat) : (s.setMeter k x).cnt i j l = s.cnt i j l := rfl

@[simp] theorem tile_setConn (c : Nat) (x : Conn) (i : Nat) : (s.setConn c x).tile i = s.tile i := rfl
@[simp] theorem port_setConn (c : Nat) (x : Conn) (i : Nat) : (s.setConn c x).port i = s.port i := rfl
@[simp] theorem sched_setConn (c : Nat) (x : Conn) (i : Nat) : (s.setConn c x).sched i = s.sched i := rfl
@[simp] theorem meter_setConn (c : Nat) (x : Conn) (i : Nat) : (s.setConn c x).meter i = s.meter i := rfl
@[simp] theorem part_setConn (c : Nat) (x : Conn) (i : Nat) : (s.setConn c x).part i = s.part i := rfl
@[simp] theorem group_setConn (c : Nat) (x : Conn) (i : Nat) : (s.setConn c x).group i = s.group i := rfl
@[simp] theorem dev_setConn (c : Nat) (x : Conn) (i : Nat) : (s.setConn c x).dev i = s.dev i := rfl
@[simp] theorem window_setConn (c : Nat) (x : Conn) (i : Nat) : (s.setConn c x).window i = s.window i := rfl
@[simp] theorem coll_setConn (c : Nat) (x : Conn) (i : Nat) : (s.setConn c x).coll i = s.coll i := rfl
@[simp] theorem pkeys_setConn (c : Nat) (x : Conn) (i : Nat) : (s.setConn c x).pkeys i = s.pkeys i := rfl
@[simp] theorem queue_setConn (c : Nat) (x : Conn) (i j : Nat) : (s.setConn c x).queue i j = s.queue i j := rfl
@[simp] theorem link_setConn (c : Nat) (x : Conn) (i : Nat) (e : Dir) : (s.setConn c x).link i e = s.link i e := rfl
@[simp] theorem wave_setConn (c : Nat) (x : Conn) (i j : Nat) : (s.setConn c x).wave i j = s.wave i j := rfl
@[simp] theorem ptest_setConn (c : Nat) (x : Conn) (i j : Nat) : (s.setConn c x).ptest i j = s.ptest i j := rfl
@[simp] theorem kvtDie_setConn (c : Nat) (x : Conn) (e : Bool) : (s.setConn c x).kvtDie e = s.kvtDie e := rfl
@[simp] theorem mb_setConn (c : Nat) (x : Conn) (e : Chan) (i : Bool) : (s.setConn c x).mb e i = s.mb e i := rfl
@[simp] theorem reg_setConn (c : Nat) (x : Conn) (i j l : Nat) : (s.setConn c x).reg i j l = s.reg i j l := rfl
@[simp] theorem fld_setConn (c : Nat) (x : Conn) (i j l z y : Nat) : (s.setConn c x).fld i j l z y = s.fld i j l z y := rfl
@[simp] theorem cnt_setConn (c : Nat) (x : Conn) (i j l : Nat) : (s.setConn c x).cnt i j l = s.cnt i j l := rfl

@[simp] theorem tile_setPart (p : Nat) (x : Part) (i : Nat) : (s.setPart p x).tile i = s.tile i := rfl
@[simp] theorem port_setPart (p : Nat) (x : Part) (i : Nat) : (s.setPart p x).port i = s.port i := rfl
@[simp] theorem sched_setPart (p : Nat) (x : Part) (i : Nat) : (s.setPart p x).sched i = s.sched i := rfl
@[simp] theorem meter_setPart (p : Nat) (x : Part) (i : Nat) : (s.setPart p x).meter i = s.meter i := rfl
@[simp] theorem conn_setPart (p : Nat) (x : Part) (i : Nat) : (s.setPart p x).conn i = s.conn i := rfl
@[simp] theorem group_setPart (p : Nat) (x : Part) (i : Nat) : (s.setPart p x).group i = s.group i := rfl
@[simp] theorem dev_setPart (p : Nat) (x : Part) (i : Nat) : (s.setPart p x).dev i = s.dev i := rfl
@[simp] theorem window_setPart (p : Nat) (x : Part) (i : Nat) : (s.setPart p x).window i = s.window i := rfl
@[simp] theorem coll_setPart (p : Nat) (x : Part) (i : Nat) : (s.setPart p x).coll i = s.coll i := rfl
@[simp] theorem pkeys_setPart (p : Nat) (x : Part) (i : Nat) : (s.setPart p x).pkeys i = s.pkeys i := rfl
@[simp] theorem queue_setPart (p : Nat) (x : Part) (i j : Nat) : (s.setPart p x).queue i j = s.queue i j := rfl
@[simp] theorem link_setPart (p : Nat) (x : Part) (i : Nat) (e : Dir) : (s.setPart p x).link i e = s.link i e := rfl
@[simp] theorem wave_setPart (p : Nat) (x : Part) (i j : Nat) : (s.setPart p x).wave i j = s.wave i j := rfl
@[simp] theorem ptest_setPart (p : Nat) (x : Part) (i j : Nat) : (s.setPart p x).ptest i j = s.ptest i j := rfl
@[simp] theorem kvtDie_setPart (p : Nat) (x : Part) (e : Bool) : (s.setPart p x).kvtDie e = s.kvtDie e := rfl
@[simp] theorem mb_setPart (p : Nat) (x : Part) (e : Chan) (i : Bool) : (s.setPart p x).mb e i = s.mb e i := rfl
@[simp] theorem reg_setPart (p : Nat) (x : Part) (i j l : Nat) : (s.setPart p x).reg i j l = s.reg i j l := rfl
@[simp] theorem fld_setPart (p : Nat) (x : Part) (i j l z y : Nat) : (s.setPart p x).fld i j l z y = s.fld i j l z y := rfl
@[simp] theorem cnt_setPart (p : Nat) (x : Part) (i j l : Nat) : (s.setPart p x).cnt i j l = s.cnt i j l := rfl

@[simp] theorem tile_setGroup (g : Nat) (x : Group) (i : Nat) : (s.setGroup g x).tile i = s.tile i := rfl
@[simp] theorem port_setGroup (g : Nat) (x : Group) (i : Nat) : (s.setGroup g x).port i = s.port i := rfl
@[simp] theorem sched_setGroup (g : Nat) (x : Group) (i : Nat) : (s.setGroup g x).sched i = s.sched i := rfl
@[simp] theorem meter_setGroup (g : Nat) (x : Group) (i : Nat) : (s.setGroup g x).meter i = s.meter i := rfl
@[simp] theorem conn_setGroup (g : Nat) (x : Group) (i : Nat) : (s.setGroup g x).conn i = s.conn i := rfl
@[simp] theorem part_setGroup (g : Nat) (x : Group) (i : Nat) : (s.setGroup g x).part i = s.part i := rfl
@[simp] theorem dev_setGroup (g : Nat) (x : Group) (i : Nat) : (s.setGroup g x).dev i = s.dev i := rfl
@[simp] theorem window_setGroup (g : Nat) (x : Group) (i : Nat) : (s.setGroup g x).window i = s.window i := rfl
@[simp] theorem coll_setGroup (g : Nat) (x : Group) (i : Nat) : (s.setGroup g x).coll i = s.coll i := rfl
@[simp] theorem pkeys_setGroup (g : Nat) (x : Group) (i : Nat) : (s.setGroup g x).pkeys i = s.pkeys i := rfl
@[simp] theorem queue_setGroup (g : Nat) (x : Group) (i j : Nat) : (s.setGroup g x).queue i j = s.queue i j := rfl
@[simp] theorem link_setGroup (g : Nat) (x : Group) (i : Nat) (e : Dir) : (s.setGroup g x).link i e = s.link i e := rfl
@[simp] theorem wave_setGroup (g : Nat) (x : Group) (i j : Nat) : (s.setGroup g x).wave i j = s.wave i j := rfl
@[simp] theorem ptest_setGroup (g : Nat) (x : Group) (i j : Nat) : (s.setGroup g x).ptest i j = s.ptest i j := rfl
@[simp] theorem kvtDie_setGroup (g : Nat) (x : Group) (e : Bool) : (s.setGroup g x).kvtDie e = s.kvtDie e := rfl
@[simp] theorem mb_setGroup (g : Nat) (x : Group) (e : Chan) (i : Bool) : (s.setGroup g x).mb e i = s.mb e i := rfl
@[simp] theorem reg_setGroup (g : Nat) (x : Group) (i j l : Nat) : (s.setGroup g x).reg i j l = s.reg i j l := rfl
@[simp] theorem fld_setGroup (g : Nat) (x : Group) (i j l z y : Nat) : (s.setGroup g x).fld i j l z y = s.fld i j l z y := rfl
@[simp] theorem cnt_setGroup (g : Nat) (x : Group) (i j l : Nat) : (s.setGroup g x).cnt i j l = s.cnt i j l := rfl

@[simp] theorem tile_setDev (d : Nat) (x : Device) (i : Nat) : (s.setDev d x).tile i = s.tile i := rfl
@[simp] theorem port_setDev (d : Nat) (x : Device) (i : Nat) : (s.setDev d x).port i = s.port i := rfl
@[simp] theorem sched_setDev (d : Nat) (x : Device) (i : Nat) : (s.setDev d x).sched i = s.sched i := rfl
@[simp] theorem meter_setDev (d : Nat) (x : Device) (i : Nat) : (s.setDev d x).meter i = s.meter i := rfl
@[simp] theorem conn_setDev (d : Nat) (x : Device) (i : Nat) : (s.setDev d x).conn i = s.conn i := rfl
@[simp] theorem part_setDev (d : Nat) (x : Device) (i : Nat) : (s.setDev d x).part i = s.part i := rfl
@[simp] theorem group_setDev (d : Nat) (x : Device) (i : Nat) : (s.setDev d x).group i = s.group i := rfl
@[simp] theorem window_setDev (d : Nat) (x : Device) (i : Nat) : (s.setDev d x).window i = s.window i := rfl
@[simp] theorem coll_setDev (d : Nat) (x : Device) (i : Nat) : (s.setDev d x).coll i = s.coll i := rfl
@[simp] theorem pkeys_setDev (d : Nat) (x : Device) (i : Nat) : (s.setDev d x).pkeys i = s.pkeys i := rfl
@[simp] theorem queue_setDev (d : Nat) (x : Device) (i j : Nat) : (s.setDev d x).queue i j = s.queue i j := rfl
@[simp] theorem link_setDev (d : Nat) (x : Device) (i : Nat) (e : Dir) : (s.setDev d x).link i e = s.link i e := rfl
@[simp] theorem wave_setDev (d : Nat) (x : Device) (i j : Nat) : (s.setDev d x).wave i j = s.wave i j := rfl
@[simp] theorem ptest_setDev (d : Nat) (x : Device) (i j : Nat) : (s.setDev d x).ptest i j = s.ptest i j := rfl
@[simp] theorem kvtDie_setDev (d : Nat) (x : Device) (e : Bool) : (s.setDev d x).kvtDie e = s.kvtDie e := rfl
@[simp] theorem mb_setDev (d : Nat) (x : Device) (e : Chan) (i : Bool) : (s.setDev d x).mb e i = s.mb e i := rfl
@[simp] theorem reg_setDev (d : Nat) (x : Device) (i j l : Nat) : (s.setDev d x).reg i j l = s.reg i j l := rfl
@[simp] theorem fld_setDev (d : Nat) (x : Device) (i j l z y : Nat) : (s.setDev d x).fld i j l z y = s.fld i j l z y := rfl
@[simp] theorem cnt_setDev (d : Nat) (x : Device) (i j l : Nat) : (s.setDev d x).cnt i j l = s.cnt i j l := rfl

@[simp] theorem tile_setWindow (wi : Nat) (x : Window) (i : Nat) : (s.setWindow wi x).tile i = s.tile i := rfl
@[simp] theorem port_setWindow (wi : Nat) (x : Window) (i : Nat) : (s.setWindow wi x).port i = s.port i := rfl
@[simp] theorem sched_setWindow (wi : Nat) (x : Window) (i : Nat) : (s.setWindow wi x).sched i = s.sched i := rfl
@[simp] theorem meter_setWindow (wi : Nat) (x : Window) (i : Nat) : (s.setWindow wi x).meter i = s.meter i := rfl
@[simp] theorem conn_setWindow (wi : Nat) (x : Window) (i : Nat) : (s.setWindow wi x).conn i = s.conn i := rfl
@[simp] theorem part_setWindow (wi : Nat) (x : Window) (i : Nat) : (s.setWindow wi x).part i = s.part i := rfl
@[simp] theorem group_setWindow (wi : Nat) (x : Window) (i : Nat) : (s.setWindow wi x).group i = s.group i := rfl
@[simp] theorem dev_setWindow (wi : Nat) (x : Window) (i : Nat) : (s.setWindow wi x).dev i = s.dev i := rfl
@[simp] theorem coll_setWindow (wi : Nat) (x : Window) (i : Nat) : (s.setWindow wi x).coll i = s.coll i := rfl
@[simp] theorem pkeys_setWindow (wi : Nat) (x : Window) (i : Nat) : (s.setWindow wi x).pkeys i = s.pkeys i := rfl
@[simp] theorem queue_setWindow (wi : Nat) (x : Window) (i j : Nat) : (s.setWindow wi x).queue i j = s.queue i j := rfl
@[simp] theorem link_setWindow (wi : Nat) (x : Window) (i : Nat) (e : Dir) : (s.setWindow wi x).link i e = s.link i e := rfl
@[simp] theorem wave_setWindow (wi : Nat) (x : Window) (i j : Nat) : (s.setWindow wi x).wave i j = s.wave i j := rfl
@[simp] theorem ptest_setWindow (wi : Nat) (x : Window) (i j : Nat) : (s.setWindow wi x).ptest i j = s.ptest i j := rfl
@[simp] theorem kvtDie_setWindow (wi : Nat) (x : Window) (e : Bool) : (s.setWindow wi x).kvtDie e = s.kvtDie e := rfl
@[simp] theorem mb_setWindow (wi : Nat) (x : Window) (e : Chan) (i : Bool) : (s.setWindow wi x).mb e i = s.mb e i := rfl
@[simp] theorem reg_setWindow (wi : Nat) (x : Window) (i j l : Nat) : (s.setWindow wi x).reg i j l = s.reg i j l := rfl
@[simp] theorem fld_setWindow (wi : Nat) (x : Window) (i j l z y : Nat) : (s.setWindow wi x).fld i j l z y = s.fld i j l z y := rfl
@[simp] theorem cnt_setWindow (wi : Nat) (x : Window) (i j l : Nat) : (s.setWindow wi x).cnt i j l = s.cnt i j l := rfl

@[simp] theorem tile_setColl (h : Nat) (x : CollGroup) (i : Nat) : (s.setColl h x).tile i = s.tile i := rfl
@[simp] theorem port_setColl (h : Nat) (x : CollGroup) (i : Nat) : (s.setColl h x).port i = s.port i := rfl
@[simp] theorem sched_setColl (h : Nat) (x : CollGroup) (i : Nat) : (s.setColl h x).sched i = s.sched i := rfl
@[simp] theorem meter_setColl (h : Nat) (x : CollGroup) (i : Nat) : (s.setColl h x).meter i = s.meter i := rfl
@[simp] theorem conn_setColl (h : Nat) (x : CollGroup) (i : Nat) : (s.setColl h x).conn i = s.conn i := rfl
@[simp] theorem part_setColl (h : Nat) (x : CollGroup) (i : Nat) : (s.setColl h x).part i = s.part i := rfl
@[simp] theorem group_setColl (h : Nat) (x : CollGroup) (i : Nat) : (s.setColl h x).group i = s.group i := rfl
@[simp] theorem dev_setColl (h : Nat) (x : CollGroup) (i : Nat) : (s.setColl h x).dev i = s.dev i := rfl
@[simp] theorem window_setColl (h : Nat) (x : CollGroup) (i : Nat) : (s.setColl h x).window i = s.window i := rfl
@[simp] theorem pkeys_setColl (h : Nat) (x : CollGroup) (i : Nat) : (s.setColl h x).pkeys i = s.pkeys i := rfl
@[simp] theorem queue_setColl (h : Nat) (x : CollGroup) (i j : Nat) : (s.setColl h x).queue i j = s.queue i j := rfl
@[simp] theorem link_setColl (h : Nat) (x : CollGroup) (i : Nat) (e : Dir) : (s.setColl h x).link i e = s.link i e := rfl
@[simp] theorem wave_setColl (h : Nat) (x : CollGroup) (i j : Nat) : (s.setColl h x).wave i j = s.wave i j := rfl
@[simp] theorem ptest_setColl (h : Nat) (x : CollGroup) (i j : Nat) : (s.setColl h x).ptest i j = s.ptest i j := rfl
@[simp] theorem kvtDie_setColl (h : Nat) (x : CollGroup) (e : Bool) : (s.setColl h x).kvtDie e = s.kvtDie e := rfl
@[simp] theorem mb_setColl (h : Nat) (x : CollGroup) (e : Chan) (i : Bool) : (s.setColl h x).mb e i = s.mb e i := rfl
@[simp] theorem reg_setColl (h : Nat) (x : CollGroup) (i j l : Nat) : (s.setColl h x).reg i j l = s.reg i j l := rfl
@[simp] theorem fld_setColl (h : Nat) (x : CollGroup) (i j l z y : Nat) : (s.setColl h x).fld i j l z y = s.fld i j l z y := rfl
@[simp] theorem cnt_setColl (h : Nat) (x : CollGroup) (i j l : Nat) : (s.setColl h x).cnt i j l = s.cnt i j l := rfl

@[simp] theorem tile_setPkeys (p : Nat) (x : PKeys) (i : Nat) : (s.setPkeys p x).tile i = s.tile i := rfl
@[simp] theorem port_setPkeys (p : Nat) (x : PKeys) (i : Nat) : (s.setPkeys p x).port i = s.port i := rfl
@[simp] theorem sched_setPkeys (p : Nat) (x : PKeys) (i : Nat) : (s.setPkeys p x).sched i = s.sched i := rfl
@[simp] theorem meter_setPkeys (p : Nat) (x : PKeys) (i : Nat) : (s.setPkeys p x).meter i = s.meter i := rfl
@[simp] theorem conn_setPkeys (p : Nat) (x : PKeys) (i : Nat) : (s.setPkeys p x).conn i = s.conn i := rfl
@[simp] theorem part_setPkeys (p : Nat) (x : PKeys) (i : Nat) : (s.setPkeys p x).part i = s.part i := rfl
@[simp] theorem group_setPkeys (p : Nat) (x : PKeys) (i : Nat) : (s.setPkeys p x).group i = s.group i := rfl
@[simp] theorem dev_setPkeys (p : Nat) (x : PKeys) (i : Nat) : (s.setPkeys p x).dev i = s.dev i := rfl
@[simp] theorem window_setPkeys (p : Nat) (x : PKeys) (i : Nat) : (s.setPkeys p x).window i = s.window i := rfl
@[simp] theorem coll_setPkeys (p : Nat) (x : PKeys) (i : Nat) : (s.setPkeys p x).coll i = s.coll i := rfl
@[simp] theorem queue_setPkeys (p : Nat) (x : PKeys) (i j : Nat) : (s.setPkeys p x).queue i j = s.queue i j := rfl
@[simp] theorem link_setPkeys (p : Nat) (x : PKeys) (i : Nat) (e : Dir) : (s.setPkeys p x).link i e = s.link i e := rfl
@[simp] theorem wave_setPkeys (p : Nat) (x : PKeys) (i j : Nat) : (s.setPkeys p x).wave i j = s.wave i j := rfl
@[simp] theorem ptest_setPkeys (p : Nat) (x : PKeys) (i j : Nat) : (s.setPkeys p x).ptest i j = s.ptest i j := rfl
@[simp] theorem kvtDie_setPkeys (p : Nat) (x : PKeys) (e : Bool) : (s.setPkeys p x).kvtDie e = s.kvtDie e := rfl
@[simp] theorem mb_setPkeys (p : Nat) (x : PKeys) (e : Chan) (i : Bool) : (s.setPkeys p x).mb e i = s.mb e i := rfl
@[simp] theorem reg_setPkeys (p : Nat) (x : PKeys) (i j l : Nat) : (s.setPkeys p x).reg i j l = s.reg i j l := rfl
@[simp] theorem fld_setPkeys (p : Nat) (x : PKeys) (i j l z y : Nat) : (s.setPkeys p x).fld i j l z y = s.fld i j l z y := rfl
@[simp] theorem cnt_setPkeys (p : Nat) (x : PKeys) (i j l : Nat) : (s.setPkeys p x).cnt i j l = s.cnt i j l := rfl

@[simp] theorem tile_setQueue (p q : Nat) (x : Queue) (i : Nat) : (s.setQueue p q x).tile i = s.tile i := rfl
@[simp] theorem port_setQueue (p q : Nat) (x : Queue) (i : Nat) : (s.setQueue p q x).port i = s.port i := rfl
@[simp] theorem sched_setQueue (p q : Nat) (x : Queue) (i : Nat) : (s.setQueue p q x).sched i = s.sched i := rfl
@[simp] theorem meter_setQueue (p q : Nat) (x : Queue) (i : Nat) : (s.setQueue p q x).meter i = s.meter i := rfl
@[simp] theorem conn_setQueue (p q : Nat) (x : Queue) (i : Nat) : (s.setQueue p q x).conn i = s.conn i := rfl
@[simp] theorem part_setQueue (p q : Nat) (x : Queue) (i : Nat) : (s.setQueue p q x).part i = s.part i := rfl
@[simp] theorem group_setQueue (p q : Nat) (x : Queue) (i : Nat) : (s.setQueue p q x).group i = s.group i := rfl
@[simp] theorem dev_setQueue (p q : Nat) (x : Queue) (i : Nat) : (s.setQueue p q x).dev i = s.dev i := rfl
@[simp] theorem window_setQueue (p q : Nat) (x : Queue) (i : Nat) : (s.setQueue p q x).window i = s.window i := rfl
@[simp] theorem coll_setQueue (p q : Nat) (x : Queue) (i : Nat) : (s.setQueue p q x).coll i = s.coll i := rfl
@[simp] theorem pkeys_setQueue (p q : Nat) (x : Queue) (i : Nat) : (s.setQueue p q x).pkeys i = s.pkeys i := rfl
@[simp] theorem link_setQueue (p q : Nat) (x : Queue) (i : Nat) (e : Dir) : (s.setQueue p q x).link i e = s.link i e := rfl
@[simp] theorem wave_setQueue (p q : Nat) (x : Queue) (i j : Nat) : (s.setQueue p q x).wave i j = s.wave i j := rfl
@[simp] theorem ptest_setQueue (p q : Nat) (x : Queue) (i j : Nat) : (s.setQueue p q x).ptest i j = s.ptest i j := rfl
@[simp] theorem kvtDie_setQueue (p q : Nat) (x : Queue) (e : Bool) : (s.setQueue p q x).kvtDie e = s.kvtDie e := rfl
@[simp] theorem mb_setQueue (p q : Nat) (x : Queue) (e : Chan) (i : Bool) : (s.setQueue p q x).mb e i = s.mb e i := rfl
@[simp] theorem reg_setQueue (p q : Nat) (x : Queue) (i j l : Nat) : (s.setQueue p q x).reg i j l = s.reg i j l := rfl
@[simp] theorem fld_setQueue (p q : Nat) (x : Queue) (i j l z y : Nat) : (s.setQueue p q x).fld i j l z y = s.fld i j l z y := rfl
@[simp] theorem cnt_setQueue (p q : Nat) (x : Queue) (i j l : Nat) : (s.setQueue p q x).cnt i j l = s.cnt i j l := rfl

@[simp] theorem tile_setLink (t : Nat) (d : Dir) (x : Link) (i : Nat) : (s.setLink t d x).tile i = s.tile i := rfl
@[simp] theorem port_setLink (t : Nat) (d : Dir) (x : Link) (i : Nat) : (s.setLink t d x).port i = s.port i := rfl
@[simp] theorem sched_setLink (t : Nat) (d : Dir) (x : Link) (i : Nat) : (s.setLink t d x).sched i = s.sched i := rfl
@[simp] theorem meter_setLink (t : Nat) (d : Dir) (x : Link) (i : Nat) : (s.setLink t d x).meter i = s.meter i := rfl
@[simp] theorem conn_setLink (t : Nat) (d : Dir) (x : Link) (i : Nat) : (s.setLink t d x).conn i = s.conn i := rfl
@[simp] theorem part_setLink (t : Nat) (d : Dir) (x : Link) (i : Nat) : (s.setLink t d x).part i = s.part i := rfl
@[simp] theorem group_setLink (t : Nat) (d : Dir) (x : Link) (i : Nat) : (s.setLink t d x).group i = s.group i := rfl
@[simp] theorem dev_setLink (t : Nat) (d : Dir) (x : Link) (i : Nat) : (s.setLink t d x).dev i = s.dev i := rfl
@[simp] theorem window_setLink (t : Nat) (d : Dir) (x : Link) (i : Nat) : (s.setLink t d x).window i = s.window i := rfl
@[simp] theorem coll_setLink (t : Nat) (d : Dir) (x : Link) (i : Nat) : (s.setLink t d x).coll i = s.coll i := rfl
@[simp] theorem pkeys_setLink (t : Nat) (d : Dir) (x : Link) (i : Nat) : (s.setLink t d x).pkeys i = s.pkeys i := rfl
@[simp] theorem queue_setLink (t : Nat) (d : Dir) (x : Link) (i j : Nat) : (s.setLink t d x).queue i j = s.queue i j := rfl
@[simp] theorem wave_setLink (t : Nat) (d : Dir) (x : Link) (i j : Nat) : (s.setLink t d x).wave i j = s.wave i j := rfl
@[simp] theorem ptest_setLink (t : Nat) (d : Dir) (x : Link) (i j : Nat) : (s.setLink t d x).ptest i j = s.ptest i j := rfl
@[simp] theorem kvtDie_setLink (t : Nat) (d : Dir) (x : Link) (e : Bool) : (s.setLink t d x).kvtDie e = s.kvtDie e := rfl
@[simp] theorem mb_setLink (t : Nat) (d : Dir) (x : Link) (e : Chan) (i : Bool) : (s.setLink t d x).mb e i = s.mb e i := rfl
@[simp] theorem reg_setLink (t : Nat) (d : Dir) (x : Link) (i j l : Nat) : (s.setLink t d x).reg i j l = s.reg i j l := rfl
@[simp] theorem fld_setLink (t : Nat) (d : Dir) (x : Link) (i j l z y : Nat) : (s.setLink t d x).fld i j l z y = s.fld i j l z y := rfl
@[simp] theorem cnt_setLink (t : Nat) (d : Dir) (x : Link) (i j l : Nat) : (s.setLink t d x).cnt i j l = s.cnt i j l := rfl

@[simp] theorem tile_setWave (p w x : Nat) (i : Nat) : (s.setWave p w x).tile i = s.tile i := rfl
@[simp] theorem port_setWave (p w x : Nat) (i : Nat) : (s.setWave p w x).port i = s.port i := rfl
@[simp] theorem sched_setWave (p w x : Nat) (i : Nat) : (s.setWave p w x).sched i = s.sched i := rfl
@[simp] theorem meter_setWave (p w x : Nat) (i : Nat) : (s.setWave p w x).meter i = s.meter i := rfl
@[simp] theorem conn_setWave (p w x : Nat) (i : Nat) : (s.setWave p w x).conn i = s.conn i := rfl
@[simp] theorem part_setWave (p w x : Nat) (i : Nat) : (s.setWave p w x).part i = s.part i := rfl
@[simp] theorem group_setWave (p w x : Nat) (i : Nat) : (s.setWave p w x).group i = s.group i := rfl
@[simp] theorem dev_setWave (p w x : Nat) (i : Nat) : (s.setWave p w x).dev i = s.dev i := rfl
@[simp] theorem window_setWave (p w x : Nat) (i : Nat) : (s.setWave p w x).window i = s.window i := rfl
@[simp] theorem coll_setWave (p w x : Nat) (i : Nat) : (s.setWave p w x).coll i = s.coll i := rfl
@[simp] theorem pkeys_setWave (p w x : Nat) (i : Nat) : (s.setWave p w x).pkeys i = s.pkeys i := rfl
@[simp] theorem queue_setWave (p w x : Nat) (i j : Nat) : (s.setWave p w x).queue i j = s.queue i j := rfl
@[simp] theorem link_setWave (p w x : Nat) (i : Nat) (e : Dir) : (s.setWave p w x).link i e = s.link i e := rfl
@[simp] theorem ptest_setWave (p w x : Nat) (i j : Nat) : (s.setWave p w x).ptest i j = s.ptest i j := rfl
@[simp] theorem kvtDie_setWave (p w x : Nat) (e : Bool) : (s.setWave p w x).kvtDie e = s.kvtDie e := rfl
@[simp] theorem mb_setWave (p w x : Nat) (e : Chan) (i : Bool) : (s.setWave p w x).mb e i = s.mb e i := rfl
@[simp] theorem reg_setWave (p w x : Nat) (i j l : Nat) : (s.setWave p w x).reg i j l = s.reg i j l := rfl
@[simp] theorem fld_setWave (p w x : Nat) (i j l z y : Nat) : (s.setWave p w x).fld i j l z y = s.fld i j l z y := rfl
@[simp] theorem cnt_setWave (p w x : Nat) (i j l : Nat) : (s.setWave p w x).cnt i j l = s.cnt i j l := rfl

@[simp] theorem tile_setPtest (n col : Nat) (x : TestTile) (i : Nat) : (s.setPtest n col x).tile i = s.tile i := rfl
@[simp] theorem port_setPtest (n col : Nat) (x : TestTile) (i : Nat) : (s.setPtest n col x).port i = s.port i := rfl
@[simp] theorem sched_setPtest (n col : Nat) (x : TestTile) (i : Nat) : (s.setPtest n col x).sched i = s.sched i := rfl
@[simp] theorem meter_setPtest (n col : Nat) (x : TestTile) (i : Nat) : (s.setPtest n col x).meter i = s.meter i := rfl
@[simp] theorem conn_setPtest (n col : Nat) (x : TestTile) (i : Nat) : (s.setPtest n col x).conn i = s.conn i := rfl
@[simp] theorem part_setPtest (n col : Nat) (x : TestTile) (i : Nat) : (s.setPtest n col x).part i = s.part i := rfl
@[simp] theorem group_setPtest (n col : Nat) (x : TestTile) (i : Nat) : (s.setPtest n col x).group i = s.group i := rfl
@[simp] theorem dev_setPtest (n col : Nat) (x : TestTile) (i : Nat) : (s.setPtest n col x).dev i = s.dev i := rfl
@[simp] theorem window_setPtest (n col : Nat) (x : TestTile) (i : Nat) : (s.setPtest n col x).window i = s.window i := rfl
@[simp] theorem coll_setPtest (n col : Nat) (x : TestTile) (i : Nat) : (s.setPtest n col x).coll i = s.coll i := rfl
@[simp] theorem pkeys_setPtest (n col : Nat) (x : TestTile) (i : Nat) : (s.setPtest n col x).pkeys i = s.pkeys i := rfl
@[simp] theorem queue_setPtest (n col : Nat) (x : TestTile) (i j : Nat) : (s.setPtest n col x).queue i j = s.queue i j := rfl
@[simp] theorem link_setPtest (n col : Nat) (x : TestTile) (i : Nat) (e : Dir) : (s.setPtest n col x).link i e = s.link i e := rfl
@[simp] theorem wave_setPtest (n col : Nat) (x : TestTile) (i j : Nat) : (s.setPtest n col x).wave i j = s.wave i j := rfl
@[simp] theorem kvtDie_setPtest (n col : Nat) (x : TestTile) (e : Bool) : (s.setPtest n col x).kvtDie e = s.kvtDie e := rfl
@[simp] theorem mb_setPtest (n col : Nat) (x : TestTile) (e : Chan) (i : Bool) : (s.setPtest n col x).mb e i = s.mb e i := rfl
@[simp] theorem reg_setPtest (n col : Nat) (x : TestTile) (i j l : Nat) : (s.setPtest n col x).reg i j l = s.reg i j l := rfl
@[simp] theorem fld_setPtest (n col : Nat) (x : TestTile) (i j l z y : Nat) : (s.setPtest n col x).fld i j l z y = s.fld i j l z y := rfl
@[simp] theorem cnt_setPtest (n col : Nat) (x : TestTile) (i j l : Nat) : (s.setPtest n col x).cnt i j l = s.cnt i j l := rfl

@[simp] theorem tile_setKvtDie (fd1 : Bool) (x : KvtDie) (i : Nat) : (s.setKvtDie fd1 x).tile i = s.tile i := rfl
@[simp] theorem port_setKvtDie (fd1 : Bool) (x : KvtDie) (i : Nat) : (s.setKvtDie fd1 x).port i = s.port i := rfl
@[simp] theorem sched_setKvtDie (fd1 : Bool) (x : KvtDie) (i : Nat) : (s.setKvtDie fd1 x).sched i = s.sched i := rfl
@[simp] theorem meter_setKvtDie (fd1 : Bool) (x : KvtDie) (i : Nat) : (s.setKvtDie fd1 x).meter i = s.meter i := rfl
@[simp] theorem conn_setKvtDie (fd1 : Bool) (x : KvtDie) (i : Nat) : (s.setKvtDie fd1 x).conn i = s.conn i := rfl
@[simp] theorem part_setKvtDie (fd1 : Bool) (x : KvtDie) (i : Nat) : (s.setKvtDie fd1 x).part i = s.part i := rfl
@[simp] theorem group_setKvtDie (fd1 : Bool) (x : KvtDie) (i : Nat) : (s.setKvtDie fd1 x).group i = s.group i := rfl
@[simp] theorem dev_setKvtDie (fd1 : Bool) (x : KvtDie) (i : Nat) : (s.setKvtDie fd1 x).dev i = s.dev i := rfl
@[simp] theorem window_setKvtDie (fd1 : Bool) (x : KvtDie) (i : Nat) : (s.setKvtDie fd1 x).window i = s.window i := rfl
@[simp] theorem coll_setKvtDie (fd1 : Bool) (x : KvtDie) (i : Nat) : (s.setKvtDie fd1 x).coll i = s.coll i := rfl
@[simp] theorem pkeys_setKvtDie (fd1 : Bool) (x : KvtDie) (i : Nat) : (s.setKvtDie fd1 x).pkeys i = s.pkeys i := rfl
@[simp] theorem queue_setKvtDie (fd1 : Bool) (x : KvtDie) (i j : Nat) : (s.setKvtDie fd1 x).queue i j = s.queue i j := rfl
@[simp] theorem link_setKvtDie (fd1 : Bool) (x : KvtDie) (i : Nat) (e : Dir) : (s.setKvtDie fd1 x).link i e = s.link i e := rfl
@[simp] theorem wave_setKvtDie (fd1 : Bool) (x : KvtDie) (i j : Nat) : (s.setKvtDie fd1 x).wave i j = s.wave i j := rfl
@[simp] theorem ptest_setKvtDie (fd1 : Bool) (x : KvtDie) (i j : Nat) : (s.setKvtDie fd1 x).ptest i j = s.ptest i j := rfl
@[simp] theorem mb_setKvtDie (fd1 : Bool) (x : KvtDie) (e : Chan) (i : Bool) : (s.setKvtDie fd1 x).mb e i = s.mb e i := rfl
@[simp] theorem reg_setKvtDie (fd1 : Bool) (x : KvtDie) (i j l : Nat) : (s.setKvtDie fd1 x).reg i j l = s.reg i j l := rfl
@[simp] theorem fld_setKvtDie (fd1 : Bool) (x : KvtDie) (i j l z y : Nat) : (s.setKvtDie fd1 x).fld i j l z y = s.fld i j l z y := rfl
@[simp] theorem cnt_setKvtDie (fd1 : Bool) (x : KvtDie) (i j l : Nat) : (s.setKvtDie fd1 x).cnt i j l = s.cnt i j l := rfl

@[simp] theorem tile_freshen (i : Nat) : (s.freshen).tile i = s.tile i := rfl
@[simp] theorem port_freshen (i : Nat) : (s.freshen).port i = s.port i := rfl
@[simp] theorem sched_freshen (i : Nat) : (s.freshen).sched i = s.sched i := rfl
@[simp] theorem meter_freshen (i : Nat) : (s.freshen).meter i = s.meter i := rfl
@[simp] theorem conn_freshen (i : Nat) : (s.freshen).conn i = s.conn i := rfl
@[simp] theorem part_freshen (i : Nat) : (s.freshen).part i = s.part i := rfl
@[simp] theorem group_freshen (i : Nat) : (s.freshen).group i = s.group i := rfl
@[simp] theorem dev_freshen (i : Nat) : (s.freshen).dev i = s.dev i := rfl
@[simp] theorem window_freshen (i : Nat) : (s.freshen).window i = s.window i := rfl
@[simp] theorem coll_freshen (i : Nat) : (s.freshen).coll i = s.coll i := rfl
@[simp] theorem pkeys_freshen (i : Nat) : (s.freshen).pkeys i = s.pkeys i := rfl
@[simp] theorem queue_freshen (i j : Nat) : (s.freshen).queue i j = s.queue i j := rfl
@[simp] theorem link_freshen (i : Nat) (e : Dir) : (s.freshen).link i e = s.link i e := rfl
@[simp] theorem wave_freshen (i j : Nat) : (s.freshen).wave i j = s.wave i j := rfl
@[simp] theorem ptest_freshen (i j : Nat) : (s.freshen).ptest i j = s.ptest i j := rfl
@[simp] theorem kvtDie_freshen (e : Bool) : (s.freshen).kvtDie e = s.kvtDie e := rfl
@[simp] theorem mb_freshen (e : Chan) (i : Bool) : (s.freshen).mb e i = s.mb e i := rfl
@[simp] theorem reg_freshen (i j l : Nat) : (s.freshen).reg i j l = s.reg i j l := rfl
@[simp] theorem fld_freshen (i j l z y : Nat) : (s.freshen).fld i j l z y = s.fld i j l z y := rfl
@[simp] theorem cnt_freshen (i j l : Nat) : (s.freshen).cnt i j l = s.cnt i j l := rfl

@[simp] theorem tile_setMb (ch : Chan) (b : Bool) (x : Mbox) (i : Nat) : (s.setMb ch b x).tile i = s.tile i := rfl
@[simp] theorem port_setMb (ch : Chan) (b : Bool) (x : Mbox) (i : Nat) : (s.setMb ch b x).port i = s.port i := rfl
@[simp] theorem sched_setMb (ch : Chan) (b : Bool) (x : Mbox) (i : Nat) : (s.setMb ch b x).sched i = s.sched i := rfl
@[simp] theorem meter_setMb (ch : Chan) (b : Bool) (x : Mbox) (i : Nat) : (s.setMb ch b x).meter i = s.meter i := rfl
@[simp] theorem conn_setMb (ch : Chan) (b : Bool) (x : Mbox) (i : Nat) : (s.setMb ch b x).conn i = s.conn i := rfl
@[simp] theorem part_setMb (ch : Chan) (b : Bool) (x : Mbox) (i : Nat) : (s.setMb ch b x).part i = s.part i := rfl
@[simp] theorem group_setMb (ch : Chan) (b : Bool) (x : Mbox) (i : Nat) : (s.setMb ch b x).group i = s.group i := rfl
@[simp] theorem dev_setMb (ch : Chan) (b : Bool) (x : Mbox) (i : Nat) : (s.setMb ch b x).dev i = s.dev i := rfl
@[simp] theorem window_setMb (ch : Chan) (b : Bool) (x : Mbox) (i : Nat) : (s.setMb ch b x).window i = s.window i := rfl
@[simp] theorem coll_setMb (ch : Chan) (b : Bool) (x : Mbox) (i : Nat) : (s.setMb ch b x).coll i = s.coll i := rfl
@[simp] theorem pkeys_setMb (ch : Chan) (b : Bool) (x : Mbox) (i : Nat) : (s.setMb ch b x).pkeys i = s.pkeys i := rfl
@[simp] theorem queue_setMb (ch : Chan) (b : Bool) (x : Mbox) (i j : Nat) : (s.setMb ch b x).queue i j = s.queue i j := rfl
@[simp] theorem link_setMb (ch : Chan) (b : Bool) (x : Mbox) (i : Nat) (e : Dir) : (s.setMb ch b x).link i e = s.link i e := rfl
@[simp] theorem wave_setMb (ch : Chan) (b : Bool) (x : Mbox) (i j : Nat) : (s.setMb ch b x).wave i j = s.wave i j := rfl
@[simp] theorem ptest_setMb (ch : Chan) (b : Bool) (x : Mbox) (i j : Nat) : (s.setMb ch b x).ptest i j = s.ptest i j := rfl
@[simp] theorem kvtDie_setMb (ch : Chan) (b : Bool) (x : Mbox) (e : Bool) : (s.setMb ch b x).kvtDie e = s.kvtDie e := rfl
@[simp] theorem reg_setMb (ch : Chan) (b : Bool) (x : Mbox) (i j l : Nat) : (s.setMb ch b x).reg i j l = s.reg i j l := rfl
@[simp] theorem fld_setMb (ch : Chan) (b : Bool) (x : Mbox) (i j l z y : Nat) : (s.setMb ch b x).fld i j l z y = s.fld i j l z y := rfl
@[simp] theorem cnt_setMb (ch : Chan) (b : Bool) (x : Mbox) (i j l : Nat) : (s.setMb ch b x).cnt i j l = s.cnt i j l := rfl

@[simp] theorem tile_emit (o : Out) (i : Nat) : (s.emit o).tile i = s.tile i := rfl
@[simp] theorem port_emit (o : Out) (i : Nat) : (s.emit o).port i = s.port i := rfl
@[simp] theorem sched_emit (o : Out) (i : Nat) : (s.emit o).sched i = s.sched i := rfl
@[simp] theorem meter_emit (o : Out) (i : Nat) : (s.emit o).meter i = s.meter i := rfl
@[simp] theorem conn_emit (o : Out) (i : Nat) : (s.emit o).conn i = s.conn i := rfl
@[simp] theorem part_emit (o : Out) (i : Nat) : (s.emit o).part i = s.part i := rfl
@[simp] theorem group_emit (o : Out) (i : Nat) : (s.emit o).group i = s.group i := rfl
@[simp] theorem dev_emit (o : Out) (i : Nat) : (s.emit o).dev i = s.dev i := rfl
@[simp] theorem window_emit (o : Out) (i : Nat) : (s.emit o).window i = s.window i := rfl
@[simp] theorem coll_emit (o : Out) (i : Nat) : (s.emit o).coll i = s.coll i := rfl
@[simp] theorem pkeys_emit (o : Out) (i : Nat) : (s.emit o).pkeys i = s.pkeys i := rfl
@[simp] theorem queue_emit (o : Out) (i j : Nat) : (s.emit o).queue i j = s.queue i j := rfl
@[simp] theorem link_emit (o : Out) (i : Nat) (e : Dir) : (s.emit o).link i e = s.link i e := rfl
@[simp] theorem wave_emit (o : Out) (i j : Nat) : (s.emit o).wave i j = s.wave i j := rfl
@[simp] theorem ptest_emit (o : Out) (i j : Nat) : (s.emit o).ptest i j = s.ptest i j := rfl
@[simp] theorem kvtDie_emit (o : Out) (e : Bool) : (s.emit o).kvtDie e = s.kvtDie e := rfl
@[simp] theorem mb_emit (o : Out) (e : Chan) (i : Bool) : (s.emit o).mb e i = s.mb e i := rfl
@[simp] theorem reg_emit (o : Out) (i j l : Nat) : (s.emit o).reg i j l = s.reg i j l := rfl
@[simp] theorem fld_emit (o : Out) (i j l z y : Nat) : (s.emit o).fld i j l z y = s.fld i j l z y := rfl
@[simp] theorem cnt_emit (o : Out) (i j l : Nat) : (s.emit o).cnt i j l = s.cnt i j l := rfl

@[simp] theorem tile_setReg (blk inst off : Nat) (v : W32) (i : Nat) : (s.setReg blk inst off v).tile i = s.tile i := rfl
@[simp] theorem port_setReg (blk inst off : Nat) (v : W32) (i : Nat) : (s.setReg blk inst off v).port i = s.port i := rfl
@[simp] theorem sched_setReg (blk inst off : Nat) (v : W32) (i : Nat) : (s.setReg blk inst off v).sched i = s.sched i := rfl
@[simp] theorem meter_setReg (blk inst off : Nat) (v : W32) (i : Nat) : (s.setReg blk inst off v).meter i = s.meter i := rfl
@[simp] theorem conn_setReg (blk inst off : Nat) (v : W32) (i : Nat) : (s.setReg blk inst off v).conn i = s.conn i := rfl
@[simp] theorem part_setReg (blk inst off : Nat) (v : W32) (i : Nat) : (s.setReg blk inst off v).part i = s.part i := rfl
@[simp] theorem group_setReg (blk inst off : Nat) (v : W32) (i : Nat) : (s.setReg blk inst off v).group i = s.group i := rfl
@[simp] theorem dev_setReg (blk inst off : Nat) (v : W32) (i : Nat) : (s.setReg blk inst off v).dev i = s.dev i := rfl
@[simp] theorem window_setReg (blk inst off : Nat) (v : W32) (i : Nat) : (s.setReg blk inst off v).window i = s.window i := rfl
@[simp] theorem coll_setReg (blk inst off : Nat) (v : W32) (i : Nat) : (s.setReg blk inst off v).coll i = s.coll i := rfl
@[simp] theorem pkeys_setReg (blk inst off : Nat) (v : W32) (i : Nat) : (s.setReg blk inst off v).pkeys i = s.pkeys i := rfl
@[simp] theorem queue_setReg (blk inst off : Nat) (v : W32) (i j : Nat) : (s.setReg blk inst off v).queue i j = s.queue i j := rfl
@[simp] theorem link_setReg (blk inst off : Nat) (v : W32) (i : Nat) (e : Dir) : (s.setReg blk inst off v).link i e = s.link i e := rfl
@[simp] theorem wave_setReg (blk inst off : Nat) (v : W32) (i j : Nat) : (s.setReg blk inst off v).wave i j = s.wave i j := rfl
@[simp] theorem ptest_setReg (blk inst off : Nat) (v : W32) (i j : Nat) : (s.setReg blk inst off v).ptest i j = s.ptest i j := rfl
@[simp] theorem kvtDie_setReg (blk inst off : Nat) (v : W32) (e : Bool) : (s.setReg blk inst off v).kvtDie e = s.kvtDie e := rfl
@[simp] theorem mb_setReg (blk inst off : Nat) (v : W32) (e : Chan) (i : Bool) : (s.setReg blk inst off v).mb e i = s.mb e i := rfl
@[simp] theorem cnt_setReg (blk inst off : Nat) (v : W32) (i j l : Nat) : (s.setReg blk inst off v).cnt i j l = s.cnt i j l := rfl

@[simp] theorem tile_count (blk inst off n : Nat) (i : Nat) : (s.count blk inst off n).tile i = s.tile i := rfl
@[simp] theorem port_count (blk inst off n : Nat) (i : Nat) : (s.count blk inst off n).port i = s.port i := rfl
@[simp] theorem sched_count (blk inst off n : Nat) (i : Nat) : (s.count blk inst off n).sched i = s.sched i := rfl
@[simp] theorem meter_count (blk inst off n : Nat) (i : Nat) : (s.count blk inst off n).meter i = s.meter i := rfl
@[simp] theorem conn_count (blk inst off n : Nat) (i : Nat) : (s.count blk inst off n).conn i = s.conn i := rfl
@[simp] theorem part_count (blk inst off n : Nat) (i : Nat) : (s.count blk inst off n).part i = s.part i := rfl
@[simp] theorem group_count (blk inst off n : Nat) (i : Nat) : (s.count blk inst off n).group i = s.group i := rfl
@[simp] theorem dev_count (blk inst off n : Nat) (i : Nat) : (s.count blk inst off n).dev i = s.dev i := rfl
@[simp] theorem window_count (blk inst off n : Nat) (i : Nat) : (s.count blk inst off n).window i = s.window i := rfl
@[simp] theorem coll_count (blk inst off n : Nat) (i : Nat) : (s.count blk inst off n).coll i = s.coll i := rfl
@[simp] theorem pkeys_count (blk inst off n : Nat) (i : Nat) : (s.count blk inst off n).pkeys i = s.pkeys i := rfl
@[simp] theorem queue_count (blk inst off n : Nat) (i j : Nat) : (s.count blk inst off n).queue i j = s.queue i j := rfl
@[simp] theorem link_count (blk inst off n : Nat) (i : Nat) (e : Dir) : (s.count blk inst off n).link i e = s.link i e := rfl
@[simp] theorem wave_count (blk inst off n : Nat) (i j : Nat) : (s.count blk inst off n).wave i j = s.wave i j := rfl
@[simp] theorem ptest_count (blk inst off n : Nat) (i j : Nat) : (s.count blk inst off n).ptest i j = s.ptest i j := rfl
@[simp] theorem kvtDie_count (blk inst off n : Nat) (e : Bool) : (s.count blk inst off n).kvtDie e = s.kvtDie e := rfl
@[simp] theorem mb_count (blk inst off n : Nat) (e : Chan) (i : Bool) : (s.count blk inst off n).mb e i = s.mb e i := rfl
@[simp] theorem reg_count (blk inst off n : Nat) (i j l : Nat) : (s.count blk inst off n).reg i j l = s.reg i j l := rfl
@[simp] theorem fld_count (blk inst off n : Nat) (i j l z y : Nat) : (s.count blk inst off n).fld i j l z y = s.fld i j l z y := rfl

@[simp] theorem port_updTile (t : Nat) (f : Tile → Tile) (i : Nat) : (s.updTile t f).port i = s.port i := rfl
@[simp] theorem sched_updTile (t : Nat) (f : Tile → Tile) (i : Nat) : (s.updTile t f).sched i = s.sched i := rfl
@[simp] theorem meter_updTile (t : Nat) (f : Tile → Tile) (i : Nat) : (s.updTile t f).meter i = s.meter i := rfl
@[simp] theorem conn_updTile (t : Nat) (f : Tile → Tile) (i : Nat) : (s.updTile t f).conn i = s.conn i := rfl
@[simp] theorem part_updTile (t : Nat) (f : Tile → Tile) (i : Nat) : (s.updTile t f).part i = s.part i := rfl
@[simp] theorem group_updTile (t : Nat) (f : Tile → Tile) (i : Nat) : (s.updTile t f).group i = s.group i := rfl
@[simp] theorem dev_updTile (t : Nat) (f : Tile → Tile) (i : Nat) : (s.updTile t f).dev i = s.dev i := rfl
@[simp] theorem window_updTile (t : Nat) (f : Tile → Tile) (i : Nat) : (s.updTile t f).window i = s.window i := rfl
@[simp] theorem coll_updTile (t : Nat) (f : Tile → Tile) (i : Nat) : (s.updTile t f).coll i = s.coll i := rfl
@[simp] theorem pkeys_updTile (t : Nat) (f : Tile → Tile) (i : Nat) : (s.updTile t f).pkeys i = s.pkeys i := rfl
@[simp] theorem queue_updTile (t : Nat) (f : Tile → Tile) (i j : Nat) : (s.updTile t f).queue i j = s.queue i j := rfl
@[simp] theorem link_updTile (t : Nat) (f : Tile → Tile) (i : Nat) (e : Dir) : (s.updTile t f).link i e = s.link i e := rfl
@[simp] theorem wave_updTile (t : Nat) (f : Tile → Tile) (i j : Nat) : (s.updTile t f).wave i j = s.wave i j := rfl
@[simp] theorem ptest_updTile (t : Nat) (f : Tile → Tile) (i j : Nat) : (s.updTile t f).ptest i j = s.ptest i j := rfl
@[simp] theorem kvtDie_updTile (t : Nat) (f : Tile → Tile) (e : Bool) : (s.updTile t f).kvtDie e = s.kvtDie e := rfl
@[simp] theorem mb_updTile (t : Nat) (f : Tile → Tile) (e : Chan) (i : Bool) : (s.updTile t f).mb e i = s.mb e i := rfl
@[simp] theorem reg_updTile (t : Nat) (f : Tile → Tile) (i j l : Nat) : (s.updTile t f).reg i j l = s.reg i j l := rfl
@[simp] theorem fld_updTile (t : Nat) (f : Tile → Tile) (i j l z y : Nat) : (s.updTile t f).fld i j l z y = s.fld i j l z y := rfl
@[simp] theorem cnt_updTile (t : Nat) (f : Tile → Tile) (i j l : Nat) : (s.updTile t f).cnt i j l = s.cnt i j l := rfl

@[simp] theorem tile_updPwr (f : Pwr → Pwr) (i : Nat) : (s.updPwr f).tile i = s.tile i := rfl
@[simp] theorem port_updPwr (f : Pwr → Pwr) (i : Nat) : (s.updPwr f).port i = s.port i := rfl
@[simp] theorem sched_updPwr (f : Pwr → Pwr) (i : Nat) : (s.updPwr f).sched i = s.sched i := rfl
@[simp] theorem meter_updPwr (f : Pwr → Pwr) (i : Nat) : (s.updPwr f).meter i = s.meter i := rfl
@[simp] theorem conn_updPwr (f : Pwr → Pwr) (i : Nat) : (s.updPwr f).conn i = s.conn i := rfl
@[simp] theorem part_updPwr (f : Pwr → Pwr) (i : Nat) : (s.updPwr f).part i = s.part i := rfl
@[simp] theorem group_updPwr (f : Pwr → Pwr) (i : Nat) : (s.updPwr f).group i = s.group i := rfl
@[simp] theorem dev_updPwr (f : Pwr → Pwr) (i : Nat) : (s.updPwr f).dev i = s.dev i := rfl
@[simp] theorem window_updPwr (f : Pwr → Pwr) (i : Nat) : (s.updPwr f).window i = s.window i := rfl
@[simp] theorem coll_updPwr (f : Pwr → Pwr) (i : Nat) : (s.updPwr f).coll i = s.coll i := rfl
@[simp] theorem pkeys_updPwr (f : Pwr → Pwr) (i : Nat) : (s.updPwr f).pkeys i = s.pkeys i := rfl
@[simp] theorem queue_updPwr (f : Pwr → Pwr) (i j : Nat) : (s.updPwr f).queue i j = s.queue i j := rfl
@[simp] theorem link_updPwr (f : Pwr → Pwr) (i : Nat) (e : Dir) : (s.updPwr f).link i e = s.link i e := rfl
@[simp] theorem wave_updPwr (f : Pwr → Pwr) (i j : Nat) : (s.updPwr f).wave i j = s.wave i j := rfl
@[simp] theorem ptest_updPwr (f : Pwr → Pwr) (i j : Nat) : (s.updPwr f).ptest i j = s.ptest i j := rfl
@[simp] theorem kvtDie_updPwr (f : Pwr → Pwr) (e : Bool) : (s.updPwr f).kvtDie e = s.kvtDie e := rfl
@[simp] theorem mb_updPwr (f : Pwr → Pwr) (e : Chan) (i : Bool) : (s.updPwr f).mb e i = s.mb e i := rfl
@[simp] theorem reg_updPwr (f : Pwr → Pwr) (i j l : Nat) : (s.updPwr f).reg i j l = s.reg i j l := rfl
@[simp] theorem fld_updPwr (f : Pwr → Pwr) (i j l z y : Nat) : (s.updPwr f).fld i j l z y = s.fld i j l z y := rfl
@[simp] theorem cnt_updPwr (f : Pwr → Pwr) (i j l : Nat) : (s.updPwr f).cnt i j l = s.cnt i j l := rfl

@[simp] theorem tile_updIdent (f : Ident → Ident) (i : Nat) : (s.updIdent f).tile i = s.tile i := rfl
@[simp] theorem port_updIdent (f : Ident → Ident) (i : Nat) : (s.updIdent f).port i = s.port i := rfl
@[simp] theorem sched_updIdent (f : Ident → Ident) (i : Nat) : (s.updIdent f).sched i = s.sched i := rfl
@[simp] theorem meter_updIdent (f : Ident → Ident) (i : Nat) : (s.updIdent f).meter i = s.meter i := rfl
@[simp] theorem conn_updIdent (f : Ident → Ident) (i : Nat) : (s.updIdent f).conn i = s.conn i := rfl
@[simp] theorem part_updIdent (f : Ident → Ident) (i : Nat) : (s.updIdent f).part i = s.part i := rfl
@[simp] theorem group_updIdent (f : Ident → Ident) (i : Nat) : (s.updIdent f).group i = s.group i := rfl
@[simp] theorem dev_updIdent (f : Ident → Ident) (i : Nat) : (s.updIdent f).dev i = s.dev i := rfl
@[simp] theorem window_updIdent (f : Ident → Ident) (i : Nat) : (s.updIdent f).window i = s.window i := rfl
@[simp] theorem coll_updIdent (f : Ident → Ident) (i : Nat) : (s.updIdent f).coll i = s.coll i := rfl
@[simp] theorem pkeys_updIdent (f : Ident → Ident) (i : Nat) : (s.updIdent f).pkeys i = s.pkeys i := rfl
@[simp] theorem queue_updIdent (f : Ident → Ident) (i j : Nat) : (s.updIdent f).queue i j = s.queue i j := rfl
@[simp] theorem link_updIdent (f : Ident → Ident) (i : Nat) (e : Dir) : (s.updIdent f).link i e = s.link i e := rfl
@[simp] theorem wave_updIdent (f : Ident → Ident) (i j : Nat) : (s.updIdent f).wave i j = s.wave i j := rfl
@[simp] theorem ptest_updIdent (f : Ident → Ident) (i j : Nat) : (s.updIdent f).ptest i j = s.ptest i j := rfl
@[simp] theorem kvtDie_updIdent (f : Ident → Ident) (e : Bool) : (s.updIdent f).kvtDie e = s.kvtDie e := rfl
@[simp] theorem mb_updIdent (f : Ident → Ident) (e : Chan) (i : Bool) : (s.updIdent f).mb e i = s.mb e i := rfl
@[simp] theorem reg_updIdent (f : Ident → Ident) (i j l : Nat) : (s.updIdent f).reg i j l = s.reg i j l := rfl
@[simp] theorem fld_updIdent (f : Ident → Ident) (i j l z y : Nat) : (s.updIdent f).fld i j l z y = s.fld i j l z y := rfl
@[simp] theorem cnt_updIdent (f : Ident → Ident) (i j l : Nat) : (s.updIdent f).cnt i j l = s.cnt i j l := rfl

@[simp] theorem tile_poke (a : Nat) (bs : List Byte) (i : Nat) : (s.poke a bs).tile i = s.tile i := rfl
@[simp] theorem port_poke (a : Nat) (bs : List Byte) (i : Nat) : (s.poke a bs).port i = s.port i := rfl
@[simp] theorem sched_poke (a : Nat) (bs : List Byte) (i : Nat) : (s.poke a bs).sched i = s.sched i := rfl
@[simp] theorem meter_poke (a : Nat) (bs : List Byte) (i : Nat) : (s.poke a bs).meter i = s.meter i := rfl
@[simp] theorem conn_poke (a : Nat) (bs : List Byte) (i : Nat) : (s.poke a bs).conn i = s.conn i := rfl
@[simp] theorem part_poke (a : Nat) (bs : List Byte) (i : Nat) : (s.poke a bs).part i = s.part i := rfl
@[simp] theorem group_poke (a : Nat) (bs : List Byte) (i : Nat) : (s.poke a bs).group i = s.group i := rfl
@[simp] theorem dev_poke (a : Nat) (bs : List Byte) (i : Nat) : (s.poke a bs).dev i = s.dev i := rfl
@[simp] theorem window_poke (a : Nat) (bs : List Byte) (i : Nat) : (s.poke a bs).window i = s.window i := rfl
@[simp] theorem coll_poke (a : Nat) (bs : List Byte) (i : Nat) : (s.poke a bs).coll i = s.coll i := rfl
@[simp] theorem pkeys_poke (a : Nat) (bs : List Byte) (i : Nat) : (s.poke a bs).pkeys i = s.pkeys i := rfl
@[simp] theorem queue_poke (a : Nat) (bs : List Byte) (i j : Nat) : (s.poke a bs).queue i j = s.queue i j := rfl
@[simp] theorem link_poke (a : Nat) (bs : List Byte) (i : Nat) (e : Dir) : (s.poke a bs).link i e = s.link i e := rfl
@[simp] theorem wave_poke (a : Nat) (bs : List Byte) (i j : Nat) : (s.poke a bs).wave i j = s.wave i j := rfl
@[simp] theorem ptest_poke (a : Nat) (bs : List Byte) (i j : Nat) : (s.poke a bs).ptest i j = s.ptest i j := rfl
@[simp] theorem kvtDie_poke (a : Nat) (bs : List Byte) (e : Bool) : (s.poke a bs).kvtDie e = s.kvtDie e := rfl
@[simp] theorem mb_poke (a : Nat) (bs : List Byte) (e : Chan) (i : Bool) : (s.poke a bs).mb e i = s.mb e i := rfl
@[simp] theorem reg_poke (a : Nat) (bs : List Byte) (i j l : Nat) : (s.poke a bs).reg i j l = s.reg i j l := rfl
@[simp] theorem fld_poke (a : Nat) (bs : List Byte) (i j l z y : Nat) : (s.poke a bs).fld i j l z y = s.fld i j l z y := rfl
@[simp] theorem cnt_poke (a : Nat) (bs : List Byte) (i j l : Nat) : (s.poke a bs).cnt i j l = s.cnt i j l := rfl

@[simp] theorem tile_wipe (lo hi : Nat) (i : Nat) : (s.wipe lo hi).tile i = s.tile i := rfl
@[simp] theorem port_wipe (lo hi : Nat) (i : Nat) : (s.wipe lo hi).port i = s.port i := rfl
@[simp] theorem sched_wipe (lo hi : Nat) (i : Nat) : (s.wipe lo hi).sched i = s.sched i := rfl
@[simp] theorem meter_wipe (lo hi : Nat) (i : Nat) : (s.wipe lo hi).meter i = s.meter i := rfl
@[simp] theorem conn_wipe (lo hi : Nat) (i : Nat) : (s.wipe lo hi).conn i = s.conn i := rfl
@[simp] theorem part_wipe (lo hi : Nat) (i : Nat) : (s.wipe lo hi).part i = s.part i := rfl
@[simp] theorem group_wipe (lo hi : Nat) (i : Nat) : (s.wipe lo hi).group i = s.group i := rfl
@[simp] theorem dev_wipe (lo hi : Nat) (i : Nat) : (s.wipe lo hi).dev i = s.dev i := rfl
@[simp] theorem window_wipe (lo hi : Nat) (i : Nat) : (s.wipe lo hi).window i = s.window i := rfl
@[simp] theorem coll_wipe (lo hi : Nat) (i : Nat) : (s.wipe lo hi).coll i = s.coll i := rfl
@[simp] theorem pkeys_wipe (lo hi : Nat) (i : Nat) : (s.wipe lo hi).pkeys i = s.pkeys i := rfl
@[simp] theorem queue_wipe (lo hi : Nat) (i j : Nat) : (s.wipe lo hi).queue i j = s.queue i j := rfl
@[simp] theorem link_wipe (lo hi : Nat) (i : Nat) (e : Dir) : (s.wipe lo hi).link i e = s.link i e := rfl
@[simp] theorem wave_wipe (lo hi : Nat) (i j : Nat) : (s.wipe lo hi).wave i j = s.wave i j := rfl
@[simp] theorem ptest_wipe (lo hi : Nat) (i j : Nat) : (s.wipe lo hi).ptest i j = s.ptest i j := rfl
@[simp] theorem kvtDie_wipe (lo hi : Nat) (e : Bool) : (s.wipe lo hi).kvtDie e = s.kvtDie e := rfl
@[simp] theorem mb_wipe (lo hi : Nat) (e : Chan) (i : Bool) : (s.wipe lo hi).mb e i = s.mb e i := rfl
@[simp] theorem reg_wipe (lo hi : Nat) (i j l : Nat) : (s.wipe lo hi).reg i j l = s.reg i j l := rfl
@[simp] theorem fld_wipe (lo hi : Nat) (i j l z y : Nat) : (s.wipe lo hi).fld i j l z y = s.fld i j l z y := rfl
@[simp] theorem cnt_wipe (lo hi : Nat) (i j l : Nat) : (s.wipe lo hi).cnt i j l = s.cnt i j l := rfl

@[simp] theorem tile_setTile (k : Nat) (x : Tile) (u : Nat) : (s.setTile k x).tile u = if u = k then x else s.tile u := by
  simp [State.tile, State.setTile]
@[simp] theorem port_setPort (k : Nat) (x : Port) (u : Nat) : (s.setPort k x).port u = if u = k then x else s.port u := by
  simp [State.port, State.setPort]
@[simp] theorem sched_setSched (k : Nat) (x : Sched) (u : Nat) : (s.setSched k x).sched u = if u = k then x else s.sched u := by
  simp [State.sched, State.setSched]
@[simp] theorem meter_setMeter (k : Nat) (x : Meter) (u : Nat) : (s.setMeter k x).meter u = if u = k then x else s.meter u := by
  simp [State.meter, State.setMeter]
@[simp] theorem conn_setConn (k : Nat) (x : Conn) (u : Nat) : (s.setConn k x).conn u = if u = k then x else s.conn u := by
  simp [State.conn, State.setConn]
@[simp] theorem part_setPart (k : Nat) (x : Part) (u : Nat) : (s.setPart k x).part u = if u = k then x else s.part u := by
  simp [State.part, State.setPart]
@[simp] theorem group_setGroup (k : Nat) (x : Group) (u : Nat) : (s.setGroup k x).group u = if u = k then x else s.group u := by
  simp [State.group, State.setGroup]
@[simp] theorem dev_setDev (k : Nat) (x : Device) (u : Nat) : (s.setDev k x).dev u = if u = k then x else s.dev u := by
  simp [State.dev, State.setDev]
@[simp] theorem window_setWindow (k : Nat) (x : Window) (u : Nat) : (s.setWindow k x).window u = if u = k then x else s.window u := by
  simp [State.window, State.setWindow]
@[simp] theorem coll_setColl (k : Nat) (x : CollGroup) (u : Nat) : (s.setColl k x).coll u = if u = k then x else s.coll u := by
  simp [State.coll, State.setColl]
@[simp] theorem pkeys_setPkeys (k : Nat) (x : PKeys) (u : Nat) : (s.setPkeys k x).pkeys u = if u = k then x else s.pkeys u := by
  simp [State.pkeys, State.setPkeys]

@[simp] theorem tile_updTile (k : Nat) (f : Tile → Tile) (u : Nat) :
    (s.updTile k f).tile u = if u = k then f (s.tile k) else s.tile u := by
  simp [State.updTile]
/-- Queues are kept by partition and number below 4,096. -/
theorem queue_setQueue (p q : Nat) (x : Queue) (u v : Nat) (hq : q < 4096) (hv : v < 4096) :
    (s.setQueue p q x).queue u v = if u = p ∧ v = q then x else s.queue u v := by
  have h : (u * 4096 + v = p * 4096 + q) ↔ (u = p ∧ v = q) := by omega
  simp [State.queue, State.setQueue, h]
@[simp] theorem queue_setQueue_same (p q : Nat) (x : Queue) : (s.setQueue p q x).queue p q = x := by
  simp [State.queue, State.setQueue]
theorem dirCode_lt (d : Dir) : dirCode d < 4 := by cases d <;> decide
theorem dirCode_inj {d e : Dir} (h : dirCode d = dirCode e) : d = e := by
  cases d <;> cases e <;> first | rfl | exact absurd h (by decide)
@[simp] theorem link_setLink (t : Nat) (d : Dir) (x : Link) (u : Nat) (e : Dir) :
    (s.setLink t d x).link u e = if u = t ∧ e = d then x else s.link u e := by
  have h : (u * 4 + dirCode e = t * 4 + dirCode d) ↔ (u = t ∧ e = d) := by
    have h1 := dirCode_lt e
    have h2 := dirCode_lt d
    constructor
    · intro h
      exact ⟨by omega, dirCode_inj (by omega)⟩
    · rintro ⟨rfl, rfl⟩; rfl
  simp [State.link, State.setLink, h]
@[simp] theorem kvtDie_setKvtDie (b : Bool) (x : KvtDie) (e : Bool) :
    (s.setKvtDie b x).kvtDie e = if e = b then x else s.kvtDie e := by
  cases b <;> cases e <;> rfl
theorem chanInst_inj {a b : Chan} (ha : ∀ p, a = .part p → p < 1024) (hb : ∀ p, b = .part p → p < 1024)
    (h : chanInst a = chanInst b) : a = b := by
  cases a <;> cases b <;> simp_all [chanInst] <;> omega
@[simp] theorem mb_setMb_same (ch : Chan) (b : Bool) (x : Mbox) : (s.setMb ch b x).mb ch b = x := by
  simp [State.mb, State.setMb]
@[simp] theorem mb_setMb_other (ch : Chan) (b : Bool) (x : Mbox) : (s.setMb ch b x).mb ch (!b) = s.mb ch (!b) := by
  cases b <;> simp [State.mb, State.setMb]

/-- Keys of registers and counters tell block, instance and offset apart. -/
theorem rk_inj {b i o b' i' o' : Nat} (hi : i < 4096) (ho : o < 4096) (hi' : i' < 4096) (ho' : o' < 4096) :
    rk b i o = rk b' i' o' ↔ b = b' ∧ i = i' ∧ o = o' := by
  simp only [rk]; omega
/-- A register reads what was written to it. -/
@[simp] theorem reg_setReg_same (blk inst off : Nat) (v : W32) : (s.setReg blk inst off v).reg blk inst off = v := by
  simp [State.reg, State.setReg]
/-- A register of another key is unchanged. -/
theorem reg_setReg_other {blk inst off b i o : Nat} (v : W32)
    (h : rk b (home b i o) o ≠ rk blk (home blk inst off) off) :
    (s.setReg blk inst off v).reg b i o = s.reg b i o := by
  simp only [State.reg, State.setReg, mset]
  split
  · rw [mget_merase, if_neg h]
  · rw [mget_minsert, if_neg h]
/-- A counter gains n and stops at 2^64 - 1 (R502). -/
@[simp] theorem cnt_count_same (blk inst off n : Nat) :
    (s.count blk inst off n).cnt blk inst off = BitVec.ofNat 64 (min ((s.cnt blk inst off).toNat + n) (2 ^ 64 - 1)) := by
  simp [State.cnt, State.count]
theorem cnt_count_other {blk inst off b i o : Nat} (n : Nat) (h : rk b i o ≠ rk blk inst off) :
    (s.count blk inst off n).cnt b i o = s.cnt b i o := by
  simp [State.cnt, State.count, h]

end Sys2Proof.Machine.State
end

