-- ==== Sys2Proof/Laws/Issue.lean ====
section
/-! SUPPORT. The issue of a lone slot: what execution of a slot command comes to on a tile that has nothing
else under way (State.quiet). -/

namespace Sys2Proof.Machine

theorem mset_mset {α : Type} [DecidableEq α] (d : α) (m : SMap α) (k : Nat) (v w : α) (h : v ≠ d) :
    mset d (mset d m k v) k w = mset d m k w := by
  have hm : ∀ m : SMap α, minsert (minsert m k v) k w = minsert m k w := by
    intro m
    induction m with
    | nil => simp [minsert]
    | cons c m ih =>
      obtain ⟨a, x⟩ := c
      simp only [minsert]
      split
      · simp [minsert]
      · split
        · rename_i h2; subst h2; simp [minsert]
        · simp_all [minsert]
  have he : ∀ m : SMap α, merase (minsert m k v) k = merase m k := by
    intro m
    induction m with
    | nil => simp [minsert, merase]
    | cons c m ih =>
      obtain ⟨a, x⟩ := c
      simp only [minsert]
      split
      · simp [merase]
      · split
        · rename_i h2; subst h2; simp [merase]
        · simp_all [merase]
  unfold mset
  simp only [h, if_false]
  split <;> simp [*]

theorem setTile_setTile (s : State) (t : Nat) (x y : Tile) (h : x.run ≠ .unavailable) :
    (s.setTile t x).setTile t y = s.setTile t y := by
  have hx : x ≠ {} := fun e => h (by rw [e])
  unfold State.setTile
  dsimp only
  rw [mset_mset _ _ _ _ _ hx]

/-- The facts of a quiet tile, one by one. -/
theorem quiet_iff (s : State) (t : Nat) : s.quiet t = true ↔
    tileOk t = true ∧ (s.tile t).run = .running ∧ (s.tile t).waitFor = none ∧ s.tileEdges t = true ∧
    (s.tile t).slots = [] ∧ (s.tile t).flight = [] ∧ (s.tile t).loops = [] ∧ (s.tile t).far = [] ∧
    (s.tile t).injq = [] ∧ (s.tile t).landing = [] ∧ (s.tile t).xmovs = [] ∧ (s.tile t).copies < 16 ∧
    (s.tile t).rp0 = [] ∧ (s.tile t).rp1 = [] ∧ (s.tile t).wp = [] ∧ (s.tile t).own0 ≤ (s.tile t).aclk ∧
    (s.tile t).ownW ≤ (s.tile t).aclk ∧ (s.tile t).eng = (s.tile t).aclk / 2 ∧ (s.tile t).m0 = 0 ∧ (s.tile t).m1 = 0 ∧
    (s.tile t).mbusy ≤ (s.tile t).aclk ∧ (s.tile t).mEnd ≤ (s.tile t).aclk ∧ (s.tile t).pc < 16383 ∧
    s.testing t = false ∧ hits s.ue (imAt t ((s.tile t).pc * 16)) 16 = [] ∧
    hits s.ce (imAt t ((s.tile t).pc * 16)) 16 = [] := by
  simp only [State.quiet, Bool.and_eq_true, beq_iff_eq, decide_eq_true_eq, Bool.not_eq_true',
    List.isEmpty_iff, Option.isNone_iff_eq_none, and_assoc]

/-- With nothing in flight what lands changes nothing but the record as it is. -/
theorem landIf_none (s : State) (t : Nat) (p : Flight → Bool) (h : (s.tile t).flight = []) :
    s.landIf t p = s.setTile t (s.tile t) := by
  have e : ({ s.tile t with flight := [] } : Tile) = s.tile t := by rw [← h]
  simp only [State.landIf, h, List.filter_nil, e, State.landAllOf]
theorem landUpTo_none (s : State) (t a : Nat) (h : (s.tile t).flight = []) :
    s.landUpTo t a = s.setTile t (s.tile t) := landIf_none s t _ h

/-- A bundle of one slot with nothing else under way comes to be enacted as it stands. -/
theorem issue_one (s : State) (t : Nat) (hself : s.setTile t (s.tile t) = s)
    (hte : s.testing t = false) (hfl : (s.tile t).flight = [])
    (hfa : (s.tile t).far = []) (hm0 : (s.tile t).m0 = 0) (hm1 : (s.tile t).m1 = 0)
    (hmb : (s.tile t).mbusy ≤ (s.tile t).aclk) (hme : (s.tile t).mEnd ≤ (s.tile t).aclk)
    (hue : hits s.ue (imAt t ((s.tile t).pc * 16)) 16 = []) (hce : hits s.ce (imAt t ((s.tile t).pc * 16)) 16 = []) :
    s.issueBundle t = s.enact t := by
  have hA : s.abandonTest t = s := by simp [State.abandonTest, hte]
  have hL : s.landUpTo t (s.tile t).aclk = s := by rw [landUpTo_none _ _ _ hfl, hself]
  have hfb : ∀ ss, farBlocked (s.tile t) ss = false := by intro ss; simp [farBlocked, hfa]
  have hst : ∀ ss, (if (s.tile t).mode = true then steadyUntil (s.tile t) ss else (s.tile t).aclk) = (s.tile t).aclk := by
    intro ss
    split
    · simp only [steadyUntil, hfl, List.foldl_nil]
      split
      · exact Nat.max_eq_left hmb
      · rfl
    · rfl
  have hf : s.fetchWait t (0 + 2 * 0 + 16) = s := by simp [State.fetchWait, hm0, hm1, Nat.not_lt.mpr hme]
  unfold State.issueBundle
  simp only [hA, hL, hue, hce, List.isEmpty_nil, Bool.not_true, Bool.false_eq_true, if_false, if_true]
  unfold State.tryIssue
  simp only [hfb, hst, Bool.false_eq_true, if_false, Nat.lt_irrefl, hm0, hm1, hf, Nat.not_lt.mpr hmb, decide_false,
    Bool.and_false]
  split <;> rfl

/-- What a bundle of one slot does when it is enacted: a trap, or the slot's effect and what follows a bundle. -/
theorem enact_one (s : State) (t : Nat) (i : Instr) (hsl : (s.tile t).slots = [i]) (hin : (s.tile t).injq = [])
    (hco : (s.tile t).copies < 16) :
    s.enact t =
      let x := s.tile t
      let m := slotSem i s t
      let causes := m.causes ++ when_ (compositionBad [m]) 0x02
      if !causes.isEmpty then s.trapTile t (lowest causes) x.pc
      else
        let v := x.serve x.aclk m.uses 0 0
        (m.act (s.setTile t { v.1 with slots := [] })).afterBundle t v.2.1 v.2.2 m.ctl := by
  have h8 : ¬ (8 ≤ 0) := by omega
  unfold State.enact
  simp only [State.bundleSem, hsl, List.map_cons, List.map_nil, List.flatMap_cons, List.flatMap_nil, List.append_nil,
    hin, List.length_nil, h8, decide_false, Bool.and_false, Bool.false_eq_true, if_false, Nat.not_le.mpr hco,
    List.foldl_cons, List.foldl_nil, List.head?_cons, Option.map_some, Option.getD_some]

/-- The issue of a lone slot on a quiet tile: a trap, or the slot's effect and then what follows a bundle. -/
theorem slot_quiet (s : State) (t : Nat) (i : Instr) (hq : s.quiet t = true) :
    s.slot ⟨t, false⟩ i =
      let x := s.tile t
      let s1 := s.setTile t { x with slots := [i] }
      let m := slotSem i s1 t
      let causes := m.causes ++ when_ (compositionBad [m]) 0x02
      if !causes.isEmpty then s1.trapTile t (lowest causes) x.pc
      else
        let v := ({ x with slots := [i] } : Tile).serve x.aclk m.uses 0 0
        (m.act (s1.setTile t { v.1 with slots := [] })).afterBundle t v.2.1 v.2.2 m.ctl := by
  obtain ⟨h1, h2, h3, h4, h5, h6, h7, h8, h9, h10, h11, h12, h13, h14, h15, h16, h17, h18, h19, h20, h21, h22, h23, h24, h25, h26⟩ :=
    (quiet_iff s t).mp hq
  have hrun : (s.tile t).run ≠ .unavailable := by rw [h2]; decide
  have hc : s.canIssue t = true := by simp [State.canIssue, h1, h2, h3, h4]
  unfold State.slot
  simp only [hc, h5, List.all_nil, Bool.and_self, if_true, State.updTile, List.nil_append, Bool.false_eq_true, if_false]
  have e1 := issue_one (s.setTile t { s.tile t with slots := [i] }) t
    (by rw [State.tile_setTile, if_pos rfl]; exact setTile_setTile _ _ _ _ hrun) h24
  simp only [State.tile_setTile, if_true] at e1
  rw [e1 h6 h8 h19 h20 h21 h22 h25 h26]
  have e2 := enact_one (s.setTile t { s.tile t with slots := [i] }) t i
  simp only [State.tile_setTile, if_true] at e2
  exact e2 trivial h9 h12

/-- A tile with nothing under way at its ports: their clock goes on and nothing else. -/
theorem engTo_idle (s : State) (t n : Nat) (h : (s.tile t).engIdle = true) :
    s.engTo t n = if n = 0 then s else s.setTile t { s.tile t with eng := (s.tile t).eng + n } := by
  cases n with
  | zero => rfl
  | succ n => simp [State.engTo, h, State.updTile]

/-- The advance of a tile with nothing under way at its ports and nothing in flight for the matrix unit: CYCLE and
TILE_CNT_ACLK count, the ports' clock keeps up, and what is due lands. -/
theorem advance_plain (s : State) (t n : Nat) (hi : (s.tile t).engIdle = true) (hr : (s.tile t).run ≠ .unavailable)
    (he : (s.tile t).eng ≤ ((s.tile t).aclk + n) / 2) (hd : ∀ x : Tile, x.flight = (s.tile t).flight → ∀ a, delayMma x a = x) :
    s.advance t n =
      let x := s.tile t
      let a := x.aclk + n
      let keep (l : List (Nat × Nat)) := l.filter (fun u => a / 2 ≤ u.1)
      ((s.setTile t { x with
        aclk := a, eng := a / 2, cycle := x.cycle + BitVec.ofNat 64 n, rp0 := keep x.rp0, rp1 := keep x.rp1
        wp := keep x.wp }).count bTILE t 0xC00 n).landUpTo t a := by
  unfold State.advance
  simp only [engTo_idle s t _ hi]
  by_cases h0 : ((s.tile t).aclk + n) / 2 - (s.tile t).eng = 0
  · have e : (s.tile t).eng = ((s.tile t).aclk + n) / 2 := by omega
    rw [if_pos h0]
    simp only [hd (s.tile t) rfl]
    rw [← e]
  · have e : (s.tile t).eng + (((s.tile t).aclk + n) / 2 - (s.tile t).eng) = ((s.tile t).aclk + n) / 2 := by omega
    rw [if_neg h0, e]
    simp only [State.tile_setTile, if_true]
    rw [hd { s.tile t with eng := ((s.tile t).aclk + n) / 2 } rfl,
      setTile_setTile s t { s.tile t with eng := ((s.tile t).aclk + n) / 2 } _ hr]

/-- What follows a bundle that goes on in sequence without a stall, no loop being active: the tile is one ACLK
further at the next bundle, and what is due then lands. -/
theorem after_seq (s : State) (t : Nat) (hl : (s.tile t).loops = []) (hi : (s.tile t).engIdle = true)
    (he : (s.tile t).eng = (s.tile t).aclk / 2) (hpc : (s.tile t).pc < 16383) (hr : (s.tile t).run ≠ .unavailable)
    (hd : ∀ x : Tile, x.flight = (s.tile t).flight → ∀ a, delayMma x a = x) :
    s.afterBundle t 0 0 .seq =
      let x := s.tile t
      let a := x.aclk + 1
      let keep (l : List (Nat × Nat)) := l.filter (fun u => a / 2 ≤ u.1)
      let s1 := ((s.setTile t { x with
        pc := x.pc + 1, aclk := a, eng := a / 2, cycle := x.cycle + 1, rp0 := keep x.rp0, rp1 := keep x.rp1
        wp := keep x.wp }).count bTILE t 0xC00 1).landUpTo t a
      s1.settleTime t := by
  have hp : ¬ 16383 < (s.tile t).pc + 1 := by omega
  unfold State.afterBundle
  simp only [ctlNext, hl, seqNext, Nat.add_zero, reduceCtorEq, if_false, if_true, hp, decide_false,
    Bool.false_and, Bool.false_eq_true]
  generalize hy : s.tile t = x at *
  have e : ({ x with loops := [], pc := x.pc + 1 } : Tile) = { x with pc := x.pc + 1 } := by rw [← hl]
  rw [e]
  rw [advance_plain _ _ _ (by rw [State.tile_setTile, if_pos rfl]; exact hi)
    (by rw [State.tile_setTile, if_pos rfl]; exact hr)
    (by rw [State.tile_setTile, if_pos rfl]; show x.eng ≤ (x.aclk + 1) / 2; omega)
    (by rw [State.tile_setTile, if_pos rfl]; exact fun y hy a => hd y hy a)]
  have e2 := setTile_setTile s t { x with pc := x.pc + 1 }
  simp only [State.tile_setTile, if_true]
  rw [e2 _ hr]
  simp only [hl]
  rfl

end Sys2Proof.Machine
end

