-- ==== Sys2Proof/Laws/Memory.lean ====
section
/-! SUPPORT. Laws of memory's operations: each keeps the canonical form, names the bytes it changes, and changes
nothing of the state beyond memory, its stored errors and its unsettled bytes. -/

namespace Sys2Proof.Machine

theorem wf_iff (m : SMap Byte) : Memory.wf m = true ↔ mwf 0 m := decide_eq_true_iff

namespace State

variable (s : State)

/-- A write changes memory, the errors its granules held, unsettled bytes and former bundles, and nothing else. -/
theorem poke_frame (a : Nat) (bs : List Byte) : ∃ m u c l f o,
    s.poke a bs = { s with mem := m, ue := u, ce := c, lost := l, soft := f, imOld := o } := ⟨_, _, _, _, _, _, rfl⟩
/-- Clearing a range changes memory and the errors it held, and nothing else. -/
theorem wipe_frame (lo hi : Nat) : ∃ m u c l, s.wipe lo hi = { s with mem := m, ue := u, ce := c, lost := l } :=
  ⟨_, _, _, _, rfl⟩
theorem pokeOpt_frame (a : Nat) (bs : List (Option Byte)) : ∃ m u c l f o,
    s.pokeOpt a bs = { s with mem := m, ue := u, ce := c, lost := l, soft := f, imOld := o } := by
  induction bs generalizing s a with
  | nil => exact ⟨_, _, _, _, _, _, rfl⟩
  | cons b bs ih =>
    cases b with
    | none => exact ih s (a + 1)
    | some b =>
      obtain ⟨m, u, c, l, f, o, h⟩ := ih (s.poke a [b]) (a + 1)
      exact ⟨m, u, c, l, f, o, by rw [pokeOpt, h]; rfl⟩
theorem pokeMask_frame (a : Nat) (bs : List (Option Byte)) : ∃ m u c l f o,
    s.pokeMask a bs = { s with mem := m, ue := u, ce := c, lost := l, soft := f, imOld := o } := by
  unfold pokeMask
  split
  · exact s.poke_frame a _
  · exact s.pokeOpt_frame a bs

theorem wf_poke (a : Nat) (bs : List Byte) (h : mwf 0 s.mem) : mwf 0 (s.poke a bs).mem := mwf_writeBytes a bs h
theorem wf_wipe (lo hi : Nat) (h : mwf 0 s.mem) : mwf 0 (s.wipe lo hi).mem := mwf_mclear lo hi h
theorem wf_pokeOpt (a : Nat) (bs : List (Option Byte)) (h : mwf 0 s.mem) : mwf 0 (s.pokeOpt a bs).mem := by
  induction bs generalizing s a with
  | nil => exact h
  | cons b bs ih =>
    cases b with
    | none => exact ih s (a + 1) h
    | some b => exact ih _ (a + 1) (s.wf_poke a [b] h)
theorem wf_pokeMask (a : Nat) (bs : List (Option Byte)) (h : mwf 0 s.mem) : mwf 0 (s.pokeMask a bs).mem := by
  unfold pokeMask
  split
  · exact s.wf_poke a _ h
  · exact s.wf_pokeOpt a bs h

/-- A masked run writes the present bytes and leaves every other address. -/
theorem mget_pokeOpt (a : Nat) (bs : List (Option Byte)) (j : Nat) :
    mget 0 (s.pokeOpt a bs).mem j =
      if a ≤ j ∧ j < a + bs.length then ((bs.getD (j - a) none).getD (mget 0 s.mem j)) else mget 0 s.mem j := by
  induction bs generalizing s a with
  | nil => simp [pokeOpt]
  | cons b bs ih =>
    have key : ∀ t : State, (∀ k, a + 1 ≤ k → mget 0 t.mem k = mget 0 s.mem k) →
        (∀ k, k < a → mget 0 t.mem k = mget 0 s.mem k) → mget 0 t.mem a = b.getD (mget 0 s.mem a) →
        mget 0 (t.pokeOpt (a + 1) bs).mem j = if a ≤ j ∧ j < a + (b :: bs).length then
          (((b :: bs).getD (j - a) none).getD (mget 0 s.mem j)) else mget 0 s.mem j := by
      intro t h1 h2 h3
      rw [ih t (a + 1), List.length_cons]
      rcases Nat.lt_trichotomy j a with h | h | h
      · rw [if_neg (by omega), if_neg (by omega), h2 j h]
      · subst h
        rw [if_neg (by omega), if_pos (by omega), h3]
        simp
      · have e : j - a = (j - (a + 1)) + 1 := by omega
        rw [h1 j h, e, List.getD_cons_succ]
        by_cases h5 : j < a + 1 + bs.length
        · rw [if_pos (by omega), if_pos (by omega)]
        · rw [if_neg (by omega), if_neg (by omega)]
    cases b with
    | none => exact key s (fun _ _ => rfl) (fun _ _ => rfl) rfl
    | some b =>
      refine key (s.poke a [b]) (fun k hk => ?_) (fun k hk => ?_) ?_
      · rw [poke_mem, mget_writeBytes, if_neg (by simp; omega)]
      · rw [poke_mem, mget_writeBytes, if_neg (by omega)]
      · rw [poke_mem, mget_writeBytes, if_pos (by simp)]; simp

end State

end Sys2Proof.Machine
end

