-- ==== Sys2Proof/Laws/Report.lean ====
section
/-! SUPPORT. What a report to the manager can change: registers, counters, mailbox directions and what the module
has sent, and nothing else. Cited in place of unfolding. -/

namespace Sys2Proof.Machine.State

variable (s : State)

/-- A message of firmware's on a channel that is no partition's. -/
theorem sendFw_frame (ch : Chan) (w : List W64) (h : ∀ p, ch ≠ .part p) :
    ∃ m o, s.sendFw ch w = { s with mbox := m, out := o } := by
  unfold sendFw
  split
  · exact ⟨_, _, rfl⟩
  · exact ⟨_, _, rfl⟩
  · exact absurd rfl (h _)
  · exact ⟨_, _, rfl⟩
theorem fwPost_frame (ch : Chan) (w : List W64) (h : ∀ p, ch ≠ .part p) :
    ∃ c m o, s.fwPost ch w = { s with cnts := c, mbox := m, out := o } := by
  unfold fwPost
  dsimp only
  split
  · obtain ⟨m, o, e⟩ := s.sendFw_frame ch w h
    exact ⟨_, m, o, e⟩
  · split
    · exact ⟨_, _, _, rfl⟩
    · exact ⟨_, _, _, rfl⟩
theorem fwNext_frame (ch : Chan) (h : ∀ p, ch ≠ .part p) : ∃ m o, s.fwNext ch = { s with mbox := m, out := o } := by
  unfold fwNext
  dsimp only
  split
  · exact ⟨_, _, rfl⟩
  · split
    · exact ⟨_, _, rfl⟩
    · obtain ⟨m, o, e⟩ := (s.setMb ch false _).sendFw_frame ch _ h
      exact ⟨m, o, by rw [e]; rfl⟩
theorem postEvent_frame (blk inst bit : Nat) :
    ∃ c m o, s.postEvent .manager blk inst bit = { s with cnts := c, mbox := m, out := o } := by
  unfold postEvent
  dsimp only
  obtain ⟨c, m, o, e⟩ := (s.setMb .manager false _).fwPost_frame .manager _ (by simp)
  exact ⟨c, m, o, by rw [e]; rfl⟩
/-- A route that does not name the owning partition (R469). -/
theorem route_frame (blk inst bit : Nat) (h : s.fld blk inst oEVENT_ROUTE 0 2 < 2) :
    ∃ c m o, s.route blk inst bit = { s with cnts := c, mbox := m, out := o } := by
  unfold route
  dsimp only
  rw [if_neg (by simp; omega)]
  split
  · exact s.postEvent_frame blk inst bit
  · exact ⟨_, _, _, rfl⟩

/-- A capture writes the page's three ERR_INFO registers and nothing else (R470). -/
theorem capture_frame (blk inst bit : Nat) (i0 i1 : W32) : ∃ r, s.capture blk inst bit i0 i1 = { s with regs := r } := by
  unfold capture
  dsimp only
  split
  · exact ⟨_, rfl⟩
  · exact ⟨_, rfl⟩
/-- Writing a register leaves every register of another offset. -/
theorem reg_setReg_offset (blk inst off : Nat) (v : W32) (b i o : Nat) (ho : o < 4096) (hf : off < 4096) (h : o ≠ off) :
    (s.setReg blk inst off v).reg b i o = s.reg b i o :=
  s.reg_setReg_other v (by simp only [rk]; omega)
/-- A capture leaves every register but ERR_INFO0 to ERR_INFO2. -/
theorem capture_reg (blk inst bit : Nat) (i0 i1 : W32) (b i o : Nat) (ho : o < 4096) (h0 : o ≠ oINFO0) (h1 : o ≠ oINFO1)
    (h2 : o ≠ oINFO2) : (s.capture blk inst bit i0 i1).reg b i o = s.reg b i o := by
  unfold capture
  dsimp only
  split
  · exact reg_setReg_offset _ _ _ _ _ _ _ _ ho (by decide) h2
  · rw [reg_setReg_offset _ _ _ _ _ _ _ _ ho (by decide) h2, reg_setReg_offset _ _ _ _ _ _ _ _ ho (by decide) h1,
      reg_setReg_offset _ _ _ _ _ _ _ _ ho (by decide) h0]

/-- An event on a page whose route does not name a partition changes registers, counters and the manager's channel,
and nothing else (R469-R473). -/
theorem raise_frame (blk inst bit : Nat) (i0 i1 : W32) (h : s.fld blk inst oEVENT_ROUTE 0 2 < 2) :
    ∃ r c m o, s.raise blk inst bit i0 i1 = { s with regs := r, cnts := c, mbox := m, out := o } := by
  obtain ⟨r1, h1⟩ := s.capture_frame blk inst bit i0 i1
  unfold raise
  dsimp only
  have key : ∀ t : State, t.fld blk inst oEVENT_ROUTE 0 2 < 2 → (∃ r c, t = { s with regs := r, cnts := c }) →
      ∀ q : Bool, ∃ r c m o, (if q = true then t.route blk inst bit else t) = { s with regs := r, cnts := c, mbox := m, out := o } := by
    rintro t ht ⟨r, c, rfl⟩ q
    cases q
    · exact ⟨r, c, _, _, rfl⟩
    · obtain ⟨c', m, o, e⟩ := route_frame _ blk inst bit ht
      exact ⟨r, c', m, o, by simp [e]⟩
  apply key
  · have hr : ∀ t : State, (t.setReg blk inst oEVENTS
        (s.reg blk inst oEVENTS ||| BitVec.ofNat 32 (2 ^ bit))).reg blk inst oEVENT_ROUTE = t.reg blk inst oEVENT_ROUTE :=
      fun t => reg_setReg_offset _ _ _ _ _ _ _ _ (by decide) (by decide) (by decide)
    have hc := s.capture_reg blk inst bit i0 i1 blk inst oEVENT_ROUTE (by decide) (by decide) (by decide) (by decide)
    have hn : ∀ (t : State) a b c n, (t.count a b c n).reg blk inst oEVENT_ROUTE = t.reg blk inst oEVENT_ROUTE := fun _ _ _ _ _ => rfl
    split
    · simpa only [fld, hr, hc] using h
    · simpa only [fld, hn, hr, hc] using h
  · rw [h1]
    split
    · exact ⟨_, _, rfl⟩
    · exact ⟨_, _, rfl⟩
/-- Firmware's answer on a channel that is no partition's changes counters, mailbox directions and what has been sent
(R409, R418). -/
theorem answer_frame (c : Cmd) (op rc : Nat) (data : List W64) (h : ∀ p, c.chan ≠ .part p) :
    ∃ n m o, s.answer c op rc data = { s with cnts := n, mbox := m, out := o } := by
  have post : ∀ t : State, (∃ n m o, t = { s with cnts := n, mbox := m, out := o }) → ∀ w,
      ∃ n m o, t.fwPost c.chan w = { s with cnts := n, mbox := m, out := o } := by
    rintro t ⟨n, m, o, rfl⟩ w
    obtain ⟨n', m', o', e⟩ := fwPost_frame _ c.chan w h
    exact ⟨n', m', o', e⟩
  have start : ∃ n, (if (s.mb c.chan true).full = true then s.count bCTRL (dieInst s.ident.active) 0xC08 1 else s) =
      { s with cnts := n } := by
    split
    · exact ⟨_, rfl⟩
    · exact ⟨_, rfl⟩
  obtain ⟨n, hn⟩ := start
  unfold answer
  dsimp only
  rw [hn]
  split
  · split
    · split
      · exact ⟨_, _, _, rfl⟩
      · exact ⟨_, _, _, rfl⟩
    · apply post
      split
      · exact ⟨_, _, _, rfl⟩
      · exact ⟨_, _, _, rfl⟩
  · apply post
    split
    · exact absurd (by assumption) (h _)
    · exact ⟨_, _, _, rfl⟩
/-- The final reply, on such a channel (R418). -/
theorem finish_frame (c : Cmd) (rc : Nat) (data : List W64) (h : ∀ p, c.chan ≠ .part p) :
    ∃ n m o, s.finish c rc data = { s with cnts := n, mbox := m, out := o } := s.fwPost_frame c.chan _ h

end Sys2Proof.Machine.State
end

