-- ==== Sys2Proof/WellFormed.lean ====
section
/-! DEFINITION. Well-formed commands: every operand names a thing the module has (a tile, a port, a device,
a partition, a queue, a connection, a group). A command that is not well-formed names nothing the spec
describes; the machine leaves the state as it is where one of these indices is out of range, or answers as
the command's own rule says. -/

namespace Sys2Proof

/-- A slot command's tile is one of the grid's 1,440 (R94). -/
def At.ok (a : At) : Bool := a.tile < 1440
/-- A mailbox channel of Table 17-1. -/
def Chan.ok : Chan → Bool
  | .part p => p < 1024
  | .tile t => t < 1440
  | _ => true
def Cmd.ok (c : Cmd) : Bool := c.chan.ok
/-- Connection IDs are 20 bits (R287). -/
def Pick.ok (x : Pick) : Bool := x.cid < 2 ^ 20
/-- A KVT packet comes on a data port, MP0 or MP1, its payload at most 8,192 bytes (R286). -/
def Pkt.ok (k : Pkt) : Bool := k.port < 26 && k.payload.length ≤ 8192
def Stream.ok : Stream → Bool
  | .queue p q _ => p < 1024 && q < 4096
  | .tileReq t _ => t < 1440
  | .conn cid => cid < 2 ^ 20
/-- Cores of a cipher engine: 40 AES-GCM, 4 SHA, 2 elliptic-curve (Table 1-3). -/
def Twice.ok (t : Twice) : Bool := t.c1 < 46 && t.c2 < 46 && t.c1 != t.c2
/-- A resource's indices (Table 16-1). -/
def Resource.ok : Resource → Bool
  | .rect i r0 r1 c0 c1 => i < 4 && r0 ≤ r1 && r1 < 40 && c0 ≤ c1 && c1 < 36
  | .rectRemove i => i < 4
  | .groups first count => first + count ≤ 2048
  | .memset _ => true
  | .memQuota u => u < 2 ^ 19
  | .connQuota n => n ≤ 2 ^ 20
  | .queueMax n => n ≤ 4096
  | .windows base count => base + count ≤ 2 ^ 24
  | .tcMask _ => true
  | .dbKey _ => true
  | .listen i _ => i < 4
  | .ip i _ => i < 4
  | .xlat _ _ _ l _ => l < 32
  | .channel _ => true
/-- A collective definition's counts (R346, R347). -/
def CollDef.ok (d : CollDef) : Bool := d.part < 1024 && d.size ≤ 12288 && d.children.length ≤ 24

/-- Whether a command is well-formed. -/
def Instr.wf : Instr → Bool
  | .hotInsertion => true
  | .hotRemoval => true
  | .powerGood => true
  | .holdupRefilled => true
  | .modPwrenHigh => true
  | .modPwrenLow => true
  | .modResetNLow => true
  | .modResetNHigh => true
  | .trayAlertClear _ => true
  | .alertResponse => true
  | .trayBusWrite _ _ => true
  | .trayTelemetryUpdate _ _ _ _ _ => true
  | .ppsInEdge => true
  | .ppsOut => true
  | .referenceLost die _ => die < 6
  | .serdesRefLost _ => true
  | .inputProtectionOpen => true
  | .inputProtectionClose => true
  | .sagStart _ => true
  | .sagEnd => true
  | .lastGasp _ => true
  | .throttleFrameBoundary => true
  | .droopTrip x => x.die < 4
  | .droopRelease => true
  | .pwrCapWrite _ => true
  | .shareEstimate _ _ => true
  | .slopeStep _ _ => true
  | .thermalSample _ => true
  | .thermalHalt => true
  | .railFault rail => 1 ≤ rail && rail ≤ 8
  | .pmFailover => true
  | .stateReqGate _ => true
  | .stateReqM3 => true
  | .stateReqM4 => true
  | .stateReqRun => true
  | .m3ExitDone => true
  | .ungateDone t => t < 1440
  | .tileClearDone t => t < 1440
  | .tileCtrlArm t => t < 1440
  | .tileCtrlStop t => t < 1440
  | .tileCtrlResume t => t < 1440
  | .tileCtrlAbort t => t < 1440
  | .gridLaunch _ => true
  | .launchStart g => g < 2048
  | .drainDone t => t < 1440
  | .patchEngage die row => die < 4 && row < 20
  | .patchMoveDone die m => die < 4 && m.row < 20
  | .holdRelease t => t < 1440
  | .nop a _ _ => a.ok
  | .add a _ => a.ok
  | .sub a _ => a.ok
  | .and a _ => a.ok
  | .or a _ => a.ok
  | .xor a _ => a.ok
  | .sll a _ => a.ok
  | .srl a _ => a.ok
  | .sra a _ => a.ok
  | .slt a _ => a.ok
  | .sltu a _ => a.ok
  | .min a _ => a.ok
  | .max a _ => a.ok
  | .mul a _ => a.ok
  | .mulhu a _ => a.ok
  | .addi a _ => a.ok
  | .andi a _ => a.ok
  | .ori a _ => a.ok
  | .xori a _ => a.ok
  | .slli a _ => a.ok
  | .srli a _ => a.ok
  | .srai a _ => a.ok
  | .slti a _ => a.ok
  | .lui a _ => a.ok
  | .plog a _ => a.ok
  | .pset a _ => a.ok
  | .pget a _ => a.ok
  | .ld a _ => a.ok
  | .lw a _ => a.ok
  | .st a _ => a.ok
  | .sw a _ => a.ok
  | .beq a _ => a.ok
  | .bne a _ => a.ok
  | .blt a _ => a.ok
  | .bge a _ => a.ok
  | .bltu a _ => a.ok
  | .bgeu a _ => a.ok
  | .jal a _ => a.ok
  | .jr a _ => a.ok
  | .loop a _ => a.ok
  | .csrr a _ => a.ok
  | .csrw a _ => a.ok
  | .csrc a _ => a.ok
  | .step a _ => a.ok
  | .endProg a _ => a.ok
  | .endDone t => t < 1440
  | .trap a _ => a.ok
  | .waitt a _ => a.ok
  | .waittRelease t => t < 1440
  | .vaddF a _ => a.ok
  | .vsubF a _ => a.ok
  | .vmulF a _ => a.ok
  | .vfmaF a _ => a.ok
  | .vminF a _ => a.ok
  | .vmaxF a _ => a.ok
  | .vfn a _ => a.ok
  | .vcmpF a _ => a.ok
  | .vaddI a _ => a.ok
  | .vsubI a _ => a.ok
  | .vmulI a _ => a.ok
  | .vand a _ => a.ok
  | .vor a _ => a.ok
  | .vxor a _ => a.ok
  | .vshl a _ => a.ok
  | .vshr a _ => a.ok
  | .vsra a _ => a.ok
  | .vcmpI a _ => a.ok
  | .vsel a _ => a.ok
  | .vbcast a _ => a.ok
  | .vext a _ => a.ok
  | .vperm a _ => a.ok
  | .vredF a _ => a.ok
  | .vcvt a _ => a.ok
  | .vqnt a _ => a.ok
  | .vdq a _ => a.ok
  | .vld a _ => a.ok
  | .vst a _ => a.ok
  | .mma a _ => a.ok
  | .mmav a _ => a.ok
  | .madd a _ => a.ok
  | .mclr a _ => a.ok
  | .mrd a _ => a.ok
  | .ald a _ => a.ok
  | .ast a _ => a.ok
  | .mlst a _ => a.ok
  | .mlad a _ => a.ok
  | .ardv a _ => a.ok
  | .awrv a _ => a.ok
  | .xmsg a _ => a.ok
  | .xmsgv a _ => a.ok
  | .xmov a _ => a.ok
  | .xmovDone t => t < 1440
  | .xwait a _ => a.ok
  | .tallyWaitRelease t => t < 1440
  | .xtset a _ => a.ok
  | .xtrd a _ => a.ok
  | .xsync a _ => a.ok
  | .waveComplete p w g => p < 1024 && w < 16 && g < 2048
  | .xfill a _ => a.ok
  | .xspill a _ => a.ok
  | .xmbw a _ => a.ok
  | .xmbr a _ => a.ok
  | .xfld a _ => a.ok
  | .xfldDone t => t < 1440
  | .messageInject t _ idx => t < 1440 && idx < 256
  | .beatForward t _ err => t < 1440 && err < 3
  | .messageLand t => t < 1440
  | .copyComplete eng _ => eng < 32
  | .gridStLoad => true
  | .gridStRead => true
  | .gridLinkOwnerWrite _ => true
  | .gridLoad c p _ _ => c.ok && p < 1024
  | .dramRefresh dev _ => dev < 12
  | .refreshBurst dev => dev < 12
  | .dramArbWindow dev => dev < 12
  | .unmappedAccess _ _ _ _ => true
  | .dramcSlabDataWrite inst _ => inst < 12
  | .slabWrite c slab _ => c.ok && slab < 864
  | .translationWalkDone _ p _ _ strm => p < 1024 && strm.ok
  | .fqReread p => p < 1024
  | .xlatFqKick inst _ => inst < 2
  | .xlatReload inst _ => inst < 2
  | .resumeRetry inst => inst < 2
  | .resumeFail inst => inst < 2
  | .faultResume c _ action => c.ok && (action == 1 || action == 2)
  | .xlatFence q _ => q < 4096
  | .xlatFenceDone p => p < 1024
  | .evacStart dev => dev < 12
  | .evacDone dev _ => dev < 12
  | .lostLogReread dev => dev < 12
  | .devstateRetire dev => dev < 12
  | .devEvac c dev slab dstDev dstLocal => c.ok && dev < 12 && slab < 864 && dstDev < 12 && dstLocal < 72
  | .devRetire c dev => c.ok && dev < 12
  | .memGrant c p units => c.ok && p < 1024 && units < 2 ^ 19
  | .memReturn c p units => c.ok && p < 1024 && units < 2 ^ 19
  | .portEnable n => n < 26
  | .portDisable n => n < 26
  | .portModeWrite n _ => n < 24
  | .linkUp n _ => n < 26
  | .linkDown n _ => n < 26
  | .frameReceive n _ => n < 26
  | .frameTransmit n _ => n < 26
  | .pauseReceive n _ _ _ => n < 26
  | .pauseExpire n cls => n < 26 && cls < 8
  | .pauseRefresh n => n < 24
  | .pfcStorm n cls => n < 24 && cls < 8
  | .tsPopRx n => n < 26
  | .tsPopTx n => n < 26
  | .ptpStep => true
  | .ptpLatch => true
  | .ptpSyncTimeout => true
  | .ptpPortMove => true
  | .gateEnable n => n < 24
  | .gateSwap n => n < 24
  | .gateEntryBoundary n => n < 24
  | .shpCommit n => n < 24
  | .shaperRefill n => n < 24
  | .meterCommit _ => true
  | .meterRefill _ => true
  | .schedSet c n off _ => c.ok && n < 24 && off < 4096
  | .kvtWrite k => k.ok
  | .kvtWriteImm k => k.ok
  | .kvtReadReq k => k.ok
  | .kvtReadResp k => k.ok
  | .kvtSend k => k.ok
  | .kvtAtomicReq k => k.ok
  | .kvtAtomicResp k => k.ok
  | .kvtReduce k => k.ok
  | .kvtAck k => k.ok
  | .kvtProbe k => k.ok
  | .kvtNak k => k.ok
  | .kvtGrant k => k.ok
  | .kvtMoved k => k.ok
  | .kvtConnect k mine => k.ok && mine.ok
  | .kvtAccept k => k.ok
  | .kvtClose k => k.ok
  | .kvtMgmt k => k.ok
  | .unknownCidPacket k _ => k.ok
  | .contextFetchDone cid => cid < 2 ^ 20
  | .kvtSendPacket cid => cid < 2 ^ 20
  | .ackTimer cid => cid < 2 ^ 20
  | .reorderTimeout cid => cid < 2 ^ 20
  | .retransmitTimeout cid => cid < 2 ^ 20
  | .labelHoldExpire cid k => cid < 2 ^ 20 && k < 64
  | .connectResend cid => cid < 2 ^ 20
  | .unsolTimer cid => cid < 2 ^ 20
  | .grantWindowUpdate cid => cid < 2 ^ 20
  | .grantTimer cid => cid < 2 ^ 20
  | .grantResend cid _ => cid < 2 ^ 20
  | .movedHoldExpire cid => cid < 2 ^ 20
  | .epochKeyDerived cid _ t => cid < 2 ^ 20 && t.ok
  | .doorbell p q _ => p < 1024 && q < 4096
  | .lapReread p q => p < 1024 && q < 4096
  | .notifyTimer p q => p < 1024 && q < 4096
  | .write p q _ => p < 1024 && q < 4096
  | .writeImm p q _ => p < 1024 && q < 4096
  | .read p q _ => p < 1024 && q < 4096
  | .send p q _ => p < 1024 && q < 4096
  | .recv p q _ => p < 1024 && q < 4096
  | .fadd p q _ => p < 1024 && q < 4096
  | .cswap p q _ => p < 1024 && q < 4096
  | .reduce p q _ => p < 1024 && q < 4096
  | .fence p q _ => p < 1024 && q < 4096
  | .fenceDone p q => p < 1024 && q < 4096
  | .fill p q _ => p < 1024 && q < 4096
  | .spill p q _ => p < 1024 && q < 4096
  | .windowOpen p q _ => p < 1024 && q < 4096
  | .windowRevoke p q _ => p < 1024 && q < 4096
  | .windowRevokeDone p q => p < 1024 && q < 4096
  | .arm p q _ => p < 1024 && q < 4096
  | .armedFire p => p < 1024
  | .tallySet p q _ => p < 1024 && q < 4096
  | .collStart p q _ => p < 1024 && q < 4096
  | .collSlotsGranted _ => true
  | .collChunkCombine h => h < 4096
  | .tileLaunch p q _ => p < 1024 && q < 4096
  | .collDefine c h d => c.ok && h < 4096 && d.ok
  | .collRemove c h => c.ok && h < 4096
  | .queueCreate c p q kind sizeLog2 _ _ => c.ok && p < 1024 && q < 4096 && kind < 3 && 4 ≤ sizeLog2 && sizeLog2 ≤ 20
  | .queueDestroy c p q => c.ok && p < 1024 && q < 4096
  | .connOpen c p _ _ _ _ _ _ mine => c.ok && p < 1024 && mine.ok
  | .connClose c cid _ => c.ok && cid < 2 ^ 20
  | .partCreate c p => c.ok && p < 1024
  | .partSet c p r => c.ok && p < 1024 && r.ok
  | .partActivate c p => c.ok && p < 1024
  | .partQuiesce c p _ => c.ok && p < 1024
  | .partQuiesceDone p => p < 1024
  | .partDestroy c p => c.ok && p < 1024
  | .partFreeze c p => c.ok && p < 1024
  | .partFreezeDone p => p < 1024
  | .partThaw c p => c.ok && p < 1024
  | .partSave c p _ cid => c.ok && p < 1024 && cid < 2 ^ 20
  | .partRestore c p _ _ => c.ok && p < 1024
  | .partRestoreDone p => p < 1024
  | .partRelease c p => c.ok && p < 1024
  | .mboxPost ch _ _ => ch.ok
  | .mboxTake ch _ => ch.ok
  | .mboxAck ch _ _ => ch.ok
  | .mgmtPost _ _ _ _ _ _ => true
  | .mgmtAck _ _ _ _ _ => true
  | .mgmtStateEcho _ _ _ _ _ => true
  | .mgmtLastGasp _ _ => true
  | .mgmtResend _ => true
  | .mgmtRecoveryData _ _ => true
  | .recoveryRequest => true
  | .mgmtPageLock _ _ _ _ _ _ _ => true
  | .channelPost p _ _ _ => p < 1024
  | .channelTaken p _ => p < 1024
  | .tileStop c t => c.ok && t < 1440
  | .tileResume c t => c.ok && t < 1440
  | .tileAbort c t => c.ok && t < 1440
  | .keyRoot c p _ _ t => c.ok && p < 1024 && t.ok
  | .keyErase c p => c.ok && p < 1024
  | .attest c _ _ p _ => c.ok && p < 1024
  | .fwStage c _ => c.ok
  | .fwStageDone t => t.ok
  | .fwActivate c => c.ok
  | .fwQuietPoint => true
  | .fwActivateDone => true
  | .powerCap c watts => c.ok && watts < 4096
  | .powerShare c p watts _ => c.ok && p < 1024 && watts < 4096
  | .powerState c _ _ => c.ok
  | .testCtrl c _ _ _ => c.ok
  | .telemRead c _ _ _ cnt => c.ok && 1 ≤ cnt && cnt ≤ 6
  | .snapArm c _ => c.ok
  | .modRestart c => c.ok
  | .alarm cause => 1 ≤ cause && cause ≤ 4
  | .alarmClear cause => 1 ≤ cause && cause ≤ 4
  | .startupStageDone _ => true
  | .startupStageTimeout => true
  | .ccFailover _ => true
  | .ccRestartDone _ => true
  | .seamLaneReplace seam lane _ _ => seam < 5 && lane < 8
  | .testSegmentStart die row col _ => die < 4 && row < 20 && col < 19
  | .testSegmentDone die row col _ _ _ => die < 4 && row < 20 && col < 19
  | .tileTestOverdue die row col => die < 4 && row < 20 && col < 19
  | .patrolRead dev _ _ => dev < 12
  | .patrolOverdue dev => dev < 12
  | .katRun _ core _ _ => core < 46
  | .marginLow port lane => port < 26 && lane < 8
  | .snapCtrlArm => true
  | .snapshot => true
  | .eventsClear _ _ _ _ => true
  | .eventEnWrite _ _ _ => true
  | .counterLowRead _ _ _ core => core < 8
  | .registerWrite _ _ _ _ => true
  | .kvtCollUp k => k.ok
  | .kvtCollDown k => k.ok
  | .powerDownDone => true
  | .m3EntryDone => true
  | .inputPowerReturn => true
  | .standbyLost => true
  | .pmStandbyLost => true
  | .probeTimeout cid k => cid < 2 ^ 20 && k < 64
  | .attestDone p _ t => p < 1024 && t.ok
  | .launchMeasureDone p => p < 1024

end Sys2Proof
end

