-- ==== Sys2Proof/Tests/Slice0.lean ====
section
/-! SUPPORT. Tests: ill-formed commands that the checks refuse, steps whose results come from the spec's own tables
and examples or from hand calculation by its rules, and for every statement with hypotheses a state and operands that
meet them, clause by clause. -/

namespace Sys2Proof.Tests

set_option Elab.async false

open Sys2Proof.Machine

/-! ## States -/

/-- Tile 40 running in Exact mode with nothing under way, held by partition 3 in launch group 2 with tile 41. -/
def q : State :=
  let x : Tile := { run := .running, aclk := 100, eng := 50, pc := 20, s := [(1, 0x1000), (2, 0x2000), (3, 64), (4, 7)], p := [(1, 5)] }
  let s := State.reset.setTile 40 x
  (((s.setReg bTILE 40 0x048 0x80000003).setReg bTILE 40 0x054 2).setReg bTILE 41 0x048 0x80000003).setReg bTILE 41 0x054 2
/-- The same with other scalar registers. -/
def qs (l : List (Nat × W64)) : State := q.updTile 40 (fun x => { x with s := l })
/-- The same in Steady mode. -/
def qm : State := q.updTile 40 (fun x => { x with mode := true })
/-- The same waiting. -/
def qw (w : Wait) : State := q.updTile 40 (fun x => { x with waitFor := some w })

/-! ## Hypotheses met: tiles -/

theorem witness_ScalarRegisterOperations : q.quiet 40 = true := by decide +kernel
theorem witness_ScalarImmediateOperations : q.quiet 40 = true ∧ (⟨1, 1, 1, 1, 4, 0⟩ : FmtSP).rsv = 0 := by decide +kernel
theorem witness_ScalarLoadsAndStores :
    let a := ((q.tile 40).sreg 1 + (0 : W64)).toNat
    q.quiet 40 = true ∧ a + 8 ≤ 0x800000 ∧ a % 8 = 0 ∧ q.settled 40 a 8 = true ∧ q.settled 40 a 4 = true ∧
      (q.tile 40).aclk / 2 % 8 ≠ 7 := by decide +kernel
/-- The last bytes of SRAM: the bound of the range. -/
theorem witness_ScalarLoadsAndStores_end :
    let s := qs [(1, 0x7FFFF8)]
    let a := ((s.tile 40).sreg 1).toNat
    s.quiet 40 = true ∧ a + 8 = 0x800000 ∧ a % 8 = 0 ∧ s.settled 40 a 8 = true := by decide +kernel
theorem witness_BranchesJumpsAndLoops :
    q.quiet 40 = true ∧ (0 : Int) ≤ (20 : Int) + (-20 : Int) ∧ (20 : Int) + 16363 ≤ 16383 ∧ ((q.tile 40).sreg 1).toNat ≤ 16383 ∧
      ctlWord (q.imS 40 (20 + 3)) = false ∧ 20 + 3 < 16383 ∧ 0 < ((q.tile 40).sreg 1).toNat ∧ ((q.tile 40).sreg 9).toNat = 0 ∧
      (let l : LoopRec := { lvl := 0, first := 18, last := 20, left := 2 }; l.last = (q.tile 40).pc ∧ l.first ≤ l.last ∧ 1 < l.left) ∧
      (let l : LoopRec := { lvl := 0, first := 20, last := 20, left := 1 }; l.last = (q.tile 40).pc ∧ l.first ≤ l.last ∧ l.left ≤ 1) := by
  decide +kernel
theorem witness_ControlRegistersNopStepAndEnd : q.quiet 40 = true ∧ (⟨1, 0, 0x05⟩ : FmtSC).rsv = 0 ∧
    (q.tile 40).drained = true ∧ (q.tile 40).stopReq = false ∧ (q.tile 40).holdReq = false := by decide +kernel
/-- The last: an increment that arrives in the ACLK of the next bundle. -/
theorem witness_ResultsLand : q.quiet 40 = true ∧ 2 ≤ 4 ∧ Land.s 1 7 ≠ Land.nstat 0 ∧ (Land.tally 3 false none) = Land.tally 3 false none := by
  decide +kernel
theorem witness_VectorFloatingPoint : q.quiet 40 = true ∧ (⟨1, 2, 3, 0, 1, 4⟩ : FmtVR).rm.toNat ≤ 4 ∧
    (⟨1, 2, 3, 0, 1, 4⟩ : FmtVR).vc = 0 ∧ (⟨1, 2, 7, 0, 1, 0⟩ : FmtVR).rm = 0 ∧ (⟨1, 2, 7, 0, 1, 0⟩ : FmtVR).vb.toNat ≤ 7 ∧
    (⟨1, 4, 2, 3, 0, 1, 0⟩ : FmtVP).cond.toNat ≤ 4 ∧ (⟨1, 4, 2, 3, 0, 1, 0⟩ : FmtVP).rsv = 0 := by decide +kernel
theorem witness_VectorIntegerOperations : q.quiet 40 = true ∧ (⟨1, 2, 3, 4, 1, 0⟩ : FmtVR).rm = 0 ∧
    (⟨1, 5, 2, 3, 0, 1, 0⟩ : FmtVP).cond = 5 ∧ (⟨1, 5, 2, 3, 0, 1, 0⟩ : FmtVP).rsv2 = 0 := by decide +kernel
theorem witness_VectorMovesAndReduction :
    let a := ((q.tile 40).sreg 1 + ((0 : W64) <<< 8)).toNat
    q.quiet 40 = true ∧ (⟨1, 2, 0, 0, 0, 0⟩ : FmtVS).rsv = 0 ∧ a + 256 ≤ 0x800000 ∧ a % 256 = 0 ∧ (q.tile 40).aclk / 2 % 8 ≠ 7 ∧
      q.settled 40 a 256 = true ∧ (⟨1, 2, 3, 4, 1, 4⟩ : FmtVR).rm.toNat ≤ 4 := by decide +kernel
theorem witness_VectorConversions : q.quiet 40 = true ∧ eltCode 0 = some .fp32 ∧ (∃ e, eltCode 3 = some e) ∧
    (⟨1, 2, 0, 9, false, 1, 4, 0⟩ : FmtVC).rsv = 0 ∧ 9 ≤ (⟨1, 2, 0, 9, false, 1, 4, 0⟩ : FmtVC).dfmt.toNat ∧
    9 ≤ (⟨1, 2, 15, 0, false, 1, 0, 0⟩ : FmtVC).sfmt.toNat := ⟨by decide +kernel, by decide, ⟨_, rfl⟩, by decide⟩
/-- Operands at 0x1000 and 0x2000 with scales at 0x3000 and 0x4000, K = 64; and K = 0. -/
theorem witness_MatrixMultiplyAccumulate :
    let s := qs [(1, 0x1000), (2, 0x3000), (3, 0x2000), (4, 0x4000), (5, 64)]
    s.quiet 40 = true ∧ matMx 9 = true ∧ ((s.tile 40).sreg 2).toNat % 64 = 0 ∧ ((s.tile 40).sreg 6).toNat = 0 ∧
      matBlock 9 = true ∧ 64 % 32 = 0 ∧ 0x1000 + matLen 9 64 ≤ 0x800000 ∧ 0x3000 + matScaleLen 9 64 ≤ 0x800000 ∧
      (8 : Nat) < 9 ∧ 0 + 32 ≤ 32 ∧ 0x2000 + matLen 8 (32 * 2048 / (64 * eltBits (matElt 8))) ≤ 0x800000 := by decide +kernel
theorem witness_LongAccumulatorsAreExact :
    let s := qs [(1, 0x1000)]
    s.quiet 40 = true ∧ (⟨2, 0, 0⟩ : FmtMA).rs = 0 ∧ mrdCode 0 = some .fp32 ∧ 0x1000 + 163840 ≤ 0x800000 ∧ 0x1000 % 256 = 0 ∧
      s.settled 40 0x1000 163840 = true := by decide +kernel
theorem witness_LongAccumulatorsAreExact_sum :
    let l : LAcc := {}
    let one : XVal := .fin false 1 0
    l.sp = .fin ∧ (xmul one one).1 = .fin (false != false) (1 * 1) (0 + 0) ∧
      (lval l).natAbs + ((List.range 2).map (fun _ => (toTerm false 1 0).natAbs)).sum < 2 ^ 318 := by decide +kernel
theorem witness_AccumulatorBanks : (qs [(1, 0x1000)]).quiet 40 = true ∧ 0x1000 % 256 = 0 ∧ 0x1000 + 163840 ≤ 0x800000 ∧
    (⟨1, 2, 3, 0⟩ : FmtMX).rsv = 0 := by decide +kernel
/-- A message of 64 bytes to tile 41, tally 5, no SRCT; a move of 256 bytes; a vector message. -/
theorem witness_MessagesAndMoves :
    let s := qs [(1, 0x1000), (2, 0x2000), (3, 256), (4, 41 + 5 * 2 ^ 16)]
    let x := s.tile 40
    let w := x.sn 4
    s.quiet 40 = true ∧ w / 2 ^ 11 % 32 = 0 ∧ w / 2 ^ 16 % 64 ≤ 47 ∧ w / 2 ^ 22 % 4 = 0 ∧ w / 2 ^ 30 % 2 = 0 ∧
      w / 2 ^ 31 % 2 ≠ 1 ∧ w % 2 ^ 11 ≠ 40 ∧ s.sameGroup 40 (w % 2 ^ 11) = true ∧ x.mode = false ∧ x.sn 1 % 256 = 0 ∧
      x.sn 2 % 256 = 0 ∧ x.sn 3 % 256 = 0 ∧ x.sn 1 + x.sn 3 ≤ 0x800000 ∧ x.sn 2 + 256 ≤ 0x800000 ∧ w % 64 ≤ 47 := by decide +kernel
theorem witness_TalliesAndWaits : q.quiet 40 = true ∧ (⟨3, 9, 0⟩ : FmtXT).rsv = 0 ∧
    ((q.tile 40).sreg 9).toNat ≤ ((q.tile 40).tally 3).toNat ∧ ((q.tile 40).tally 3).toNat < ((q.tile 40).sreg 1).toNat ∧
    q.timeWord.toNat < ((q.tile 40).sreg 1).toNat ∧ ((q.tile 40).sreg 9).toNat ≤ q.timeWord.toNat := by decide +kernel
/-- A wave of partition 3 that counts launch group 2. -/
theorem witness_TalliesAndWaits_wave :
    let s := q.setReg bPART 3 0x040 0x80100040
    s.quiet 40 = true ∧ s.waveMember ((s.tileOwner 40).getD 1024) (s.tileGroup 40) 5 40 = true := by decide +kernel
theorem witness_CopyRequestsMailboxAndFarLoads :
    let s := qs [(1, 0x5000), (2, 0x2000), (3, 256), (4, 48)]
    s.quiet 40 = true ∧ (s.tile 40).sn 3 % 256 = 0 ∧ 48 ≤ (s.tile 40).sn 4 % 64 ∧ (s.tile 40).sn 4 / 2 ^ 8 % 2 = 0 ∧
      (s.tile 40).sn 2 + (s.tile 40).sn 3 ≤ 0x800000 ∧ (s.mb (.tile 40) false).full = false ∧ 1 + 8 ≤ 64 ∧
      qm.quiet 40 = true ∧ (qm.tile 40).mode = true ∧ (qm.tile 40).sn 1 % 256 = 0 := by decide +kernel
theorem witness_EndsOfWaits :
    let w := qw (.tally 3 0 false)
    let y := (qw (.tally 3 1 false)).updTile 40 (fun x => { x with flight := [{ due := 101, land := .tally 3 false none }] })
    let z := (qw .phase).updTile 40 (fun x => { x with slotHold := 5 })
    w.tileEdges 40 = true ∧ (w.tile 40).still = true ∧ 0 ≤ ((w.tile 40).tally 3).toNat ∧ (y.tile 40).engIdle = true ∧
    ((y.tile 40).tally 3).toNat + 1 = 1 ∧ (y.tile 40).aclk ≤ 101 ∧ y.tileEdges 40 = true ∧
    (0 : W64).toNat ≤ (qw (.time 0)).timeWord.toNat ∧ ((qw .endDrain).tile 40).drained = true ∧
    ((qw .stepDrain).tile 40).holdReq = false ∧ ((qw .phase).tile 40).waitFor = some .phase ∧ ((qw .phase).tile 40).flight = [] ∧
    ((qw .phase).group ((qw .phase).tileGroup 40)).gclk % 256 = ((qw .phase).tile 40).slotHold % 256 ∧
    (z.group (z.tileGroup 40)).gclk % 256 ≠ (z.tile 40).slotHold % 256 := by decide +kernel
/-- A move of one line that is due. -/
theorem witness_EndsOfWaits_move :
    let m : XMov := { src := 0x1000, dst := 0x2000, len := 256, tally := 5, ready := 50 }
    let s := q.updTile 40 (fun x => { x with run := .stopping, waitFor := some .stepDrain, xmovs := [m] })
    let x := s.tile 40
    s.tileEdges 40 = true ∧ x.only [] [] [m] = true ∧ m.read = 0 ∧ m.buf = [] ∧ m.ready ≤ x.eng ∧ x.eng % 8 < 6 ∧ x.rp1 = [] ∧
      x.wp = [] ∧ s.sound 40 m.src 256 = true := by decide +kernel
theorem witness_EndsOfWaits_wave :
    let s := (qw (.wave 5)).setReg bPART 3 0x040 0x80100040
    s.waveMember 3 2 5 40 = true ∧ (s.tile 40).waitFor = some (.wave 5) ∧ s.tileEdges 40 = true ∧ (s.tile 40).still = true ∧
      (List.range 1440).all (fun k => !s.waveMember 3 2 5 k || k == 40) = true := by decide +kernel
theorem witness_TrapsAndSources : q.quiet 40 = true ∧ (q.tile 40).holdReq = false ∧ q.fld bTILE 40 oEVENT_ROUTE 0 2 < 2 ∧
    decodeSlot ⟨40, false⟩ .S 0x04304200 = some (.add ⟨40, false⟩ ⟨3, 1, 2⟩) ∧ decodeSlot ⟨40, false⟩ .S 0x040000FF = none ∧
    (⟨0, 15⟩ : FmtSU).imm.toNat < 16 ∧ 5 ≤ (⟨1, 2, 3, 0, 1, 5⟩ : FmtVR).rm.toNat ∧
    0x800000 < ((qs [(1, 0x7FFFF9)]).tile 40 |>.sreg 1).toNat + 8 ∧ ((q.tile 40).sreg 4).toNat % 8 ≠ 0 ∧
    (20 : Int) + 16364 > 16383 ∧ 56 < (⟨57, 0, 0⟩ : FmtXB).sn.toNat ∧ (q.tile 40).mode = false ∧
    (q.tile 40).sn 1 % 256 = 0 ∧ q.waveMember ((q.tileOwner 40).getD 1024) (q.tileGroup 40) 5 40 = false := by decide +kernel
theorem witness_TrapsAndSources_self : ((qs [(4, 40)]).tile 40).sn 4 = 40 ∧ (qs [(4, 40)]).quiet 40 = true := by decide +kernel

/-! ## Hypotheses met: the grid, power, tiles -/

/-- In service in state M0 with firmware ready, a command of the manager's in its channel. -/
def on : State :=
  let s : State := { State.reset with
    pwr := { State.reset.pwr with phase := .on, state := 0, rails := 8, pmStandbyOk := true }
    ident := { State.reset.ident with netReady := true, gridReady := true, stage := 11, standbyOk := true } }
  s.setMb .manager true { full := true, seq := 6 }
/-- A command on the manager's channel. -/
def mgr : Cmd := { chan := .manager, tag := 5 }

/-- A message of 100 bytes to tile 42 whose line is staged and whose first beat is not yet sent; the link from tile 40
to tile 41 is group 2's and takes local injection at index 50. -/
def beatS : State :=
  let m : Msg := { vec := false, src := 0x1000, dstTile := 42, dst := 0x2000, len := 100, tally := 5, srct := none
                   old := List.replicate 100 0, sent := 0, next := 1, lines := [(0, 40, List.replicate 100 6)] }
  (((q.updTile 40 (fun x => { x with injq := [m], waitFor := some .phase })).setTile 41 { ({} : Tile) with run := .idle }).setTile 42
    { ({} : Tile) with run := .idle }).setLink 40 .east
    { owned := true, part := 3, group := 2, steady := false, table := [(50, 1)] }
theorem witness_MessageInjection :
    let x := beatS.tile 40
    let m := x.injq.headD { vec := true, src := 0, dstTile := 0, dst := 0, len := 0, tally := 0, srct := none, old := [], sent := 0 }
    tileOk 40 = true ∧ beatS.tileEdges 40 = true ∧ x.injq = [m] ∧ m.beatFrom = some 41 ∧ x.waitFor ≠ some .inject ∧
      steadyHop 40 m.dstTile = some .east ∧ neighbour 40 .east = some 41 ∧ (beatS.tile 41).run ≠ .unavailable ∧
      (beatS.tile m.dstTile).landing = [] ∧ (beatS.link 40 .east).steady = false ∧ x.only [m] [] [] = true ∧ 41 ≤ x.eng ∧
      m.next = m.lineCount ∧ x.mayRun x.eng = true ∧ beatS.injectOut 40 x.eng = some .east ∧ 64 * (m.sent + 1) < m.len := by decide +kernel
theorem witness_MessageInjection_steady :
    let s := beatS.setLink 40 .east { owned := true, part := 3, group := 2, steady := true, table := [] }
    (s.link 40 .east).steady = true ∧ s.ownsLink 40 40 .east = true ∧ s.routerGrant 40 .east = some (4, 41) ∧ (s.tile 40).lag ≤ 41 := by
  decide +kernel
/-- A beat for tile 41 at its west input, and one for tile 42 that the east output of tile 41 takes. -/
def landS (dst : Nat) : State :=
  let b : Beat := { src := 40, id := 7, dstTile := dst, dst := 0x2000, len := 64, tally := 5, j := 0, bytes := [1], mark := false
                    gclk := 259, at_ := 41, input := .west }
  { (beatS.setLink 41 .east { owned := true, part := 3, group := 2, steady := false, table := [(3, inputCode .west)] }).setTile
      41 { ({} : Tile) with run := .running, eng := 300 } with beats := [b] }
/-- A tile with sixteen lines buffered, one idle, one held. -/
theorem witness_BeatForwardingAndLanding :
    let l : Landing := { src := 41, id := 7, dst := 0x2000, len := 0x2000, tally := 5, beats := [], left := 32, mark := false
                         lines := (List.range 16).map (fun i => { no := 32 + i, want := 256, cells := [(0x2000 + 256 * i, 1)], full := none }) }
    let full := (landS 41).updTile 41 (fun x => { x with landing := [l] })
    let idle := (landS 41).updTile 41 (fun x => { x with run := .idle })
    let held := (landS 42).updTile 41 (fun x => { x with waitFor := none, run := .held, heldFrom := some .running })
    let found (s : State) : Bool := ((s.beats.find? (fun c => c.at_ == 41 && c.input == .west)).map (fun b =>
      s.landingOf b == none && b.heldAt == none && decide (b.gclk - (s.tile 41).lag ≤ (s.tile 41).eng))).getD false
    found (landS 41) = true ∧ found full = true ∧ (landS 41).tileEdges 41 = true ∧ ((landS 41).tile 41).heldRouter = false ∧
      ((landS 41).tile 41).bufLines < 16 ∧ 16 ≤ (full.tile 41).bufLines ∧ (full.tile 41).nextLine (259 - (full.tile 41).lag) = none ∧
      (idle.tile 41).waitFor = none ∧ (held.tile 41).heldRouter = true ∧ ((landS 41).link 40 .east).steady = false ∧
      (landS 42).ownsLink 40 41 .east = true ∧ mget 0 ((landS 42).link 41 .east).table 3 = inputCode .west ∧
      neighbour 41 .east = some 42 ∧ ((landS 42).tile 42).run ≠ .unavailable ∧ (landS 42).ownsLink 40 41 .north = false ∧
      (landS 42).ownsLink 40 41 .south = false ∧ (landS 42).ownsLink 40 41 .west = false := by decide +kernel
theorem witness_BeatForwardingAndLanding_message :
    let n : LandLine := { no := 32, want := 4, cells := [(0x2000, 9), (0x2001, 8), (0x2002, 7), (0x2003, 6)], full := some 40 }
    let l : Landing := { src := 41, id := 7, dst := 0x2000, len := 4, tally := 5, beats := [0], left := 1, mark := false, lines := [n] }
    let s := q.updTile 40 (fun x => { x with landing := [l], eng := 45 })
    s.tileEdges 40 = true ∧ (s.tile 40).only [] [l] [] = true ∧ n.full = some 40 ∧ 40 < (s.tile 40).eng ∧ (s.tile 40).eng % 8 ≠ 7 ∧
      (s.tile 40).wp = [] ∧ (s.tile 40).mayRun (s.tile 40).eng = true ∧ (s.tile 40).run = .running := by decide +kernel
def armedS : State := (on.setReg bTILE 40 0x048 0x80000003 |>.setReg bTILE 40 0x054 2).setTile 40 { ({} : Tile) with run := .armed }
theorem witness_GroupLaunch : (2 : W32).toNat % 2 ^ 11 = 2 ∧ armedS.locked bGRID 0 = false ∧ 40 ∈ armedS.groupTiles 2 ∧
    (armedS.tile 40).run = .armed ∧ armedS.oneMode 2 = true ∧ (armedS.group 2).entry = none ∧
    (∀ t, t ∈ armedS.groupTiles 2 → (armedS.tile t).armPending = false ∧ armedS.testing t = false ∧ armedS.tileEdges t = true ∧
      (armedS.tile t).landing = []) := by
  decide +kernel
theorem witness_LinksAndSlotTables :
    let s := (q.setReg bGRID 0 0x300 (BitVec.ofNat 32 (40 + 2 ^ 11))).setReg bPART 3 0x050 (BitVec.ofNat 32 (2 + 5 * 2 ^ 16))
    let v : W32 := 0x80000803
    s.locked bGRID 0 = false ∧ s.gridSel 0x300 = (40, .east) ∧ tileOk 40 = true ∧ neighbour 40 .east = some 41 ∧
      s.linkFree (s.link 40 .east) = true ∧ v.getLsbD 31 = true ∧ s.tileOwner 40 = some (v.toNat % 2 ^ 10) ∧
      s.tileOwner 41 = some 3 ∧ s.partGroup 3 (v.toNat / 2 ^ 10 % 2 ^ 11) = true ∧ s.partGroup 3 7 = false := by decide +kernel
theorem witness_LinksAndSlotTables_load :
    let s := (beatS.setReg bGRID 0 0x200 (BitVec.ofNat 32 (40 + 2 ^ 11))).updTile 40 (fun x => { x with run := .idle })
    s.locked bGRID 0 = false ∧ s.gridSel 0x200 = (40, .east) ∧ (s.link 40 .east).owned = true ∧
      s.groupActive (s.link 40 .east).group = false ∧
      (∀ i, i < 256 → s.entryBad 40 .east i (s.window4 i) = false) ∧ beatS.groupActive 2 = true := by decide +kernel

theorem witness_TrayBusAndPulses : on.pwr.vaux = true ∧ ((1 : Byte) &&& 3 ≠ 0) ∧ on.powered = true ∧
    (on.setReg bPTP 0 0x044 1).timeLocked = true ∧ on.tray.ppsOut = false ∧ on.time.ns ≤ 5 := by decide +kernel
theorem witness_InsertionPowerEnableAndReset :
    ({ on with pwr := { on.pwr with seated := false } } : State).pwr.seated = false ∧ State.reset.pwr.seated = true ∧
      State.reset.pwr.vaux = true ∧ State.reset.pwr.cut = false ∧ State.reset.pwr.low = false ∧ State.reset.pwr.below40 = false ∧
      State.reset.pwr.phase = .off ∧ State.reset.pwr.blocked = false ∧ State.reset.pwr.slept = false ∧
      on.inService = true ∧ on.powered = true ∧ ({ on with pwr := { on.pwr with phase := .down .orderly } } : State).goingDown = true := by
  decide +kernel
theorem witness_ThrottleDroopSagAndHeat : on.powered = true ∧ on.goingDown = false ∧ on.pwr.rails = 8 ∧ on.pwr.seated = true ∧
    on.pwr.vaux = true ∧ on.pwr.sag = false ∧ on.pwr.frame = 0 ∧ (on.updPwr (fun x => { x with frame := 1 })).pwr.frame ≠ 0 ∧ on.fld bPWR 0 0x068 0 8 < 255 ∧
    0 ≤ on.fld bPWR 0 0x068 0 8 ∧
    (on.setReg bPWR 0 0x068 0).fld bPWR 0 0x068 8 8 ≤ on.pwr.droopFor ∧ on.pwr.droopFor < (on.setReg bPWR 0 0x068 0x100).fld bPWR 0 0x068 8 8 ∧
    (1099 : BitVec 16).toInt < 1100 ∧ 1100 ≤ (1100 : BitVec 16).toInt ∧
    ({ on.pwr with sag := true, cut := false } : Pwr).sag = true := by decide +kernel
theorem witness_CapSharesAndSlope : on.powered = true ∧ on.goingDown = false ∧ on.locked bPWR 0 = false ∧
    (799 : W32).toNat % 4096 < 800 ∧ 3200 < (3201 : W32).toNat % 4096 ∧ on.takes mgr = true ∧
    on.fld bPWR 0 0x040 0 12 < 3201 ∧ 1 < on.pwr.kCap ∧
    (let s := (on.setPart 3 { (({} : Part)) with lstate := .active }).setReg bPART 3 0x078 100
     s.takes mgr = true ∧ (s.part 3).lstate ≠ .free ∧ s.fld bPART 3 0x078 0 12 < 101 ∧ s.locked bPART 3 = false ∧ 3 ∈ s.partIds ∧
       1 < s.pwr.shareOf 3 ∧ s.shareSum - s.fld bPART 3 0x078 0 12 + 3000 + 200 ≤ s.fld bPWR 0 0x040 0 12 ∧
       ¬ s.shareSum - s.fld bPART 3 0x078 0 12 + 3000 + 201 ≤ s.fld bPWR 0 0x040 0 12) ∧
    on.fld bPWR 0 0x044 0 12 ≠ 0 ∧ on.fld bPWR 0 0x044 0 12 < 100 * (50 - 0) ∧ on.pwr.exempt = false ∧
    (on.setReg bPWR 0 0x06C 1).fld bPWR 0 0x06C 0 1 = 1 := by decide +kernel
theorem witness_PowerStateRequests : on.powered = true ∧ on.locked bPWR 0 = false ∧ on.pwr.phase = .on ∧ on.pwr.state < 3 ∧
    on.tenants = false ∧ on.tenantTiles = false ∧ (q.setReg bTILE 40 0x048 0x80000003).tenantTiles = true ∧
    on.pwr.vaux = true ∧ mgr.chan = .manager ∧ (on.mb .manager true).full = true ∧
    ({ on.pwr with state := 3 } : Pwr).state = 3 := by decide +kernel
theorem witness_FatalCausesAndTakeover : on.pwr.phase = .on ∧ on.pwr.pmStandbyOk = true ∧ 2 ≤ on.ident.stage ∧
    ({ on.pwr with sag := true, cut := true } : Pwr).onBank = true ∧ on.tray.cond.getLsbD 3 = false ∧ (12 ≤ 23 ↔ true = true) := by
  decide +kernel

theorem witness_TileControlAndPatching : tileOk 40 = true ∧ armedS.fld bTILE 40 oEVENT_ROUTE 0 2 < 2 ∧ armedS.locked bTILE 40 = false ∧
    (let s := armedS.setTile 40 { ({} : Tile) with run := .idle }
     s.armRefused 40 = false ∧ s.testing 40 = false ∧ s.gated 40 = false) ∧
    armedS.armRefused 40 = true ∧ (q.tile 40).run = .running ∧ q.gated 40 = false ∧ q.testing 40 = false ∧
    (∀ m, (q.tile 40).injq.head? = some m → m.sent = 0) ∧
    (armedS.setReg bTILE 40 oPAGE_LOCK 1).locked bTILE 40 = true ∧ armedS.takes mgr = true ∧
    (q.updTile 40 (fun x => { x with clearing := true })).tileEdges 40 = true := by decide +kernel
/-- Column 5 of row 3 of CD0 is being patched and its tiles are held. -/
def patchS : State :=
  let s := { on with test := { on.test with patch := [(3, (5, false))] } }
  (rowTiles 3 5).foldl (fun s t => s.setTile t { ({} : Tile) with run := .held, heldFrom := some .running }) s
/-- The same before the shift, the tiles held or idle; the last of them, held, stands on the column. -/
theorem witness_TileControlAndPatching_patch : (mget (31, false) patchS.test.patch 3).1 ≠ 31 ∧
    (mget (31, false) patchS.test.patch 3).2 = false ∧ rowTiles 3 5 ≠ [] ∧
    (∀ t, t ∈ rowTiles 3 5 → (patchS.tile t).run = .held ∧ (patchS.tile t).heldFrom = some .running) ∧
    (let s := { patchS with test := { patchS.test with patch := [(3, (5, true))] } }
     (mget (31, false) s.test.patch 3).2 = true ∧ (s.tile (tileAt 3 5)).flight = [] ∧ tileLc (tileAt 3 5) = 5 ∧ tileAt 3 5 ∈ rowTiles 3 5 ∧
       (List.range 1440).all (fun t => decide (s.fld bTILE t oEVENT_ROUTE 0 2 < 2)) = true) := by decide +kernel
/-- A spill of 64 bytes of tile 40 to the first line of the DRAM tier. -/
def spillS : State :=
  let j : CopyJob := { eng := 8, id := 0, from_ := .tile 40, spill := true, part := 3, lva := 0, tva := 0x1000, im := false, len := 64
                       tally := some 50, flags := 0, ctally := 0, moved := 0, parked := false, runs := [{ va := 0, n := 4096, pa := 0, bits := 0x3F, epoch := 0 }]
                       cells := (List.range 64).map (fun i => (i, 0)) }
  let s := { q with slabs := [(0, 0x80000000)], keys := [(3, { ({} : PKeys) with root := some 77 })], jobs := [j] }
  s.updTile 40 (fun x => { x with copies := 1 })
theorem witness_CopiesAndFarLoadsArrive :
    let r : Held := { va := 0, n := 4096, pa := 0, bits := 0x3F, epoch := 0 }
    ∀ j, j ∈ spillS.jobs → spillS.jobs.length = 1 ∧ j.from_ = .tile 40 ∧ j.runs = [r] ∧ j.len % 64 = 0 ∧ r.at_ j.lva % 64 = 0 ∧
      r.at_ j.lva + j.len ≤ dramTop ∧ r.at_ j.lva % 2 ^ 30 + j.len ≤ 2 ^ 30 ∧ spillS.reach (r.at_ j.lva) = true ∧
      spillS.keyGone j.part = false ∧ r.logs = false ∧ spillS.tileEdges 40 = true ∧ spillS.soft = [] ∧ (spillS.tile 40).landing = [] ∧
      (spillS.tile 40).waitFor ≠ some .copies ∧ spillS.queuesIdle = true ∧ hits spillS.ue (sramAt 40 j.tva) j.len = [] ∧
      hits spillS.ce (sramAt 40 j.tva) j.len = [] ∧ j.cells.length = j.len ∧
      ∀ i, i < 64 → (r.at_ j.lva + i, mget 0 spillS.mem (sramAt 40 j.tva + i)) ∈ j.cells := by decide +kernel

/-! ## Hypotheses met: memory, launches, ports -/

/-- Marks the lines of n bytes as written under data key 0 of partition 3. -/
def keyed (s : State) (a n : Nat) : State :=
  { s with lineKey := (List.range (n / 64)).foldl (fun m i => mset 0 m (a / 64 + i) (s.keyId 3 0)) s.lineKey }
/-- In service; partition 3 is active with a root, and its tables map the first GiB onto slab 0 with every right. -/
def mapS : State :=
  let s := on.setMb .manager true { full := true, seq := 6 }
  { s with
    slabs := [(0, 0x80000000)], keys := [(3, { ({} : PKeys) with root := some 77 })]
    mem := writeBytes (writeBytes [] 0x1000 (leBytes 8 0x2001)) 0x2000 (leBytes 8 0x3F)
    parts := [(0, { ({} : Part) with lstate := .active }),
      (3, { ({} : Part) with lstate := .active, rec_ := { en := true, root := 0x1000 } })] }
/-- With queue 6 of partition 3, ready for the entry 17 of its second lap. -/
def queueS : State :=
  mapS.setQueue 3 6 { ({} : Queue) with
    used := true, kind := 2, sizeLog2 := 4, ring := 0x8000, cb := 0x9000, p := 17, c := 17, h := 17 }

/-- A launch table of tile 40: entry bundle 77, Exact mode, a seed. -/
def tableT : List Byte := leBytes 2 40 ++ leBytes 2 77 ++ [0] ++ leBytes 3 0 ++ leBytes 8 0x1122334455667788
/-- Tile 40 idle and measured, held by partition 3, with a launch of group 4 held until its hash is taken. -/
def launchS : State :=
  let s := (mapS.setReg bTILE 40 0x048 0x80000003).setTile 40 { ({} : Tile) with run := .idle, measured := some 5 }
  let s := s.setReg bPART 3 0x050 (BitVec.ofNat 32 (2 + 5 * 2 ^ 16))
  s.setPart 3 { s.part 3 with launch := some (6, 17, 4, tableT) }
theorem witness_TileLaunchesAndGridLoads_measured : (launchS.part 3).launch = some (6, 17, 4, tableT) ∧
    launchS.launchOk 3 4 (launchRows tableT) = true ∧ launchS.queuesIdle = true ∧ launchRows tableT ≠ [] ∧
    ∀ x, x ∈ launchRows tableT → (launchS.tile x.1).clearing = false ∧ launchS.testing x.1 = false := by decide +kernel
theorem witness_TileLaunchesAndGridLoads_launch :
    let s := ((launchS.setPart 3 { launchS.part 3 with launch := none }).setQueue 3 6 (queueS.queue 3 6))
    let s := keyed (keyed { s with mem := writeBytes s.mem 0x5000 tableT } 0x5000 64) 0x9000 64
    let d : Desc := { ({} : Desc) with len := 16, lva := 0x5000, imm := 4, lap := 1 }
    let r := (s.taken 3 6 0x35 d).vget false 3 accR 0x5000 16 []
    s.readyFor 3 6 0x35 d = true ∧ s.tallyOk 3 d.tally = true ∧ ((s.taken 3 6 0x35 d).part 3).launch = none ∧
      r.1.launchOk 3 4 (launchRows tableT) = true ∧ r.1.queuesTaken 3 6 = true ∧ r.1.launchReady (launchRows tableT) = true ∧
      ∀ x, x ∈ launchRows tableT → r.1.testing x.1 = false := by
  decide +kernel
/-- An image of one link of group 4, from tile 40 east. -/
def imageT : List Byte :=
  leBytes 4 1 ++ leBytes 2 4 ++ [0, 0] ++ leBytes 4 1 ++ leBytes 4 0 ++ List.replicate 16 255 ++
    (leBytes 2 40 ++ [1, 0, 0, 0, 0, 0] ++ List.replicate 128 0)
theorem witness_TileLaunchesAndGridLoads_grid :
    let s := (launchS.setReg bTILE 41 0x048 0x80000003)
    let l := (unitsOf 136 imageT.length (imageT.drop 32)).map parseLink
    s.takes mgr = true ∧ imageT.length = 168 ∧ field imageT 0 4 = 1 ∧ s.imageBad 3 4 false (field imageT 8 4) 168 l = false ∧
      s.groupQuiet 4 = true ∧ q.groupQuiet 2 = false ∧ s.locked bGRID 0 = false ∧ s.imageBad 3 4 false (field imageT 8 4) 100 l = true ∧
      ∀ r, r ∈ l → (s.link r.tile r.out).owned = false := by decide +kernel
theorem witness_CopiesAndFarLoadsArrive_far :
    let s := (keyed mapS 0x5000 256 |>.setReg bTILE 40 0x048 0x80000003).setTile 40 { ({} : Tile) with run := .running, far := [(7, 0x5000, 0)] }
    (s.tile 40).far = [(7, 0x5000, 0)] ∧ (s.tile 40).waitFor ≠ some .far ∧
      (match (s.vget false 3 accR 0x5000 256 []).2 with | .ok bs hs => bs.length == 256 && hs.all (fun r => inDram r.pa) | _ => false) = true := by
  decide +kernel
theorem witness_CopiesAndFarLoadsArrive_farFault :
    (match (mapS.vget false 3 accR (2 ^ 40) 256 []).2 with | .ok _ _ => false | _ => true) = true := by decide +kernel

theorem witness_RefreshUnmappedAccessesAndAccounting :
    ((on.setDev 1 { ({} : Device) with postponed := 8, ahead := true }).dev 1).postponed = 8 ∧ (on.dev 1).ahead = false ∧
      ((on.setDev 1 { ({} : Device) with postponed := 7, ahead := true }).dev 1).postponed ≠ 8 ∧ (on.dev 1).q0 < q0Limit ∧
      (on.dev 1).q2 < q2Floor ∧ ((on.setDev 1 { ({} : Device) with cls := 1 }).dev 1).cls ≤ 1 ∧ on.busHas 0xFFFFFFFFFFFF = false ∧ (on.reg bERR 0 oINFO2).getLsbD 5 = false := by
  decide +kernel
/-- PART_MEM_USED 400 of 500; a grant of 100 fits, one of 101 does not. -/
theorem witness_RefreshUnmappedAccessesAndAccounting_quota :
    let s := (mapS.setReg bPART 3 0x058 500).setReg bPART 3 0x05C 400
    s.takes mgr = true ∧ (s.part 3).cmd = none ∧ (s.part 3).lstate ≠ .free ∧ s.fld bPART 3 oEVENT_ROUTE 0 2 < 2 ∧
      s.fld bPART 3 0x05C 0 19 + 100 ≤ s.fld bPART 3 0x058 0 19 ∧ s.fld bPART 3 0x058 0 19 < s.fld bPART 3 0x05C 0 19 + 101 := by decide +kernel
theorem witness_SlabsDevicesAndEvacuation :
    let s := mapS.setReg bDRAMC 0 0x040 1 |>.setReg bDRAMC 0 0x06C 4
    s.locked bDRAMC 0 = false ∧ s.fld bDRAMC 0 0x040 0 10 ≤ 863 ∧ s.slabBad 1 (0x80001000 &&& 0x8007FFFF) = false ∧
      slabValid (s.slab 1) = false ∧ s.slabBad 1 0x80000000 = true ∧ s.takes mgr = true ∧ (s.dev 1).evac = none ∧
      slabValid (s.slab 0) = true ∧ s.slab 0 / 256 % 16 = 0 ∧ (s.dev 5).state ≠ 2 ∧ s.lostLog ≠ 0 := by decide +kernel
theorem witness_SlabsDevicesAndEvacuation_done :
    let e : Evac := { slab := 0, dstDev := 5, dstLocal := 3, auto := false, cmd := none }
    let s := mapS.setDev 0 { ({} : Device) with evac := some e }
    let t := (mapS.setReg bDRAMC 0 0x06C 4).setDev 0 { ({} : Device) with evac := some e, logWait := [(0, 2)], ptr := 262144 }
    (s.dev 0).evac = some e ∧ (s.dev 0).logWait = [] ∧ (s.dev 0).lostRun = none ∧ s.ue = [] ∧ s.ce = [] ∧ s.lost = [] ∧
      (t.dev 0).logWait = [(0, 2)] ∧ t.lostLog ≠ 0 ∧ (t.dev 0).ptr = 262144 ∧
      ((t.load0 t.lostBase 8 3).2.map (fun k => decide (idxDiff (k % 2 ^ 32) (k / 2 ^ 32) < 2 ^ t.lostLog))) = some true := by
  decide +kernel
/-- Connection 77 of partition 3 is live; 0x5008 is mapped and 2^40 is not. -/
theorem witness_TranslationAndFences :
    let s := mapS.setConn 77 { ({} : Conn) with state := .open_, part := 3 }
    s.streamLive 3 (.conn 77) = true ∧ s.bad (s.recAddr 3) 32 = false ∧ s.tbOf false = [] ∧
      (match s.walk 3 0x5008 with | .leaf _ _ bits => rightsOk bits 1 | _ => false) = true ∧
      (match s.walk 3 (2 ^ 40) with | .fault _ _ => true | _ => false) = true ∧ s.faults = [] ∧ s.faultWaits = [] ∧
      s.locked bXLAT 0 = false ∧ s.queuesIdle = true ∧ (s.part 3).reload = 0 ∧ s.reach (s.recAddr 3) = true ∧
      inDram (s.recAddr 3) = true := by decide +kernel
theorem witness_TranslationAndFences_fence :
    let x : Queue := { ({} : Queue) with used := true, kind := 2, sizeLog2 := 4, ring := 0x8000, cb := 0x9000 }
    let s := mapS.setQueue 0 7 x
    let e : Entry := { ({ idx := 0, op := 0x36, d := {} } : Entry) with started := true }
    let t := { mapS with fences := [⟨3, 7, 0, 2⟩] }.setQueue 0 7 { x with c := 1, p := 1, entries := [e] }
    (s.readyFor 0 7 0x36 { ({} : Desc) with tally := 3 } = true ∨ s.readyFor 0 7 0x36 { ({} : Desc) with tally := 3, lap := 1 } = true) ∧
      t.holdsOld 3 2 = false ∧ (t.queue 0 7).entries = [e] ∧ e.idx = 0 ∧ e.done = none ∧ t.queuesTaken 0 7 = true ∧ e.started = true := by
  decide +kernel
theorem witness_TranslationAndFences_fault :
    let e : FaultEntry := ⟨5, false, 3, 2, 0, 2 ^ 30, 2, 1, 5, 0, none, [.tileReq 40 true], 0⟩
    let s := { mapS with faults := [e] }
    s.faults = [e] ∧ e.part = 3 ∧ e.slot = none ∧ s.faultWaits = [] := by decide +kernel
def faultS : State :=
  let j : CopyJob := { eng := 17, id := 3, from_ := .tile 40, part := 3, spill := true, lva := 0x5340, tva := 0x1000, im := false
                       len := 192, tally := some 50, flags := 0, ctally := 0, parked := true }
  { (mapS.setReg bPART 3 0x050 0) with faults := [⟨5, false, 3, 2, 0, 2 ^ 30, 2, 1, 5, 0, some 3, [.tileReq 40 true], 0⟩], jobs := [j] }
theorem witness_FaultResumes : faultS.faults.length = 1 ∧ faultS.faults.all (fun e => e.slot.isSome && e.token == 5) = true ∧
    faultS.faultWaits = [] ∧ faultS.queuesIdle = true ∧ faultS.jobs.all (fun j => j.parked && j.spill && j.tally.isSome) = true ∧
    (faultS.tile 40).waitFor ≠ some .copies ∧ faultS.fld bCOPY 17 oEVENT_ROUTE 0 2 < 2 ∧ faultS.locked bXLAT 1 = false ∧
    faultS.takes mgr = true := by decide +kernel

/-- Port 5 up, enabled, with a frame of class 6 waiting. -/
def portS : State := (mapS.setReg bPORT 5 0x040 1).setPort 5 { ({} : Port) with
  up0 := true, txq := [{ ({ cls := 6, len := 1500 } : TxFrame) with half1 := false }], pool := 500 }
theorem witness_PortsAndLinks : portS.portOk 5 = true ∧ portS.locked bPORT 5 = false ∧ portS.fld bPORT 5 0x040 0 1 = 1 ∧
    mapS.fld bPORT 5 0x040 0 1 = 0 ∧ portS.powered = true ∧ portS.halfUp 5 false = true ∧
    (portS.setPort 5 {}).halfUp 5 false = false ∧ (portS.setReg bPORT 5 0x044 1).halves 5 = true ∧
    State.reset.portOk 24 = true ∧ State.reset.powered = false ∧ State.reset.pwr.vaux = true ∧ State.reset.halfUp 24 false = false := by
  decide +kernel
theorem witness_FramesReceivedAndPauses : portS.halfUp 5 false = true ∧ portS.admits 5 0 64 = true ∧ (portS.port 5).tsRx = [] ∧
    (portS.port 5).pausing = false ∧
    (portS.setReg bPORT 5 0x050 0x0B00).fcMode 5 = 0 ∧ (portS.setReg bPORT 5 0x050 0x0B01).fcMode 5 = 1 ∧
    (portS.setReg bPORT 5 0x050 0x0B02).fcMode 5 = 2 ∧
    (let s := portS.setPort 5 { portS.port 5 with pool := 2 ^ 30, pausing := true, paused := [(6, 1)] }
     s.admits 5 0 64 = false ∧ s.poolFreeSpace 5 ≤ s.headroom 5 + s.hysteresis 5 ∧ mget 0 (s.port 5).paused 6 ≠ 0 ∧
       s.fld bPORT 5 0x05C 0 16 ≠ 0) := by decide +kernel
theorem witness_FramesTransmitted : portS.halfUp 5 false = true ∧ (portS.port 5).pauseOut = [] ∧ portS.fld bSCHED 5 0x040 1 1 = 0 ∧
    ((portS.port 5).head false 6).isSome = true ∧ portS.openFor 5 6 = true ∧ (portS.port 5).head false 7 = none ∧
    (∀ c, c < 8 → (({ portS.port 5 with txq := [] } : Port)).head false c = none) := by decide +kernel
theorem witness_NetworkTime : portS.locked bPORT 5 = false ∧ (portS.port 5).tsRx = [] ∧ portS.locked bPTP 0 = false ∧
    portS.portUp portS.clockPort = false ∧ portS.portUp 5 = true ∧ (∀ k, k < 5 → (portS.portOk k && portS.portUp k) = false) ∧
    (portS.setReg bPTP 0 0x040 5).portUp (portS.setReg bPTP 0 0x040 5).clockPort = true ∧ portS.time.ns < 1000000000 ∧
    portS.time.sub < 2 ^ 32 := by decide +kernel
theorem witness_GatesShapersAndMeters :
    let g : GateList := { ({} : GateList) with entries := [(0, 0x03E8FF), (1, 0x07D00F)], len := 2, cycle := 5000 }
    let s := mapS.setSched 5 { ({} : Sched) with active := true, going := true, start := some 1000, act := g, shadow := g, entry := 0 }
    s.dataPort 5 = true ∧ s.locked bSCHED 5 = false ∧ mapS.fld bSCHED 5 0x040 0 1 = 0 ∧ (s.sched 5).active = true ∧
      (s.sched 5).start = some 1000 ∧ (s.sched 5).nextEntry.isSome = true ∧ (mapS.sched 5).active = false ∧
      ({ s.sched 5 with entry := 1 } : Sched).nextEntry = none ∧ s.takes mgr = true ∧ s.locked bMETER 0 = false ∧
      (0xFF : W32) &&& 0xFFFFFF00 = 0 := by decide +kernel

/-! ## Hypotheses met: KVT -/

/-- Connection 77 of partition 3 open and cached, a window over what its tables map (the DRAM tier at 0, SRAM at
2^30), and queue 9 with entry 4 in progress. -/
def kvtS : State :=
  let s := { mapS with mem := writeBytes mapS.mem 0x2008 (leBytes 8 (sramBase0 + 0x7F)) }
  let s := s.setConn 77 { ({} : Conn) with
    state := .open_, part := 3, peerCid := 900, peerAddr := 0xFFFF0A000001, mtu := 4096, e := 5, hemNext := 9, a := 5, n := 5, nMax := 5 }
  let s := (s.setKvtDie false { ({} : KvtDie) with cached := [77] }).setReg bPART 3 0x070 0x1000
  let s := s.setWindow 0x500 { ({} : Window) with
    ever := true, open_ := true, part := 3, gen := 1, base := 0, len := 0x60000000, rights := 15 }
  let s := s.setQueue 3 9 { ({} : Queue) with
    used := true, ring := 0x90000, cb := 0x80000, p := 5, c := 5, h := 4, entries := [{ idx := 4, op := 4, d := { ({} : Desc) with len := 64 } }] }
  (keyed (keyed (keyed s 0x80000 64) 0x10000 256) 0x90000 1024).setPort 5 { ({} : Port) with up0 := true, pool := 3000 }
/-- The same connection changed. -/
def kvtC (f : Conn → Conn) : State := kvtS.updConn 77 f
/-- A whole message, next in order: n bytes to the DRAM tier, or to SRAM. -/
def pkt (op n : Nat) (sram : Bool) : Pkt :=
  { ({} : Pkt) with
    cid := 77, port := 5, src := 0xFFFF0A000001, psn := 5, msgId := 9, flags := 2, length := BitVec.ofNat 32 n
    op28 := if opUnsol op then BitVec.ofNat 32 n else 0, rva := if sram then 0x40001000 else 0x10040, key := 0x50001
    imm := 1, payload := List.replicate n 7 }
/-- A control packet. -/
def ctl : Pkt := { ({} : Pkt) with cid := 77, port := 5, src := 0xFFFF0A000001, msgId := 66, flags := 0 }
def recv9 (d : Desc) : Recv := { p := 3, q := 9, idx := 4, d := d }
/-- A WRITE of 64 bytes, begun with PSN 5. -/
def msgT : TxMsg :=
  { org := .entry 3 9 4, op := 1, msgId := 66, len := 64, lva := 0x10000, rva := 0x20000, key := 0, imm := 0, first := some 5, sent := 1
    unsol := 0, granted := 0, d := { ({} : Desc) with len := 64 }, data := [], fence := false, small := false }

theorem witness_KvtMessagesHem_write : kvtS.rxWhole 1 (pkt 1 8 false) = true ∧ kvtS.isDbKey 3 0x50001 = false ∧
    kvtS.winCheck 3 1 0x50001 0x10040 8 = 0 ∧ kvtS.lineAt 3 accW 0x10040 8 = some 0x10040 := by decide +kernel
theorem witness_KvtMessagesHem_bell :
    let s := (kvtS.setReg bPART 3 0x07C 0x50001).setPart 3 { kvtS.part 3 with dbLive := true }
    let k := { pkt 1 8 false with rva := 400 }
    s.rxWhole 1 k = true ∧ s.isDbKey 3 k.key = true ∧ s.dbCheck 3 1 400 8 = 0 ∧ s.bellLost 3 50 = true := by decide +kernel
theorem witness_KvtMessagesHem_receive :
    let d : Desc := { ({} : Desc) with lva := 0x40002000, len := 128, rva := 0x40002100 }
    let s := kvtC (fun c => { c with recvs := [recv9 d] })
    s.rxWhole 2 (pkt 2 8 true) = true ∧ s.lineAt 3 accW 0x40001000 8 = some (sramBase0 + 0x1000) ∧ inSram (sramBase0 + 0x1000) = true ∧
      s.loneEntry 3 9 4 = true ∧ s.lineAt 3 accW 0x40002100 16 = some (sramBase0 + 0x2100) ∧ s.rxWhole 5 (pkt 5 8 true) = true ∧
      s.winCheck 3 2 0x50001 0x40001000 8 = 0 ∧ s.lineAt 3 accW 0x40002000 8 = some (sramBase0 + 0x2000) := by decide +kernel
theorem witness_KvtMessagesHem_read :
    let k := { pkt 3 0 false with length := 64 }
    kvtS.rxWhole 3 k = true ∧ kvtS.winCheck 3 3 k.key 0x10040 64 = 0 ∧ kvtS.lineAt 3 accR 0x10040 64 = some 0x10040 := by decide +kernel
theorem witness_KvtMessagesHem_atomic : kvtS.rxWhole 6 (pkt 6 8 false) = true ∧ kvtS.winCheck 3 6 0x50001 0x10040 8 = 0 ∧
    kvtS.lineAt 3 accAT 0x10040 8 = some 0x10040 ∧ inDram 0x10040 = true ∧ (pkt 6 8 false).imm.toNat % 16 = 1 := by decide +kernel
theorem witness_KvtMessagesHem_reduce : kvtS.rxWhole 8 (pkt 8 8 false) = true ∧ kvtS.winCheck 3 8 0x50001 0x10040 8 = 0 ∧
    kvtS.lineAt 3 accRD 0x10040 8 = some 0x10040 ∧ 8 % unitBytes 0 = 0 := by decide +kernel
theorem witness_KvtMessagesHem_responses :
    let a : Await := { org := .entry 3 9 4, msgId := 55, op := 3, len := 8, lva := 0x40001000, d := {} }
    let s := kvtC (fun c => { c with awaits := [a] })
    let t := kvtC (fun c => { c with awaits := [{ a with op := 6 }] })
    let k := { pkt 4 8 false with op24 := 55 * 65536 }
    s.rxWhole 4 k = true ∧ a.msgId = k.op24.extractLsb' 16 16 ∧ a.runs = [] ∧ s.loneEntry 3 9 4 = true ∧ t.rxWhole 7 k = true ∧
      s.lineAt 3 accW a.lva 8 = some (sramBase0 + 0x1000) := by decide +kernel
def treeT : CollDef := { part := 3, tag := 0xABCD, size := 4, rank := 1, last := 3, home := false, parent := some 76, children := [{ cid := 77, first := 2, last := 3 }] }
def leafT : CollDef := { treeT with rank := 3, parent := some 77, children := [] }
def runT : CollRun := { p := 3, q := 9, idx := 4, number := 12, len := 10, src := 0x10000, dst := 0x10040, kind := 2, op := 0, ty := 0, form := 0
                        tally := 0, slots := 6, waiting := false }
theorem witness_KvtMessagesHem_up :
    let s := (kvtC (fun c => { c with edge := some 6 })).setColl 6 { ({} : CollGroup) with state := .running, d := treeT, number := 12, run := some runT }
    let b := collHeader treeT.tag runT 0 2 10 ++ List.replicate 40 0
    let k := { pkt 0x20 72 false with payload := b }
    s.rxWhole 0x20 k = true ∧ edgeIdx (s.coll 6).d 77 = some 1 ∧ s.collEarly (s.conn 77) 0x20 k = false ∧
      s.collOver (s.conn 77) 0x20 k = false ∧ s.slotBusy 6 77 0x20 0 = false ∧
      headerOk (s.coll 6).d runT 1 0x20 b = true ∧ b.length = 32 + upBytes runT 10 := by decide +kernel
theorem witness_KvtMessagesHem_down :
    let r := { runT with kind := 3, dstRuns := [{ va := 0, n := 2 ^ 30, pa := 0, bits := 0x3F, epoch := 0 }] }
    let m0 : TxMsg := { msgT with org := .coll 6 0, op := 0x20 }
    let s := (kvtC (fun c => { c with edge := some 6, txq := [m0] })).setColl 6 { ({} : CollGroup) with state := .running, d := leafT, number := 12, run := some r }
    let m := (chunkSpan (downElems leafT r) (runC r) 0).2
    let b := collHeader leafT.tag r 0 1 m ++ List.replicate (tyBytes r.ty m) 0
    let k := { pkt 0x21 (32 + tyBytes r.ty m) false with payload := b }
    s.rxWhole 0x21 k = true ∧ edgeIdx (s.coll 6).d 77 = some 0 ∧ s.collEarly (s.conn 77) 0x21 k = false ∧
      s.collOver (s.conn 77) 0x21 k = false ∧ s.slotBusy 6 77 0x21 0 = false ∧ headerOk (s.coll 6).d r 0 0x21 b = true ∧ s.collUnacked 6 = true ∧
      s.heldAt 3 r.dstRuns (r.dst + (ownPart leafT r 0 (b.drop 32)).1) (ownPart leafT r 0 (b.drop 32)).2.length = some 0x10040 := by
  decide +kernel
theorem witness_KvtMessagesHem_close : kvtS.rxWhole 0x32 (pkt 0x32 0 false) = true ∧ (pkt 0x32 0 false).op24.toNat % 256 ≠ 1 ∧
    (kvtS.conn 77).cmd = none ∧ kvtS.rxGood 0x32 { pkt 0x32 0 false with op24 := 1 } = true ∧ (kvtS.conn 77).bare = true := by decide +kernel

theorem witness_KvtControlPackets :
    let s := kvtC (fun c => { c with n := 8, nMax := 8, txq := [msgT] })
    s.rxGood 0x10 { ctl with op24 := 6 * 256 } = true ∧ psnDiff 6 5 ≠ 0 ∧ psnDiff 6 5 ≤ psnDiff 8 5 ∧ msgT.covered 4096 6 = true ∧
      s.loneEntry 3 9 4 = true ∧ (s.conn 77).echoed = false ∧ s.rxGood 0x10 { ctl with op24 := 5 * 256, flags := 0x40 } = true ∧
      s.rxGood 0x11 { ctl with op24 := 5 * 256 + 1 } = true ∧ ctl.op28.getLsbD 0 = false ∧ psnDiff 5 5 < psnDiff 8 5 ∧
      msgT.msgId = ({ ctl with op28 := 66 * 65536 } : Pkt).op28.extractLsb' 16 16 ∧ s.rxGood 0x12 ctl = true ∧
      s.rxGood 0x13 { ctl with payload := List.replicate 64 0 } = true ∧ kvtS.rxGood 0x11 { ctl with op24 := 8 } = true ∧
      kvtS.soft = [] ∧ (kvtS.conn 77).bare = true := by decide +kernel
theorem witness_KvtControlPackets_probe : kvtS.rxGood 0x10 { ctl with op24 := 5 * 256 } = true ∧ (kvtS.conn 77).a = 5 ∧ ctl.fcsOk = true := by
  decide +kernel
/-- Partition 3 listens under tag 0x77 on the address a CONNECT from elsewhere names. -/
def listenS : State :=
  let s := (mapS.setReg bPART 3 0x0A0 0).setReg bPART 3 0x080 0x77
  (s.setReg bPART 3 0x074 0xFF).setReg bPART 3 0x060 100
theorem witness_KvtControlPackets_connect :
    let s := listenS.setReg bPART 3 0x0A8 0xFFFF0000 |>.setReg bPART 3 0x0AC 0x0100000A
    let k := { ctl with dst := BitVec.ofNat 128 (s.partIp 3 0) }
    s.connectPart k.dst = some 3 ∧ s.reg bPART 3 0x080 = 0x77 ∧ s.connRoom 3 0 false = true ∧ s.cidFree 42 = true ∧
      mapS.connectPart 5 = none ∧ s.conns.all (fun y => y.2.peerAddr != k.src) = true := by decide +kernel
theorem witness_KvtControlPackets_accept :
    let s := kvtC (fun c => { c with state := .connecting, cmd := some mgr })
    (s.conn 77).state = .connecting ∧ (s.conn 77).cmd = some mgr ∧ s.outFree .manager = true ∧ mapS.queuesIdle = true ∧
      opKnown 0x0B = false ∧ opKnown 1 = true ∧ (mapS.conn 77).state = .free := by decide +kernel

def heldT : Held := { va := 0, n := 2 ^ 30, pa := 0, bits := 0x3F, epoch := 0 }
theorem witness_KvtTimersAndSending_context :
    let s := kvtS.setKvtDie false { ({} : KvtDie) with fetch := [77] }
    let a := (s.reg bKVT 0 0x068).toNat / 4096 * 4096 + 77 * 256
    s.queuesIdle = true ∧ (s.kvtDie (s.conn 77).home).fetch = [77] ∧ (s.kvtDie (s.conn 77).home).misses = [] ∧ s.bad a 256 = false ∧
      ({ s with ue := [a] } : State).bad a 256 = true ∧ (s.conn 77).bare = true ∧ s.soft = [] := by decide +kernel
theorem witness_KvtTimersAndSending_send :
    let m := { msgT with first := none, sent := 0, runs := [heldT] }
    let s := kvtC (fun c => { c with txq := [m] })
    s.queuesIdle = true ∧ connLive (s.conn 77) = true ∧ s.cached 77 = true ∧ s.msgParked 77 m = false ∧ (s.conn 77).n = (s.conn 77).nMax ∧ m.len ≤ (s.conn 77).mtu ∧
      m.len ≤ (s.conn 77).uc ∧ s.heldAt 3 m.runs m.lva m.len = some 0x10000 ∧ psnDiff (s.conn 77).nMax (s.conn 77).a < 256 := by decide +kernel
theorem witness_KvtTimersAndSending_again :
    let m := { msgT with len := 3, data := [1, 2, 3] }
    let s := kvtC (fun c => { c with nMax := 6, txq := [m], sent := [{ psn := 5, msgId := 66, off := 0, label := 0 }] })
    (s.conn 77).n ≠ (s.conn 77).nMax ∧ m.msgId = 66 ∧ m.first.isSome = true ∧ m.data.length = m.len ∧ s.msgParked 77 m = false := by decide +kernel
theorem witness_KvtTimersAndSending_timers :
    let s := kvtC (fun c => { c with accepted := 1, got := [7], nMax := 8, retries := 7, suspect := [2] })
    connLive (s.conn 77) = true ∧ (s.conn 77).enc = false ∧ 0 < (s.conn 77).accepted ∧ (s.conn 77).got ≠ [] ∧ (s.conn 77).a ≠ (s.conn 77).nMax ∧
      s.fld bKVT 0 0x04C 16 4 ≤ (s.conn 77).retries ∧ (s.conn 77).bare = true ∧ 0 < s.fld bKVT 0 0x04C 16 4 ∧
      (s.conn 77).suspect.contains 2 = true ∧ (s.conn 77).probing.contains 2 = false := by decide +kernel
theorem witness_KvtTimersAndSending_grants :
    let m : RxMsg := { op := 1, msgId := 9, len := 100000, firstPsn := 5, rva := 0, key := 0, imm := 0, fence := false, small := false, unsol := 4096,
                        granted := 100000, grantSent := 50000, arrived := 4096, got := [0], held := [], recv := none, win := none, ofMsg := 0, db := none }
    let s := kvtC (fun c => { c with rxq := [m] })
    (s.conn 77).rxq = [m] ∧ m.grantSent < m.granted ∧ 0 < m.pendingGrant 4096 ∧ m.unsol < m.grantSent ∧
      (kvtC (fun c => { c with pktsInt := 4, ceInt := 3 })).conns.all (fun x => x.2.rxq.isEmpty) = true := by decide +kernel
theorem witness_KvtTimersAndSending_connect : (8 : Nat) ≤ 8 ∧ mgr.chan = .manager ∧ kvtS.outFree .manager = true ∧
    ((kvtC (fun c => { c with state := .forwarding })).part 3).cmd = none := by decide +kernel
theorem witness_KvtTimersAndSending_combine :
    let r := { runT with srcRuns := [heldT], got := [(0, 0, List.replicate 40 1)], src0 := List.replicate 40 0 }
    let s := (kvtC (fun c => { c with edge := some 6 })).updConn 76 (fun c => { c with state := .open_, part := 3, edge := some 6 })
    let s := s.setColl 6 { ({} : CollGroup) with state := .running, d := treeT, number := 12, run := some r }
    isRoot treeT = false ∧ r.upNext < chunksOf (upElems treeT r) (runC r) ∧ (s.chunkKids 6 r 0).isSome = true ∧
      s.heldAt 3 r.srcRuns (r.src + 0) (tyBytes 0 10) = some 0x10000 ∧
      (r.src0.drop 0).take (tyBytes 0 10) = readBytes s.mem 0x10000 (tyBytes 0 10) ∧
      chunkSpan (upElems treeT r) (runC r) 0 = (0, 10) ∧ r.slots ≤ s.slotsFree false := by decide +kernel

/-! ## Hypotheses met: descriptors -/

/-- Queue 9 of partition 3 with nothing in it, about to take entry 5. -/
def ringS (kind : Nat) : State :=
  kvtS.setQueue 3 9 { ({} : Queue) with used := true, kind := kind, ring := 0x90000, cb := 0x80000, p := 5, c := 5, h := 5 }
def descT : Desc := { ({} : Desc) with cid := 77, len := 64, lva := 0x10000, rva := 0x20000, key := 0x50001, tally := 0x80000003 }
theorem witness_TransferDescriptors_transfer :
    (ringS 0).readyAlone 3 9 1 descT = true ∧ ((ringS 0).taken 3 9 1 descT).transferStatus 3 1 descT = 0 ∧
      ((ringS 0).taken 3 9 1 descT).cached 77 = true ∧
      (∃ h, (((ringS 0).taken 3 9 1 descT).xlate false 3 0x10000 (localAcc 1)).2 = .inr h) ∧
      ((ringS 0).taken 3 9 1 { descT with cid := 78 }).transferStatus 3 1 { descT with cid := 78 } ≠ 0 :=
  ⟨by decide +kernel, by decide +kernel, by decide +kernel, ⟨_, rfl⟩, by decide +kernel⟩
theorem witness_TransferDescriptors_uncached :
    let s := (ringS 0).setKvtDie false {}
    s.readyAlone 3 9 5 descT = true ∧ (s.taken 3 9 5 descT).transferStatus 3 5 descT = 0 ∧ (s.taken 3 9 5 descT).cached 77 = false ∧
      ((s.taken 3 9 5 descT).kvtDie ((s.taken 3 9 5 descT).conn 77).home).fetch.contains 77 = false := by decide +kernel
def copyT : Desc := { descT with rva := 0x40000000, tally := 0x80000030 }
/-- A tile side in SRAM, and one in the DRAM tier. -/
theorem witness_TransferDescriptors_copy :
    let v := (ringS 1).taken 3 9 0x20 copyT
    (ringS 1).readyAlone 3 9 0x20 copyT = true ∧ copyCheck copyT = 0 ∧ copyCheck { copyT with len := 3 } ≠ 0 ∧
      v.tbSame 3 copyT.rva.toNat = true ∧ v.tbSame 3 copyT.lva.toNat = true ∧ v.tbSame 3 0x10000 = true ∧
      v.jobs.all (fun j => j.id != v.fresh) = true ∧ v.pureXl 3 copyT.rva.toNat accW = some sramBase0 ∧ inSram sramBase0 = true ∧
      (v.pureXl 3 copyT.lva.toNat accR).isSome = true ∧ v.pureXl 3 0x10000 accW = some 0x10000 ∧ inSram 0x10000 = false ∧
      inIm 0x10000 = false := by decide +kernel
def fenceS : State :=
  (ringS 0).setQueue 3 9 { (ringS 0).queue 3 9 with p := 6, c := 6, fence := true, entries := [{ idx := 5, op := 0x0F, d := {} }] }
theorem witness_TransferDescriptors_fence : (ringS 0).readyAlone 3 9 0x0F descT = true ∧ fenceS.queuesIdle = true ∧
    ∀ e, (fenceS.queue 3 9).entries = [e] → fenceS.loneEntry 3 9 e.idx = true ∧ e.started = true ∧ e.op = 0x0F := by
  refine ⟨by decide +kernel, by decide +kernel, fun e h => ?_⟩
  have : e = { idx := 5, op := 0x0F, d := {} } := by
    have h2 : (fenceS.queue 3 9).entries = [{ idx := 5, op := 0x0F, d := {} }] := by decide +kernel
    rw [h2] at h; injection h with h _; exact h.symm
  subst this; decide +kernel

theorem witness_ControlDescriptors_windows :
    let s := ringS 2
    let t := s.setReg bPART 3 0x07C 0x50001 |>.setPart 3 { s.part 3 with dbLive := true }
    s.readyAlone 3 9 0x30 descT = true ∧ s.readyAlone 3 9 0x31 descT = true ∧ (s.taken 3 9 0x31 descT).isDbKey 3 descT.key = false ∧
      (let w := s.window 0x500; w.ever && w.open_ && w.part == 3 && w.gen == descT.key.setWidth 8) = true ∧
      (s.taken 3 9 0x31 descT).conns.all (fun y => y.2.rxq.isEmpty) = true ∧ t.readyAlone 3 9 0x31 descT = true ∧
      (t.taken 3 9 0x31 descT).isDbKey 3 descT.key = true ∧ ((t.taken 3 9 0x31 descT).part 3).dbLive = true := by decide +kernel
theorem witness_ControlDescriptors_revokeDone :
    let s := { fenceS with revokes := [{ p := 3, q := 9, idx := 5, win := 0x500 }] }
    let t := s.updConn 77 (fun c => { c with txq := [{ msgT with win := some 0x500 }] })
    s.queuesIdle = true ∧ s.windowRead 0x500 = false ∧ t.windowRead 0x500 = true ∧ s.loneEntry 3 9 5 = true ∧
      (s.queue 3 9).entries.all (·.started) = true := by decide +kernel
/-- The bytes of a TALLY_SET that would set tally 5 of the partition to 77. -/
def setT (lap : Nat) : List Byte :=
  [0x33, 0, 0, 0] ++ leBytes 4 0 ++ leBytes 8 0 ++ leBytes 8 77 ++ leBytes 4 0 ++ leBytes 4 (lap * 2 ^ 28) ++ leBytes 4 0 ++
    leBytes 4 0x80000005 ++ leBytes 8 0 ++ List.replicate 16 0
theorem witness_ControlDescriptors_arm :
    let s := { ringS 2 with mem := writeBytes kvtS.mem 0x10040 (setT 0) } |>.setReg bPART 3 0x06C 0x400
    let d := { descT with lva := 0x10040, rva := 5 }
    let v := s.taken 3 9 0x32 d
    s.readyAlone 3 9 0x32 d = true ∧ d.lva.toNat % 64 = 0 ∧ kind0 d.tally = true ∧ v.armedCount 3 < 16384 ∧ v.armed.all (fun a => a.p != 3) = true ∧
      mget 0 (v.part 3).tallies (tnIdx d.tally) < d.rva ∧
      (match v.xlate false 3 0x10040 accR with
       | (w, .inr h) => h.at_ 0x10040 == 0x10040 && w.lineOk 3 h.ksel 0x10040 64 &&
          w.embeddedOk 3 (parseDesc (readBytes v.mem 0x10040 64)).1 (parseDesc (readBytes v.mem 0x10040 64)).2
       | _ => false) = true := by decide +kernel
theorem witness_ControlDescriptors_fire :
    let a : Armed := { p := 3, tally := 4, threshold := 0, embPa := 0x10040, embK := 0, op := 0x33, d := { descT with tally := 0x80000005 } }
    a.p = 3 ∧ a.parked = false ∧ kind0 a.d.tally = true ∧ ({ ringS 2 with armedDue := [a] } : State).queuesIdle = true ∧
      (ringS 2).armed = [] ∧ (ringS 2).readyAlone 3 9 0x33 descT = true ∧ kind0 descT.tally = true ∧
      ((ringS 2).taken 3 9 0x33 descT).armed = [] ∧ kind0 0 = false := by decide +kernel
/-- A group of partition 3 with pinned pages under the operands. -/
def collS : State :=
  { ringS 2 with mem := writeBytes kvtS.mem 0x2000 (leBytes 8 0x7F) }.setColl 6 { ({} : CollGroup) with state := .idle, d := leafT, number := 2 ^ 32 - 1 }
def startT : Desc := { descT with imm := 6 + 2 * 4096, len := 64 }
theorem witness_ControlDescriptors_collStart :
    let v := collS.taken 3 9 0x34 startT
    let r : CollRun := { p := 3, q := 9, idx := 5, number := 0, len := 64, src := 0x10000, dst := 0x20000, kind := csKind startT, op := csOp startT
                         ty := csTy startT, form := csForm startT, tally := startT.tally, slots := slotsNeeded leafT (csKind startT), waiting := false }
    collS.readyAlone 3 9 0x34 startT = true ∧ csHandle startT = 6 ∧ v.collCheck 3 startT = 0 ∧ (collS.coll 6).run = none ∧ (collS.coll 6).later = [] ∧
      v.collCheck 3 { startT with len := 0 } = 0 ∧ v.collCheck 3 { startT with imm := 7 } ≠ 0 ∧
      (match v.vhold false 3 accRD (runsOf (srcBytes leafT r)) r.src (srcBytes leafT r) [] with
       | (w1, .inr hs) => (match w1.vhold false 3 accW (runsOf (dstBytes leafT r)) r.dst (dstBytes leafT r) [] with
          | (w2, .inr ht) => pinnedRuns hs && pinnedRuns ht && w2.collWait.isEmpty && decide (r.slots ≤ w2.slotsFree false) && decide (v.colls = w2.colls)
          | _ => false)
       | _ => false) = true := by decide +kernel
/-- The same entry in the ring and the index P in the control block. -/
def bellS (p lap : Nat) : State :=
  let s := (ringS 2).updQueue 3 9 (fun x => { x with entries := [] })
  { s with mem := writeBytes (writeBytes s.mem 0x80000 (leBytes 4 p)) (0x90000 + 5 * 64) (setT lap), queues := [(3 * 4096 + 9, s.queue 3 9)] }
theorem witness_ControlDescriptors_doorbell :
    let s := bellS 6 0
    let x := s.queue 3 9
    let e := parseDesc (readBytes s.mem (0x90000 + 5 * 64) 64)
    s.stopping = false ∧ s.bellLost 3 9 = false ∧ s.bellLost 3 10 = true ∧ (s.part 3).lstate = .active ∧ x.qstate = 0 ∧ x.parked = false ∧
      s.queuesIdle = true ∧ s.lineAt 3 accR x.cb 64 = some 0x80000 ∧ field (readBytes s.mem 0x80000 64) 0 4 = 6 ∧ x.used = true ∧ x.fence = false ∧
      field (readBytes s.mem 0x80000 64) 20 1 % 4 = 0 ∧ s.lineAt 3 accR (x.slotVa x.c) 64 = some (0x90000 + 5 * 64) ∧ e.1 = 0x33 ∧
      e.2.lap.toNat = x.lapOf x.c ∧ kind0 e.2.tally = true ∧ s.armed = [] ∧
      field (readBytes (bellS 5 0).mem 0x80000 64) 0 4 = x.c ∧ 2 ^ x.sizeLog2 < idxDiff (field (readBytes (bellS 60 0).mem 0x80000 64) 0 4) x.c := by
  decide +kernel
theorem witness_ControlDescriptors_lap :
    let s (lap : Nat) := (bellS 6 lap).updQueue 3 9 (fun x => { x with p := 6, qstate := 1 })
    (s 0).canConsume 3 9 = true ∧ (s 0).queues = [(3 * 4096 + 9, (s 0).queue 3 9)] ∧ (s 0).lineAt 3 accR 0x90140 64 = some 0x90140 ∧
      (parseDesc (readBytes (s 1).mem 0x90140 64)).2.lap.toNat ≠ ((s 1).queue 3 9).lapOf 5 ∧
      (parseDesc (readBytes (s 0).mem 0x90140 64)).2.lap.toNat = ((s 0).queue 3 9).lapOf 5 ∧ ((s 1).queue 3 9).slotVa 5 = 0x90140 := by decide +kernel
theorem witness_ControlDescriptors_timer :
    let x : Queue := { (ringS 2).queue 3 9 with timer := true, ncount := 4, nkind := 2 }
    x.used = true ∧ x.timer = true ∧ x.ncount ≠ 0 ∧ x.nkind = 2 := by decide +kernel

/-! ## Hypotheses met: firmware commands -/

theorem witness_QueueConnectionAndGroupCommands_create :
    let s := keyed ((mapS.setReg bPART 3 0x068 20).setMb .manager false {}) 0x80000 64
    s.takes mgr = true ∧ s.queueCheck 3 9 1 4 0x90000 0x80000 = 0 ∧ s.queueCheck 3 9 3 4 0x90000 0x80000 ≠ 0 ∧ s.queueCheck 3 9 1 21 0x90000 0x80000 = 3 ∧
      (match s.vget false 3 accR 0x80000 64 [] with | (v, .ok _ _) => (v.mb .manager true).full && decide (v.queues = s.queues) | _ => false) = true := by
  decide +kernel
theorem witness_QueueConnectionAndGroupCommands_destroy :
    let s := keyed mapS 0x80000 64 |>.setQueue 3 9 { ({} : Queue) with used := true, cb := 0x80000 }
    let x := s.queue 3 9
    s.takes mgr = true ∧ (s.queue 3 8).used = false ∧ x.used = true ∧ x.cmd = none ∧ x.qstate < 4 ∧ x.entries = [] ∧ x.nkind = 0 ∧
      s.lineAt 3 accR x.cb 4 = some 0x80000 ∧ leNat (readBytes s.mem 0x80000 4) = x.c ∧ s.outFree .manager = true := by decide +kernel
theorem witness_QueueConnectionAndGroupCommands_open :
    let s := (mapS.setReg bPART 3 0x060 50).setReg bPART 3 0x074 0xFF
    s.takes mgr = true ∧ (s.part 3).lstate = .active ∧ (s.pkeys 3).root.isSome = true ∧ s.quotaRoom 3 7 = true ∧ mapS.quotaRoom 3 7 = false ∧
      s.diePinned s.newHome < 4096 ∧ s.cidFree (2 ^ 20 - 1) = true ∧ (s.part 4).lstate ≠ .active := by decide +kernel
theorem witness_QueueConnectionAndGroupCommands_close :
    kvtS.takes mgr = true ∧ (kvtS.conn 77).state = .open_ ∧ (kvtS.conn 77).bare = true ∧ (kvtS.conn 78).state = .free ∧
      (kvtC (fun c => { c with state := .error })).takes mgr = true ∧ ((kvtC (fun c => { c with state := .error })).conn 77).cmd = none ∧
      ((kvtC (fun c => { c with state := .closing })).conn 77).state = .closing := by decide +kernel
theorem witness_QueueConnectionAndGroupCommands_groups :
    kvtS.takes mgr = true ∧ treeOk leafT = true ∧ kvtS.collMay 4095 = true ∧ kvtS.edgesOk 4095 leafT = true ∧
      treeOk { leafT with rank := 4 } = false ∧ (kvtC (fun c => { c with state := .closing })).edgesOk 6 leafT = false ∧
      collS.takes mgr = true ∧ (collS.coll 6).state = .idle ∧ (collS.coll 7).state = .undef := by decide +kernel

/-- Partition 3 in a state of its life. -/
def lifeS (l : LState) : State :=
  mapS.setPart 3 { mapS.part 3 with lstate := l, dbLive := true }
theorem witness_PartitionLifeCycle :
    (lifeS .active).takes mgr = true ∧ (lifeS .active).locked bPART 3 = false ∧ (lifeS .active).fld bPART 3 oEVENT_ROUTE 0 2 < 2 ∧
      ((lifeS .active).part 3).cmd = none ∧ (lifeS .active).outFree .manager = true ∧ (lifeS .active).locked bXLAT 0 = false ∧
      (lifeS .active).locked bXLAT 1 = false ∧ (lifeS .active).partLocked 3 = false ∧
      ((lifeS .active).usedQueues 3).length ≤ 4096 ∧ (lifeS .active).rect 3 0 = none ∧ (lifeS .active).tileOwner 1439 = none ∧
      (((lifeS .active).setTile 1439 { ({} : Tile) with run := .idle }).tile 1439).run = .idle ∧ (lifeS .active).locked bTILE 1439 = false ∧ (lifeS .active).queues = [] ∧
      (lifeS .active).conns = [] ∧ (lifeS .active).colls = [] ∧ (lifeS .active).armed = [] ∧ (lifeS .active).armedDue = [] ∧
      ((lifeS .active).part 3).held = [] ∧ (lifeS .active).jobs = [] ∧ (lifeS .active).revokes = [] ∧
      ((lifeS .active).part 3).launch = none ∧ (lifeS .active).groups = [] ∧ (lifeS .free).takes mgr = true := by decide +kernel
theorem witness_PartitionLifeCycle_activate :
    let s := lifeS .configuring
    let t := (s.setReg bTILE 40 0x048 0x80000003).updTile 40 (fun x => { x with clearing := true })
    s.ident.gridReady = true ∧ (s.part 3).rec_.en = true ∧ (s.part 3).dbLive = true ∧ s.partClearing 3 = false ∧ t.partClearing 3 = true ∧
      s.takes mgr = true ∧ t.takes mgr = true := by decide +kernel
theorem witness_PartitionLifeCycle_rest :
    let s := lifeS .frozen
    let img : PartImage := { s.partImage 3 with queues := [], conns := [], tiles := [] }
    let r := { lifeS .configuring with images := [(1, img)] }
    s.takes mgr = true ∧ s.queues = [] ∧ (s.pkeys 3).root.isSome = true ∧ s.alarmed = false ∧
      ((s.setConn 77 (kvtS.conn 77)).conn 77).state = .open_ ∧ r.takes mgr = true ∧ r.imageOf 1 = img ∧ r.restoreCheck 3 img = 0 ∧
      (r.pkeys 3).rootId = img.rootId ∧
      ((lifeS .forwarding).setConn 77 { kvtS.conn 77 with state := .forwarding }).holdsLeft 3 = true ∧ (lifeS .forwarding).takes mgr = true := by
  decide +kernel
theorem witness_PartitionLifeCycle_done :
    let s : LState → State := fun l => ((lifeS l).setPart 3 { (lifeS l).part 3 with cmd := some mgr }).setReg bPART 3 oEVENT_EN 0
    ((s .quiescing).part 3).cmd = some mgr ∧ (s .quiescing).outFree .manager = true ∧ ((s .quiescing).part 3).cmd2 = none ∧
      (s .quiescing).reg bPART 3 oEVENT_EN = 0 ∧ ((s .quiescing).part 3).draining = false ∧ (s .quiescing).queues = [] ∧
      (s .quiescing).takes mgr = true ∧ (s .freezing).freezeReady 3 = true := by decide +kernel
theorem witness_PartitionLifeCycle_restored :
    let m : PartImage := { mapS.partImage 3 with queues := [], conns := [], tiles := [] }
    let s := { ((lifeS .restoring).setPart 3 { (lifeS .restoring).part 3 with cmd := some mgr, image := 1 }) with images := [(1, m)] }
    s.imageOf (s.part 3).image = m ∧ m.queues = [] ∧ s.queues = [] ∧ m.conns = [] ∧ m.tiles = [] ∧ s.takes mgr = true := by decide +kernel

theorem witness_MailboxesAndManagement :
    let e := on.setMb .manager true {}
    let s := e.setMb .security true { full := true, words := [0x0502#64] }
    let n := e.setMb (.part 3) true { full := true, words := [0x0401#64] }
    let b := e.setMb .security true { full := true, words := [0xFFFF#64] }
    on.fwReady = true ∧ chanOkay (.part 1023) = true ∧ on.outFree (.part 3) = true ∧ (on.mb .manager true).full = true ∧
      s.outranked .security = false ∧ n.outranked (.part 3) = false ∧ on.outranked .manager = false ∧
      (s.mb .security true).src = false ∧ chanPriv .security = true ∧ s.fwReady = true ∧ chanPriv (.part 3) = false ∧
      (n.mb (.part 3) true).full = true ∧ (n.mb (.part 3) true).src = false ∧ knownOps.contains 0x0401 = true ∧
      knownOps.contains (((b.mb .security true).words.getD 0 0).toNat % 2 ^ 16) = false := by decide +kernel
theorem witness_MailboxesAndManagement_tile :
    let s := (qw (.mbox 8)).setMb (.tile 40) false { full := true, words := [1, 2] }
    (s.tile 40).waitFor = some (.mbox 8) ∧ (s.mb (.tile 40) false).full = true ∧ (s.mb (.tile 40) false).pend = [] ∧
      s.tileEdges 40 = true := by decide +kernel
/-- A state whose operator record lists these managers. -/
def opS (s : State) (ms : List (BitVec 128)) : State :=
  s.updStore (fun x => x.put { body := .operator ms 0, signer := .operator, seq := 1 })
theorem witness_MailboxesAndManagement_mgmt :
    let s := opS on [0xABC]
    let t := (s.setMb .manager false { full := true, seq := 7 }).setMb .security false { awaiting := some (1, 4, 0, [5]) }
    s.mgmtFrom 0xABC = true ∧ s.mgmtFrom 0xABD = false ∧ (s.mb .manager true).last ≠ some (9 : W32) ∧
      ((s.setMb .manager true { last := some 9 }).mb .manager true).last = some 9 ∧ (t.mb .manager false).full = true ∧
      (t.mb .manager false).seq = 7 ∧ (t.mb .manager false).pend = [] ∧ (t.mb .security false).awaiting = some (1, 4, 0, [5]) ∧
      (t.mb .security true).awaiting = none ∧ instOk bTILE 1439 = true ∧ on.pwr.vaux = true ∧
      ({ on with ident := { on.ident with recovery := true } } : State).ident.recovery = true := by decide +kernel
theorem witness_MailboxesAndManagement_gasp :
    let s := (kvtC (fun c => { c with edge := some 6 })).setColl 6 { ({} : CollGroup) with state := .idle, d := { leafT with parent := some 77 } }
    s.powered = true ∧ s.queuesIdle = true ∧ s.conns.map Prod.fst = [77] ∧ isOpen (s.conn 77) = true ∧ (s.conn 77).edge = some 6 ∧ (s.coll 6).state = .idle ∧
      collEdges (s.coll 6).d = [77] ∧ (s.coll 6).run = none ∧ (s.coll 6).later = [] ∧ (s.conn 77).txq = [] ∧ (s.conn 77).rxq = [] ∧
      (s.conn 77).recvs = [] ∧ (s.conn 77).awaits = [] ∧ (s.conn 77).cmd = none ∧ s.soft = [] := by decide +kernel
theorem witness_MailboxesAndManagement_channel :
    let s := (lifeS .active).setPart 3 { (lifeS .active).part 3 with chan := some 0x100 } |>.setMb (.part 3) false { full := true, seq := 4 }
    (s.part 3).chan.isSome = true ∧ (8 : BitVec 4).toNat ≤ 8 ∧ (s.mb (.part 3) false).full = true ∧ (s.mb (.part 3) false).seq = 4 ∧
      (s.mb (.part 3) false).pend = [] := by decide +kernel
theorem witness_MailboxesAndManagement_packet :
    let s := opS on [0xABC]
    let k : Pkt := { ({} : Pkt) with port := 24, src := 0xABC, payload := [0, 0, 1, 0, 0, 0, 0, 9] ++ List.replicate 16 0 }
    s.queuesIdle = true ∧ s.mgmtFrom k.src = true ∧ k.version = 1 ∧ k.fcsOk = true ∧ k.trailerOk = true ∧ k.payload.getD 0 0 = 0 ∧
      k.payload.getD 1 0 = 0 ∧ mgmtWords k.payload ≠ [] ∧ (mgmtWords k.payload).length ≤ 8 ∧
      (s.mb .manager true).last ≠ some (BitVec.ofNat 32 (beNat ((k.payload.drop 4).take 4))) := by decide +kernel

/-- A command of the security channel. -/
def sec : Cmd := { chan := .security, tag := 7 }
def secS : State := (mapS.setMb .security true { full := true }).setMb .manager true {}
def once : Twice := { agrees := true, rerun := true }
theorem witness_KeysAlarmsAndAttestation :
    secS.fwReady = true ∧ secS.queuesIdle = true ∧ (secS.mb .security true).full = true ∧ (secS.mb .manager true).full = false ∧
      secS.alarmed = false ∧ (secS.pkeys 3).root.isSome = true ∧ (secS.pkeys 1023).root = none ∧ secS.conns = [] ∧ secS.powered = true ∧
      secS.parts.all (fun x => x.2.lstate != .restoring) = true ∧ secS.ident.attests.any (fun a => a.p == 3) = false ∧
      secS.reg bCIPH 0 oEVENT_EN ≠ 0 ∧ (secS.setReg bCIPH 0 oEVENT_EN 0).reg bCIPH 0 oEVENT_EN = 0 ∧ once.agrees = true := by decide +kernel
theorem witness_KeysAlarmsAndAttestation_conn :
    let s := ((kvtC (fun c => { c with enc := true })).setMb .security true { full := true }).setMb .manager true {}
    let t := { s with ciph := { s.ciph with epochQ := [(77, true), (77, false)] } }
    s.conns.map Prod.fst = [77] ∧ (s.conn 77).part = 3 ∧ (s.conn 77).enc = true ∧ (s.conn 77).state = .open_ ∧ (s.conn 77).bare = true ∧
      (t.epochHands (t.conn 77).home).contains (77, true) = true ∧ (t.epochHands (t.conn 77).home).contains (77, false) = true := by decide +kernel
theorem witness_KeysAlarmsAndAttestation_report :
    let a : Attest := { cmd := sec, p := 3, nonce := 5, sel := 0, addr := 0x4000 }
    let s := { secS with ident := { secS.ident with attests := [a] } }
    s.ident.attests.any (fun a => a.p == 3) = true ∧ s.outFree .security = true ∧ inDram a.addr = true ∧ s.ue = [] ∧ s.lost = [] ∧ a.sel.getLsbD 3 = false ∧ a.addr % 64 = 0 ∧
      a.addr + 368 < dramTop ∧ s.reach a.addr = true ∧ s.reach (a.addr + 367) = true ∧
      (∀ k, k < 6 → mget 0 s.lineKey (a.addr / 64 + k) = 0) := by decide +kernel

theorem witness_FirmwareStartupAndComplexes :
    let o : StagedObj := .image 4 true true
    let s := { secS with ident := { secS.ident with stageCmd := some sec, staging := some o } }
    let t := { secS with ident := { secS.ident with staged := some (4, true, 9), actStep := 1 } }
    secS.fwReady = true ∧ secS.ident.actStep = 0 ∧ secS.ident.stageCmd = none ∧ secS.ident.standbyOk = true ∧ secS.ident.ccRestart = false ∧
      secS.ident.staged = none ∧ s.ident.stageCmd = some sec ∧ s.goingDown = false ∧ s.outFree .security = true ∧
      t.ident.standbyOk = true ∧ t.goingDown = false ∧ t.ident.actStep ≠ 0 ∧ ({ t.ident with actStep := 3 } : Ident).actCmd = none := by decide +kernel
/-- Starting up, at a stage. -/
def startS (n : Nat) : State :=
  { State.reset with pwr := { State.reset.pwr with phase := .starting }, ident := { State.reset.ident with stage := n } }
theorem witness_FirmwareStartupAndComplexes_stages :
    let r : StageFind := {}
    let x := startS 1
    let old := x.updStore (fun y => y.updLedger (fun l => { l with minSvn := 9 }))
    let part := x.updStore (fun y => y.spoil 3)
    x.pwr.phase = .starting ∧ r.ten = false ∧ x.ident.recovery = false ∧ r.ok = true ∧ x.store.image.ok = true ∧
      r.added = [] ∧ r.bad = [] ∧ x.store.ledger.minSvn ≤ x.store.image.svn ∧ old.store.image.svn < old.store.ledger.minSvn ∧
      x.store.complete = true ∧ part.store.complete = false ∧ (startS 6).store.ledger.devs = [] ∧
      ((startS 9).setReg bPTP 0 0x044 1).timeLocked = true ∧ (startS 9).ident.recovery = false ∧
      on.powered = true ∧ on.goingDown = false ∧ on.pwr.phase = .on ∧ on.ident.standbyOk = true ∧
      ({ on with ident := { on.ident with ccRestart := true } } : State).ident.ccRestart = true := by decide +kernel

/-! ## Hypotheses met: tests, registers, the whole -/

/-- Tile-level testing is due: K is 64 by the slope, TEST_CFG enables everything. -/
def testS : State :=
  let s := on.setReg bTEST 0 0x040 0x3F
  { s with pwr := { s.pwr with kSlope := 64 } }
/-- Tile 1422, the logical tile on column 0 of row 79, done. -/
theorem witness_InServiceTest :
    let s := testS.setTile 1422 { ({} : Tile) with run := .done }
    let r := s.ptest 79 0
    (3 * 20 + 19 = 79) ∧ s.powered = true ∧ s.pwr.rails = 8 ∧ s.fld bTEST 0 0x040 0 1 = 1 ∧ s.goingDown = false ∧ s.pwr.kSlope = 64 ∧ r.segment = none ∧
      r.retired = false ∧ r.next s.align (decide (0 < s.pwr.fill)) (s.matBusy 79 0) = some 0 ∧ s.hotWaits 79 0 = false ∧ s.pwr.keep ≠ 0 ∧
      s.logicalAt 79 0 = some 1422 ∧ 20000 * 64 / s.tileKeep 1422 + 5000 ≤ s.physIdle 79 0 25000 ∧ r.overdue = false ∧
      ({ s with align := 10 ^ 15 } : State).hoursOver 0 r.passAt = true ∧
      r.condemned = false ∧ s.degraded 79 = false ∧ s.retired 79 = 31 ∧ (mget (31, false) s.test.patch 79).1 = 31 ∧
      (let p := { r with segment := some 158, failedOnce := some 158, passed := List.range 158 }
       p.segment = some 158 ∧ p.passed.contains 158 = false ∧ p.passed.length < 159 ∧ p.failedOnce = some 158) := by decide +kernel
theorem witness_InServiceTest_memory :
    let line := 0x1000 / 64 * 64
    testS.powered = true ∧ testS.fld bTEST 0 0x040 1 1 = 1 ∧ (testS.dev (mapS.devOf line)).state ≠ 2 ∧ inDram line = true ∧
      mapS.groupOk line = true ∧ mapS.devOf line < 12 ∧ mapS.evacuating line = false ∧ (testS.dev 3).overdue = false ∧
      ({ testS with align := 10 ^ 15 } : State).hoursOver 8 (testS.dev 3).patrolAt = true ∧
      testS.fld bTEST 0 0x040 2 1 = 1 ∧ testS.ciph.retired.contains (0, 45) = false ∧
      testS.portOk 23 = true ∧ testS.fld bTEST 0 0x040 3 1 = 1 ∧ testS.fld bTEST 0 0x040 5 1 = 1 ∧ testS.takes mgr = true ∧
      testS.locked bTEST 0 = false ∧ (testS.setReg bTEST 0 oPAGE_LOCK 1).locked bTEST 0 = true ∧
      (testS.setPort 5 { ({} : Port) with up0 := true }).mayRetrain 5 = true := by decide +kernel
theorem witness_SnapshotsAndTelemetry :
    let t := { on with test := { on.test with armed := some (0, 0) } }
    on.takes mgr = true ∧ ((0 : Nat) : Int) < on.timeNs + 10000 ∧ on.timeNs + 10000 ≤ ((0 * 1000000000 + 999999999 : Nat) : Int) ∧
      on.locked bSNAP 0 = false ∧ on.snapDue = false ∧ t.snapDue = true ∧ on.fwReady = true ∧ on.outFree .manager = true ∧
      instOk bTILE 1439 = true ∧ instOk bTILE 1440 = false ∧ instOk bERR 0 = true ∧ ((on.part 3).chan = none) ∧ on.outFree (.part 3) = true ∧
      bTILE ≠ bMETER ∧ liveWord bTILE 0xC00 = true := by decide +kernel
theorem witness_RegisterAndEventWrites :
    let l := on.setReg bKVT 0 oPAGE_LOCK 1
    instOk bKVT 1 = true ∧ on.fld bKVT 1 oEVENT_ROUTE 0 2 < 2 ∧ on.locked bKVT 1 = false ∧ l.locked bKVT 0 = true ∧ instOk bKVT 2 = false ∧
      home bKVT 0 0x048 = home bKVT 1 0x048 ∧
      (0 : W32) &&& evMask bKVT &&& ~~~(on.reg bKVT 1 oEVENT_EN) &&& on.reg bKVT 1 oEVENTS = 0 ∧
      (let s := (on.setReg bKVT 1 oEVENT_EN 0).setReg bKVT 1 oEVENTS 1
       (1 : W32) &&& evMask bKVT &&& ~~~(s.reg bKVT 1 oEVENT_EN) &&& s.reg bKVT 1 oEVENTS = BitVec.ofNat 32 (2 ^ 0)) ∧
      (∃ d, findReg bKVT 0x048 = some d ∧ d.wmask ≠ 0) :=
  ⟨by decide +kernel, by decide +kernel, by decide +kernel, by decide +kernel, by decide +kernel, by decide +kernel, by decide +kernel, by decide +kernel,
    ⟨_, rfl, by decide +kernel⟩⟩
theorem witness_FirstErrorCapture :
    let s := on.raise bKVT 1 0 5 6
    instOk bKVT 1 = true ∧ (on.reg bKVT 1 oINFO2).getLsbD 5 = false ∧ (s.reg bKVT 1 oINFO2).getLsbD 5 = true ∧
      (1 : W32).getLsbD ((s.reg bKVT 1 oINFO2).toNat % 32) = true ∧ (2 : W32).getLsbD ((s.reg bKVT 1 oINFO2).toNat % 32) = false := by decide +kernel
theorem witness_StepRunsTheFrontCommand :
    ({ on with pending := [.snapshot, .recoveryRequest] } : State).pending = .snapshot :: [.recoveryRequest] := rfl
theorem witness_AnIdleStepIsAPeriod : on.pending = [] ∧ on.powered = true ∧ on.pwr.frame ≠ 63 ∧ on.fwEcc = [] ∧
    on.devs.all (fun d => d.2.evac.isNone) = true := by decide +kernel
theorem witness_MemoryKeepsItsForm : Memory.wf mapS.mem = true ∧ mapS.mem ≠ [] ∧ ∃ t, step mapS = .next t :=
  ⟨by decide +kernel, by decide +kernel, ⟨_, rfl⟩⟩
theorem witness_KeepPattern : (63 : Nat) ≤ 64 ∧ (0 : Nat) ≤ 64 := by decide

/-! ## Ill-formed commands, one for each check -/

theorem test_ill_formed_slots : Instr.wf (.add ⟨1440, false⟩ ⟨1, 2, 3⟩) = false ∧ Instr.wf (.add ⟨1439, false⟩ ⟨1, 2, 3⟩) = true ∧
    Instr.wf (.tileCtrlArm 1440) = false ∧ Instr.wf (.launchStart 2048) = false ∧ Instr.wf (.waveComplete 0 16 0) = false ∧
    Instr.wf (.messageInject 0 .east 256) = false ∧ Instr.wf (.beatForward 0 .east 3) = false ∧ Instr.wf (.copyComplete 32 0) = false := by decide
theorem test_ill_formed_module : Instr.wf (.referenceLost 6 true) = false ∧ Instr.wf (.droopTrip ⟨4, 9⟩) = false ∧ Instr.wf (.railFault 0) = false ∧
    Instr.wf (.railFault 9) = false ∧ Instr.wf (.patchEngage 0 20) = false ∧ Instr.wf (.patchMoveDone 4 ⟨0, false⟩) = false ∧ Instr.wf (.alarm 5) = false ∧
    Instr.wf (.seamLaneReplace 5 0 0 true) = false ∧ Instr.wf (.testSegmentStart 0 0 19 0) = false ∧ Instr.wf (.katRun false 46 true true) = false ∧
    Instr.wf (.marginLow 26 0) = false ∧ Instr.wf (.counterLowRead 1 0 0 8) = false := by decide
theorem test_ill_formed_memory : Instr.wf (.dramRefresh 12 0) = false ∧ Instr.wf (.xlatFence 4096 {}) = false ∧ Instr.wf (.xlatFqKick 2 0) = false ∧
    Instr.wf (.slabWrite mgr 864 0) = false ∧ Instr.wf (.devEvac mgr 0 0 0 72) = false ∧ Instr.wf (.memGrant mgr 0 (2 ^ 19)) = false ∧
    Instr.wf (.faultResume mgr 0 3) = false := by decide
theorem test_ill_formed_network : Instr.wf (.portEnable 26) = false ∧ Instr.wf (.gateSwap 24) = false ∧ Instr.wf (.pauseExpire 0 8) = false ∧
    Instr.wf (.kvtWrite { ({} : Pkt) with port := 26 }) = false ∧ Instr.wf (.contextFetchDone (2 ^ 20)) = false ∧ Instr.wf (.labelHoldExpire 0 64) = false ∧
    Instr.wf (.kvtConnect {} { cid := 2 ^ 20, psn := 0, salt := 0 }) = false ∧ Instr.wf (.write 1024 0 {}) = false ∧ Instr.wf (.armedFire 1024) = false ∧
    Instr.wf (.collChunkCombine 4096) = false ∧ Instr.wf (.epochKeyDerived 0 true { once with c1 := 3, c2 := 3 }) = false := by decide
theorem test_ill_formed_firmware : Instr.wf (.partCreate { mgr with chan := .part 1024 } 3) = false ∧ Instr.wf (.mboxTake (.tile 1440) true) = false ∧
    Instr.wf (.partSet mgr 3 (.rect 0 5 4 0 0)) = false ∧ Instr.wf (.partSet mgr 3 (.groups 2048 1)) = false ∧
    Instr.wf (.partSet mgr 3 (.xlat true 0 0 32 false)) = false ∧ Instr.wf (.collDefine mgr 0 { treeT with size := 12289 }) = false ∧
    Instr.wf (.queueCreate mgr 0 0 3 4 0 0) = false ∧ Instr.wf (.queueCreate mgr 0 0 0 21 0 0) = false ∧
    Instr.wf (.powerCap mgr 4096) = false ∧ Instr.wf (.telemRead mgr 0 0 0 7) = false := by decide
theorem test_ill_formed_stream : Stream.ok (.tileReq 1440 0) = false ∧ Stream.ok (.queue 0 4096 0) = false ∧ Stream.ok (.conn (2 ^ 20)) = false := by decide

/-! ## Results from the spec's own examples -/

/-- Chapter 1, the month-end step under a power cap: one period in four removed, K = 48. -/
theorem test_keep_three_of_four : (List.range 8).map (keptAt 48) = [false, true, true, true, false, true, true, true] := by decide
/-- Table 4-5: placement of CD0 row 12 once column 7 is retired. -/
theorem test_patch_placement :
    let s := { on with ident := { on.ident with map := [(12, 7)] } }
    [438, 439, 440, 449].map s.physCol = [6, 8, 9, 18] ∧ [438, 439, 440, 449].map on.physCol = [6, 7, 8, 17] := by decide +kernel
/-- Chapter 6's example: the bundle that holds the MMA, and its slot word. -/
theorem test_mma_word :
    let b : BitVec 128 := 0x000000000488A2CC0000000000000000
    bundleWord b .M = 0x0488A2CC ∧ bundleWord b .S = 0 ∧ bundleWord b .X = 0 ∧
      decodeSlot ⟨40, false⟩ .M 0x0488A2CC = some (.mma ⟨40, false⟩ ⟨2, 2, 10, 11, 12⟩) := by decide +kernel
/-- Table 18-5: what block 1 of the derivation of epoch 6's key, opener to accepter, hashes. -/
theorem test_wire_key_input : kdfInput 1 labelWire (wireContext 0xD4 0x12345 0xA7C false 6) 256 =
    [0, 0, 0, 1, 0x4B, 0x56, 0x54, 0x2D, 0x57, 0x49, 0x52, 0x45, 0, 0, 0, 0, 0xD4, 0, 1, 0x23, 0x45, 0, 0, 0x0A, 0x7C, 0,
      0, 0, 0, 6, 0, 0, 1, 0] := by decide +kernel
/-- Table 5-3: a block quantised to PF4 with RNE; 1.3, 0.7, 0.2 and 2.4 are their binary32 values. -/
theorem test_pf4_example :
    let z (n : Nat) : List (XVal × Nat) := List.replicate n (.fin false 0 0, 0)
    let b := quantBlock 15 0 ([(f32 0x40A00000, 0), (f32 0x3FA66666, 0)] ++ z 6 ++ [(f32 0x3F333333, 0)] ++ z 7 ++
      [(f32 0x3E4CCCCD, 0)] ++ z 7 ++ [(f32 0x4019999A, 0)] ++ z 7)
    b.2.1 = 0x7F ∧ b.2.2.1 = 0x7C ∧ b.1.getD 0 0 = 6 ∧ b.1.getD 1 0 = 3 ∧ b.1.getD 8 0 = 7 ∧ b.1.getD 16 0 = 3 ∧ b.1.getD 24 0 = 6 := by
  decide +kernel
/-- Table 9-8: the page's address lies in the group of slabs 100 to 103, on device M1 at local 0x640005040. -/
theorem test_placement_example :
    let s := { on with slabs := (List.range 4).map (fun k => (100 + k, BitVec.ofNat 32 (k + 3 * 16 + k * 256 + 25 * 4096 + 2 ^ 31))) }
    s.place 0x1900015040 = (1, 0x640005040) ∧ s.groupOk 0x1900015040 = true := by decide +kernel
/-- Table 14-6: seven ranks' FP32 sum in the native form, by each of the two trees; the exact form gives 5. -/
theorem test_two_trees :
    let w (x : Nat) : List Byte := leBytes 4 x
    let one := w 0x3F800000
    let r1 := (foldChunk 0 0 0 one [one, one]).1
    let r4 := (foldChunk 0 0 0 one [one, w 0xCB800000]).1
    (foldChunk 0 0 0 (w 0x4B800000) [r1, r4]).2 = w 0x40C00000 ∧
      (foldChunk 0 0 0 (w 0x4B800000) [one, one, one, one, one, w 0xCB800000]).2 = w 0 := by decide +kernel
theorem test_two_trees_exact :
    let leaf (x : Nat) : List Byte := (foldChunk 0 0 2 (leBytes 4 x) []).1
    let one := leaf 0x3F800000
    (foldChunk 0 0 2 (leBytes 4 0x4B800000) [one, one, one, one, one, leaf 0xCB800000]).2 = leBytes 4 0x40A00000 := by decide +kernel
/-- The same example: 62 native chunks, the last of 2,528 elements, 613 exact ones; 8, 6 and 4 slots. -/
theorem test_chunks_and_slots :
    chunksOf 1000000 (chunkElems 2 0 0) = 62 ∧ (chunkSpan 1000000 (chunkElems 2 0 0) 61).2 = 2528 ∧
      chunksOf 1000000 (chunkElems 2 0 2) = 613 ∧
      (let two : CollDef := { treeT with children := [{ cid := 1, first := 2, last := 2 }, { cid := 2, first := 3, last := 3 }] }
       slotsNeeded two 2 = 8 ∧ slotsNeeded { two with parent := none } 2 = 6 ∧ slotsNeeded leafT 2 = 4) := by decide
/-- R17 and its example: bit 3 of EVENTS, set again in the cycle that clears it, reads 1 (bit 0 holds the capture). -/
theorem test_set_wins_over_clear :
    let s := ((on.setReg bKVT 0 oEVENTS 9).setReg bKVT 0 oEVENT_EN 0).setReg bKVT 0 oINFO2 0x20
    (match step { s with pending := [.eventsClear (BitVec.ofNat 8 bKVT) 0 8 8] } with
     | .next t => t.reg bKVT 0 oEVENTS == 9 && t.pending.isEmpty
     | _ => false) = true := by decide +kernel

/-! ## Results by hand -/

/-- The state after one step with a command waiting. -/
def after (s : State) (c : Instr) (p : State → Bool) : Bool :=
  match step { s with pending := [c] } with
  | .next t => p t
  | _ => false
theorem test_add_wraps : after (qs [(1, BitVec.allOnes 64), (2, 2)]) (.add ⟨40, false⟩ ⟨3, 1, 2⟩) (fun t => (t.tile 40).sreg 3 == 1) = true := by
  decide +kernel
theorem test_write_to_s0 : after q (.addi ⟨40, false⟩ ⟨0, 3, 1⟩) (fun t => (t.tile 40).sreg 0 == 0 && (t.tile 40).pc == 21) = true := by decide +kernel
/-- −8 shifted arithmetically by 66 is a shift by 2. -/
theorem test_sra_low_bits : after (qs [(1, (-8 : W64)), (2, 66)]) (.sra ⟨40, false⟩ ⟨1, 1, 2⟩) (fun t => (t.tile 40).sreg 1 == (-2 : W64)) = true := by
  decide +kernel
theorem test_branch_back : after (qs [(1, 5), (2, 5)]) (.beq ⟨40, false⟩ ⟨1, 2, -20⟩) (fun t => (t.tile 40).pc == 0) = true := by decide +kernel
/-- A signed branch and an unsigned one differ on −1 and 1. -/
theorem test_blt_signed : after (qs [(1, (-1 : W64)), (2, 1)]) (.blt ⟨40, false⟩ ⟨1, 2, 4⟩) (fun t => (t.tile 40).pc == 24) = true ∧
    after (qs [(1, (-1 : W64)), (2, 1)]) (.bltu ⟨40, false⟩ ⟨1, 2, 4⟩) (fun t => (t.tile 40).pc == 21) = true := by decide +kernel
/-- 2^24 + 1 ties to even; towards +∞ it is 2^24 + 2. -/
theorem test_fp32_rounding : f32Add 0 0 0x4B800000 0x3F800000 = (0x4B800000, fNX) ∧ (f32Add 3 0 0x4B800000 0x3F800000).1 ≠ 0 := by decide +kernel
/-- The least subnormal halved is a tie to 0. -/
theorem test_fp32_underflow : (f32Mul 0 0 1 0x3F000000).1 = 0 ∧ (f32Mul 0 0 3 0x3F000000).1 = 2 := by decide +kernel
theorem test_fp32_functions : (f32Fn 0 0x40000000).1 = 0x3F000000 ∧ (f32Fn 1 0x40800000).1 = 0x40000000 ∧ (f32Fn 3 0x40400000).1 = 0x41000000 ∧
    (f32Fn 4 0x41000000).1 = 0x40400000 := by decide +kernel
theorem test_counter_wraps : (on.count bTEST 0 0xC00 1).cnt bTEST 0 0xC00 = 1 ∧ (on.setReg bTILE 1439 0x048 5).reg bTILE 1438 0x048 ≠ 5 := by decide +kernel
/-- A PWR_CAP of 799 is stored as 800. -/
theorem test_cap_clamped : after on (.pwrCapWrite 799) (fun t => t.fld bPWR 0 0x040 0 12 == 800) = true := by decide +kernel
theorem test_idle_step : after on .recoveryRequest (fun t => t.align == 0) = true ∧
    (match step on with | .next t => t.align == 1 | _ => false) = true := by decide +kernel
theorem test_reset_pending : State.reset.pending = [] := rfl

end Sys2Proof.Tests
end

section
/-! Proofs for register, EVENTS and EVENT_EN writes (R16, R17, R30, R469-R471, R505, R509): what reporting an event
leaves when no partition is told, the writes of the event registers, and the write of any register. -/

namespace Sys2Proof.Machine.State

variable (s : State)

/-! ## Events that only the manager can hear of -/

/-- The page's events go to the manager or to nobody: its route does not name the owning partition, or its block
has no owner at all (R469, R507). -/
def managerOnly (blk inst : Nat) : Prop :=
  s.fld blk inst oEVENT_ROUTE 0 2 < 2 ∨ blk ≠ bTILE ∧ blk ≠ bPART

theorem pageOwner_eq_none {blk : Nat} (inst : Nat) (ht : blk ≠ bTILE) (hp : blk ≠ bPART) : s.pageOwner blk inst = none := by
  simp only [pageOwner, if_neg ht, if_neg hp]

theorem route_of_managerOnly {blk inst : Nat} (bit : Nat) (h : s.managerOnly blk inst) :
    s.route blk inst bit = s.postEvent .manager blk inst bit ∨ s.route blk inst bit = s := by
  unfold route
  dsimp only
  rcases h with hd | ⟨ht, hp⟩
  · rw [if_neg (by simp; omega)]
    exact ite_eq_or_eq _ _ _
  · rw [s.pageOwner_eq_none inst ht hp]
    simp only [ite_self]
    exact ite_eq_or_eq _ _ _

@[simp] theorem reg_postEvent_manager (blk inst bit b i o : Nat) :
    (s.postEvent .manager blk inst bit).reg b i o = s.reg b i o := by
  obtain ⟨c, m, x, e⟩ := s.postEvent_frame blk inst bit
  rw [e]; rfl
@[simp] theorem mem_postEvent_manager (blk inst bit : Nat) : (s.postEvent .manager blk inst bit).mem = s.mem := by
  obtain ⟨c, m, x, e⟩ := s.postEvent_frame blk inst bit
  rw [e]
@[simp] theorem tiles_postEvent_manager (blk inst bit : Nat) : (s.postEvent .manager blk inst bit).tiles = s.tiles := by
  obtain ⟨c, m, x, e⟩ := s.postEvent_frame blk inst bit
  rw [e]

/-- A post to the manager can count only that it was dropped (R473). -/
theorem cnt_postEvent_manager (blk inst bit : Nat) {b i o : Nat} (h : rk b i o ≠ rk bERR 0 0xC38) :
    (s.postEvent .manager blk inst bit).cnt b i o = s.cnt b i o := by
  unfold postEvent fwPost
  dsimp only
  split
  · rfl
  · split
    · rfl
    · rw [cnt_count_other _ _ h]; rfl

/-! ## What an event records before it is routed (R469, R470) -/

/-- The state with an event recorded and not yet routed. -/
def logged (blk inst bit : Nat) (i0 i1 : W32) : State :=
  let t := (s.capture blk inst bit i0 i1).setReg blk inst oEVENTS (s.reg blk inst oEVENTS ||| BitVec.ofNat 32 (2 ^ bit))
  if evClass blk bit = 0 then t else t.count bERR 0 (0xC00 + 8 * evClass blk bit) 1

theorem raise_eq (blk inst bit : Nat) (i0 i1 : W32) : s.raise blk inst bit i0 i1 =
    if (!s.ev blk inst bit && (s.reg blk inst oEVENT_EN).getLsbD bit) = true then
      (s.logged blk inst bit i0 i1).route blk inst bit else s.logged blk inst bit i0 i1 := rfl

variable (blk inst bit : Nat) (i0 i1 : W32)

theorem reg_logged_eq (b i o : Nat) : (s.logged blk inst bit i0 i1).reg b i o =
    ((s.capture blk inst bit i0 i1).setReg blk inst oEVENTS
      (s.reg blk inst oEVENTS ||| BitVec.ofNat 32 (2 ^ bit))).reg b i o := by
  unfold logged
  dsimp only
  split <;> rfl
theorem reg_logged {b i o : Nat} (ho : o < 4096) (he : o ≠ oEVENTS) (h0 : o ≠ oINFO0) (h1 : o ≠ oINFO1) (h2 : o ≠ oINFO2) :
    (s.logged blk inst bit i0 i1).reg b i o = s.reg b i o := by
  rw [reg_logged_eq, reg_setReg_offset _ _ _ _ _ _ _ _ ho (by decide) he, capture_reg _ _ _ _ _ _ _ _ _ ho h0 h1 h2]

theorem capture_held {bit : Nat} (hb : bit < 32) : ((s.capture blk inst bit i0 i1).reg blk inst oINFO2).getLsbD 5 = true := by
  unfold capture
  dsimp only
  split
  case isTrue held =>
    have h5 : Nat.testBit (s.reg blk inst oINFO2).toNat 5 = true := held
    rw [reg_setReg_same, BitVec.getLsbD_ofNat]
    generalize (s.reg blk inst oINFO2).toNat = n at h5
    simp only [Nat.testBit_eq_decide_div_mod_eq, decide_eq_true_eq, Bool.and_eq_true] at h5 ⊢
    omega
  case isFalse =>
    rw [reg_setReg_same, BitVec.getLsbD_ofNat]
    simp only [Nat.testBit_eq_decide_div_mod_eq, decide_eq_true_eq, Bool.and_eq_true]
    omega

theorem logged_ev {bit : Nat} (hb : bit < 32) : (s.logged blk inst bit i0 i1).ev blk inst bit = true := by
  rw [ev, reg_logged_eq, reg_setReg_same, BitVec.getLsbD_or, BitVec.getLsbD_ofNat, Nat.testBit_two_pow_self]
  simp [hb]
theorem logged_held {bit : Nat} (hb : bit < 32) : ((s.logged blk inst bit i0 i1).reg blk inst oINFO2).getLsbD 5 = true := by
  rw [reg_logged_eq, reg_setReg_offset _ _ _ _ _ _ _ _ (by decide) (by decide) (by decide)]
  exact s.capture_held blk inst i0 i1 hb

theorem logged_frame : ∃ r c, s.logged blk inst bit i0 i1 = { s with regs := r, cnts := c } := by
  obtain ⟨r, h⟩ := s.capture_frame blk inst bit i0 i1
  unfold logged
  rw [h]
  dsimp only
  split
  · exact ⟨_, _, rfl⟩
  · exact ⟨_, _, rfl⟩

/-- Of the counters only that of the event's class is counted. -/
theorem cnt_logged {b i o : Nat} (h : rk b i o ≠ rk bERR 0 (0xC00 + 8 * evClass blk bit)) :
    (s.logged blk inst bit i0 i1).cnt b i o = s.cnt b i o := by
  obtain ⟨r, e⟩ := s.capture_frame blk inst bit i0 i1
  unfold logged
  dsimp only
  split
  · rw [cnt_setReg, e]; rfl
  · rw [cnt_count_other _ _ h, cnt_setReg, e]; rfl

/-! ## What an event changes on a page that only the manager hears of -/

variable {blk inst}

theorem managerOnly_logged (h : s.managerOnly blk inst) : (s.logged blk inst bit i0 i1).managerOnly blk inst := by
  have hr : (s.logged blk inst bit i0 i1).reg blk inst oEVENT_ROUTE = s.reg blk inst oEVENT_ROUTE :=
    s.reg_logged blk inst bit i0 i1 (by decide) (by decide) (by decide) (by decide) (by decide)
  simpa only [managerOnly, fld, hr] using h

/-- Such an event is recorded, and posted to the manager or to nobody. -/
theorem raise_of_managerOnly (h : s.managerOnly blk inst) :
    s.raise blk inst bit i0 i1 = (s.logged blk inst bit i0 i1).postEvent .manager blk inst bit ∨
      s.raise blk inst bit i0 i1 = s.logged blk inst bit i0 i1 := by
  rw [raise_eq]
  split
  · exact route_of_managerOnly _ bit (s.managerOnly_logged bit i0 i1 h)
  · exact .inr rfl

theorem reg_raise_eq_logged (h : s.managerOnly blk inst) (b i o : Nat) :
    (s.raise blk inst bit i0 i1).reg b i o = (s.logged blk inst bit i0 i1).reg b i o := by
  rcases s.raise_of_managerOnly bit i0 i1 h with e | e
  · rw [e, reg_postEvent_manager]
  · rw [e]

theorem reg_raise (h : s.managerOnly blk inst) {b i o : Nat} (ho : o < 4096) (he : o ≠ oEVENTS) (h0 : o ≠ oINFO0)
    (h1 : o ≠ oINFO1) (h2 : o ≠ oINFO2) : (s.raise blk inst bit i0 i1).reg b i o = s.reg b i o := by
  rw [s.reg_raise_eq_logged bit i0 i1 h, s.reg_logged blk inst bit i0 i1 ho he h0 h1 h2]
theorem raise_ev {bit : Nat} (h : s.managerOnly blk inst) (hb : bit < 32) :
    (s.raise blk inst bit i0 i1).ev blk inst bit = true := by
  rw [ev, s.reg_raise_eq_logged bit i0 i1 h]
  exact s.logged_ev blk inst i0 i1 hb
theorem raise_held {bit : Nat} (h : s.managerOnly blk inst) (hb : bit < 32) :
    ((s.raise blk inst bit i0 i1).reg blk inst oINFO2).getLsbD 5 = true := by
  rw [s.reg_raise_eq_logged bit i0 i1 h]
  exact s.logged_held blk inst i0 i1 hb
theorem mem_raise (h : s.managerOnly blk inst) : (s.raise blk inst bit i0 i1).mem = s.mem := by
  obtain ⟨r, c, hl⟩ := s.logged_frame blk inst bit i0 i1
  rcases s.raise_of_managerOnly bit i0 i1 h with e | e
  · rw [e, mem_postEvent_manager, hl]
  · rw [e, hl]
theorem tiles_raise (h : s.managerOnly blk inst) : (s.raise blk inst bit i0 i1).tiles = s.tiles := by
  obtain ⟨r, c, hl⟩ := s.logged_frame blk inst bit i0 i1
  rcases s.raise_of_managerOnly bit i0 i1 h with e | e
  · rw [e, tiles_postEvent_manager, hl]
  · rw [e, hl]
theorem cnt_raise (h : s.managerOnly blk inst) {b i o : Nat} (hc : rk b i o ≠ rk bERR 0 (0xC00 + 8 * evClass blk bit))
    (hd : rk b i o ≠ rk bERR 0 0xC38) : (s.raise blk inst bit i0 i1).cnt b i o = s.cnt b i o := by
  rcases s.raise_of_managerOnly bit i0 i1 h with e | e
  · rw [e, cnt_postEvent_manager _ _ _ _ hd, s.cnt_logged blk inst bit i0 i1 hc]
  · rw [e, s.cnt_logged blk inst bit i0 i1 hc]

/-! ## Writes that a lock makes ignored, and accesses that find no page -/

theorem managerOnly_err (inst : Nat) : s.managerOnly bERR inst := .inr ⟨by decide, by decide⟩

/-- R509: an ignored write counts and sets bit 6 of the ERR page; only EVENTS and ERR_INFO of a page can change. -/
theorem lockedWrite_spec (b i o : Nat) (v : W32) :
    let u := s.lockedWrite b i o v
    u.cnt bERR 0 0xC40 = s.cntUp bERR 0 0xC40 1 ∧ u.ev bERR 0 6 = true ∧ u.mem = s.mem ∧ u.tiles = s.tiles ∧
      ∀ b' i' o', o' < 4096 → o' ≠ oEVENTS → o' ≠ oINFO0 → o' ≠ oINFO1 → o' ≠ oINFO2 →
        u.reg b' i' o' = s.reg b' i' o' := by
  have h := managerOnly_err (s.count bERR 0 0xC40 1) 0
  refine ⟨?_, raise_ev _ _ _ h (by decide), mem_raise _ _ _ _ h, tiles_raise _ _ _ _ h, ?_⟩
  · rw [lockedWrite, cnt_raise _ _ _ _ h (by decide) (by decide), cnt_count_same]; rfl
  · intro b' i' o' ho he h0 h1 h2
    rw [lockedWrite, reg_raise _ _ _ _ h ho he h0 h1 h2, reg_count]

/-- R30: an access to a page that does not exist sets bit 0 of the ERR page and counts. -/
theorem noPage_spec (b i o : Nat) (write : Bool) :
    let u := s.noPage b i o write
    u.ev bERR 0 0 = true ∧ u.cnt bERR 0 0xC30 = s.cntUp bERR 0 0xC30 1 ∧ u.mem = s.mem ∧ u.tiles = s.tiles := by
  have h := managerOnly_err (s.count bERR 0 0xC30 1) 0
  refine ⟨raise_ev _ _ _ h (by decide), ?_, mem_raise _ _ _ _ h, tiles_raise _ _ _ _ h⟩
  rw [noPage, cnt_freshen, unmapped, cnt_raise _ _ _ _ h (by decide) (by decide), cnt_count_same]; rfl

theorem pageWrite_unlocked {b i : Nat} (h : s.locked b i = false) (o : Nat) (v : W32) (k : State → State) :
    s.pageWrite b i o v k = k s := by
  rw [pageWrite, h]; rfl
theorem pageWrite_locked {b i : Nat} (h : s.locked b i = true) (o : Nat) (v : W32) (k : State → State) :
    s.pageWrite b i o v k = s.lockedWrite b i o v := by
  rw [pageWrite, h]; rfl

end Sys2Proof.Machine.State

namespace Sys2Proof.Machine

/-! ## Walking the bits of a word -/

theorem foldl_bits_zero (f : State → Nat → State) (s : State) (l : List Nat) :
    l.foldl (fun s b => if (0 : W32).getLsbD b then f s b else s) s = s := by
  simp

/-- A walk over the lowest n bits of a word with one bit set does that bit's step, once it has passed it. -/
theorem foldl_bits_single_upTo (f : State → Nat → State) (s : State) {j : Nat} (hj : j < 32) (n : Nat) :
    (List.range n).foldl (fun s b => if (BitVec.ofNat 32 (2 ^ j)).getLsbD b then f s b else s) s =
      if j < n then f s j else s := by
  induction n with
  | zero => simp
  | succ n ih =>
    rw [List.range_succ, List.foldl_append, ih, List.foldl_cons, List.foldl_nil, BitVec.getLsbD_ofNat, Nat.testBit_two_pow]
    by_cases h : j = n
    · subst h; simp [hj]
    · have hlt : j < n + 1 ↔ j < n := by omega
      simp [h, hlt]
theorem foldl_bits_single (f : State → Nat → State) (s : State) {j : Nat} (hj : j < 32) :
    (List.range 32).foldl (fun s b => if (BitVec.ofNat 32 (2 ^ j)).getLsbD b then f s b else s) s = f s j := by
  rw [foldl_bits_single_upTo f s hj, if_pos hj]

theorem evBits_le (blk : Nat) : evBits blk ≤ 9 := by
  unfold evBits
  split <;> decide

/-- The mask of defined events keeps a defined bit. -/
theorem single_and_evMask {blk j : Nat} (hj : j < evBits blk) :
    BitVec.ofNat 32 (2 ^ j) &&& evMask blk = BitVec.ofNat 32 (2 ^ j) := by
  refine BitVec.eq_of_getLsbD_eq fun k _ => ?_
  simp only [evMask, BitVec.getLsbD_and, BitVec.getLsbD_ofNat, Nat.testBit_two_pow, Nat.testBit_two_pow_sub_one]
  by_cases h : j = k
  · subst h; simp [hj]
  · simp [h]

namespace State

variable (s : State)

/-! ## Writes of EVENTS and EVENT_EN -/

/-- What a write of ones to EVENTS clears, `a` being set again in the same PCLK (R17, R470). -/
def cleared (blk inst : Nat) (v a : W32) : State :=
  let i2 := s.reg blk inst oINFO2
  let t := s.setReg blk inst oEVENTS (s.reg blk inst oEVENTS &&& ~~~v)
  if (i2.getLsbD 5 && v.getLsbD (i2.toNat % 32) && !a.getLsbD (i2.toNat % 32)) = true then t.releaseCapture blk inst else t

theorem eventsWrite_zero (blk inst : Nat) (v : W32) : s.eventsWrite blk inst v 0 = s.cleared blk inst v 0 := by
  have nothing : (0 : W32) &&& evMask blk = 0 := BitVec.zero_and
  unfold eventsWrite
  rw [nothing]
  exact foldl_bits_zero _ _ _

/-- With one event in the same PCLK: the clearing, then that event. -/
theorem eventsWrite_single (blk inst : Nat) (v : W32) {j : Nat} (hj : j < evBits blk) :
    ∃ i0 i1, s.eventsWrite blk inst v (BitVec.ofNat 32 (2 ^ j)) =
      ((s.cleared blk inst v (BitVec.ofNat 32 (2 ^ j))).raise blk inst j i0 i1).freshen := by
  have hlt : j < 32 := by have := evBits_le blk; omega
  unfold eventsWrite
  rw [single_and_evMask hj]
  dsimp only
  exact ⟨_, _, foldl_bits_single (fun t b => (t.raise blk inst b (w32 (t.freeIn 0 0 (2 ^ 32 - 1)))
    (w32 (t.freeIn 1 0 (2 ^ 32 - 1)))).freshen) (s.cleared blk inst v (BitVec.ofNat 32 (2 ^ j))) hlt⟩

variable (blk inst : Nat) (v a : W32)

theorem cleared_frame : ∃ r, s.cleared blk inst v a = { s with regs := r } := by
  unfold cleared
  dsimp only
  split
  · exact ⟨_, rfl⟩
  · exact ⟨_, rfl⟩
theorem reg_cleared {b i o : Nat} (ho : o < 4096) (he : o ≠ oEVENTS) (h2 : o ≠ oINFO2) :
    (s.cleared blk inst v a).reg b i o = s.reg b i o := by
  unfold cleared releaseCapture
  dsimp only
  split
  · rw [reg_setReg_offset _ _ _ _ _ _ _ _ ho (by decide) h2, reg_setReg_offset _ _ _ _ _ _ _ _ ho (by decide) he]
  · rw [reg_setReg_offset _ _ _ _ _ _ _ _ ho (by decide) he]
theorem events_cleared : (s.cleared blk inst v a).reg blk inst oEVENTS = s.reg blk inst oEVENTS &&& ~~~v := by
  unfold cleared releaseCapture
  dsimp only
  split
  · rw [reg_setReg_offset _ _ _ _ _ _ _ _ (by decide) (by decide) (by decide), reg_setReg_same]
  · rw [reg_setReg_same]
/-- The capture stays held unless the bit that owns it is cleared (R470). -/
theorem held_cleared : ((s.cleared blk inst v 0).reg blk inst oINFO2).getLsbD 5 =
    ((s.reg blk inst oINFO2).getLsbD 5 && !v.getLsbD ((s.reg blk inst oINFO2).toNat % 32)) := by
  have hi (w : W32) : (s.setReg blk inst oEVENTS w).reg blk inst oINFO2 = s.reg blk inst oINFO2 :=
    reg_setReg_offset _ _ _ _ _ _ _ _ (by decide) (by decide) (by decide)
  unfold cleared releaseCapture
  dsimp only
  split
  case isTrue h =>
    simp only [Bool.and_eq_true] at h
    simp [hi, h.1.2]
  case isFalse h =>
    rw [hi]
    by_cases held : (s.reg blk inst oINFO2).getLsbD 5 = true
    · simpa [held] using h
    · rw [Bool.eq_false_of_not_eq_true held]; rfl
theorem managerOnly_cleared (h : s.fld blk inst oEVENT_ROUTE 0 2 < 2) : (s.cleared blk inst v a).managerOnly blk inst := by
  left
  rwa [fld, s.reg_cleared blk inst v a (by decide) (by decide) (by decide)]

/-- No newly enabled bit is already set: EVENT_EN takes its value and nothing is routed (R469). -/
theorem enableWrite_quiet (h : v &&& evMask blk &&& ~~~(s.reg blk inst oEVENT_EN) &&& s.reg blk inst oEVENTS = 0) :
    s.enableWrite blk inst v = s.setReg blk inst oEVENT_EN (v &&& evMask blk) := by
  unfold enableWrite
  dsimp only
  rw [h]
  exact foldl_bits_zero _ _ _
/-- One newly enabled bit is already set: it is routed, once (R469). -/
theorem enableWrite_single {j : Nat} (hj : j < 32)
    (h : v &&& evMask blk &&& ~~~(s.reg blk inst oEVENT_EN) &&& s.reg blk inst oEVENTS = BitVec.ofNat 32 (2 ^ j)) :
    s.enableWrite blk inst v = (s.setReg blk inst oEVENT_EN (v &&& evMask blk)).route blk inst j := by
  unfold enableWrite
  dsimp only
  rw [h]
  exact foldl_bits_single (fun t b => t.route blk inst b) _ hj

/-! ## Writes of any register -/

theorem ne_header {o x : Nat} (h : 0x040 ≤ o) (hx : x < 0x040) : o ≠ x := by omega

/-- A block register (0x040-0x7FF): its lock, then its page, then what its block does with it. -/
theorem writeReg_block {o : Nat} (h4 : o % 4 = 0) (hlo : 0x040 ≤ o) (hhi : o < 0x800) : s.writeReg blk inst o v =
    s.pageWrite blk inst o v (fun t => if t.pageGone blk inst then t else t.blockWrite blk inst o v) := by
  unfold writeReg
  rw [if_neg (by simp [h4]), if_neg (ne_header hlo (by decide)), if_neg (ne_header hlo (by decide)),
    if_neg (ne_header hlo (by decide)), if_neg (ne_header hlo (by decide)), if_pos (by simp [hlo, hhi])]

/-- R505, R510: the page's identity, its lock, STATE, ERR_INFO and the snapshot sequence, shadows and counters. -/
theorem writeReg_readOnly {o : Nat} (h4 : o % 4 = 0) (h : o < oCTRL ∨ o = oSTATE ∨ 0x024 ≤ o ∧ o < 0x040 ∨ 0x800 ≤ o) :
    s.writeReg blk inst o v = s := by
  have hne : o ≠ oCTRL ∧ o ≠ oEVENTS ∧ o ≠ oEVENT_EN ∧ o ≠ oEVENT_ROUTE ∧ ¬ (0x040 ≤ o ∧ o < 0x800) := by
    simp only [oCTRL, oSTATE, oEVENTS, oEVENT_EN, oEVENT_ROUTE] at h ⊢
    omega
  obtain ⟨hc, he, hn, hr, hb⟩ := hne
  unfold writeReg
  rw [if_neg (by simp [h4]), if_neg hc, if_neg he, if_neg hn, if_neg hr, if_neg (by simpa using hb)]

/-- Blocks all of whose writable registers are plain: no register acts on what it is given. -/
theorem blockWrite_plain {blk : Nat} (h : blk ∈ [bTILE, bCOPY, bKVT, bCIPH, bID, bTEST]) (o : Nat) :
    s.blockWrite blk inst o v = s.plainWrite blk inst o v := by
  simp only [List.mem_cons, List.not_mem_nil, or_false] at h
  rcases h with rfl | rfl | rfl | rfl | rfl | rfl <;> rfl
theorem pageGone_plain {blk : Nat} (h : blk ∈ [bTILE, bCOPY, bKVT, bCIPH, bID, bTEST]) : s.pageGone blk inst = false := by
  simp only [List.mem_cons, List.not_mem_nil, or_false] at h
  rcases h with rfl | rfl | rfl | rfl | rfl | rfl <;> rfl

theorem plainWrite_stored {o : Nat} {d : RegDef} (hd : findReg blk o = some d) (h4 : o % 4 = 0) (hw : d.wmask ≠ 0) :
    s.plainWrite blk inst o v = s.setReg blk inst o (clampReg blk o (v &&& d.wmask)) := by
  unfold plainWrite
  rw [hd]
  exact if_pos (by simpa [h4] using hw)

theorem writeReg_stored {blk o : Nat} {d : RegDef} (hl : s.locked blk inst = false) (hd : findReg blk o = some d)
    (h4 : o % 4 = 0) (hlo : 0x040 ≤ o) (hhi : o < 0x800) (hw : d.wmask ≠ 0)
    (hb : blk ∈ [bTILE, bCOPY, bKVT, bCIPH, bID, bTEST]) :
    s.writeReg blk inst o v = s.setReg blk inst o (clampReg blk o (v &&& d.wmask)) := by
  rw [s.writeReg_block blk inst v h4 hlo hhi, s.pageWrite_unlocked hl, s.pageGone_plain inst hb]
  exact (s.blockWrite_plain inst v hb o).trans (s.plainWrite_stored blk inst v hd h4 hw)

/-- R82: of a register that both instances hold in one copy, the value written to the active instance is kept. -/
theorem writePair_mirrored {o : Nat} (hi : inst ≤ 1) (h1 : instOk blk 1 = true) (hh : home blk 0 o = home blk 1 o) (w : W32) :
    s.writePair blk inst o v w = s.writeReg blk inst o
      (if inst = (if blk = bPWR then s.pwrInst else dieInst s.ident.active) then v else w) := by
  unfold writePair
  dsimp only
  rw [if_neg (by simp [hi, h1]), if_pos hh]

end State

/-! ## The three commands -/

section commands

variable (s : State) (blk : Byte) (inst off : BitVec 12) (v again : W32)

theorem execEventsClear_page (h : instOk blk.toNat inst.toNat = true) :
    exec (.eventsClear blk inst v again) s = .next (s.eventsWrite blk.toNat inst.toNat v again) :=
  congrArg Host.Outcome.next (if_pos h)
theorem execEventEnWrite_page (h : instOk blk.toNat inst.toNat = true) : exec (.eventEnWrite blk inst v) s =
    .next (s.pageWrite blk.toNat inst.toNat oEVENT_EN v (·.enableWrite blk.toNat inst.toNat v)) :=
  congrArg Host.Outcome.next (if_pos h)
theorem execRegisterWrite_page (h : instOk blk.toNat inst.toNat = true) :
    exec (.registerWrite blk inst off { v := v }) s = .next (s.writeReg blk.toNat inst.toNat off.toNat v) :=
  congrArg Host.Outcome.next (if_pos h)
theorem execRegisterWrite_pair (h : instOk blk.toNat inst.toNat = true) (w : W32) :
    exec (.registerWrite blk inst off { v := v, also := some w }) s =
      .next (s.writePair blk.toNat inst.toNat off.toNat v w) :=
  congrArg Host.Outcome.next (if_pos h)

/-- Each of them on an instance that Table 22-4 does not list (R30, R504). -/
theorem exec_noPage (h : instOk blk.toNat inst.toNat = false) {c : Instr}
    (hc : c ∈ [Instr.registerWrite blk inst off { v := v }, .eventsClear blk inst v again, .eventEnWrite blk inst v]) :
    ∃ o, exec c s = .next (s.noPage blk.toNat inst.toNat o true) := by
  have hn : ¬ instOk blk.toNat inst.toNat = true := by simp [h]
  simp only [List.mem_cons, List.not_mem_nil, or_false] at hc
  rcases hc with rfl | rfl | rfl
  · exact ⟨off.toNat, congrArg Host.Outcome.next (if_neg hn)⟩
  · exact ⟨oEVENTS, congrArg Host.Outcome.next (if_neg hn)⟩
  · exact ⟨oEVENT_EN, congrArg Host.Outcome.next (if_neg hn)⟩

/-- EVENTS cleared by ones with no event in the same PCLK. -/
theorem eventsClear_alone (h : instOk blk.toNat inst.toNat = true) :
    let b := blk.toNat
    let i := inst.toNat
    ∃ u, exec (.eventsClear blk inst v 0) s = .next u ∧
      u.reg b i oEVENTS = s.reg b i oEVENTS &&& ~~~v ∧ u.reg b i oINFO0 = s.reg b i oINFO0 ∧ u.reg b i oINFO1 = s.reg b i oINFO1 ∧
      (u.reg b i oINFO2).getLsbD 5 = ((s.reg b i oINFO2).getLsbD 5 && !v.getLsbD ((s.reg b i oINFO2).toNat % 32)) ∧
      u = { s with regs := u.regs } := by
  refine ⟨s.cleared blk.toNat inst.toNat v 0, ?_, s.events_cleared _ _ _ _, ?_, ?_, s.held_cleared _ _ _, ?_⟩
  · rw [execEventsClear_page s blk inst v 0 h, s.eventsWrite_zero]
  · exact s.reg_cleared _ _ _ _ (by decide) (by decide) (by decide)
  · exact s.reg_cleared _ _ _ _ (by decide) (by decide) (by decide)
  · obtain ⟨r, e⟩ := s.cleared_frame blk.toNat inst.toNat v 0
    rw [e]

/-- R17: a bit cleared and set again in the same PCLK stays 1, and a capture is held. -/
theorem eventsClear_setAgain (h : instOk blk.toNat inst.toNat = true) {j : Nat} (hj : j < evBits blk.toNat)
    (hr : s.fld blk.toNat inst.toNat oEVENT_ROUTE 0 2 < 2) :
    ∃ u, exec (.eventsClear blk inst v (BitVec.ofNat 32 (2 ^ j))) s = .next u ∧ u.ev blk.toNat inst.toNat j = true ∧
      (u.reg blk.toNat inst.toNat oINFO2).getLsbD 5 = true ∧ u.mem = s.mem ∧ u.tiles = s.tiles := by
  have hlt : j < 32 := by have := evBits_le blk.toNat; omega
  obtain ⟨i0, i1, e⟩ := s.eventsWrite_single blk.toNat inst.toNat v hj
  obtain ⟨r, hc⟩ := s.cleared_frame blk.toNat inst.toNat v (BitVec.ofNat 32 (2 ^ j))
  have hm := s.managerOnly_cleared blk.toNat inst.toNat v (BitVec.ofNat 32 (2 ^ j)) hr
  refine ⟨_, (execEventsClear_page s blk inst v _ h).trans (congrArg _ e), State.raise_ev _ i0 i1 hm hlt,
    State.raise_held _ i0 i1 hm hlt, ?_, ?_⟩
  · rw [State.freshen_mem, State.mem_raise _ j i0 i1 hm, hc]
  · rw [State.freshen_tiles, State.tiles_raise _ j i0 i1 hm, hc]

end commands

/-- Settles O54: every clause from what the write does with the page, R82's pair included; the two events raised on
the way are the ERR page's, which no partition owns. -/
theorem registerAndEventWrites : Obligations.RegisterAndEventWrites := by
  intro s blk inst off v again b i o
  refine ⟨fun hp => ⟨?cleared, ?setAgain, fun hl => ⟨?quiet, ?routed, ?stored, ?readOnly⟩, ?lockedReg, ?lockedEn⟩, ?pair, ?absent⟩
  case cleared => exact eventsClear_alone s blk inst v hp
  case setAgain =>
    rintro j hj rfl hr
    exact eventsClear_setAgain s blk inst v hp hj hr
  case quiet =>
    intro h
    rw [execEventEnWrite_page s blk inst v hp, s.pageWrite_unlocked hl, s.enableWrite_quiet b i v h]
  case routed =>
    intro j hj h
    rw [execEventEnWrite_page s blk inst v hp, s.pageWrite_unlocked hl, s.enableWrite_single b i v hj h]
  case stored =>
    intro d hd h4 hlo hhi hw hb
    rw [execRegisterWrite_page s blk inst off v hp, s.writeReg_stored i v hl hd h4 hlo hhi hw hb]
  case readOnly =>
    intro h4 ho
    rw [execRegisterWrite_page s blk inst off v hp, s.writeReg_readOnly b i v h4 ho]
  case lockedReg =>
    intro hl h4 hlo hhi
    obtain ⟨hcnt, hev, hmem, htiles, hreg⟩ := s.lockedWrite_spec b i o v
    have same := hreg b i o (Nat.lt_trans hhi (by decide)) (State.ne_header hlo (by decide))
      (State.ne_header hlo (by decide)) (State.ne_header hlo (by decide)) (State.ne_header hlo (by decide))
    refine ⟨_, ?_, hcnt, hev, same, hmem, htiles⟩
    rw [execRegisterWrite_page s blk inst off v hp, s.writeReg_block b i v h4 hlo hhi, s.pageWrite_locked hl]
  case lockedEn =>
    intro hl
    obtain ⟨hcnt, -, hmem, -, hreg⟩ := s.lockedWrite_spec b i oEVENT_EN v
    refine ⟨_, ?_, hreg b i oEVENT_EN (by decide) (by decide) (by decide) (by decide) (by decide), hcnt, hmem⟩
    rw [execEventEnWrite_page s blk inst v hp, s.pageWrite_locked hl]
  case pair =>
    intro hp hi h1 hh w
    rw [execRegisterWrite_pair s blk inst off v hp, execRegisterWrite_page s blk inst off _ hp,
      s.writePair_mirrored b i v hi h1 hh]
  case absent =>
    intro hp c hc
    obtain ⟨x, e⟩ := exec_noPage s blk inst off v again hp hc
    exact ⟨_, e, s.noPage_spec b i x true⟩

end Sys2Proof.Machine
end

section
/-! PROOF. Memory keeps its canonical form, and the queue is what it was but for the command taken (O59; R29, log
entry 3). One relation, `Keeps s u`, is carried through every function of the model, in the model's order: a lemma
`Keeps.f` says that what `f` makes of a state is kept where the state is. A proof follows the branches of the
function and names for each the functions it is made of. Memory changes only by `poke`, `pokeMask`, `wipe` and
`writeCells`, which keep the form, and where power is lost, which empties it. -/

namespace Sys2Proof.Machine

/- The lemmas cite each other in one long chain: checked side by side they would wait for each other in more
threads than the memory limit allows. -/
set_option Elab.async false

variable {α β : Type} {s u v : State}

/-- A state as it follows from another: its queue is the other's, and its memory keeps the canonical form. -/
structure Keeps (s u : State) : Prop where
  pending : u.pending = s.pending
  form : mwf 0 s.mem → mwf 0 u.mem

namespace Keeps

theorem refl : Keeps s s := ⟨rfl, id⟩

/-- Fields other than queue and memory are free. -/
theorem same (h : Keeps s u) (hp : v.pending = u.pending := by with_reducible rfl)
    (hm : v.mem = u.mem := by with_reducible rfl) : Keeps s v :=
  ⟨hp.trans h.pending, fun w => hm ▸ h.form w⟩

/-- The state of a pair that a match took apart. -/
theorem fst {p : State × α} {a : α} (h : Keeps s p.1) (e : p = (v, a)) : Keeps s v := by
  rw [e] at h
  exact h

theorem pair {a : α} (h : Keeps s u) : Keeps s (u, a).1 := h

theorem ite {c : Prop} [Decidable c] (ht : Keeps s u) (hu : Keeps s v) : Keeps s (if c then u else v) := by
  split
  · exact ht
  · exact hu

theorem foldl {l : List α} {f : State → α → State} (h : Keeps s u)
    (hf : ∀ {v a}, Keeps s v → Keeps s (f v a)) : Keeps s (l.foldl f u) := by
  induction l generalizing u with
  | nil => exact h
  | cons a l ih => exact ih (hf h)

theorem foldl_fst {l : List α} {f : State × β → α → State × β} {p : State × β} (h : Keeps s p.1)
    (hf : ∀ {q a}, Keeps s q.1 → Keeps s (f q a).1) : Keeps s (l.foldl f p).1 := by
  induction l generalizing p with
  | nil => exact h
  | cons a l ih => exact ih (hf h)

theorem poke {a : Nat} {bs : List Byte} (h : Keeps s u) : Keeps s (u.poke a bs) :=
  ⟨h.pending, fun w => u.wf_poke a bs (h.form w)⟩

theorem pokeMask {a bs} (h : Keeps s u) : Keeps s (u.pokeMask a bs) := by
  obtain ⟨_, _, _, _, _, _, e⟩ := u.pokeMask_frame a bs
  exact ⟨by rw [e]; exact h.pending, fun w => u.wf_pokeMask a bs (h.form w)⟩

theorem wipe {lo hi} (h : Keeps s u) : Keeps s (u.wipe lo hi) :=
  ⟨h.pending, fun w => u.wf_wipe lo hi (h.form w)⟩

end Keeps

/-- A command's outcome is a next state, and that state is kept. -/
def Lands (s : State) (r : Res) : Prop := ∃ t, r = .next t ∧ Keeps s t

theorem Lands.next (h : Keeps s u) : Lands s (.next u) := ⟨u, rfl, h⟩

theorem Lands.after {r : Res} (h : Lands s r) : Keeps s (after r u) := by
  obtain ⟨t, rfl, ht⟩ := h
  exact ht

/-! ### Registers, counters and the state's own operations -/

/-- Bytes written by `writeCells`. -/
theorem Keeps.cells {l : List (Nat × Byte)} (h : Keeps s u)
    (hp : v.pending = u.pending := by with_reducible rfl)
    (hm : v.mem = writeCells u.mem l := by with_reducible rfl) : Keeps s v :=
  ⟨hp.trans h.pending, fun w => hm ▸ mwf_writeCells l (h.form w)⟩

/-- Memory lists nothing, as where power is lost. -/
theorem Keeps.emptied (h : Keeps s u) (hp : v.pending = u.pending := by with_reducible rfl)
    (hm : v.mem = [] := by with_reducible rfl) : Keeps s v :=
  ⟨hp.trans h.pending, fun _ => hm ▸ by simp [mwf]⟩

theorem Keeps.setReg {blk inst off v} (h : Keeps s u) : Keeps s (u.setReg blk inst off v) :=
  ⟨h.pending, h.form⟩

theorem Keeps.count {blk inst off n} (h : Keeps s u) : Keeps s (u.count blk inst off n) := ⟨h.pending, h.form⟩
theorem Keeps.setTile {t x} (h : Keeps s u) : Keeps s (u.setTile t x) := ⟨h.pending, h.form⟩
theorem Keeps.setPort {n x} (h : Keeps s u) : Keeps s (u.setPort n x) := ⟨h.pending, h.form⟩
theorem Keeps.setSched {n x} (h : Keeps s u) : Keeps s (u.setSched n x) := ⟨h.pending, h.form⟩
theorem Keeps.setMeter {k x} (h : Keeps s u) : Keeps s (u.setMeter k x) := ⟨h.pending, h.form⟩
theorem Keeps.setConn {c x} (h : Keeps s u) : Keeps s (u.setConn c x) := ⟨h.pending, h.form⟩
theorem Keeps.setPart {p x} (h : Keeps s u) : Keeps s (u.setPart p x) := ⟨h.pending, h.form⟩
theorem Keeps.setGroup {g x} (h : Keeps s u) : Keeps s (u.setGroup g x) := ⟨h.pending, h.form⟩
theorem Keeps.setDev {d x} (h : Keeps s u) : Keeps s (u.setDev d x) := ⟨h.pending, h.form⟩
theorem Keeps.setWindow {i x} (h : Keeps s u) : Keeps s (u.setWindow i x) := ⟨h.pending, h.form⟩
theorem Keeps.setColl {h' x} (h : Keeps s u) : Keeps s (u.setColl h' x) := ⟨h.pending, h.form⟩
theorem Keeps.setPkeys {p x} (h : Keeps s u) : Keeps s (u.setPkeys p x) := ⟨h.pending, h.form⟩
theorem Keeps.setQueue {p q x} (h : Keeps s u) : Keeps s (u.setQueue p q x) := ⟨h.pending, h.form⟩
theorem Keeps.setLink {t d x} (h : Keeps s u) : Keeps s (u.setLink t d x) := ⟨h.pending, h.form⟩
theorem Keeps.setWave {p w x} (h : Keeps s u) : Keeps s (u.setWave p w x) := ⟨h.pending, h.form⟩
theorem Keeps.setPtest {n col x} (h : Keeps s u) : Keeps s (u.setPtest n col x) := ⟨h.pending, h.form⟩
theorem Keeps.setKvtDie {fd1 x} (h : Keeps s u) : Keeps s (u.setKvtDie fd1 x) := ⟨h.pending, h.form⟩

/-- A tile's state is no part of memory. -/
theorem Keeps.updTile {t f} (h : Keeps s u) : Keeps s (u.updTile t f) := h.setTile

theorem Keeps.freshen (h : Keeps s u) : Keeps s u.freshen := ⟨h.pending, h.form⟩
theorem Keeps.setMb {ch toFw x} (h : Keeps s u) : Keeps s (u.setMb ch toFw x) := ⟨h.pending, h.form⟩
theorem Keeps.emit {o} (h : Keeps s u) : Keeps s (u.emit o) := ⟨h.pending, h.form⟩

/-! ### Memory -/

theorem Keeps.unsoft {owner} (h : Keeps s u) : Keeps s (u.unsoft owner) := ⟨h.pending, h.form⟩

/-! ### Translation walks -/

theorem Keeps.busUse {line cls n} (h : Keeps s u) : Keeps s (u.busUse line cls n) := h.setDev
theorem Keeps.lineRead {cls l} (h : Keeps s u) : Keeps s (u.lineRead cls l) := h.count.busUse
theorem Keeps.lineWrite {cls l} (h : Keeps s u) : Keeps s (u.lineWrite cls l) := h.count.busUse

/-! ### Firmware's store -/

theorem Keeps.updStore {f} (h : Keeps s u) : Keeps s (u.updStore f) := ⟨h.pending, h.form⟩
theorem Keeps.saveMap (h : Keeps s u) : Keeps s u.saveMap := .ite h h.updStore

/-! ### Events and interrupts -/

theorem Keeps.armedCheck {p i} (h : Keeps s u) : Keeps s (u.armedCheck p i) := by
  unfold State.armedCheck
  extract_lets _ _ _ s1
  have h1 : Keeps s s1 := h.same
  exact .ite h (.ite h1.setPart h1.same)

theorem Keeps.setPTally {p i v} (h : Keeps s u) : Keeps s (u.setPTally p i v) := h.setPart.armedCheck

theorem Keeps.incTally {p w} (h : Keeps s u) : Keeps s (u.incTally p w) := by
  unfold State.incTally
  refine .ite h (.ite h.updTile ?_)
  extract_lets
  exact h.setPTally

theorem Keeps.noteEcc {l} (h : Keeps s u) : Keeps s (u.noteEcc l) := .ite h.same (.ite h.same h)

theorem Keeps.fwLine {id a bs} (h : Keeps s u) : Keeps s (u.fwLine id a bs) := by
  unfold State.fwLine
  extract_lets _ _ src _ _ _ src'
  have hsrc : Keeps s src := h.lineWrite.poke
  have hsrc' : Keeps s src' := h.lineWrite.lineRead.noteEcc.poke
  exact .ite hsrc.same (.ite h.lineWrite.lineRead.noteEcc hsrc'.same.freshen)

theorem Keeps.chanPut {p off bs} (h : Keeps s u) : Keeps s (u.chanPut p off bs) := by
  unfold State.chanPut
  split
  · exact h.fwLine
  · exact h

theorem Keeps.chanStatus {p} (h : Keeps s u) : Keeps s (u.chanStatus p) := h.chanPut

theorem Keeps.chanSend {p} (h : Keeps s u) : Keeps s (u.chanSend p) := by
  unfold State.chanSend
  extract_lets s1
  have h1 : Keeps s s1 := h.chanPut.chanStatus
  split
  · extract_lets _ s2
    have h2 : Keeps s s2 := h1.lineRead.noteEcc
    exact .ite h2 h2.freshen.incTally
  · exact h1

theorem Keeps.sendFw {ch words} (h : Keeps s u) : Keeps s (u.sendFw ch words) := by
  unfold State.sendFw
  extract_lets
  split
  · exact h.setMb.emit
  · exact h.setMb.emit
  · exact h.setMb.chanSend
  · exact h.setMb

theorem Keeps.fwPost {ch words} (h : Keeps s u) : Keeps s (u.fwPost ch words) :=
  .ite h.sendFw (.ite h.setMb h.setMb.count)

theorem Keeps.fwNext {ch} (h : Keeps s u) : Keeps s (u.fwNext ch) := by
  unfold State.fwNext
  extract_lets
  split
  · exact h
  · exact .ite h h.setMb.sendFw

theorem Keeps.postEvent {ch blk inst bit} (h : Keeps s u) : Keeps s (u.postEvent ch blk inst bit) :=
  h.setMb.fwPost

theorem Keeps.route {blk inst bit} (h : Keeps s u) : Keeps s (u.route blk inst bit) := by
  unfold State.route
  extract_lets _ s1
  have h1 : Keeps s s1 := .ite h.postEvent h
  refine .ite ?_ h1
  split
  · exact h1.postEvent
  · exact h1

theorem Keeps.capture {blk inst bit i0 i1} (h : Keeps s u) : Keeps s (u.capture blk inst bit i0 i1) :=
  .ite h.setReg h.setReg.setReg.setReg

theorem Keeps.raise {blk inst bit i0 i1} (h : Keeps s u) : Keeps s (u.raise blk inst bit i0 i1) := by
  unfold State.raise
  extract_lets _ s1 _ s2
  have h1 : Keeps s s1 := h.capture.setReg
  have h2 : Keeps s s2 := .ite h1 h1.count
  exact .ite h2.route h2

theorem Keeps.answer {c opcode rc data} (h : Keeps s u) : Keeps s (u.answer c opcode rc data) := by
  unfold State.answer
  extract_lets _ _ s0 s1 s1' s2
  have h0 : Keeps s s0 := .ite h.count h
  have h1 : Keeps s s1 := .ite h0.setMb.emit h0
  have h1' : Keeps s s1' := h0.setMb
  have h2 : Keeps s s2 := by
    unfold s2
    split
    · exact h1'.chanStatus
    · exact h1'
  exact .ite (.ite h1 h1.fwPost) h2.fwPost

theorem Keeps.finish {c rc data} (h : Keeps s u) : Keeps s (u.finish c rc data) := h.fwPost

theorem Keeps.command {c opcode ok k} (h : Keeps s u) (hk : ∀ {v}, Keeps s v → Keeps s (k v)) :
    Keeps s (u.command c opcode ok k) :=
  .ite h (.ite h.answer (hk h))

theorem Keeps.unmapped {a write core complex} (h : Keeps s u) : Keeps s (u.unmapped a write core complex) :=
  h.count.raise

theorem Keeps.noPage {blk inst off write} (h : Keeps s u) : Keeps s (u.noPage blk inst off write) :=
  h.unmapped.freshen

/-! ### Tiles -/

theorem Keeps.lockedWrite {blk inst off v} (h : Keeps s u) : Keeps s (u.lockedWrite blk inst off v) :=
  h.count.raise

theorem Keeps.pageWrite {blk inst off v k} (h : Keeps s u) (hk : ∀ {v}, Keeps s v → Keeps s (k v)) :
    Keeps s (u.pageWrite blk inst off v k) :=
  .ite h.lockedWrite (hk h)

theorem Keeps.noteGroup {was g} (h : Keeps s u) : Keeps s (u.noteGroup was g) := .ite h.setGroup h

theorem Keeps.abandonTest {t} (h : Keeps s u) : Keeps s (u.abandonTest t) := by
  unfold State.abandonTest
  refine .ite ?_ h
  extract_lets
  exact h.setPtest.count

theorem Keeps.landFlight {t l} (h : Keeps s u) : Keeps s (u.landFlight t l) := by
  unfold State.landFlight
  split
  · exact h.updTile
  · exact h.updTile
  · exact h.updTile
  · exact h.updTile
  · exact h.updTile
  · exact h.updTile
  · exact h.updTile
  · exact h.updTile
  · extract_lets s1
    have h1 : Keeps s s1 := h.updTile
    split
    · exact h1.unsoft
    · exact h1
  · exact h.pokeMask
  · exact h.pokeMask
  · extract_lets
    exact h.updTile.freshen
  · exact h.updTile
  extract_lets
  exact h.updTile.freshen

theorem Keeps.landAllOf {t a} (h : Keeps s u) : Keeps s (u.landAllOf t a) := by
  induction a generalizing u with
  | nil => exact h
  | cons a l ih => exact ih h.landFlight

theorem Keeps.landIf {t p} (h : Keeps s u) : Keeps s (u.landIf t p) := h.setTile.landAllOf
theorem Keeps.landUpTo {t a} (h : Keeps s u) : Keeps s (u.landUpTo t a) := h.landIf
theorem Keeps.landTallies {t a} (h : Keeps s u) : Keeps s (u.landTallies t a) := h.landIf
theorem Keeps.landMem {t a} (h : Keeps s u) : Keeps s (u.landMem t a) := h.landIf
theorem Keeps.landRest {t} (h : Keeps s u) : Keeps s (u.landRest t) := h.landIf
theorem Keeps.noteHeld {t} (h : Keeps s u) : Keeps s (u.noteHeld t) := h.setReg.raise

theorem Keeps.trapTile {t cause idx} (h : Keeps s u) : Keeps s (u.trapTile t cause idx) := by
  unfold State.trapTile
  extract_lets _ _ _ s3
  have h3 : Keeps s s3 := h.landRest.setTile.setReg.raise
  exact (Keeps.ite h3.noteHeld h3).noteGroup

theorem Keeps.holdTile {t} (h : Keeps s u) : Keeps s (u.holdTile t) := by
  unfold State.holdTile
  extract_lets s1
  have h1 : Keeps s s1 := h.updTile
  exact .ite h1.noteHeld h1

theorem Keeps.degradeRow {n col} (h : Keeps s u) : Keeps s (u.degradeRow n col) := by
  unfold State.degradeRow
  extract_lets _ _ _ _ _ s3
  have h3 : Keeps s s3 := by
    unfold s3
    refine Keeps.foldl ?_ fun hv => .ite hv.updTile hv
    refine h.same.saveMap.foldl fun hv => ?_
    extract_lets
    exact (Keeps.ite hv.trapTile hv).updTile.noteGroup
  exact h3.same.raise.raise.foldl .raise

theorem Keeps.condemn {n col} (h : Keeps s u) : Keeps s (u.condemn n col) := by
  unfold State.condemn
  extract_lets _ s1 s2
  have h1 : Keeps s s1 := h.setPtest.raise
  have h2 : Keeps s s2 := h1.setPtest
  refine .ite h (.ite h1.setPtest.degradeRow ?_)
  split
  · exact h2.same.saveMap.raise
  · exact h1.same.foldl fun hv => hv.abandonTest.holdTile

theorem Keeps.condemnTile {t} (h : Keeps s u) : Keeps s (u.condemnTile t) := h.condemn
theorem Keeps.noteTileCe {t im} (h : Keeps s u) : Keeps s (u.noteTileCe t im) := h.setPtest
theorem Keeps.sramCe {w} (h : Keeps s u) : Keeps s (u.sramCe w) := h.count.count.raise.noteTileCe
theorem Keeps.clearTile {t} (h : Keeps s u) : Keeps s (u.clearTile t) := h.wipe.wipe.setTile
theorem Keeps.resetReceiver {ch toFw} (h : Keeps s u) : Keeps s (u.resetReceiver ch toFw) := .ite h.setMb h

theorem Keeps.cutHead {t} (h : Keeps s u) : Keeps s (u.cutHead t) := by
  unfold State.cutHead
  extract_lets
  split
  · refine .ite h ?_
    extract_lets _ s1
    have h1 : Keeps s s1 := h.updTile
    exact .ite h1.updTile h1
  · exact h

theorem Keeps.abortTile {t} (h : Keeps s u) : Keeps s (u.abortTile t) := by
  unfold State.abortTile
  extract_lets _ _ _ s2
  have h2 : Keeps s s2 := h.abandonTest.cutHead.setTile
  split
  · exact h.raise
  · exact h
  · exact h
  · exact .ite h h2.same.resetReceiver.noteGroup

theorem Keeps.armTile {t} (h : Keeps s u) : Keeps s (u.armTile t) := by
  unfold State.armTile
  refine .ite h.raise ?_
  extract_lets _ s1
  have h1 : Keeps s s1 := h.abandonTest
  split <;> exact h1.updTile

theorem Keeps.stopTile {t} (h : Keeps s u) : Keeps s (u.stopTile t) := by
  unfold State.stopTile
  split
  · exact h.updTile
  · exact h
  · exact h
  · exact h
  · exact h.raise

theorem Keeps.resumeTile {t} (h : Keeps s u) : Keeps s (u.resumeTile t) := by
  unfold State.resumeTile
  split
  · exact h.updTile
  · exact h.raise

theorem Keeps.execTileCtrlArm {t} (h : Keeps s u) : Lands s (execTileCtrlArm t u) :=
  .next (.ite (h.pageWrite .armTile) h)

theorem Keeps.execTileCtrlStop {t} (h : Keeps s u) : Lands s (execTileCtrlStop t u) :=
  .next (.ite (h.pageWrite .stopTile) h)

theorem Keeps.execTileCtrlResume {t} (h : Keeps s u) : Lands s (execTileCtrlResume t u) :=
  .next (.ite (h.pageWrite .resumeTile) h)

theorem Keeps.execTileCtrlAbort {t} (h : Keeps s u) : Lands s (execTileCtrlAbort t u) :=
  .next (.ite h.abortTile h)

theorem Keeps.gridLaunch {g} (h : Keeps s u) : Keeps s (u.gridLaunch g) := .ite h.raise (.ite h.setGroup h)

theorem Keeps.execGridLaunch {v} (h : Keeps s u) : Lands s (execGridLaunch v u) :=
  .next (h.pageWrite .gridLaunch)

theorem Keeps.execUngateDone {t} (h : Keeps s u) : Lands s (execUngateDone t u) := by
  refine .next (.ite ?_ h)
  extract_lets s1
  have h1 : Keeps s s1 := h.updTile
  exact .ite h1.gridLaunch h1

theorem Keeps.flushLanding {t} (h : Keeps s u) : Keeps s (u.flushLanding t) :=
  h.foldl (fun hv => hv.foldl (fun hv => .ite (hv.foldl .poke) hv))

theorem Keeps.launchTile {t} (h : Keeps s u) : Keeps s (u.launchTile t) := h.abandonTest.flushLanding.updTile
theorem Keeps.launchGroup {g} (h : Keeps s u) : Keeps s (u.launchGroup g) := h.setGroup.foldl .launchTile
theorem Keeps.drainDone {t} (h : Keeps s u) : Keeps s (u.drainDone t) := h.landRest.setTile.noteHeld.noteGroup
theorem Keeps.execDrainDone {t} (h : Keeps s u) : Lands s (execDrainDone t u) := .next (.ite h.drainDone h)

theorem Keeps.execPatchEngage {die row} (h : Keeps s u) : Lands s (execPatchEngage die row u) :=
  .next (.ite (h.same.foldl (fun hv => hv.abandonTest.holdTile)) h)

theorem Keeps.unholdLost {t} (h : Keeps s u) : Keeps s (u.unholdLost t) := by
  unfold State.unholdLost
  extract_lets
  split
  · exact .ite h.updTile.trapTile h.updTile
  · exact h

theorem Keeps.execPatchMoveDone {die e} (h : Keeps s u) : Lands s (execPatchMoveDone die e u) := by
  unfold Machine.execPatchMoveDone
  extract_lets
  refine .next ?_
  split
  · exact (h.setPtest.same.saveMap.foldl (fun hv => (Keeps.ite hv.unholdLost hv.updTile).raise)).raise
  · exact h

theorem Keeps.execHoldRelease {t} (h : Keeps s u) : Lands s (execHoldRelease t u) :=
  .next (.ite h.landRest.updTile h)

/-! ### Slot effects and register writes -/

theorem Keeps.progReadMarks {t a n} (h : Keeps s u) : Keeps s (u.progReadMarks t a n) := by
  unfold State.progReadMarks
  extract_lets _ s1
  have h1 : Keeps s s1 := h.foldl .sramCe
  exact (Keeps.ite h1 h1.updTile.raise.condemnTile).freshen

theorem Keeps.fly {t lat l} (h : Keeps s u) : Keeps s (u.fly t lat l) := h.updTile
theorem Keeps.flyS {t lat r v} (h : Keeps s u) : Keeps s (u.flyS t lat r v) := h.fly
theorem Keeps.flyV {t lat r v mask} (h : Keeps s u) : Keeps s (u.flyV t lat r v mask) := h.fly
theorem Keeps.flyVF {t lat r v mask fl} (h : Keeps s u) : Keeps s (u.flyVF t lat r v mask fl) := h.flyV.fly
theorem Keeps.flyMem {t a bs} (h : Keeps s u) : Keeps s (u.flyMem t a bs) := h.fly
theorem Keeps.takeSre {t rm n} (h : Keeps s u) : Keeps s (u.takeSre t rm n) := .ite h.updTile h

/-! ### Message pools -/

theorem Keeps.sendPause {n release} (h : Keeps s u) : Keeps s (u.sendPause n release) := h.setPort

theorem Keeps.poolTo {n used} (h : Keeps s u) : Keeps s (u.poolTo n used) := by
  unfold State.poolTo
  extract_lets _ s1
  have h1 : Keeps s s1 := h.setPort
  exact .ite h1 (.ite h1.sendPause (.ite h1.sendPause h1))

theorem Keeps.poolRaw {n used} (h : Keeps s u) : Keeps s (u.poolRaw n used) := h.setPort
theorem Keeps.poolFree {n len} (h : Keeps s u) : Keeps s (u.poolFree n len) := h.poolTo

/-! ### Translation and access to memory -/

theorem Keeps.evacStart {d slab dstDev dstLocal auto cmd} (h : Keeps s u) :
    Keeps s (u.evacStart d slab dstDev dstLocal auto cmd).1 := by
  unfold State.evacStart
  extract_lets
  split
  · exact h.setDev.raise
  · exact h.setDev

theorem Keeps.autoEvac {d} (h : Keeps s u) : Keeps s (u.autoEvac d) := by
  unfold State.autoEvac
  refine .ite h ?_
  split
  · extract_lets r
    have hr : Keeps s r.1 := h.evacStart
    split <;> exact hr.raise
  · exact h.raise
  · exact h

theorem Keeps.devThresholds {d} (h : Keeps s u) : Keeps s (u.devThresholds d) :=
  .ite h.autoEvac (.ite h.raise h)

theorem Keeps.dramUe {line} (h : Keeps s u) : Keeps s (u.dramUe line) := h.count.raise.setDev.devThresholds

theorem Keeps.dramCe {line} (h : Keeps s u) : Keeps s (u.dramCe line) :=
  h.count.count.raise.setDev.devThresholds

theorem Keeps.readLine {cls l} (h : Keeps s u) : Keeps s (u.readLine cls l).1 := by
  unfold State.readLine
  extract_lets s1
  have h1 : Keeps s s1 := h.lineRead
  split
  · exact h1.dramUe
  · exact .ite h1.dramCe h1

theorem Keeps.readLines {cls a} (h : Keeps s u) : Keeps s (u.readLines cls a).1 := by
  induction a generalizing u with
  | nil => exact h
  | cons a l ih =>
    unfold State.readLines
    extract_lets r
    have hr : Keeps s r.1 := h.readLine
    split
    · exact hr
    · exact ih hr

theorem Keeps.dramRead {p k a n cls} (h : Keeps s u) : Keeps s (u.dramRead p k a n cls).1 := by
  unfold State.dramRead
  split
  · exact h
  extract_lets r
  have hr : Keeps s r.1 := h.readLines
  split
  · exact hr
  · exact hr.freshen

theorem Keeps.writeLine {id a bs cls} (h : Keeps s u) : Keeps s (u.writeLine id a bs cls).1 := by
  unfold State.writeLine
  extract_lets _ _ src _ _ src' _ _ src''
  have hsrc : Keeps s src := h.lineWrite.poke
  have hsrc' : Keeps s src' := h.readLine.lineWrite.poke
  have hsrc'' : Keeps s src'' := h.readLine.lineWrite.poke
  split
  · exact hsrc.same
  split
  · exact h.readLine
  split
  · exact hsrc'.same
  · exact hsrc''.same.freshen

theorem Keeps.writeLines {id cls a b} (h : Keeps s u) : Keeps s (u.writeLines id cls a b).1 := by
  induction a generalizing u id cls b with
  | nil => exact h
  | cons a l ih =>
    unfold State.writeLines
    split
    next e => exact h.writeLine.fst e
    next e => exact ih (h.writeLine.fst e)

theorem Keeps.dramPut {p k a bs cls} (h : Keeps s u) : Keeps s (u.dramPut p k a bs cls).1 := by
  unfold State.dramPut
  split
  · exact h
  · exact h.writeLines

theorem Keeps.dramWrite {p k a bs cls} (h : Keeps s u) : Keeps s (u.dramWrite p k a bs cls).1 := h.dramPut
theorem Keeps.put0 {a bs cls} (h : Keeps s u) : Keeps s (u.put0 a bs cls) := h.dramWrite

theorem Keeps.load0 {a n cls} (h : Keeps s u) : Keeps s (u.load0 a n cls).1 := by
  unfold State.load0
  split
  next e => exact h.dramRead.fst e
  next e => exact h.dramRead.fst e

theorem Keeps.sramRead {a n} (h : Keeps s u) : Keeps s (u.sramRead a n).1 := by
  unfold State.sramRead
  split
  · exact h.raise.condemnTile
  · exact (h.foldl .sramCe).freshen

theorem Keeps.physRead {p k a n cls} (h : Keeps s u) : Keeps s (u.physRead p k a n cls).1 := by
  unfold State.physRead
  split
  · exact h.dramRead
  split
  · exact h.sramRead
  · exact h

theorem Keeps.bast {owner a n} (h : Keeps s u) : Keeps s (u.bast owner a n) := by
  unfold State.bast
  extract_lets
  split
  · extract_lets
    exact h.same
  · exact h.same

theorem Keeps.unmeasure {a n} (h : Keeps s u) : Keeps s (u.unmeasure a n) := h.foldl .updTile

theorem Keeps.physPut {p k a bs owner cls} (h : Keeps s u) : Keeps s (u.physPut p k a bs owner cls).1 := by
  unfold State.physPut
  extract_lets r src
  have hr : Keeps s r.1 := by
    unfold r
    split
    · exact h.dramPut
    split
    · exact h.poke
    · exact h.poke.unmeasure
  have hsrc : Keeps s src := hr
  split
  · exact hr
  extract_lets
  exact hsrc.same

theorem Keeps.physWrite {p k a bs owner cls} (h : Keeps s u) : Keeps s (u.physWrite p k a bs owner cls).1 :=
  h.physPut

theorem Keeps.setTb {fd1 l} (h : Keeps s u) : Keeps s (u.setTb fd1 l) := ⟨h.pending, h.form⟩

theorem Keeps.walkCost {p va cls} (h : Keeps s u) : Keeps s (u.walkCost p va cls) := by
  unfold State.walkCost
  refine .ite h ?_
  refine h.foldl fun hv => ?_
  extract_lets _ s1
  have h1 : Keeps s s1 := hv.lineRead
  exact .ite h1.dramCe h1

/-- The walk of a miss, whatever is done with the entry found. -/
theorem Keeps.xlate_miss {fd1 p va acc cls i w use} (h : Keeps s u)
    (huse : ∀ {v e}, Keeps s v → Keeps s (use v e).1) :
    Keeps s (State.xlate.miss fd1 p va acc cls u i w use).1 := by
  unfold State.xlate.miss
  extract_lets _ s1
  have h1 : Keeps s s1 := h.count.count.walkCost
  split
  · split
    · exact huse h1.setTb
    · exact h1
  · exact h1
  · exact h1.dramUe.raise

theorem Keeps.xlate {fd1 p va acc cls} (h : Keeps s u) : Keeps s (u.xlate fd1 p va acc cls).1 := by
  unfold State.xlate
  extract_lets _ _ hit _ _ use
  have huse {v e} (hv : Keeps s v) : Keeps s (use v e).1 := by
    unfold use
    split
    · exact hv
    split <;> exact hv
  clear_value hit
  split
  · split
    · exact huse h.setTb.count.freshen
    · exact h.setTb.freshen.xlate_miss huse
  · exact h.xlate_miss huse

theorem Keeps.xlHeld {fd1 p va acc hs cls} (h : Keeps s u) : Keeps s (u.xlHeld fd1 p va acc hs cls).1 := by
  unfold State.xlHeld
  extract_lets
  split
  · split <;> exact h
  split
  next e => exact h.xlate.fst e
  next e => exact h.xlate.fst e

theorem Keeps.vread {fd1 p acc a b c d f} (h : Keeps s u) : Keeps s (u.vread fd1 p acc a b c d f).1 := by
  induction a generalizing u fd1 p acc b c d f with
  | zero => exact h
  | succ n ih =>
    unfold State.vread
    split
    · exact h
    split
    next e => exact h.xlHeld.fst e
    extract_lets k
    split
    next e _ _ _ e' => exact ih ((h.xlHeld.fst e).physRead.fst e')
    next e _ _ _ _ _ e' => exact (h.xlHeld.fst e).physRead.fst e'

theorem Keeps.vget {fd1 p acc va n h'} (h : Keeps s u) : Keeps s (u.vget fd1 p acc va n h').1 := h.vread
theorem Keeps.queueUe {p q line} (h : Keeps s u) : Keeps s (u.queueUe p q line) := h.raise

/-- `delta%` puts the body in: in a check of the unfolded equation the kernel evaluates the page's address. -/
theorem Keeps.dirtyPage {p pa cls} (h : Keeps s u) : Keeps s (u.dirtyPage p pa cls) := by
  rw [show State.dirtyPage = delta% State.dirtyPage from rfl]
  dsimp only
  split
  next e => exact (h.load0.fst e).put0.queueUe
  next e => exact (h.load0.fst e).put0

theorem Keeps.dirtyRange {p x cls} (h : Keeps s u) : Keeps s (u.dirtyRange p x cls) :=
  .ite (h.foldl .dirtyPage) h

theorem Keeps.vwrite {fd1 p acc ok owner a b c d f g} (h : Keeps s u) :
    Keeps s (u.vwrite fd1 p acc ok owner a b c d f g).1 := by
  induction a generalizing u fd1 p acc ok owner b c d f g with
  | zero => exact h
  | succ n ih =>
    unfold State.vwrite
    split
    · exact h
    split
    next e => exact h.xlHeld.fst e
    extract_lets k
    split
    next e _ => exact h.xlHeld.fst e
    split
    next e _ _ _ _ e' => exact ih ((h.xlHeld.fst e).physPut.fst e')
    next e _ _ _ _ _ _ e' => exact (h.xlHeld.fst e).physPut.fst e'

theorem Keeps.vput {fd1 p va bs h'} (h : Keeps s u) : Keeps s (u.vput fd1 p va bs h').1 :=
  h.vwrite.foldl .dirtyRange

theorem Keeps.vhold {fd1 p acc a b c d} (h : Keeps s u) : Keeps s (u.vhold fd1 p acc a b c d).1 := by
  induction a generalizing u fd1 p acc b c d with
  | zero => exact h
  | succ n ih =>
    unfold State.vhold
    split
    · exact h
    split
    next e => exact h.xlHeld.fst e
    next e =>
      extract_lets
      exact ih (h.xlHeld.fst e)

/-! ### Mailboxes and replies -/

theorem Keeps.queueMsg {t vec src dst len word old} (h : Keeps s u) :
    Keeps s (u.queueMsg t vec src dst len word old) := by
  unfold State.queueMsg
  extract_lets
  exact h.updTile

theorem Keeps.copyRequest {t spill va tva len tally im} (h : Keeps s u) :
    Keeps s (u.copyRequest t spill va tva len tally im) :=
  h.same.updTile.freshen

theorem Keeps.takeTileMsg {t sn} (h : Keeps s u) : Keeps s (u.takeTileMsg t sn) :=
  (h.setMb.foldl .flyS).freshen.fwNext

/-! ### The matrix unit -/

theorem Keeps.busyFor {t n} (h : Keeps s u) : Keeps s (u.busyFor t n) := h.updTile
theorem Keeps.beginMma {t c n0 n1} (h : Keeps s u) : Keeps s (u.beginMma t c n0 n1) := h.updTile

/-! ### Messages, moves and copies of a tile -/

theorem Keeps.tallyAt {t g k mark own} (h : Keeps s u) : Keeps s (u.tallyAt t g k mark own) :=
  .ite h.updTile h.landFlight

theorem Keeps.msgGone {src} (h : Keeps s u) : Keeps s (u.msgGone src) := h.updTile

theorem Keeps.settleDead {src id dst} (h : Keeps s u) : Keeps s (u.settleDead src id dst) :=
  .ite h.updTile.msgGone h

theorem Keeps.discardBeat {b others counts} (h : Keeps s u) : Keeps s (u.discardBeat b others counts) := by
  unfold State.discardBeat
  extract_lets _ _ s1
  have h1 : Keeps s s1 := h.same
  exact (Keeps.ite h1.count h1).updTile.settleDead

theorem Keeps.landLine {t l n g} (h : Keeps s u) : Keeps s (u.landLine t l n g) := by
  unfold State.landLine
  extract_lets _ _ _ _ _ s1 s2 s3
  have h1 : Keeps s s1 := h.poke
  have h2 : Keeps s s2 := h1.same.updTile
  have h3 : Keeps s s3 := h2.updTile
  exact .ite h2 (.ite h3.unsoft h3.tallyAt)

theorem Keeps.landBeat {b others g} (h : Keeps s u) : Keeps s (u.landBeat b others g) := by
  unfold State.landBeat
  extract_lets _ _ _ s1
  have h1 : Keeps s s1 := h.same.updTile
  exact .ite h1.msgGone h1

theorem Keeps.stageLine {t i g} (h : Keeps s u) : Keeps s (u.stageLine t i g) := by
  unfold State.stageLine
  split
  · exact h
  extract_lets _ _ _ _ s1
  have h1 : Keeps s s1 := h.updTile.progReadMarks
  split
  · exact .ite h1.tallyAt h1
  · exact h1

theorem Keeps.sendBeat {t d g} (h : Keeps s u) : Keeps s (u.sendBeat t d g) := by
  unfold State.sendBeat
  extract_lets
  split
  · extract_lets _ _ _ s2 s3
    have h2 : Keeps s s2 := .ite h.updTile.count h.updTile
    have h3 : Keeps s s3 := h2.same
    exact .ite h3.discardBeat (.ite h3.settleDead h3)
  · exact h

theorem Keeps.exactBeat {t g} (h : Keeps s u) : Keeps s (u.exactBeat t g) := by
  unfold State.exactBeat
  split
  · exact .ite h.sendBeat h
  · exact h

theorem Keeps.xmovEnds {t g a} (h : Keeps s u) : Keeps s (u.xmovEnds t g a) := by
  induction a generalizing u with
  | zero => exact h
  | succ n ih =>
    unfold State.xmovEnds
    split
    · exact .ite (ih h.updTile.tallyAt) h
    · exact h

theorem Keeps.xmovRead {t g} (h : Keeps s u) : Keeps s (u.xmovRead t g) := by
  unfold State.xmovRead
  split
  · refine .ite ?_ h
    extract_lets
    exact h.updTile.progReadMarks
  · exact h

theorem Keeps.xmovWrite {t g} (h : Keeps s u) : Keeps s (u.xmovWrite t g) := by
  unfold State.xmovWrite
  split
  · split
    · refine .ite ?_ h
      extract_lets
      exact h.poke.updTile.xmovEnds
    · exact h
  · exact h

theorem Keeps.engGclk {t g} (h : Keeps s u) : Keeps s (u.engGclk t g) := by
  unfold State.engGclk
  extract_lets s0 _ _ line s1 _ s2 _ i s3 s4
  have h0 : Keeps s s0 := h.landMem
  have h1 : Keeps s s1 := by
    unfold s1
    clear_value line
    split
    · exact h0.landLine
    · exact h0
  have h2 : Keeps s s2 := .ite h1.updTile h1
  have h3 : Keeps s s3 := by
    unfold s3
    refine .ite ?_ h2
    clear_value i
    split
    · exact h2.stageLine
    · exact h2.xmovRead
  have h4 : Keeps s s4 := .ite h3.xmovWrite h3
  exact h4.exactBeat.updTile

theorem Keeps.engTo {t a} (h : Keeps s u) : Keeps s (u.engTo t a) := by
  induction a generalizing u with
  | zero => exact h
  | succ n ih => exact .ite h.updTile (ih h.engGclk)

theorem Keeps.advance {t n} (h : Keeps s u) : Keeps s (u.advance t n) := h.engTo.setTile.count.landUpTo

theorem Keeps.hold {t n} (h : Keeps s u) : Keeps s (u.hold t n) := by
  unfold State.hold
  extract_lets _ s1
  have h1 : Keeps s s1 := h.advance.updTile
  exact .ite h1.updTile.count h1

theorem Keeps.fetchWait {t a} (h : Keeps s u) : Keeps s (u.fetchWait t a) := by
  induction a generalizing u with
  | zero => exact h
  | succ n ih =>
    unfold State.fetchWait
    extract_lets
    exact .ite (.ite h.advance h) (ih h.advance)

theorem Keeps.engWhile {t go a} (h : Keeps s u) : Keeps s (u.engWhile t go a) := by
  induction a generalizing u with
  | zero => exact h
  | succ n ih =>
    unfold State.engWhile
    extract_lets
    exact .ite (ih h.engGclk) h

/-! ### Slot instructions -/

theorem Keeps.semXmsg {f w t} (h : Keeps s u) : Keeps s ((semXmsg f w t).act u) := h.queueMsg
theorem Keeps.semXmsgv {f w t} (h : Keeps s u) : Keeps s ((semXmsgv f w t).act u) := h.queueMsg

theorem Keeps.semXmov {f w t} (h : Keeps s u) : Keeps s ((semXmov f w t).act u) := by
  dsimp only [Machine.semXmov]
  exact h.updTile

theorem Keeps.semXwait {f w t} (h : Keeps s u) : Keeps s ((semXwait f w t).act u) := by
  dsimp only [Machine.semXwait]
  exact h.landTallies.updTile

theorem Keeps.semXtset {f w t} (h : Keeps s u) : Keeps s ((semXtset f w t).act u) := h.updTile.landTallies
theorem Keeps.semXtrd {f w t} (h : Keeps s u) : Keeps s ((semXtrd f w t).act u) := h.landTallies.flyS

theorem Keeps.semXsync {f w t} (h : Keeps s u) : Keeps s ((semXsync f w t).act u) := by
  dsimp only [Machine.semXsync]
  exact h.updTile

theorem Keeps.semXcopy {spill f w t} (h : Keeps s u) : Keeps s ((semXcopy spill f w t).act u) := h.copyRequest
theorem Keeps.semXmbw {f w t} (h : Keeps s u) : Keeps s ((semXmbw f w t).act u) := h.setMb

theorem Keeps.semXmbr {f w t} (h : Keeps s u) : Keeps s ((semXmbr f w t).act u) :=
  .ite h.takeTileMsg h.updTile

theorem Keeps.semXfld {f w t} (h : Keeps s u) : Keeps s ((semXfld f w t).act u) := by
  dsimp only [Machine.semXfld]
  exact h.updTile

theorem Keeps.semMma {f w t} (h : Keeps s u) : Keeps s ((semMma f w t).act u) :=
  .ite h.beginMma h.beginMma.updTile.progReadMarks.progReadMarks.progReadMarks.progReadMarks

theorem Keeps.semMmav {f w t} (h : Keeps s u) : Keeps s ((semMmav f w t).act u) :=
  h.beginMma.updTile.progReadMarks

theorem Keeps.semMadd {f w t} (h : Keeps s u) : Keeps s ((semMadd f w t).act u) := h.updTile.busyFor
theorem Keeps.semMclr {f w t} (h : Keeps s u) : Keeps s ((semMclr f w t).act u) := h.updTile.busyFor

theorem Keeps.semMrd {f w t} (h : Keeps s u) : Keeps s ((semMrd f w t).act u) := by
  unfold Machine.semMrd
  dsimp only
  split
  · exact h
  · exact h.updTile.busyFor.takeSre

theorem Keeps.semAld {f w t} (h : Keeps s u) : Keeps s ((semAld f w t).act u) :=
  h.updTile.busyFor.progReadMarks

theorem Keeps.semAst {f w t} (h : Keeps s u) : Keeps s ((semAst f w t).act u) := h.updTile.busyFor
theorem Keeps.semMlst {f w t} (h : Keeps s u) : Keeps s ((semMlst f w t).act u) := h.updTile.busyFor

theorem Keeps.semMlad {f w t} (h : Keeps s u) : Keeps s ((semMlad f w t).act u) :=
  h.updTile.busyFor.progReadMarks

theorem Keeps.semArdv {f w t} (h : Keeps s u) : Keeps s ((semArdv f w t).act u) := h.flyV.busyFor
theorem Keeps.semAwrv {f w t} (h : Keeps s u) : Keeps s ((semAwrv f w t).act u) := h.updTile.busyFor
theorem Keeps.semAlu {op lat f w t} (h : Keeps s u) : Keeps s ((semAlu op lat f w t).act u) := h.flyS
theorem Keeps.semAluI {op f w t} (h : Keeps s u) : Keeps s ((semAluI op f w t).act u) := h.flyS
theorem Keeps.semLui {f w t} (h : Keeps s u) : Keeps s ((semLui f w t).act u) := h.flyS
theorem Keeps.semPlog {f w t} (h : Keeps s u) : Keeps s ((semPlog f w t).act u) := h.fly
theorem Keeps.semPset {f w t} (h : Keeps s u) : Keeps s ((semPset f w t).act u) := h.fly
theorem Keeps.semPget {f w t} (h : Keeps s u) : Keeps s ((semPget f w t).act u) := h.flyS
theorem Keeps.semLoad {n f w t} (h : Keeps s u) : Keeps s ((semLoad n f w t).act u) := h.flyS.progReadMarks
theorem Keeps.semStore {n f w t} (h : Keeps s u) : Keeps s ((semStore n f w t).act u) := h.flyMem
theorem Keeps.semJal {f w t} (h : Keeps s u) : Keeps s ((semJal f w t).act u) := h.flyS
theorem Keeps.semCsrr {f w t} (h : Keeps s u) : Keeps s ((semCsrr f w t).act u) := h.flyS
theorem Keeps.semCsrW {clear f w t} (h : Keeps s u) : Keeps s ((semCsrW clear f w t).act u) := h.fly

theorem Keeps.semWaitt {f w t} (h : Keeps s u) : Keeps s ((semWaitt f w t).act u) := by
  dsimp only [Machine.semWaitt]
  exact h.updTile

theorem Keeps.semVF {lat fma op f w t} (h : Keeps s u) : Keeps s ((semVF lat fma op f w t).act u) :=
  h.flyVF.takeSre

theorem Keeps.semVfn {f w t} (h : Keeps s u) : Keeps s ((semVfn f w t).act u) := h.flyVF
theorem Keeps.semVI {lat op f w t} (h : Keeps s u) : Keeps s ((semVI lat op f w t).act u) := h.flyV
theorem Keeps.semVcmp {badCond op f w t} (h : Keeps s u) : Keeps s ((semVcmp badCond op f w t).act u) := h.fly
theorem Keeps.semVsel {f w t} (h : Keeps s u) : Keeps s ((semVsel f w t).act u) := h.flyV
theorem Keeps.semVbcast {f w t} (h : Keeps s u) : Keeps s ((semVbcast f w t).act u) := h.flyV
theorem Keeps.semVext {f w t} (h : Keeps s u) : Keeps s ((semVext f w t).act u) := h.flyS
theorem Keeps.semVperm {f w t} (h : Keeps s u) : Keeps s ((semVperm f w t).act u) := h.flyV
theorem Keeps.semVred {f w t} (h : Keeps s u) : Keeps s ((semVred f w t).act u) := h.flyVF.takeSre

theorem Keeps.semVcvt {f w t} (h : Keeps s u) : Keeps s ((semVcvt f w t).act u) := by
  unfold Machine.semVcvt
  dsimp only
  split
  · exact h.flyVF.takeSre
  · exact h

theorem Keeps.semVqnt {f w t} (h : Keeps s u) : Keeps s ((semVqnt f w t).act u) := h.flyVF.takeSre
theorem Keeps.semVdq {f w t} (h : Keeps s u) : Keeps s ((semVdq f w t).act u) := h.flyVF
theorem Keeps.semVld {f w t} (h : Keeps s u) : Keeps s ((semVld f w t).act u) := h.flyV.progReadMarks
theorem Keeps.semVst {f w t} (h : Keeps s u) : Keeps s ((semVst f w t).act u) := h.flyMem

theorem Keeps.semNop {sl w} (h : Keeps s u) : Keeps s ((semNop sl w).act u) := by
  unfold Machine.semNop
  extract_lets
  split_ifs <;> exact h

theorem Keeps.instrSem {i w t} (h : Keeps s u) : Keeps s ((instrSem i w t).act u) := by
  unfold Machine.instrSem
  split
  · exact h.semNop
  iterate 14 exact h.semAlu
  iterate 8 exact h.semAluI
  · exact h.semLui
  · exact h.semPlog
  · exact h.semPset
  · exact h.semPget
  iterate 2 exact h.semLoad
  iterate 2 exact h.semStore
  iterate 6 exact h
  · exact h.semJal
  iterate 2 exact h
  · exact h.semCsrr
  iterate 2 exact h.semCsrW
  iterate 3 exact h
  · exact h.semWaitt
  iterate 4 exact h.semVF
  iterate 2 exact h.semVI
  · exact h.semVfn
  · exact h.semVcmp
  iterate 9 exact h.semVI
  · exact h.semVcmp
  · exact h.semVsel
  · exact h.semVbcast
  · exact h.semVext
  · exact h.semVperm
  · exact h.semVred
  · exact h.semVcvt
  · exact h.semVqnt
  · exact h.semVdq
  · exact h.semVld
  · exact h.semVst
  · exact h.semMma
  · exact h.semMmav
  · exact h.semMadd
  · exact h.semMclr
  · exact h.semMrd
  · exact h.semAld
  · exact h.semAst
  · exact h.semMlst
  · exact h.semMlad
  · exact h.semArdv
  · exact h.semAwrv
  · exact h.semXmsg
  · exact h.semXmsgv
  · exact h.semXmov
  · exact h.semXwait
  · exact h.semXtset
  · exact h.semXtrd
  · exact h.semXsync
  iterate 2 exact h.semXcopy
  · exact h.semXmbw
  · exact h.semXmbr
  · exact h.semXfld
  · exact h

theorem Keeps.slotSem {i w t} (h : Keeps s u) : Keeps s ((slotSem i w t).act u) := by
  unfold Machine.slotSem
  split
  · exact h.instrSem
  · exact h.instrSem

/-- The slots of a bundle take effect in order. -/
theorem Keeps.bundleActs {w : State} {t : Nat} (h : Keeps s u) :
    Keeps s ((w.bundleSem t).foldl (fun v m => m.act v) u) := by
  rw [State.bundleSem, List.foldl_map]
  exact h.foldl .slotSem

/-! ### Issue of bundles -/

theorem Keeps.stepBoundary {t} (h : Keeps s u) : Keeps s (u.stepBoundary t) := by
  unfold State.stepBoundary
  extract_lets s1
  have h1 : Keeps s s1 := h.updTile.count
  exact .ite h1.trapTile (.ite h1.trapTile (.ite h1.updTile h1))

theorem Keeps.endTile {t} (h : Keeps s u) : Keeps s (u.endTile t) := by
  unfold State.endTile
  extract_lets _ _ _ s3
  have h3 : Keeps s s3 := h.landRest.updTile.raise
  exact (Keeps.ite h3.noteHeld h3).noteGroup

theorem Keeps.beginEnd {t} (h : Keeps s u) : Keeps s (u.beginEnd t) := .ite h.endTile h.updTile

theorem Keeps.settleTime {t} (h : Keeps s u) : Keeps s (u.settleTime t) := by
  unfold State.settleTime
  split
  · refine .ite ?_ h.updTile
    extract_lets
    exact h.hold.updTile
  · exact h

theorem Keeps.afterBundle {t stall cnt ctl} (h : Keeps s u) : Keeps s (u.afterBundle t stall cnt ctl) := by
  unfold State.afterBundle
  extract_lets _ _ _ s2 s3 s4
  have h2 : Keeps s s2 := h.setTile.advance
  have h3 : Keeps s s3 := .ite h2 h2.count
  have h4 : Keeps s s4 := .ite h3.stepBoundary h3.settleTime
  exact .ite h3.beginEnd (.ite h4.trapTile h4)

theorem Keeps.fetchUe {t} (h : Keeps s u) : Keeps s (u.fetchUe t) := by
  unfold State.fetchUe
  extract_lets _ s1
  have h1 : Keeps s s1 := h.raise.condemnTile
  exact .ite h1 h1.trapTile

theorem Keeps.park {t w ext} (h : Keeps s u) : Keeps s (u.park t w ext) := h.updTile

theorem Keeps.enact {t} (h : Keeps s u) : Keeps s (u.enact t) := by
  unfold State.enact
  extract_lets _ _ _ _ _ s1 s2
  have h1 : Keeps s s1 := h.setTile
  have h2 : Keeps s s2 := h1.bundleActs
  split
  · exact h.trapTile
  split
  · exact h.park.updTile
  · exact .ite h.park h2.afterBundle

theorem Keeps.tryIssue {t} (h : Keeps s u) : Keeps s (u.tryIssue t) := by
  unfold State.tryIssue
  extract_lets _ _ _ s1
  have h1 : Keeps s s1 := .ite h.advance h
  exact .ite h.park (.ite h1.enact (.ite h1.trapTile h1.fetchWait.enact))

theorem Keeps.issueBundle {t} (h : Keeps s u) : Keeps s (u.issueBundle t) := by
  unfold State.issueBundle
  extract_lets s0
  have h0 : Keeps s s0 := h.abandonTest.landUpTo
  exact .ite h0.fetchUe (Keeps.ite h0 h0.count.count.noteTileCe).tryIssue

theorem Keeps.slot {a i} (h : Keeps s u) : Keeps s (u.slot a i) := by
  unfold State.slot
  extract_lets _ s1
  have h1 : Keeps s s1 := h.updTile
  exact .ite (.ite h1 h1.issueBundle) h

theorem Keeps.unpark {t} (h : Keeps s u) : Keeps s (u.unpark t) := h.updTile.landUpTo.tryIssue

/-! ### The grid -/

theorem Keeps.leaveInput {t input g} (h : Keeps s u) : Keeps s (u.leaveInput t input g) := by
  unfold State.leaveInput
  split
  · exact .ite h.setLink h
  · exact h

theorem Keeps.granted {t d i g asked} (h : Keeps s u) : Keeps s (u.granted t d i g asked) := h.setLink.count

theorem Keeps.injectNext {t} (h : Keeps s u) : Keeps s (u.injectNext t) := by
  unfold State.injectNext
  extract_lets _ s1
  have h1 : Keeps s s1 := h.engWhile
  split
  · exact h
  split
  · exact h
  refine .ite ?_ h.engWhile
  split
  · exact .ite h1.granted.sendBeat h1
  · exact h1

theorem Keeps.execMessageInject {t out idx} (h : Keeps s u) : Lands s (execMessageInject t out idx u) := by
  refine .next (.ite h ?_)
  extract_lets s1
  have h1 : Keeps s s1 := h.injectNext
  exact .ite h1.hold.unpark h1

theorem Keeps.holdBeat {t b} (h : Keeps s u) : Keeps s (u.holdBeat t b) := h.same.updTile

theorem Keeps.beatArrives {b steady g} (h : Keeps s u) : Keeps s (u.beatArrives b steady g) := by
  unfold State.beatArrives
  extract_lets _ _ _ s1
  have h1 : Keeps s s1 := h.engWhile
  refine .ite h.discardBeat (.ite h.count.discardBeat ?_)
  split
  · exact .ite h1 h1.leaveInput.landBeat
  · exact .ite h1.discardBeat h1.landBeat

theorem Keeps.moveBeat {b t d g} (h : Keeps s u) : Keeps s (u.moveBeat b t d g) := by
  unfold State.moveBeat
  extract_lets
  split
  · exact h.discardBeat
  · exact .ite h.discardBeat h.same

theorem Keeps.routeBeat {b t input g} (h : Keeps s u) : Keeps s (u.routeBeat b t input g) := by
  unfold State.routeBeat
  split
  · exact h
  refine .ite h.discardBeat ?_
  split
  · exact .ite h.leaveInput.granted.moveBeat h
  · exact h

theorem Keeps.passBeat {b t input steady} (h : Keeps s u) : Keeps s (u.passBeat b t input steady) := by
  unfold State.passBeat
  refine .ite h.holdBeat ?_
  extract_lets _ _ s1
  have h1 : Keeps s s1 := h.same
  refine .ite h1.beatArrives (.ite h1.discardBeat (.ite h1.routeBeat ?_))
  split
  · exact h1.moveBeat
  · exact h1.discardBeat

theorem Keeps.execBeatForward {t input err} (h : Keeps s u) : Lands s (execBeatForward t input err u) := by
  refine .next ?_
  split
  · exact h
  extract_lets
  refine .ite h (.ite h.discardBeat ?_)
  split
  · exact h.raise.discardBeat
  · exact .ite h.same.count (.ite h.raise.condemnTile h.passBeat)

theorem Keeps.execMessageLand {t} (h : Keeps s u) : Lands s (execMessageLand t u) := by
  refine .next (.ite ?_ h)
  extract_lets
  exact h.engWhile

theorem Keeps.execXmovDone {t} (h : Keeps s u) : Lands s (execXmovDone t u) := by
  refine .next (.ite ?_ h)
  split
  · exact h
  · exact h.engWhile

theorem Keeps.endTallyWait {t k n op marked} (h : Keeps s u) : Keeps s (u.endTallyWait t k n op marked) := by
  unfold State.endTallyWait
  extract_lets
  exact h.updTile.abandonTest.hold.landTallies.updTile

theorem Keeps.execTallyWaitRelease {t} (h : Keeps s u) : Lands s (execTallyWaitRelease t u) := by
  refine .next ?_
  split
  · extract_lets
    refine .ite h (.ite h.endTallyWait ?_)
    split
    · exact h.endTallyWait
    · exact h
  · exact h

theorem Keeps.execWaittRelease {t} (h : Keeps s u) : Lands s (execWaittRelease t u) := by
  refine .next ?_
  split
  · refine .ite ?_ h
    extract_lets
    exact h.abandonTest.hold.updTile
  · exact h

theorem Keeps.execEndDone {t} (h : Keeps s u) : Lands s (execEndDone t u) := .next (.ite h.endTile h)

theorem Keeps.endWave {t g ext} (h : Keeps s u) : Keeps s (u.endWave t g ext) := by
  unfold State.endWave
  extract_lets
  exact h.updTile.hold.updTile

theorem Keeps.execWaveComplete {p w g} (h : Keeps s u) : Lands s (execWaveComplete p w g u) :=
  .next (.ite (h.count.foldl .endWave) h)

theorem Keeps.stStatus {v} (h : Keeps s u) : Keeps s (u.stStatus v) := h.setReg

theorem Keeps.stLoad (h : Keeps s u) : Keeps s u.stLoad := by
  unfold State.stLoad
  extract_lets
  split
  · exact h.stStatus
  · exact .ite h.stStatus (.ite h.stStatus h.setLink.stStatus)

theorem Keeps.execGridStLoad (h : Keeps s u) : Lands s (execGridStLoad u) := .next (h.pageWrite .stLoad)
theorem Keeps.stRead (h : Keeps s u) : Keeps s u.stRead := h.foldl .setReg
theorem Keeps.execGridStRead (h : Keeps s u) : Lands s (execGridStRead u) := .next (h.pageWrite .stRead)

theorem Keeps.linkOwner {v} (h : Keeps s u) : Keeps s (u.linkOwner v) := by
  unfold State.linkOwner
  extract_lets
  split
  · exact h.stStatus
  · exact .ite h.stStatus h.setLink.stStatus

theorem Keeps.execGridLinkOwnerWrite {v} (h : Keeps s u) : Lands s (execGridLinkOwnerWrite v u) :=
  .next (h.pageWrite .linkOwner)

/-! ### Queue entries and faults -/

theorem Keeps.cbRepair {p q} (h : Keeps s u) : Keeps s (u.cbRepair p q) := h.vput.queueUe

theorem Keeps.publish {p q} (h : Keeps s u) : Keeps s (u.publish p q) := by
  unfold State.publish
  extract_lets
  split
  next e => exact (h.vput.fst e).cbRepair
  next e => exact h.vput.fst e

theorem Keeps.updQueue {p q f} (h : Keeps s u) : Keeps s (u.updQueue p q f) := h.setQueue

theorem Keeps.putRun {p q idx r moved unit_} (h : Keeps s u) : Keeps s (u.putRun p q idx r moved unit_) :=
  h.vput

theorem Keeps.recordRun {o r moved unit_} (h : Keeps s u) : Keeps s (u.recordRun o r moved unit_) := by
  unfold State.recordRun
  split
  · exact h.putRun
  · exact h

theorem Keeps.connPush {cid m} (h : Keeps s u) : Keeps s (u.connPush cid m) := h.setConn
theorem Keeps.nfail {p q} (h : Keeps s u) : Keeps s (u.nfail p q) := h.updQueue.publish

theorem Keeps.notify {p q shut overrun} (h : Keeps s u) : Keeps s (u.notify p q shut overrun) := by
  unfold State.notify
  extract_lets _ _ _ _ s1
  have h1 : Keeps s s1 := h.setQueue
  refine .ite h ?_
  split
  · exact .ite h1.connPush h1.nfail
  · exact h1.setMb.chanStatus
  · exact .ite h1.setMb h1.nfail

theorem Keeps.tryShut {p q} (h : Keeps s u) : Keeps s (u.tryShut p q) := by
  unfold State.tryShut
  extract_lets _ s1
  have h1 : Keeps s s1 := h.setQueue.publish.notify.updQueue
  refine .ite ?_ h
  split
  · exact h1.finish
  · exact h1

theorem Keeps.advanceH {p q} (h : Keeps s u) : Keeps s (u.advanceH p q) := by
  unfold State.advanceH
  extract_lets _ _ _ s1
  have h1 : Keeps s s1 := h.setQueue.publish
  exact .ite (Keeps.ite h1.notify h1).tryShut h.tryShut

theorem Keeps.putStatus {p q idx st} (h : Keeps s u) : Keeps s (u.putStatus p q idx st) := .ite h h.vput
theorem Keeps.leaveFaults {f} (h : Keeps s u) : Keeps s (u.leaveFaults f) := ⟨h.pending, h.form⟩

theorem Keeps.complete {p q idx st} (h : Keeps s u) : Keeps s (u.complete p q idx st) := by
  unfold State.complete
  split
  · exact h
  extract_lets _ _ s3
  have h3 : Keeps s s3 := h.putStatus.updQueue.leaveFaults
  exact (Keeps.ite h3.incTally h3).advanceH

theorem Keeps.finishOrg {o d transfer st} (h : Keeps s u) : Keeps s (u.finishOrg o d transfer st) := by
  unfold State.finishOrg
  split
  · exact h.complete
  · extract_lets r s1
    have hr : Keeps s r.1 := h.physWrite
    have h1 : Keeps s s1 := .ite h (.ite hr.dirtyRange hr)
    exact .ite h1.incTally h1
  · exact .ite h h.nfail
  · exact h

theorem Keeps.updJobs {f g} (h : Keeps s u) : Keeps s (u.updJobs f g) := ⟨h.pending, h.form⟩

theorem Keeps.parkStream {st} (h : Keeps s u) : Keeps s (u.parkStream st) := by
  unfold State.parkStream
  extract_lets s1
  have h1 : Keeps s s1 := by
    unfold s1
    split
    · exact h.updJobs.raise
    · exact h
  split
  · exact .ite h1 h1.updQueue.publish
  · exact h1
  · exact h1.setConn

theorem Keeps.fqRoom {p cls} (h : Keeps s u) : Keeps s (u.fqRoom p cls).1 := by
  unfold State.fqRoom
  split
  next e => exact h.load0.fst e
  split
  next e _ _ e' => exact (h.load0.fst e).load0.fst e'
  next e _ _ _ e' => exact (h.load0.fst e).load0.fst e'

theorem Keeps.bump0 {a n up cls} (h : Keeps s u) : Keeps s (u.bump0 a n up cls) := by
  unfold State.bump0
  split
  next e => exact (h.load0.fst e).put0
  next e => exact h.load0.fst e

theorem Keeps.faultRecord {e prod} (h : Keeps s u) : Keeps s (u.faultRecord e prod) := by
  unfold State.faultRecord
  extract_lets _ _ _ _ s2
  have h2 : Keeps s s2 := h.put0.freshen.put0
  exact h2.same.raise

theorem Keeps.noRecord {fd1 p} (h : Keeps s u) : Keeps s (u.noRecord fd1 p) := h.bump0.bump0.raise

theorem Keeps.faultJoin {e st} (h : Keeps s u) : Keeps s (u.faultJoin e st) := by
  unfold State.faultJoin
  extract_lets _ s1
  have h1 : Keeps s s1 := h.same.count
  split
  · extract_lets a
    split
    next e' => exact (h1.load0.fst e').put0
    next e' => exact h1.load0.fst e'
  · exact h1

theorem Keeps.faultNew {w} (h : Keeps s u) : Keeps s (u.faultNew w).1 := ⟨h.pending, h.form⟩

theorem Keeps.fault {fd1 p f st} (h : Keeps s u) : Keeps s (u.fault fd1 p f st) := by
  unfold State.fault
  extract_lets s0 _ r
  have h0 : Keeps s s0 := h.parkStream.count
  have hr : Keeps s r.1 := h0.faultNew
  split
  · exact h0.faultJoin
  refine .ite h0.same.noRecord (.ite hr.noRecord ?_)
  split
  next e => exact (hr.fqRoom.fst e).noRecord
  next e => exact (hr.fqRoom.fst e).faultRecord

theorem Keeps.faultAdmit {a} (h : Keeps s u) : Keeps s (u.faultAdmit a) := by
  induction a generalizing u with
  | nil => exact h
  | cons a l ih =>
    unfold State.faultAdmit
    split
    · exact ih h.faultJoin.bump0
    · exact .ite (ih h.same) (ih h.faultNew)

theorem Keeps.fqWrite {p a} (h : Keeps s u) : Keeps s (u.fqWrite p a) := by
  induction a generalizing u with
  | nil => exact h
  | cons a l ih =>
    unfold State.fqWrite
    split
    next e => exact ih (h.fqRoom.fst e).faultRecord.bump0
    next e => exact h.fqRoom.fst e

theorem Keeps.fqService {p} (h : Keeps s u) : Keeps s (u.fqService p) := h.same.faultAdmit.fqWrite

/-! ### Connections -/

theorem Keeps.cacheTouch {cid} (h : Keeps s u) : Keeps s (u.cacheTouch cid) := h.setKvtDie
theorem Keeps.cacheDrop {cid} (h : Keeps s u) : Keeps s (u.cacheDrop cid) := h.same.setKvtDie

theorem Keeps.epochStall {cid} (h : Keeps s u) : Keeps s (u.epochStall cid) := by
  unfold State.epochStall
  extract_lets _ s1
  have h1 : Keeps s s1 := h.setConn
  exact .ite h1 h1.count

theorem Keeps.askKey {cid tx} (h : Keeps s u) : Keeps s (u.askKey cid tx) := .ite h h.same

theorem Keeps.txPkt {cid op k label} (h : Keeps s u) : Keeps s (u.txPkt cid op k label) := by
  unfold State.txPkt
  extract_lets
  split
  · exact h.epochStall
  extract_lets _ s1 s2 s3
  have h1 : Keeps s s1 := .ite h.setConn.askKey h.setConn
  have h2 : Keeps s s2 := .ite h1.count h1
  have h3 : Keeps s s3 := .ite h2.count h2
  split
  · exact h3
  extract_lets
  exact h3.count.setPort

theorem Keeps.txCtl {cid op k} (h : Keeps s u) : Keeps s (u.txCtl cid op k) := h.txPkt
theorem Keeps.sendAck {cid} (h : Keeps s u) : Keeps s (u.sendAck cid) := h.setConn.txCtl

theorem Keeps.sendNak {cid reason psn msgId} (h : Keeps s u) : Keeps s (u.sendNak cid reason psn msgId) :=
  h.count.txCtl

theorem Keeps.sendGrant {cid m} (h : Keeps s u) : Keeps s (u.sendGrant cid m) := h.txCtl.setConn
theorem Keeps.unbast {owner} (h : Keeps s u) : Keeps s (u.unbast owner) := h.unsoft

theorem Keeps.abandonBytes {owner} (h : Keeps s u) : Keeps s (u.abandonBytes owner) := by
  unfold State.abandonBytes
  extract_lets _ keep s1
  have h1 : Keeps s s1 := h.unbast
  exact (h1.cells (l := keep)).freshen

theorem Keeps.abandonRx {cid m} (h : Keeps s u) : Keeps s (u.abandonRx cid m) :=
  (h.abandonBytes.foldl .dirtyRange).foldl .poolFree

theorem Keeps.connErrorBase {cid e src close} (h : Keeps s u) :
    Keeps s (u.connErrorBase cid e src close) := by
  unfold State.connErrorBase
  extract_lets _ _ s1 s2 _ _ _ _ _ s5 _ s5a s6 s7 _ s8
  have h1 : Keeps s s1 := h.count.raise
  have h2 : Keeps s s2 := .ite h1.raise h1
  have h5 : Keeps s s5 :=
    (((Keeps.ite h2.txCtl h2).foldl .abandonRx).foldl .abandonBytes).setConn
  have hs5a : Keeps s s5a := by
    unfold s5a
    split
    · exact h5.setConn.finish
    · exact h5
  have h6 : Keeps s s6 := hs5a.foldl .finishOrg
  have h7 : Keeps s s7 := h6.foldl .finishOrg
  have h8 : Keeps s s8 := h7.foldl .complete
  exact .ite h h8.leaveFaults

theorem Keeps.collFail {h' st} (h : Keeps s u) : Keeps s (u.collFail h' st) := by
  unfold State.collFail
  extract_lets _ _ s1
  have h1 : Keeps s s1 := h.abandonBytes.setColl
  split
  · exact h
  · exact h
  · exact (h1.same.foldl .connErrorBase).foldl fun hv => hv.complete.count.raise

theorem Keeps.connError {cid e src close} (h : Keeps s u) : Keeps s (u.connError cid e src close) := by
  unfold State.connError
  extract_lets _ s1
  have h1 : Keeps s s1 := h.connErrorBase
  split
  · exact h1.collFail
  · exact h1

theorem Keeps.exhaust {cid} (h : Keeps s u) : Keeps s (u.exhaust cid) := .ite h.connError h

theorem Keeps.srcRead {cid m off n} (h : Keeps s u) : Keeps s (u.srcRead cid m off n).1 := by
  unfold State.srcRead
  extract_lets
  split
  · exact h
  split
  · extract_lets s2
    have h2 : Keeps s s2 := by
      unfold s2
      split
      · split
        next e _ _ _ _ => exact (h.vget.fst e).recordRun
        next e _ _ _ => exact h.vget.fst e
      next e _ => exact h.vget.fst e
    exact h2
  next e => exact h.vget.fst e
  next e => exact h.vget.fst e

theorem Keeps.srcFail {cid m st} (h : Keeps s u) : Keeps s (u.srcFail cid m st) := by
  unfold State.srcFail
  refine .ite ?_ h.connError
  extract_lets _ s1
  have h1 : Keeps s s1 := h.setConn
  split
  · exact h1.sendNak
  · exact h1.finishOrg

theorem Keeps.sendNew {cid m} (h : Keeps s u) : Keeps s (u.sendNew cid m) := by
  unfold State.sendNew
  extract_lets
  refine .ite h ?_
  split
  next e => exact (h.srcRead.fst e).fault
  next e => exact (h.srcRead.fst e).srcFail
  extract_lets c1 psn id m1 k lab aw s2
  split
  next e _ _ _ _ => exact (h.srcRead.fst e).epochStall
  next e _ _ => exact (h.srcRead.fst e).setConn.txPkt

theorem Keeps.resend {cid} (h : Keeps s u) : Keeps s (u.resend cid) := by
  unfold State.resend
  extract_lets
  split
  · exact h.setConn
  split
  · exact h.setConn
  refine .ite h.setConn (.ite h ?_)
  extract_lets i last
  split
  next e => exact (h.srcRead.fst e).fault
  next e => exact (h.srcRead.fst e).connError
  extract_lets c1 k lab s2
  split
  next e _ _ _ _ => exact (h.srcRead.fst e).epochStall
  next e _ _ => exact (h.srcRead.fst e).setConn.txPkt.count

theorem Keeps.sendNext {cid} (h : Keeps s u) : Keeps s (u.sendNext cid) := by
  unfold State.sendNext
  extract_lets
  refine .ite h (.ite h.connError (.ite h.resend (.ite h ?_)))
  split
  · exact h
  · exact h.sendNew

/-! ### Collectives -/

theorem Keeps.collSend {h' cid op chunk bytes} (h : Keeps s u) : Keeps s (u.collSend h' cid op chunk bytes) :=
  h.connPush

theorem Keeps.collNext {h'} (h : Keeps s u) : Keeps s (u.collNext h') := by
  unfold State.collNext
  extract_lets
  split
  · exact .ite h.same.setColl.count h.setColl
  · exact h

theorem Keeps.collStart {p q idx d} (h : Keeps s u) : Keeps s (u.collStart p q idx d).1 := by
  unfold State.collStart
  extract_lets
  split
  · exact h
  split
  · exact h.setColl.incTally
  split
  next e => exact h.vhold.fst e
  split
  next e _ _ _ e' => exact (h.vhold.fst e).vhold.fst e'
  split
  next e _ _ _ e' _ => exact (h.vhold.fst e).vhold.fst e'
  next e _ _ _ e' _ =>
    extract_lets
    exact ((h.vhold.fst e).vhold.fst e').setColl.collNext

theorem Keeps.collWrite {h' r off bs} (h : Keeps s u) : Keeps s (u.collWrite h' r off bs).1 := by
  unfold State.collWrite
  extract_lets _ s1
  have h1 : Keeps s s1 := h.vwrite.foldl .dirtyRange
  split <;> exact h1

theorem Keeps.collOwn {r off now} (h : Keeps s u) : Keeps s (u.collOwn r off now).1 := by
  unfold State.collOwn
  extract_lets
  split
  · exact h
  · exact h.freshen

theorem Keeps.collForward {h' r n bs} (h : Keeps s u) : Keeps s (u.collForward h' r n bs) := h.foldl .collSend

theorem Keeps.collTryDone {h'} (h : Keeps s u) : Keeps s (u.collTryDone h') := by
  unfold State.collTryDone
  extract_lets
  split
  · exact h
  extract_lets
  exact .ite h.unsoft.setColl.incTally.count.complete.collNext h

theorem Keeps.setRun {h' r} (h : Keeps s u) : Keeps s (u.setRun h' r) := h.setColl

theorem Keeps.collOnward {h' r n m wire result} (h : Keeps s u) :
    Keeps s (u.collOnward h' r n m wire result) := by
  unfold State.collOnward
  extract_lets _ _ _ _ s1 _ w
  have h1 : Keeps s s1 := .ite h.setRun.count h.setRun
  have hw : Keeps s w.1 := by
    unfold w
    split
    · exact h1
    · exact h1.collWrite
  split
  · exact .ite h1 h1.collSend
  · exact .ite hw.collFail (.ite hw.collForward.setRun.count hw)

theorem Keeps.collCombine {h'} (h : Keeps s u) : Keeps s (u.collCombine h') := by
  unfold State.collCombine
  extract_lets
  split
  · exact h
  extract_lets n len x hi nb
  refine .ite h ?_
  split
  · split
    · exact h
    split
    next e =>
      extract_lets
      exact (h.vget.fst e).collOwn.collOnward.collTryDone
    next e => exact (h.vget.fst e).collFail
    next e => exact (h.vget.fst e).collFail
  split
  · exact h
  split
  next e =>
    extract_lets own
    have hown : Keeps s own.1 := (h.vget.fst e).collOwn
    exact hown.collOnward.collTryDone
  next e => exact (h.vget.fst e).collFail
  next e => exact (h.vget.fst e).collFail

theorem Keeps.collHem {cid op bytes} (h : Keeps s u) : Keeps s (u.collHem cid op bytes) := by
  unfold State.collHem
  split
  · exact h
  extract_lets
  split
  · extract_lets _ _ w
    have hw : Keeps s w.1 := by
      unfold w
      split
      · exact h
      · exact h.collWrite
    refine .ite h.raise.collFail ?_
    split
    · exact h.setRun
    · exact .ite hw.collFail hw.collForward.setRun.count.collTryDone
  · exact h

theorem Keeps.grantSlots {fd1} (h : Keeps s u) : Keeps s (u.grantSlots fd1) := by
  unfold State.grantSlots
  split
  · exact h
  extract_lets
  split
  · exact h.same
  · exact .ite h h.same.setColl

/-! ### Copies -/

theorem Keeps.tileSide {j off} (h : Keeps s u) : Keeps s (u.tileSide j off).1 := by
  unfold State.tileSide
  split
  · exact h
  split
  next e => exact h.xlHeld.fst e
  next e => exact h.xlHeld.fst e

theorem Keeps.recordNew {j hs} (h : Keeps s u) : Keeps s (u.recordNew j hs) := by
  unfold State.recordNew
  split
  · exact .ite h.putRun h
  · exact h

theorem Keeps.moveJob {n j} (h : Keeps s u) : Keeps s (u.moveJob n j).1 := by
  induction n generalizing u j with
  | zero => exact h
  | succ n ih =>
    unfold State.moveJob
    split
    · exact h
    extract_lets fd
    split
    next e => exact h.xlHeld.fst e
    split
    next e _ _ _ e' => exact (h.xlHeld.fst e).recordNew.tileSide.fst e'
    extract_lets la k j1 src at_
    rename_i e _ s2 _ _ _ e'
    have h2 : Keeps s s2 := (h.xlHeld.fst e).recordNew.tileSide.fst e'
    split
    · exact h2
    have hsrc : Keeps s src.1 := by
      unfold src
      split
      · exact h2.physRead
      · exact h2.physRead
    clear_value src
    split
    · extract_lets w _ s4
      have hw : Keeps s w.1 := by
        unfold w
        split
        · exact hsrc.physPut
        · exact hsrc.physPut
      have h4 : Keeps s s4 := .ite (hw.foldl fun hv => hv.dirtyRange) hw
      split
      · exact h4.count.freshen
      · exact ih h4.count.freshen
    · exact hsrc

theorem Keeps.undelivered {j} (h : Keeps s u) : Keeps s (u.undelivered j) := .ite h h.cells.freshen

theorem Keeps.copyCount {eng st} (h : Keeps s u) : Keeps s (u.copyCount eng st) := by
  unfold State.copyCount
  extract_lets s1
  have h1 : Keeps s s1 := h.count
  exact .ite h1 h1.count.raise

theorem Keeps.jobEnd {j st} (h : Keeps s u) : Keeps s (u.jobEnd j st) := by
  unfold State.jobEnd
  extract_lets s0 s2
  have h0 : Keeps s s0 := h.same
  have h2 : Keeps s s2 := (Keeps.ite h0 h0.undelivered).copyCount
  split
  · extract_lets
    exact h2.updTile
  · exact (Keeps.ite (h2.foldl .updTile) h2).complete
  · exact (Keeps.ite (h2.foldl .updTile) h2).finishOrg

theorem Keeps.jobRun {j} (h : Keeps s u) : Keeps s (u.jobRun j) := by
  unfold State.jobRun
  extract_lets s0
  have h0 : Keeps s s0 := h.same
  split
  next e => exact (h0.moveJob.fst e).jobEnd
  next e =>
    extract_lets
    exact (h0.moveJob.fst e).updJobs.fault

theorem Keeps.setJob {j} (h : Keeps s u) : Keeps s (u.setJob j) := h.updJobs

theorem Keeps.jobFirst {j} (h : Keeps s u) : Keeps s (u.jobFirst j) := by
  unfold State.jobFirst
  extract_lets
  split
  next e => exact (h.xlHeld.fst e).fault
  extract_lets j1
  split
  next e _ => exact (h.xlHeld.fst e).setJob.jobEnd
  split
  next e _ _ _ _ e' => exact ((h.xlHeld.fst e).setJob.xlHeld.fst e').fault
  next e _ _ _ _ _ e' => exact ((h.xlHeld.fst e).setJob.xlHeld.fst e').setJob.recordNew

theorem Keeps.startCopy {p from_ spill d} (h : Keeps s u) : Keeps s (u.startCopy p from_ spill d).1 := by
  unfold State.startCopy
  extract_lets
  split
  · exact h.copyCount.freshen
  · exact h.same.freshen.jobFirst

/-! ### Ports and network time -/

theorem Keeps.linkLost {n half1} (h : Keeps s u) : Keeps s (u.linkLost n half1) := by
  unfold State.linkLost
  refine .ite ?_ h
  extract_lets
  exact (Keeps.ite h.setSched h).setPort.count.raise

theorem Keeps.execPortEnable {n} (h : Keeps s u) : Lands s (execPortEnable n u) :=
  .next (.ite (h.pageWrite (fun hv => .ite hv hv.setReg.setPort)) h)

theorem Keeps.execPortDisable {n} (h : Keeps s u) : Lands s (execPortDisable n u) := by
  refine .next (.ite ?_ h)
  refine h.pageWrite fun hv => ?_
  extract_lets
  exact hv.setReg.linkLost.linkLost.setPort

theorem Keeps.execPortModeWrite {n v} (h : Keeps s u) : Lands s (execPortModeWrite n v u) :=
  .next (.ite (h.pageWrite (fun hv => .ite hv.raise hv.setReg)) h)

theorem Keeps.execLinkUp {n half1} (h : Keeps s u) : Lands s (execLinkUp n half1 u) := by
  refine .next (.ite ?_ h)
  extract_lets
  exact h.setPort.raise

theorem Keeps.execLinkDown {n half1} (h : Keeps s u) : Lands s (execLinkDown n half1 u) :=
  .next (.ite h.linkLost h)

theorem Keeps.nclk {k} (h : Keeps s u) : Keeps s (u.nclk k) := by
  unfold State.nclk
  exact h.same

theorem Keeps.setLocked {b} (h : Keeps s u) : Keeps s (u.setLocked b) := h.setReg

theorem Keeps.gainLock (h : Keeps s u) : Keeps s u.gainLock := by
  unfold State.gainLock
  refine .ite h ?_
  extract_lets src
  have hsrc : Keeps s src := h.setLocked.raise
  exact hsrc.same

theorem Keeps.loseLock (h : Keeps s u) : Keeps s u.loseLock := by
  unfold State.loseLock
  refine .ite ?_ h
  extract_lets _ _ s2
  have h2 : Keeps s s2 := h.setLocked.raise.same
  exact .ite h2.same.emit h2

theorem Keeps.syncOffset {off} (h : Keeps s u) : Keeps s (u.syncOffset off) := by
  unfold State.syncOffset
  extract_lets s1 _ _ _ _ s2
  have h1 : Keeps s s1 := h.count
  have h2 : Keeps s s2 := h1.same
  exact .ite h2.gainLock (.ite h2.loseLock h2)

theorem Keeps.stampRx {n half1 e} (h : Keeps s u) : Keeps s (u.stampRx n half1 e) :=
  .ite h.count h.setPort.freshen

theorem Keeps.stampTx {n half1 e} (h : Keeps s u) : Keeps s (u.stampTx n half1 e) :=
  .ite h.count h.setPort.freshen

theorem Keeps.tsShow {n x} (h : Keeps s u) : Keeps s (u.tsShow n x) := by
  unfold State.tsShow
  split
  · exact h.setReg
  · exact h.setReg.setReg.setReg.setReg.setReg

theorem Keeps.execTsPopRx {n} (h : Keeps s u) : Lands s (execTsPopRx n u) := by
  refine .next (.ite ?_ h)
  refine h.pageWrite fun hv => ?_
  extract_lets
  exact hv.setPort.tsShow

theorem Keeps.execTsPopTx {n} (h : Keeps s u) : Lands s (execTsPopTx n u) := by
  refine .next (.ite ?_ h)
  refine h.pageWrite fun hv => ?_
  extract_lets
  exact hv.setPort.tsShow

theorem Keeps.clockSend {n kind seq} (h : Keeps s u) : Keeps s (u.clockSend n kind seq) := by
  unfold State.clockSend
  refine .ite h ?_
  extract_lets
  exact h.setPort

theorem Keeps.delayAnswer {n e} (h : Keeps s u) : Keeps s (u.delayAnswer n e) := .ite h.clockSend h

theorem Keeps.delayRequest {n} (h : Keeps s u) : Keeps s (u.delayRequest n) := by
  unfold State.delayRequest
  extract_lets src
  have hsrc : Keeps s src := h.clockSend
  exact hsrc.same

theorem Keeps.followUp {n e} (h : Keeps s u) : Keeps s (u.followUp n e) := .ite h.clockSend h

theorem Keeps.meterFrame {n cls f} (h : Keeps s u) : Keeps s (u.meterFrame n cls f).1 := by
  unfold State.meterFrame
  extract_lets _ _ _ _ _ _ s1
  have h1 : Keeps s s1 := h.setMeter.count
  split
  · exact h.setMeter.count
  · exact .ite h1.count h1
  · exact h.setMeter.count.count

theorem Keeps.execMeterCommit {fd1} (h : Keeps s u) : Lands s (execMeterCommit fd1 u) :=
  .next (h.pageWrite .setMeter)

theorem Keeps.execMeterRefill {fd1} (h : Keeps s u) : Lands s (execMeterRefill fd1 u) :=
  .next (h.foldl (fun hv => .ite hv.setMeter hv))

theorem Keeps.goodFrame {n cls f} (h : Keeps s u) : Keeps s (u.goodFrame n cls f) := by
  unfold State.goodFrame
  extract_lets r s1 s2
  have hr : Keeps s r.1 := by
    unfold r
    split
    · exact h.meterFrame
    · exact h
  have h1 : Keeps s s1 := by
    unfold s1
    split
    · exact hr.stampRx.delayAnswer
    · exact hr
  have h2 : Keeps s s2 := by
    unfold s2
    split
    · exact .ite h1.syncOffset.delayRequest h1
    · exact h1
  exact .ite hr.poolFree (.ite h2 h2.poolFree)

theorem Keeps.fecCount {n f} (h : Keeps s u) : Keeps s (u.fecCount n f) := h.count.count.freshen

theorem Keeps.frameIn {n f} (h : Keeps s u) : Keeps s (u.frameIn n f) := by
  unfold State.frameIn
  extract_lets _ s1
  have h1 : Keeps s s1 := h.count.count.poolTo
  refine .ite h.count (.ite h.count ?_)
  split
  · exact .ite h1.count.raise h1.count.raise.poolFree
  · exact .ite (.ite h1.count h1.count.poolFree) h1.goodFrame

theorem Keeps.execFrameReceive {n f} (h : Keeps s u) : Lands s (execFrameReceive n f u) :=
  .next (.ite h.fecCount.frameIn h)

theorem Keeps.pauseIn {n pfc classes quanta} (h : Keeps s u) : Keeps s (u.pauseIn n pfc classes quanta) := by
  unfold State.pauseIn
  split
  · refine .ite h.count ?_
    extract_lets
    exact h.count.foldl (fun hv => .ite hv (.ite hv.setPort hv.count))
  refine .ite h.count ?_
  extract_lets s1
  have h1 : Keeps s s1 := h.count
  exact h1.foldl .setPort

theorem Keeps.execPauseReceive {n pfc classes quanta} (h : Keeps s u) :
    Lands s (execPauseReceive n pfc classes quanta u) :=
  .next (.ite h.pauseIn h)

theorem Keeps.execPauseExpire {n cls} (h : Keeps s u) : Lands s (execPauseExpire n cls u) :=
  .next (.ite h.setPort h)

theorem Keeps.execPauseRefresh {n} (h : Keeps s u) : Lands s (execPauseRefresh n u) :=
  .next (.ite h.sendPause h)

theorem Keeps.execPfcStorm {n cls} (h : Keeps s u) : Lands s (execPfcStorm n cls u) := .next (.ite h.raise h)
theorem Keeps.timeRegs {off} (h : Keeps s u) : Keeps s (u.timeRegs off) := h.setReg.setReg.setReg
theorem Keeps.execPtpLatch (h : Keeps s u) : Lands s (execPtpLatch u) := .next (h.pageWrite .timeRegs)

theorem Keeps.execPtpSyncTimeout (h : Keeps s u) : Lands s (execPtpSyncTimeout u) := by
  refine .next ?_
  extract_lets src
  have hsrc : Keeps s src := h.loseLock
  exact hsrc.same

theorem Keeps.execPtpPortMove (h : Keeps s u) : Lands s (execPtpPortMove u) := by
  refine .next (.ite h ?_)
  split
  · exact h.setReg.raise
  · exact h

theorem Keeps.execPpsInEdge (h : Keeps s u) : Lands s (execPpsInEdge u) := by
  refine .next (.ite ?_ h)
  extract_lets s1
  have h1 : Keeps s s1 := h.timeRegs.raise
  exact .ite h1.count h1

/-! ### Schedules and meters -/

theorem Keeps.gateSwapDue {n boundary} (h : Keeps s u) : Keeps s (u.gateSwapDue n boundary) :=
  .ite h.setSched.count.raise h

theorem Keeps.gatePlace {n} (h : Keeps s u) : Keeps s (u.gatePlace n) := by
  unfold State.gatePlace
  extract_lets
  split
  · refine .ite h ?_
    extract_lets
    exact (Keeps.ite h.gateSwapDue h).setSched
  · exact h

theorem Keeps.execGateEnable {n} (h : Keeps s u) : Lands s (execGateEnable n u) := by
  refine .next (.ite ?_ h)
  refine h.pageWrite fun hv => ?_
  refine .ite hv ?_
  extract_lets
  exact hv.setReg.setSched

theorem Keeps.execGateSwap {n} (h : Keeps s u) : Lands s (execGateSwap n u) := by
  refine .next (.ite ?_ h)
  refine h.pageWrite fun hv => ?_
  extract_lets
  exact .ite hv.raise hv.setSched

theorem Keeps.gateBoundary {n} (h : Keeps s u) : Keeps s (u.gateBoundary n) := by
  unfold State.gateBoundary
  extract_lets
  split
  · exact h
  refine .ite h.setSched ?_
  split
  · exact h.setSched
  extract_lets
  exact (Keeps.ite h.count.raise h).gateSwapDue.setSched

theorem Keeps.execGateEntryBoundary {n} (h : Keeps s u) : Lands s (execGateEntryBoundary n u) :=
  .next (.ite h.gateBoundary h)

theorem Keeps.execShpCommit {n} (h : Keeps s u) : Lands s (execShpCommit n u) :=
  .next (.ite (h.pageWrite .setSched) h)

theorem Keeps.execShaperRefill {n} (h : Keeps s u) : Lands s (execShaperRefill n u) :=
  .next (.ite h.setSched h)

theorem Keeps.noteGuard {n half1} (h : Keeps s u) : Keeps s (u.noteGuard n half1) :=
  h.foldl fun hv => .ite hv.setSched.count hv

theorem Keeps.startFrame {n f} (h : Keeps s u) : Keeps s (u.startFrame n f) := by
  unfold State.startFrame
  extract_lets _ s1 _ _ _ _ s3
  have h1 : Keeps s s1 := h.setPort
  have h3 : Keeps s s3 := (Keeps.ite h1.setSched h1).count.count.emit
  split
  · exact .ite h3.stampTx.followUp h3
  · exact h3

theorem Keeps.wireFree {n half1} (h : Keeps s u) : Keeps s (u.wireFree n half1) := by
  unfold State.wireFree
  extract_lets _ s1
  have h1 : Keeps s s1 := .ite h.noteGuard h
  split
  · extract_lets
    exact h.setPort.count.count.count.emit
  split
  · exact h1.startFrame
  · exact h1

theorem Keeps.execFrameTransmit {n half1} (h : Keeps s u) : Lands s (execFrameTransmit n half1 u) :=
  .next (.ite h.wireFree h)

theorem Keeps.timeStep (h : Keeps s u) : Keeps s u.timeStep := h.same.count.raise.foldl .gatePlace

/-! ### Messages received -/

theorem Keeps.updConn {cid f} (h : Keeps s u) : Keeps s (u.updConn cid f) := h.setConn

theorem Keeps.limited {cid f} (h : Keeps s u) (hf : ∀ {v}, Keeps s v → Keeps s (f v)) :
    Keeps s (u.limited cid f) :=
  .ite (hf h.updConn) h

theorem Keeps.badHeader {i} (h : Keeps s u) : Keeps s (u.badHeader i) := h.count.raise

theorem Keeps.trailerFail {cid epoch} (h : Keeps s u) : Keeps s (u.trailerFail cid epoch) := by
  unfold State.trailerFail
  extract_lets _ _ _ s1
  have h1 : Keeps s s1 := h.count.raise.setConn
  exact .ite h.count (.ite h1.connError h1)

theorem Keeps.rxKeyDue {cid} (h : Keeps s u) : Keeps s (u.rxKeyDue cid) := .ite h.setConn.askKey h
theorem Keeps.updMsg {cid id f} (h : Keeps s u) : Keeps s (u.updMsg cid id f) := h.updConn
theorem Keeps.msgPool {m} (h : Keeps s u) : Keeps s (u.msgPool m) := h.foldl .poolFree

theorem Keeps.endMsg {cid reason m} (h : Keeps s u) : Keeps s (u.endMsg cid reason m) :=
  h.abandonRx.updConn.sendNak

theorem Keeps.place_ {cid m off bs basted} (h : Keeps s u) : Keeps s (u.place_ cid m off bs basted).1 :=
  h.vwrite

theorem Keeps.placeNow {cid id off bs} (h : Keeps s u) : Keeps s (u.placeNow cid id off bs) := by
  unfold State.placeNow
  split
  · exact h
  refine .ite h ?_
  split
  next e => exact (h.place_.fst e).updMsg
  next e => exact (h.place_.fst e).endMsg
  next e => exact (h.place_.fst e).endMsg

theorem Keeps.firstCheck {cid op k} (h : Keeps s u) : Keeps s (u.firstCheck cid op k).1 := by
  unfold State.firstCheck
  extract_lets
  split
  · exact h
  split
  · split <;> exact h
  split
  · exact h
  split
  · exact h
  split
  next e => exact h.vhold.fst e
  split
  next e _ => exact h.vhold.fst e
  next e _ => exact h.vhold.fst e

theorem Keeps.placeHeld {cid id} (h : Keeps s u) : Keeps s (u.placeHeld cid id) := by
  unfold State.placeHeld
  split
  · exact h
  extract_lets
  exact h.msgPool.updMsg.foldl .placeNow

theorem Keeps.noReceive {cid m} (h : Keeps s u) : Keeps s (u.noReceive cid m) := h.abandonRx.updConn.sendNak

theorem Keeps.assign {cid a b} (h : Keeps s u) : Keeps s (u.assign cid a b) := by
  induction a generalizing u cid b with
  | zero => exact h
  | succ n ih =>
    unfold State.assign
    extract_lets
    split
    · exact h
    refine .ite (ih h) ?_
    split
    · exact h.noReceive
    refine .ite (ih h.endMsg) (.ite (ih h.setConn.updMsg) ?_)
    split
    next e => exact (h.vhold.fst e).updConn.fault
    split
    next e _ => exact ih (h.vhold.fst e).endMsg
    next e _ =>
      extract_lets
      exact ih (h.vhold.fst e).updConn.updMsg.placeHeld

theorem Keeps.assignAll {cid} (h : Keeps s u) : Keeps s (u.assignAll cid) := h.assign

theorem Keeps.recvDone {m r} (h : Keeps s u) : Keeps s (u.recvDone m r).1 := by
  unfold State.recvDone
  extract_lets
  split
  · exact h.incTally.complete
  split
  next e => exact (h.vput.fst e).incTally.complete
  next e => exact (h.vput.fst e).incTally.complete
  next e => exact (h.vput.fst e).fault

theorem Keeps.atomicApply {cid m} (h : Keeps s u) : Keeps s (u.atomicApply cid m).1 := by
  unfold State.atomicApply
  extract_lets
  split
  · exact h
  extract_lets pa
  split
  · extract_lets old new
    split
    next e _ _ e' => exact ((h.dramRead.fst e).dramWrite.fst e').foldl .dirtyRange
    next e _ _ _ _ e' => exact (h.dramRead.fst e).dramWrite.fst e'
  next e => exact h.dramRead.fst e

theorem Keeps.reduceApply {cid m} (h : Keeps s u) : Keeps s (u.reduceApply cid m) := by
  unfold State.reduceApply
  extract_lets
  refine .ite h ?_
  split
  next e =>
    extract_lets r
    have hr : Keeps s r.1 := (h.vget.fst e).vwrite
    split
    · exact hr.updMsg
    · exact hr.endMsg
    · exact hr.endMsg
  next e => exact (h.vget.fst e).endMsg
  next e => exact (h.vget.fst e).endMsg

theorem Keeps.bell {p q} (h : Keeps s u) : Keeps s (u.bell p q) := .ite h.count h.updQueue
theorem Keeps.settleMsg {cid m} (h : Keeps s u) : Keeps s (u.settleMsg cid m) := h.unbast.foldl .dirtyRange
theorem Keeps.hemmed {cid m} (h : Keeps s u) : Keeps s (u.hemmed cid m) := h.msgPool.updConn
theorem Keeps.answered {cid a st} (h : Keeps s u) : Keeps s (u.answered cid a st) := h.updConn.finishOrg

theorem Keeps.connFree {cid} (h : Keeps s u) : Keeps s (u.connFree cid) := by
  unfold State.connFree
  extract_lets _ s1
  have h1 : Keeps s s1 := h.cacheDrop.setConn
  split
  · exact h1.finish
  · exact h1

theorem Keeps.hemWrite {cid m} (h : Keeps s u) : Keeps s (u.hemWrite cid m) := by
  unfold State.hemWrite
  extract_lets
  split
  · exact h.bell
  · exact .ite (h.place_.foldl .dirtyRange) h.settleMsg

theorem Keeps.hemOne {cid m} (h : Keeps s u) : Keeps s (u.hemOne cid m).1 := by
  unfold State.hemOne
  extract_lets _ s1
  have h1 : Keeps s s1 := h.settleMsg.hemmed
  split
  · exact h.hemWrite.hemmed.pair
  · split
    · exact h
    split
    · exact h.hemWrite.hemmed.pair
    extract_lets x
    have hx : Keeps s x.1 := h.recvDone
    split
    · exact hx.hemWrite.hemmed.pair
    · exact hx
  · split
    · exact h
    split
    · exact h.settleMsg.hemmed.pair
    extract_lets x
    have hx : Keeps s x.1 := h.recvDone
    split
    · exact hx.settleMsg.hemmed.pair
    · exact hx
  · exact h.hemmed.connPush.pair
  · split
    · exact h1.answered.pair
    · exact h1.pair
  · split
    next e => exact (h.atomicApply.fst e).sendNak.hemmed.pair
    next e => exact (h.atomicApply.fst e).hemmed.connPush.pair
  · split
    · extract_lets
      exact (h.vwrite.foldl .dirtyRange).hemmed.answered.pair
    · exact h.hemmed.pair
  · exact h.settleMsg.hemmed.pair
  · exact h.hemmed.sendAck.connFree.pair
  split
  · exact h
  · exact h.hemmed.collHem.pair

theorem Keeps.hemLoop {cid a} (h : Keeps s u) : Keeps s (u.hemLoop cid a) := by
  induction a generalizing u with
  | zero => exact h
  | succ n ih =>
    unfold State.hemLoop
    extract_lets
    split
    · exact h
    refine .ite (ih h.hemmed) ?_
    extract_lets s1
    have h1 : Keeps s s1 := .ite h.reduceApply h
    split
    · exact h1
    refine .ite (ih h1) (.ite h1 ?_)
    extract_lets r
    have hr : Keeps s r.1 := h1.hemOne
    exact .ite (ih hr) hr

theorem Keeps.hemAll {cid} (h : Keeps s u) : Keeps s (u.hemAll cid) := h.hemLoop
theorem Keeps.ackDue {cid} (h : Keeps s u) : Keeps s (u.ackDue cid) := .ite h (.ite h.sendAck h)

theorem Keeps.grantLoop {fd1 a} (h : Keeps s u) : Keeps s (u.grantLoop fd1 a) := by
  induction a generalizing u with
  | zero => exact h
  | succ n ih =>
    unfold State.grantLoop
    refine .ite h ?_
    split
    · exact h
    extract_lets
    exact ih h.updMsg.count.setKvtDie

theorem Keeps.grantOut {cid bound} (h : Keeps s u) : Keeps s (u.grantOut cid bound) := h.foldl .sendGrant

theorem Keeps.grants {fd1} (h : Keeps s u) : Keeps s (u.grants fd1) :=
  h.grantLoop.foldl fun hv => .ite hv.grantOut hv

theorem Keeps.nakParked {cid k} (h : Keeps s u) : Keeps s (u.nakParked cid k) := h.limited .sendNak

theorem Keeps.nakEarly {cid k} (h : Keeps s u) : Keeps s (u.nakEarly cid k) :=
  h.limited fun hv => hv.sendNak.count

theorem Keeps.acceptPkt {cid op k id} (h : Keeps s u) : Keeps s (u.acceptPkt cid op k id) := by
  unfold State.acceptPkt
  extract_lets _ _ s3 s4
  have h3 : Keeps s s3 := h.count.updConn
  have h4 : Keeps s s4 := h3.updMsg
  split
  · exact h3
  · exact .ite h4 (.ite h4.placeNow h4.updMsg.poolRaw)

theorem Keeps.afterPkt {cid} (h : Keeps s u) : Keeps s (u.afterPkt cid) := by
  unfold State.afterPkt
  extract_lets
  exact h.assignAll.updConn.hemAll.grants.ackDue

theorem Keeps.placeFailed {cid op k} (h : Keeps s u) : Keeps s (u.placeFailed cid op k) := by
  unfold State.placeFailed
  extract_lets
  refine .ite h ?_
  split
  · exact .ite h.placeNow h
  split
  · split
    next e _ => exact (h.firstCheck.fst e).place_
    next e _ => exact h.firstCheck.fst e
  · exact h

theorem Keeps.rxData {cid op k} (h : Keeps s u) : Keeps s (u.rxData cid op k) := by
  unfold State.rxData
  extract_lets
  refine .ite h.nakParked (.ite h.sendAck (.ite h.nakEarly (.ite h.sendAck (.ite h ?_))))
  split
  · exact .ite h.count h.acceptPkt.afterPkt
  refine .ite h.count ?_
  split
  next e => exact (h.firstCheck.fst e).endMsg.hemAll.ackDue
  next e => exact (h.firstCheck.fst e).updConn.fault.nakParked
  next e => exact (h.firstCheck.fst e).updConn.acceptPkt.afterPkt

/-! ### Consumption of descriptors -/

theorem Keeps.fetchCtx {cid} (h : Keeps s u) : Keeps s (u.fetchCtx cid) := .ite h h.setKvtDie.count

theorem Keeps.startTransfer {p o op d} (h : Keeps s u) : Keeps s (u.startTransfer p o op d).1 := by
  unfold State.startTransfer
  extract_lets _ _ _ go
  have hgo {v l} (hv : Keeps s v) : Keeps s (go v l).1 := by
    unfold go
    extract_lets ep
    split
    · split
      · exact hv.updConn.pair
      · exact hv
    · exact hv.connPush
  split
  · exact h
  split
  · exact h.fetchCtx
  split
  · exact hgo h
  split
  next e => exact h.xlate.fst e
  next e => exact hgo (h.xlate.fst e).recordRun

theorem Keeps.openWindow {p d} (h : Keeps s u) : Keeps s (u.openWindow p d).1 := by
  unfold State.openWindow
  extract_lets
  split
  · exact h
  · exact h.setWindow

theorem Keeps.dropWindow {win} (h : Keeps s u) : Keeps s (u.dropWindow win) := by
  unfold State.dropWindow
  refine h.foldl fun hv => ?_
  extract_lets
  exact .ite hv (hv.foldl .endMsg).hemAll

theorem Keeps.revokeWindow {p q idx key} (h : Keeps s u) : Keeps s (u.revokeWindow p q idx key).1 := by
  unfold State.revokeWindow
  extract_lets _ _ _ s1
  have h1 : Keeps s s1 := h.setWindow.dropWindow
  split
  · exact h.setPart
  split
  · exact h
  · exact h1.same

theorem Keeps.arm {p d} (h : Keeps s u) : Keeps s (u.arm p d).1 := by
  unfold State.arm
  split
  · exact h
  split
  · exact h
  split
  · exact h
  split
  next e => exact h.xlate.fst e
  extract_lets pa
  split
  · extract_lets e a
    split
    next e' _ _ _ e'' _ => exact (h.xlate.fst e').physRead.fst e''
    next e' _ _ _ e'' _ => exact ((h.xlate.fst e').physRead.fst e'').same.armedCheck
  next e _ _ _ _ _ e' => exact (h.xlate.fst e).physRead.fst e'

theorem Keeps.tallySet {p d} (h : Keeps s u) : Keeps s (u.tallySet p d).1 := by
  unfold State.tallySet
  split
  · exact h.setPTally
  · exact h

theorem Keeps.measureTile {t} (h : Keeps s u) : Keeps s (u.measureTile t) := by
  unfold State.measureTile
  split
  · exact h
  · exact h.updTile

theorem Keeps.launchGo {p q idx g tbl} (h : Keeps s u) : Keeps s (u.launchGo p q idx g tbl) := by
  unfold State.launchGo
  extract_lets _ _ _ _ _ _ s4
  have h4 : Keeps s s4 := by
    unfold s4
    refine Keeps.setGroup ?_
    refine (h.foldl .measureTile).setPart.foldl fun hv => ?_
    extract_lets
    exact hv.setReg.setReg.setReg.setReg.setReg.armTile
  exact .ite h4.gridLaunch h4

theorem Keeps.tileLaunch {p q idx d} (h : Keeps s u) : Keeps s (u.tileLaunch p q idx d).1 := by
  unfold State.tileLaunch
  extract_lets
  split
  · exact h
  split
  · exact h
  split
  · exact h
  split
  next e => exact h.vget.fst e
  next e => exact h.vget.fst e
  extract_lets l src
  split
  next e _ => exact h.vget.fst e
  split
  next e _ _ => exact (h.vget.fst e).launchGo
  next e _ _ => exact (h.vget.fst e).setPart

theorem Keeps.xlatFence {q idx d} (h : Keeps s u) : Keeps s (u.xlatFence q idx d) := by
  unfold State.xlatFence
  extract_lets _ _ _ s1
  have h1 : Keeps s s1 := h.setPart
  exact h1.same.count.count

theorem Keeps.startOp {p q idx op d} (h : Keeps s u) : Keeps s (u.startOp p q idx op d).1 := by
  unfold State.startOp
  split
  · exact h
  split
  · exact h.startCopy
  · exact h.startCopy
  · exact h.openWindow
  · exact h.revokeWindow
  · exact h.arm
  · exact h.tallySet
  · split
    next e => exact h.collStart.fst e
    next e => exact h.collStart.fst e
  · exact h.tileLaunch
  · exact h.xlatFence
  · exact h.updQueue.pair
  · exact h.startTransfer

theorem Keeps.startEntry {p q idx op d} (h : Keeps s u) : Keeps s (u.startEntry p q idx op d) := by
  unfold State.startEntry
  split
  next e => exact (h.startOp.fst e).updQueue
  next e => exact (h.startOp.fst e).complete
  next e => exact h.startOp.fst e
  next e => exact (h.startOp.fst e).fault

theorem Keeps.consume {p q op d} (h : Keeps s u) : Keeps s (u.consume p q op d) :=
  h.setQueue.publish.startEntry

theorem Keeps.lapStop {p q} (h : Keeps s u) : Keeps s (u.lapStop p q) := h.updQueue.publish

theorem Keeps.takeEntry {p q} (h : Keeps s u) : Keeps s (u.takeEntry p q) := by
  unfold State.takeEntry
  extract_lets
  split
  next e => exact (h.vget.fst e).fault
  next e =>
    extract_lets _ s2 s3
    have h2 : Keeps s s2 := (h.vget.fst e).setQueue
    have h3 : Keeps s s3 := .ite h2.vput.queueUe h2
    exact h3.complete
  extract_lets e
  split
  next e' _ => exact (h.vget.fst e').lapStop
  next e' _ => exact (h.vget.fst e').consume

theorem Keeps.qloop {p q n} (h : Keeps s u) : Keeps s (u.qloop p q n) := by
  induction n generalizing u with
  | zero => exact h
  | succ n ih =>
    unfold State.qloop
    extract_lets
    split
    · exact .ite h (.ite h.startEntry (ih h.startEntry))
    · exact .ite h (.ite h.takeEntry (ih h.takeEntry))

theorem Keeps.qgo {p q} (h : Keeps s u) : Keeps s (u.qgo p q) := h.qloop

theorem Keeps.qpass {p q} (h : Keeps s u) : Keeps s (u.qpass p q) := by
  unfold State.qpass
  extract_lets _ go
  have hgo {v} (hv : Keeps s v) : Keeps s (go v) := by
    unfold go
    extract_lets y v1
    have h1 : Keeps s v1 := .ite hv.setQueue.publish hv
    exact .ite (Keeps.ite hv hv.setQueue.publish).notify h1.qgo
  split
  · exact h
  split
  next e => exact (h.vget.fst e).fault
  next e => exact hgo (h.vget.fst e).cbRepair
  next e => exact h.vget.fst e
  next e => exact hgo (h.vget.fst e).updQueue

theorem Keeps.settle (h : Keeps s u) : Keeps s u.settle := by
  unfold State.settle
  refine h.foldl fun hv => ?_
  extract_lets
  exact .ite hv.qgo hv

theorem Keeps.doorbell {p q} (h : Keeps s u) : Keeps s (u.doorbell p q) := by
  unfold State.doorbell
  refine .ite h (.ite h.count ?_)
  extract_lets
  exact .ite h (.ite h.setQueue h.setQueue.count.qpass)

theorem Keeps.execDoorbell {p q fromFw} (h : Keeps s u) : Lands s (execDoorbell p q fromFw u) :=
  .next (.ite h.doorbell.settle h)

theorem Keeps.execLapReread {p q} (h : Keeps s u) : Lands s (execLapReread p q u) :=
  .next (.ite h.qgo.settle h)

theorem Keeps.execNotifyTimer {p q} (h : Keeps s u) : Lands s (execNotifyTimer p q u) :=
  .next (.ite h.notify h)

theorem Keeps.post {p q op d} (h : Keeps s u) : Keeps s (u.post p q op d) := by
  unfold State.post
  extract_lets _ s1
  have h1 : Keeps s s1 := .ite h.setQueue h
  exact .ite h (Keeps.ite h1.lapStop h1.consume).settle

theorem Keeps.execWrite {p q d} (h : Keeps s u) : Lands s (execWrite p q d u) := .next h.post
theorem Keeps.execWriteImm {p q d} (h : Keeps s u) : Lands s (execWriteImm p q d u) := .next h.post
theorem Keeps.execRead {p q d} (h : Keeps s u) : Lands s (execRead p q d u) := .next h.post
theorem Keeps.execSend {p q d} (h : Keeps s u) : Lands s (execSend p q d u) := .next h.post
theorem Keeps.execRecv {p q d} (h : Keeps s u) : Lands s (execRecv p q d u) := .next h.post
theorem Keeps.execFadd {p q d} (h : Keeps s u) : Lands s (execFadd p q d u) := .next h.post
theorem Keeps.execCswap {p q d} (h : Keeps s u) : Lands s (execCswap p q d u) := .next h.post
theorem Keeps.execReduce {p q d} (h : Keeps s u) : Lands s (execReduce p q d u) := .next h.post
theorem Keeps.execFence {p q d} (h : Keeps s u) : Lands s (execFence p q d u) := .next h.post
theorem Keeps.execFill {p q d} (h : Keeps s u) : Lands s (execFill p q d u) := .next h.post
theorem Keeps.execSpill {p q d} (h : Keeps s u) : Lands s (execSpill p q d u) := .next h.post
theorem Keeps.execWindowOpen {p q d} (h : Keeps s u) : Lands s (execWindowOpen p q d u) := .next h.post
theorem Keeps.execWindowRevoke {p q d} (h : Keeps s u) : Lands s (execWindowRevoke p q d u) := .next h.post
theorem Keeps.execArm {p q d} (h : Keeps s u) : Lands s (execArm p q d u) := .next h.post
theorem Keeps.execTallySet {p q d} (h : Keeps s u) : Lands s (execTallySet p q d u) := .next h.post
theorem Keeps.execCollStart {p q d} (h : Keeps s u) : Lands s (execCollStart p q d u) := .next h.post
theorem Keeps.execTileLaunch {p q d} (h : Keeps s u) : Lands s (execTileLaunch p q d u) := .next h.post
theorem Keeps.execXlatFence {q d} (h : Keeps s u) : Lands s (execXlatFence q d u) := .next h.post

theorem Keeps.execFenceDone {p q} (h : Keeps s u) : Lands s (execFenceDone p q u) := by
  unfold Machine.execFenceDone
  extract_lets
  refine .next ?_
  split
  · exact .ite h.setQueue.complete.qgo.settle h
  · exact h

theorem Keeps.execWindowRevokeDone {p q} (h : Keeps s u) : Lands s (execWindowRevokeDone p q u) := by
  refine .next ?_
  split
  · exact h.same.complete.settle
  · exact h

theorem Keeps.execXlatFenceDone {p} (h : Keeps s u) : Lands s (execXlatFenceDone p u) := by
  refine .next ?_
  split
  · exact .ite h h.same.complete.settle
  · exact h

theorem Keeps.fire {a} (h : Keeps s u) : Keeps s (u.fire a) := by
  unfold State.fire
  extract_lets _ _ r
  have hr : Keeps s r.1 := by
    unfold r
    split
    · exact h.tallySet
    · exact h.startCopy
    · exact h.startCopy
    · exact h.startTransfer
  clear_value r
  split
  · exact hr
  · exact hr.finishOrg
  · exact hr.same
  · exact hr.same.fault

theorem Keeps.execArmedFire {p} (h : Keeps s u) : Lands s (execArmedFire p u) := by
  refine .next ?_
  split
  · exact h.same.fire.settle
  · exact h

theorem Keeps.execLaunchMeasureDone {p} (h : Keeps s u) : Lands s (execLaunchMeasureDone p u) := by
  refine .next ?_
  split
  · exact .ite h h.launchGo.settle
  · exact h

theorem Keeps.execLaunchStart {g} (h : Keeps s u) : Lands s (execLaunchStart g u) := by
  refine .next (.ite ?_ h)
  extract_lets s1
  have h1 : Keeps s s1 := h.launchGroup
  split
  · exact h1.setGroup.complete.settle
  · exact h1

theorem Keeps.execCopyComplete {eng idx} (h : Keeps s u) : Lands s (execCopyComplete eng idx u) := by
  refine .next ?_
  split
  · refine .ite ?_ h
    extract_lets s1 s2
    have h1 : Keeps s s1 := h.jobRun
    have h2 : Keeps s s2 := by
      unfold s2
      split
      · exact .ite h1.unpark h1
      · exact h1
    exact h2.settle
  · exact h

theorem Keeps.abortRest {p q a} (h : Keeps s u) : Keeps s (u.abortRest p q a) := by
  induction a generalizing u with
  | zero => exact h
  | succ n ih =>
    unfold State.abortRest
    extract_lets
    exact .ite h (ih h.setQueue.putStatus)

theorem Keeps.abortHeld {p q} (h : Keeps s u) : Keeps s (u.abortHeld p q) := by
  unfold State.abortHeld
  extract_lets
  refine h.foldl fun hv => ?_
  extract_lets
  exact hv.same.complete

theorem Keeps.shutQueue {p q} (h : Keeps s u) : Keeps s (u.shutQueue p q) := by
  unfold State.shutQueue
  extract_lets _ s1 s2 _ s3 s4
  have h1 : Keeps s s1 := h.setQueue
  have h2 : Keeps s s2 := by
    unfold s2
    split
    next e => exact (h1.vget.fst e).updQueue
    next e => exact h1.vget.fst e
  have h3 : Keeps s s3 := .ite h2 h2.abortRest
  have h4 : Keeps s s4 := h3.leaveFaults.publish
  exact .ite h h4.abortHeld.advanceH

/-! ### Packets and management frames -/

theorem Keeps.txPlain {link fd1 op k} (h : Keeps s u) : Keeps s (u.txPlain link fd1 op k) := by
  unfold State.txPlain
  split
  · exact h
  extract_lets
  exact h.count.setPort

theorem Keeps.unknownCid {op k} (h : Keeps s u) : Keeps s (u.unknownCid op k) :=
  .ite h h.same.count.txPlain.freshen

theorem Keeps.ackedMsg {cid m} (h : Keeps s u) : Keeps s (u.ackedMsg cid m) := by
  unfold State.ackedMsg
  refine .ite h (.ite h.connFree ?_)
  split
  · exact h.collTryDone
  · exact .ite h.finishOrg h

theorem Keeps.rxAck {cid k} (h : Keeps s u) : Keeps s (u.rxAck cid k) := by
  unfold State.rxAck
  extract_lets _ _ _ s0
  have h0 : Keeps s s0 := .ite h.setConn h
  exact .ite h0 (h0.setConn.foldl .ackedMsg)

theorem Keeps.nakEnd {cid reason id} (h : Keeps s u) : Keeps s (u.nakEnd cid reason id) := by
  unfold State.nakEnd
  extract_lets _ _ s1
  have h1 : Keeps s s1 := by
    unfold s1
    split
    · extract_lets _ _ _ s1'
      have h1' : Keeps s s1' := h.setConn
      exact .ite h1' h1'.finishOrg
    · exact h
  split
  · exact h1.answered
  · exact h1

theorem Keeps.rxNak {cid k} (h : Keeps s u) : Keeps s (u.rxNak cid k) := by
  unfold State.rxNak
  extract_lets reason _ _ s1
  have h1 : Keeps s s1 := h.count
  clear_value reason
  split
  · exact .ite h1.setConn h1
  · exact h1.nakEnd
  · exact h1.nakEnd
  · exact h1.nakEnd
  · exact h1.setConn
  · exact h1.nakEnd
  · exact h1.nakEnd
  · exact h1.connError
  · exact h1.setConn
  · exact h1.connError

theorem Keeps.rxEcho {k} (h : Keeps s u) : Keeps s (u.rxEcho k) := by
  unfold State.rxEcho
  split
  · extract_lets
    exact .ite h.rxNak h
  · exact h

theorem Keeps.rxGrant {cid k} (h : Keeps s u) : Keeps s (u.rxGrant cid k) := by
  unfold State.rxGrant
  extract_lets
  exact h.updConn

theorem Keeps.rxMoved {cid k} (h : Keeps s u) : Keeps s (u.rxMoved cid k) := .ite h.connError h.updConn
theorem Keeps.sendMoved {cid} (h : Keeps s u) : Keeps s (u.sendMoved cid) := h.count.txCtl

theorem Keeps.noteCe {cid k} (h : Keeps s u) : Keeps s (u.noteCe cid k) := by
  unfold State.noteCe
  extract_lets s1
  have h1 : Keeps s s1 := h.updConn
  exact .ite h1.count h1

theorem Keeps.rxVerified {cid op k} (h : Keeps s u) : Keeps s (u.rxVerified cid op k) := by
  unfold State.rxVerified
  extract_lets s' s1
  have h' : Keeps s s' := h.noteCe
  have h1 : Keeps s s1 := h'.rxAck
  split
  · exact .ite h1.updConn h1
  · exact h'.rxNak
  · exact h'.rxGrant
  · exact h'.rxMoved
  · exact .ite h'.connError h'.rxData
  · exact .ite h'.rxData h'

theorem Keeps.rxCached {cid op k} (h : Keeps s u) : Keeps s (u.rxCached cid op k) := by
  unfold State.rxCached
  extract_lets s0
  have h0 : Keeps s s0 := h.cacheTouch
  split
  · exact h0
  · exact h0
  · exact h0
  · exact .ite (h0.limited .sendNak) h0
  · exact .ite h0 (h0.limited (fun hv => hv.sendNak.count))
  refine .ite h0.badHeader (.ite (.ite h0.placeFailed h0) ?_)
  split
  · exact h0.count
  · exact (Keeps.ite h0.placeFailed h0).trailerFail
  · exact (Keeps.ite h0.count h0).updConn.rxKeyDue.rxVerified

theorem Keeps.rxMiss {cid op k} (h : Keeps s u) : Keeps s (u.rxMiss cid op k) :=
  .ite h.count.raise h.setKvtDie.poolRaw.fetchCtx

theorem Keeps.rxStray {op k} (h : Keeps s u) : Keeps s (u.rxStray op k) :=
  .ite h.badHeader (.ite h (.ite h.count h.unknownCid))

theorem Keeps.rx {op k} (h : Keeps s u) : Keeps s (u.rx op k) := by
  unfold State.rx
  extract_lets _ s0 s1
  have h0 : Keeps s s0 := h.poolRaw
  have h1 : Keeps s s1 := by
    unfold s1
    split
    · exact h0.rxStray
    · exact h0.limited .sendMoved
    · exact (Keeps.ite h0.rxCached h0.rxMiss).exhaust
  exact h1.poolTo.settle

theorem Keeps.execKvtWrite {k} (h : Keeps s u) : Lands s (execKvtWrite k u) := .next h.rx
theorem Keeps.execKvtWriteImm {k} (h : Keeps s u) : Lands s (execKvtWriteImm k u) := .next h.rx
theorem Keeps.execKvtReadReq {k} (h : Keeps s u) : Lands s (execKvtReadReq k u) := .next h.rx
theorem Keeps.execKvtReadResp {k} (h : Keeps s u) : Lands s (execKvtReadResp k u) := .next h.rx
theorem Keeps.execKvtSend {k} (h : Keeps s u) : Lands s (execKvtSend k u) := .next h.rx
theorem Keeps.execKvtAtomicReq {k} (h : Keeps s u) : Lands s (execKvtAtomicReq k u) := .next h.rx
theorem Keeps.execKvtAtomicResp {k} (h : Keeps s u) : Lands s (execKvtAtomicResp k u) := .next h.rx
theorem Keeps.execKvtReduce {k} (h : Keeps s u) : Lands s (execKvtReduce k u) := .next h.rx
theorem Keeps.execKvtCollUp {k} (h : Keeps s u) : Lands s (execKvtCollUp k u) := .next h.rx
theorem Keeps.execKvtCollDown {k} (h : Keeps s u) : Lands s (execKvtCollDown k u) := .next h.rx
theorem Keeps.execKvtClose {k} (h : Keeps s u) : Lands s (execKvtClose k u) := .next h.rx
theorem Keeps.execKvtGrant {k} (h : Keeps s u) : Lands s (execKvtGrant k u) := .next h.rx
theorem Keeps.execKvtMoved {k} (h : Keeps s u) : Lands s (execKvtMoved k u) := .next h.rx
theorem Keeps.execKvtAck {k} (h : Keeps s u) : Lands s (execKvtAck k u) := .next h.rx

theorem Keeps.execKvtProbe {k} (h : Keeps s u) : Lands s (execKvtProbe k u) := by
  unfold Machine.execKvtProbe
  extract_lets
  refine .next ?_
  split <;> exact .ite h.rx.txCtl h.rx

theorem Keeps.execUnknownCidPacket {k opcode} (h : Keeps s u) : Lands s (execUnknownCidPacket k opcode u) :=
  .next (.ite h.rx h)

theorem Keeps.execContextFetchDone {cid} (h : Keeps s u) : Lands s (execContextFetchDone cid u) := by
  unfold Machine.execContextFetchDone
  extract_lets
  refine .next ?_
  split
  · exact h
  · exact ((Keeps.ite h.setKvtDie.cacheTouch.connError h.setKvtDie.cacheTouch).foldl .rx).settle

theorem Keeps.sendOpen {cid op} (h : Keeps s u) : Keeps s (u.sendOpen cid op) := h.txPlain
theorem Keeps.connectIgnored {port} (h : Keeps s u) : Keeps s (u.connectIgnored port) := h.count

theorem Keeps.rxConnect {k m} (h : Keeps s u) : Keeps s (u.rxConnect k m) := by
  unfold State.rxConnect
  extract_lets
  split
  · exact h.sendOpen
  split
  · exact h.connectIgnored
  extract_lets
  split
  · exact h.connectIgnored
  · exact .ite h.raise.connectIgnored h.setConn.cacheTouch.sendOpen

theorem Keeps.plainOk {op k f} (h : Keeps s u) (hf : ∀ {v}, Keeps s v → Keeps s (f v)) :
    Keeps s (u.plainOk op k f) := by
  unfold State.plainOk
  extract_lets _ s0
  have h0 : Keeps s s0 := h.poolFree
  exact .ite h0.badHeader (.ite h0 (.ite h0.count (hf h0)))

theorem Keeps.execKvtNak {k} (h : Keeps s u) : Lands s (execKvtNak k u) :=
  .next (.ite (h.plainOk (fun hv => .ite hv hv.rxEcho)).settle h.rx)

theorem Keeps.execKvtConnect {k mine} (h : Keeps s u) : Lands s (execKvtConnect k mine u) :=
  .next (h.plainOk .rxConnect)

theorem Keeps.rxAccept {k} (h : Keeps s u) : Keeps s (u.rxAccept k) := by
  unfold State.rxAccept
  extract_lets _ _ _ _ s1
  have h1 : Keeps s s1 := h.setConn
  refine .ite h ?_
  split
  · exact h1.finish
  · exact h1

theorem Keeps.execKvtAccept {k} (h : Keeps s u) : Lands s (execKvtAccept k u) := .next (h.plainOk .rxAccept)

theorem Keeps.execConnectResend {cid} (h : Keeps s u) : Lands s (execConnectResend cid u) := by
  unfold Machine.execConnectResend
  extract_lets
  refine .next (.ite h (.ite h.setConn.sendOpen ?_))
  split
  · exact h.cacheDrop.setConn.finish
  · exact h.cacheDrop.setConn

theorem Keeps.execAckTimer {cid} (h : Keeps s u) : Lands s (execAckTimer cid u) :=
  .next (.ite h.sendAck.exhaust h)

theorem Keeps.execReorderTimeout {cid} (h : Keeps s u) : Lands s (execReorderTimeout cid u) :=
  .next (.ite h.sendNak h)

theorem Keeps.execRetransmitTimeout {cid} (h : Keeps s u) : Lands s (execRetransmitTimeout cid u) :=
  .next (Keeps.ite h (.ite h.setConn.resend.updConn (.ite h.connError h.setConn))).settle

theorem Keeps.execLabelHoldExpire {cid k} (h : Keeps s u) : Lands s (execLabelHoldExpire cid k u) :=
  .next (.ite h.setConn.txPkt h)

theorem Keeps.execProbeTimeout {cid k} (h : Keeps s u) : Lands s (execProbeTimeout cid k u) := .next h.updConn

theorem Keeps.execUnsolTimer {cid} (h : Keeps s u) : Lands s (execUnsolTimer cid u) :=
  .next (.ite h.updConn h)

theorem Keeps.windowUpdate {cid} (h : Keeps s u) : Keeps s (u.windowUpdate cid) := h.setConn.freshen

theorem Keeps.execGrantWindowUpdate {cid} (h : Keeps s u) : Lands s (execGrantWindowUpdate cid u) :=
  .next (.ite h.windowUpdate.grants h)

theorem Keeps.execGrantTimer {cid} (h : Keeps s u) : Lands s (execGrantTimer cid u) :=
  .next (.ite h.grants.grantOut h)

theorem Keeps.execGrantResend {cid msgId} (h : Keeps s u) : Lands s (execGrantResend cid msgId u) := by
  unfold Machine.execGrantResend
  extract_lets
  refine .next ?_
  split
  · exact .ite h.sendGrant h
  · exact h

theorem Keeps.execKvtSendPacket {cid} (h : Keeps s u) : Lands s (execKvtSendPacket cid u) :=
  .next h.sendNext.settle

theorem Keeps.edgesGo {h'} (h : Keeps s u) : Keeps s (u.edgesGo h') := by
  unfold State.edgesGo
  refine h.foldl fun hv => ?_
  extract_lets
  exact hv.hemAll.grants.ackDue

theorem Keeps.execCollChunkCombine {h'} (h : Keeps s u) : Lands s (execCollChunkCombine h' u) :=
  .next h.collCombine.edgesGo.settle

theorem Keeps.execCollSlotsGranted {fd1} (h : Keeps s u) : Lands s (execCollSlotsGranted fd1 u) := by
  refine .next ?_
  split
  · exact h.grantSlots.edgesGo
  · exact h

/-! ### Keys -/

theorem Keeps.retireCore {fd1 core} (h : Keeps s u) : Keeps s (u.retireCore fd1 core) := by
  unfold State.retireCore
  extract_lets _ s1
  have h1 : Keeps s s1 := h.same
  exact .ite h (Keeps.ite h1.same h1).raise

theorem Keeps.noteCore {fd1 core} (h : Keeps s u) : Keeps s (u.noteCore fd1 core) := by
  unfold State.noteCore
  extract_lets _ _ _ s1
  have h1 : Keeps s s1 := h.same
  exact .ite h1.retireCore h1

theorem Keeps.mismatch {fd1 c} (h : Keeps s u) : Keeps s (u.mismatch fd1 c) :=
  h.count.raise.freshen.noteCore.noteCore

theorem Keeps.rootJob {fd1 k t} (h : Keeps s u) : Keeps s (u.rootJob fd1 k t).1 := by
  unfold State.rootJob
  extract_lets _ s1
  have h1 : Keeps s s1 := h.mismatch
  split
  · exact h.count
  split <;> exact h1.count

theorem Keeps.keyRoot {c p rootId wrapped t} (h : Keeps s u) : Keeps s (u.keyRoot c p rootId wrapped t) := by
  unfold State.keyRoot
  extract_lets
  refine .ite h.answer (.ite h.answer ?_)
  split
  next e => exact (h.rootJob.fst e).answer
  split
  next e _ _ => exact (h.rootJob.fst e).answer
  next e _ _ _ =>
    extract_lets
    exact (h.rootJob.fst e).count.setPkeys.freshen.answer

theorem Keeps.execKeyRoot {c p rootId wrapped t} (h : Keeps s u) :
    Lands s (execKeyRoot c p rootId wrapped t u) :=
  .next (h.command .keyRoot)

theorem Keeps.eraseRoot {p} (h : Keeps s u) : Keeps s (u.eraseRoot p) :=
  h.setPkeys.foldl fun hv => .ite hv.connError hv

theorem Keeps.keyErase {p} (h : Keeps s u) : Keeps s (u.keyErase p) := h.eraseRoot.count.count.raise.raise

theorem Keeps.execKeyErase {c p} (h : Keeps s u) : Lands s (execKeyErase c p u) :=
  .next (h.command (fun hv => .ite hv.answer hv.keyErase.answer.settle))

theorem Keeps.alarmRestores (h : Keeps s u) : Keeps s u.alarmRestores := by
  unfold State.alarmRestores
  refine h.foldl fun hv => ?_
  split
  · exact hv.setPart.finish
  · exact hv

theorem Keeps.alarm {cause} (h : Keeps s u) : Keeps s (u.alarm cause) :=
  (h.same.foldl .eraseRoot).count.count.raise.raise.alarmRestores

theorem Keeps.execAlarm {cause} (h : Keeps s u) : Lands s (execAlarm cause u) := .next (.ite h.alarm.settle h)

theorem Keeps.execAlarmClear {cause} (h : Keeps s u) : Lands s (execAlarmClear cause u) :=
  .next (.ite h.same h)

theorem Keeps.execEpochKeyDerived {cid tx t} (h : Keeps s u) : Lands s (execEpochKeyDerived cid tx t u) := by
  unfold Machine.execEpochKeyDerived
  extract_lets
  refine .next (.ite h ?_)
  split
  next e => exact (h.same.rootJob.fst e).connError.settle
  split
  next e _ => exact (h.same.rootJob.fst e).setConn
  next e _ => exact h.same.rootJob.fst e

theorem Keeps.execKatRun {fd1 core ok rerunOk} (h : Keeps s u) :
    Lands s (execKatRun fd1 core ok rerunOk u) := by
  refine .next (.ite h ?_)
  extract_lets s1 s2
  have h1 : Keeps s s1 := h.count
  have h2 : Keeps s s2 := h1.count
  exact .ite h1 (.ite h2 h2.raise.retireCore)

/-! ### Partitions -/

theorem Keeps.refusePart {c op p rc} (h : Keeps s u) : Keeps s (u.refusePart c op p rc) :=
  (Keeps.ite h.raise h).answer

theorem Keeps.partCmd {c op p writes free k} (h : Keeps s u) (hk : ∀ {v}, Keeps s v → Keeps s (k v)) :
    Keeps s (u.partCmd c op p writes free k) := by
  unfold State.partCmd
  refine h.command fun hv => ?_
  split
  · exact hv.answer
  · exact .ite hv.refusePart (.ite hv.refusePart (hk hv).settle)

theorem Keeps.setLstate {p l} (h : Keeps s u) : Keeps s (u.setLstate p l) := h.setPart
theorem Keeps.partFinish {p rc} (h : Keeps s u) : Keeps s (u.partFinish p rc) := h.setPart.foldl .finish
theorem Keeps.giveTile {p t} (h : Keeps s u) : Keeps s (u.giveTile p t) := h.clearTile.setReg.setReg
theorem Keeps.freeTile {t} (h : Keeps s u) : Keeps s (u.freeTile t) := h.resetReceiver.clearTile.setReg.setReg
theorem Keeps.dropLinks {l} (h : Keeps s u) : Keeps s (u.dropLinks l) := ⟨h.pending, h.form⟩
theorem Keeps.quiesceTiles {p} (h : Keeps s u) : Keeps s (u.quiesceTiles p) := h.setPart.foldl .abortTile

theorem Keeps.quiesceArmed {p} (h : Keeps s u) : Keeps s (u.quiesceArmed p) :=
  (((h.same.setPart.foldl .finishOrg).foldl .finishOrg).foldl .jobEnd).leaveFaults

theorem Keeps.quiesceConns {p} (h : Keeps s u) : Keeps s (u.quiesceConns p) := by
  unfold State.quiesceConns
  refine h.foldl fun hv => ?_
  extract_lets
  split
  · exact hv
  · exact hv.connErrorBase
  · exact hv.sendNak.connErrorBase

theorem Keeps.quiesceColls {p} (h : Keeps s u) : Keeps s (u.quiesceColls p) := h.foldl .collFail

theorem Keeps.quiesceLaunch {p} (h : Keeps s u) : Keeps s (u.quiesceLaunch p) := by
  unfold State.quiesceLaunch
  extract_lets _ s1
  have h1 : Keeps s s1 := by
    unfold s1
    split
    · exact h.setPart.complete
    · exact h
  refine h1.foldl fun hv => ?_
  split
  · exact .ite hv.setGroup.complete hv
  · exact hv

theorem Keeps.quiesceQueues {p} (h : Keeps s u) : Keeps s (u.quiesceQueues p) :=
  (h.same.foldl .complete).quiesceLaunch.foldl .shutQueue

theorem Keeps.quiesceEnd {p} (h : Keeps s u) : Keeps s (u.quiesceEnd p) :=
  h.same.setLstate.raise.count.partFinish

theorem Keeps.quiesceGo {p} (h : Keeps s u) : Keeps s (u.quiesceGo p) := by
  unfold State.quiesceGo
  extract_lets _ s1 s2
  have h1 : Keeps s s1 := .ite h.quiesceTiles h
  have h2 : Keeps s s2 := h1.quiesceArmed.quiesceConns.quiesceColls.quiesceQueues
  exact .ite h (.ite h1 (.ite h2.quiesceEnd h2))

theorem Keeps.quiesceBegin {p cmd drain} (h : Keeps s u) : Keeps s (u.quiesceBegin p cmd drain) := by
  unfold State.quiesceBegin
  extract_lets _ _ _ s1 _ _ s4
  have h1 : Keeps s s1 := (Keeps.ite h.partFinish h).setPart
  have h4 : Keeps s s4 := h1.same.resetReceiver.fwNext.foldl fun hv => .ite hv.notify hv
  exact .ite (h4.foldl .qpass) h4.quiesceTiles

theorem Keeps.partFatal {p cause} (h : Keeps s u) : Keeps s (u.partFatal p cause) := by
  unfold State.partFatal
  extract_lets s1
  have h1 : Keeps s s1 := h.raise
  exact .ite h1.quiesceBegin h1

theorem Keeps.partQuiesce {c p drain} (h : Keeps s u) : Keeps s (u.partQuiesce c p drain) := by
  unfold State.partQuiesce
  extract_lets
  split
  · exact .ite h.setPart.answer.quiesceTiles h.refusePart
  · exact .ite h.answer.quiesceBegin h.refusePart

theorem Keeps.execPartQuiesce {c p drain} (h : Keeps s u) : Lands s (execPartQuiesce c p drain u) :=
  .next (h.partCmd .partQuiesce)

theorem Keeps.execPartQuiesceDone {p} (h : Keeps s u) : Lands s (execPartQuiesceDone p u) :=
  .next h.quiesceGo.settle

theorem Keeps.readRec {p} (h : Keeps s u) : Keeps s (u.readRec p) := by
  unfold State.readRec
  extract_lets
  refine .ite h.setPart ?_
  split
  next e => exact (h.dramRead.fst e).setPart
  next e => exact (h.dramRead.fst e).partFatal

theorem Keeps.writeRec {p r} (h : Keeps s u) : Keeps s (u.writeRec p r).1 := by
  unfold State.writeRec
  split
  · exact h.put0.readRec
  · exact h

theorem Keeps.execXlatReload {inst v} (h : Keeps s u) : Lands s (execXlatReload inst v u) := by
  refine .next (.ite h ?_)
  refine h.pageWrite fun hv => ?_
  extract_lets _ _ _ s1
  have h1 : Keeps s s1 := hv.setPart
  exact .ite h1.readRec.settle h1

theorem Keeps.emptyPart {p l} (h : Keeps s u) : Keeps s (u.emptyPart p l) := h.same.setPart

theorem Keeps.partCreate {c p} (h : Keeps s u) : Keeps s (u.partCreate c p) :=
  .ite h.refusePart (.ite h.refusePart h.emptyPart.setReg.answer)

theorem Keeps.execPartCreate {c p} (h : Keeps s u) : Lands s (execPartCreate c p u) :=
  .next (h.partCmd .partCreate)

theorem Keeps.addRect {p i r0 r1 c0 c1} (h : Keeps s u) : Keeps s (u.addRect p i r0 r1 c0 c1).1 := by
  unfold State.addRect
  split
  · exact h
  extract_lets
  split
  · exact h
  · exact h.setReg.foldl .giveTile

theorem Keeps.dropRect {p i} (h : Keeps s u) : Keeps s (u.dropRect p i).1 := by
  unfold State.dropRect
  split
  · exact h
  split
  · exact h
  extract_lets
  split
  · exact h
  · exact h.dropLinks.setReg.foldl .freeTile

theorem Keeps.putIp {p i a} (h : Keeps s u) : Keeps s (u.putIp p i a) := h.foldl .setReg

theorem Keeps.setIp {p i a} (h : Keeps s u) : Keeps s (u.setIp p i a).1 := by
  unfold State.setIp
  extract_lets
  split
  · exact h
  split
  · exact h
  · exact h.putIp

theorem Keeps.setRes {p off v hi rc} (h : Keeps s u) : Keeps s (u.setRes p off v hi rc).1 := by
  unfold State.setRes
  split
  · exact h
  split
  · exact h
  · exact h.setReg

theorem Keeps.partResource {p r} (h : Keeps s u) : Keeps s (u.partResource p r).1 := by
  unfold State.partResource
  split
  · exact h.addRect
  · exact h.dropRect
  · split
    · exact h
    split
    · exact h
    · exact h.setReg
  · exact h.setRes
  · exact h.setRes
  · exact h.setRes
  · exact h.setRes
  · split
    · exact h
    split
    · exact h
    · exact h.setReg.setReg
  · exact h.setRes
  · exact h.setReg.setPart
  · split
    · exact h
    · exact h.setReg
  · exact h.setIp
  · split
    · exact h
    split
    · exact h
    split
    next e => exact h.writeRec.fst e
    next e => exact h.writeRec.fst e
  split
  · exact h
  · exact h.setPart

theorem Keeps.partSet {c p r} (h : Keeps s u) : Keeps s (u.partSet c p r) := by
  unfold State.partSet
  extract_lets
  refine .ite h (.ite h.refusePart (.ite h.refusePart ?_))
  split
  next e => exact (h.partResource.fst e).answer
  next e => exact (h.partResource.fst e).refusePart

theorem Keeps.execPartSet {c p r} (h : Keeps s u) : Lands s (execPartSet c p r u) :=
  .next (h.partCmd .partSet)

theorem Keeps.connDrop {cid} (h : Keeps s u) : Keeps s (u.connDrop cid) := by
  unfold State.connDrop
  extract_lets _ s1
  have h1 : Keeps s s1 := h.cacheDrop.setConn
  split
  · exact h1.finish
  · exact h1

theorem Keeps.dropConns {p} (h : Keeps s u) : Keeps s (u.dropConns p) := h.foldl .connDrop

theorem Keeps.partActivate {c p} (h : Keeps s u) : Keeps s (u.partActivate c p) := by
  unfold State.partActivate
  extract_lets _ s1
  have h1 : Keeps s s1 := .ite h.dropConns h
  exact .ite h.refusePart (.ite h1.setPart.answer h1.setLstate.answer)

theorem Keeps.execPartActivate {c p} (h : Keeps s u) : Lands s (execPartActivate c p u) :=
  .next (h.partCmd .partActivate)

theorem Keeps.execTileClearDone {t} (h : Keeps s u) : Lands s (execTileClearDone t u) := by
  refine .next (.ite ?_ h)
  extract_lets s1
  have h1 : Keeps s s1 := h.updTile
  split
  · exact h1
  extract_lets
  exact .ite h1.setLstate.partFinish h1

theorem Keeps.freePart {p} (h : Keeps s u) : Keeps s (u.freePart p) := by
  unfold State.freePart
  extract_lets s1
  have h1 : Keeps s s1 := h.foldl .freeTile
  exact (Keeps.ite h1.count.count h1).eraseRoot.dropConns.resetReceiver.emptyPart.writeRec.setPart.setReg

theorem Keeps.partDestroy {c p} (h : Keeps s u) : Keeps s (u.partDestroy c p) :=
  .ite h.refusePart h.freePart.answer

theorem Keeps.execPartDestroy {c p} (h : Keeps s u) : Lands s (execPartDestroy c p u) :=
  .next (h.partCmd .partDestroy)

theorem Keeps.partFreeze {c p} (h : Keeps s u) : Keeps s (u.partFreeze c p) := by
  unfold State.partFreeze
  refine .ite h.refusePart ?_
  extract_lets
  exact (h.setPart.foldl .updTile).answer

theorem Keeps.execPartFreeze {c p} (h : Keeps s u) : Lands s (execPartFreeze c p u) :=
  .next (h.partCmd .partFreeze)

theorem Keeps.freezeGo {p} (h : Keeps s u) : Keeps s (u.freezeGo p) := by
  unfold State.freezeGo
  refine .ite h ?_
  extract_lets s1
  have h1 : Keeps s s1 := h.foldl fun hv => .ite hv.updTile hv
  exact .ite h1 h1.same.setLstate.raise.count.partFinish

theorem Keeps.execPartFreezeDone {p} (h : Keeps s u) : Lands s (execPartFreezeDone p u) := .next h.freezeGo

theorem Keeps.goOn {p} (h : Keeps s u) : Keeps s (u.goOn p) := by
  unfold State.goOn
  extract_lets _ _ src
  have hsrc : Keeps s src := (h.foldl .updTile).setPart
  refine hsrc.same.foldl fun hv => ?_
  extract_lets
  exact (Keeps.ite hv.setQueue.count hv).qpass

theorem Keeps.partThaw {c p} (h : Keeps s u) : Keeps s (u.partThaw c p) :=
  .ite h.refusePart h.partFinish.goOn.answer

theorem Keeps.execPartThaw {c p} (h : Keeps s u) : Lands s (execPartThaw c p u) := .next (h.partCmd .partThaw)
theorem Keeps.forward {p dest} (h : Keeps s u) : Keeps s (u.forward p dest) := h.same.freshen.setLstate

theorem Keeps.partSave {c p dest cid} (h : Keeps s u) : Keeps s (u.partSave c p dest cid) := by
  unfold State.partSave
  refine .ite h.refusePart (.ite h.refusePart ?_)
  extract_lets _ s1
  have h1 : Keeps s s1 := h.same.freshen.answer
  exact .ite h1.freshen.forward.finish h1.freshen.finish

theorem Keeps.execPartSave {c p dest cid} (h : Keeps s u) : Lands s (execPartSave c p dest cid u) :=
  .next (h.partCmd .partSave)

theorem Keeps.partRestore {c p image tagsOk} (h : Keeps s u) : Keeps s (u.partRestore c p image tagsOk) := by
  unfold State.partRestore
  extract_lets _ _ s1
  have h1 : Keeps s s1 := h.setLstate
  refine .ite h.refusePart ?_
  split
  · exact h.refusePart
  · exact .ite h.refusePart (.ite h1.refusePart h1.setPart.answer)

theorem Keeps.execPartRestore {c p image tagsOk} (h : Keeps s u) :
    Lands s (execPartRestore c p image tagsOk u) :=
  .next (h.partCmd .partRestore)

theorem Keeps.putTile {t m} (h : Keeps s u) : Keeps s (u.putTile t m) := by
  unfold State.putTile
  extract_lets _ s1 bs s2
  have h1 : Keeps s s1 := h.wipe.wipe
  have h2 : Keeps s s2 := h1.cells (l := bs)
  exact (h2.foldl fun hv => hv.setReg).setTile

theorem Keeps.putConn {p x} (h : Keeps s u) : Keeps s (u.putConn p x).1 := h.setConn.freshen.exhaust

theorem Keeps.putConns {p a} (h : Keeps s u) : Keeps s (u.putConns p a).1 := by
  induction a generalizing u with
  | nil => exact h
  | cons a l ih =>
    unfold State.putConns
    extract_lets
    exact ih h.putConn

theorem Keeps.applyImage {p m} (h : Keeps s u) : Keeps s (u.applyImage p m) := by
  unfold State.applyImage
  extract_lets _ _ _ _ _ _ _ _ _ _ s7
  have h7 : Keeps s s7 :=
    ((((((h.foldl .putTile).foldl .setGroup).putConns.foldl .setQueue).foldl .setWindow).foldl .setColl).foldl .setReg).setPart
  exact h7.same

theorem Keeps.restoreGo {p} (h : Keeps s u) : Keeps s (u.restoreGo p) := by
  unfold State.restoreGo
  extract_lets _ _ s1 s2
  have h1 : Keeps s s1 := h.applyImage.goOn.raise
  have h2 : Keeps s s2 := by
    unfold s2
    split
    · exact h1.raise
    · exact h1
  exact .ite h h2.partFinish

theorem Keeps.execPartRestoreDone {p} (h : Keeps s u) : Lands s (execPartRestoreDone p u) :=
  .next h.restoreGo.settle

theorem Keeps.partRelease {c p} (h : Keeps s u) : Keeps s (u.partRelease c p) :=
  .ite h.refusePart (.ite h.setPart.answer h.freePart.answer)

theorem Keeps.execPartRelease {c p} (h : Keeps s u) : Lands s (execPartRelease c p u) :=
  .next (h.partCmd .partRelease)

theorem Keeps.execMovedHoldExpire {cid} (h : Keeps s u) : Lands s (execMovedHoldExpire cid u) := by
  unfold Machine.execMovedHoldExpire
  extract_lets _ s1 _ cmd s2
  have h1 : Keeps s s1 := h.cacheDrop.setConn
  have h2 : Keeps s s2 := h1.freePart
  clear_value cmd
  refine .next (.ite h (.ite ?_ h1))
  split
  · exact h2.finish
  · exact h2

/-! ### Commands of the manager -/

theorem Keeps.mgrCmd {c op k} (h : Keeps s u) (hk : ∀ {v}, Keeps s v → Keeps s (k v)) :
    Keeps s (u.mgrCmd c op k) :=
  h.command (fun hv => (hk hv).settle)

theorem Keeps.tileCmd {c op t lockable refused k} (h : Keeps s u) (hk : ∀ {v}, Keeps s v → Keeps s (k v)) :
    Keeps s (u.tileCmd c op t lockable refused k) :=
  h.mgrCmd (fun hv => .ite hv.answer (.ite hv.answer (hk hv).answer))

theorem Keeps.execTileStop {c t} (h : Keeps s u) : Lands s (execTileStop c t u) := .next (h.tileCmd .stopTile)

theorem Keeps.execTileResume {c t} (h : Keeps s u) : Lands s (execTileResume c t u) :=
  .next (h.tileCmd .resumeTile)

theorem Keeps.execTileAbort {c t} (h : Keeps s u) : Lands s (execTileAbort c t u) :=
  .next (h.tileCmd .abortTile)

theorem Keeps.queueMake {c p q kind sizeLog2 ring cb} (h : Keeps s u) :
    Keeps s (u.queueMake c p q kind sizeLog2 ring cb) := by
  unfold State.queueMake
  split
  next e =>
    extract_lets
    exact (h.vget.fst e).setQueue.publish.answer
  next e => exact (h.vget.fst e).answer

theorem Keeps.execQueueCreate {c p q kind sizeLog2 ring cb} (h : Keeps s u) :
    Lands s (execQueueCreate c p q kind sizeLog2 ring cb u) := by
  refine .next ?_
  refine h.mgrCmd fun hv => ?_
  split
  · exact hv.queueMake
  · exact hv.answer

theorem Keeps.execQueueDestroy {c p q} (h : Keeps s u) : Lands s (execQueueDestroy c p q u) := by
  refine .next ?_
  refine h.mgrCmd fun hv => ?_
  extract_lets
  refine .ite hv.answer ?_
  split
  · exact hv.answer
  · exact .ite hv.answer (.ite hv.answer hv.setQueue.answer.shutQueue)

theorem Keeps.openConn {c p peer listen mtu cls encrypt pin m} (h : Keeps s u) :
    Keeps s (u.openConn c p peer listen mtu cls encrypt pin m) := by
  unfold State.openConn
  refine .ite h.answer ?_
  refine .ite h.answer (.ite h.answer (.ite h.answer (.ite h.raise.answer (.ite h ?_))))
  extract_lets
  exact h.setConn.cacheTouch.answer.sendOpen

theorem Keeps.execConnOpen {c p peer listen mtu cls encrypt pin mine} (h : Keeps s u) :
    Lands s (execConnOpen c p peer listen mtu cls encrypt pin mine u) :=
  .next (h.mgrCmd .openConn)

theorem Keeps.closeConn {c cid abort} (h : Keeps s u) : Keeps s (u.closeConn c cid abort) := by
  unfold State.closeConn
  extract_lets
  refine .ite h.answer ?_
  split
  · exact h.connFree.answer
  · exact .ite h.connError.answer h.setConn.answer.connPush
  · exact h.answer
  · exact h.answer
  · exact h.answer

theorem Keeps.execConnClose {c cid abort} (h : Keeps s u) : Lands s (execConnClose c cid abort u) :=
  .next (h.mgrCmd .closeConn)

theorem Keeps.defRefused {home} (h : Keeps s u) : Keeps s (u.defRefused home) := h.raise
theorem Keeps.markEdges {l h'} (h : Keeps s u) : Keeps s (u.markEdges l h') := h.foldl .setConn
theorem Keeps.defineColl {h' d} (h : Keeps s u) : Keeps s (u.defineColl h' d) := h.markEdges.markEdges.setColl
theorem Keeps.removeColl {h'} (h : Keeps s u) : Keeps s (u.removeColl h') := h.markEdges.setColl

theorem Keeps.execCollDefine {c h' d} (h : Keeps s u) : Lands s (execCollDefine c h' d u) := by
  refine .next ?_
  refine h.mgrCmd fun hv => ?_
  split
  · exact hv.defRefused.answer
  · exact .ite hv.defRefused.answer hv.defineColl.answer

theorem Keeps.execCollRemove {c h'} (h : Keeps s u) : Lands s (execCollRemove c h' u) := by
  refine .next ?_
  refine h.mgrCmd fun hv => ?_
  extract_lets
  split
  · exact hv.answer
  · exact .ite hv.answer (.ite hv.defRefused.answer hv.removeColl.answer)

/-! ### Memory service and evacuation -/

theorem Keeps.execTranslationWalkDone {fd1 p va acc st} (h : Keeps s u) :
    Lands s (execTranslationWalkDone fd1 p va acc st u) := by
  refine .next (.ite h (.ite h.dramUe.freshen.partFatal.settle ?_))
  split
  next e => exact (h.xlate.fst e).fault
  next e => exact h.xlate.fst e

theorem Keeps.execFqReread {p} (h : Keeps s u) : Lands s (execFqReread p u) := .next (.ite h.fqService h)

theorem Keeps.execXlatFqKick {inst v} (h : Keeps s u) : Lands s (execXlatFqKick inst v u) :=
  .next (.ite h (h.pageWrite .fqService))

theorem Keeps.copiesGo {t} (h : Keeps s u) : Keeps s (u.copiesGo t) := .ite h.unpark h
theorem Keeps.jobsFirst {st} (h : Keeps s u) : Keeps s (u.jobsFirst st) := h.foldl .jobFirst

theorem Keeps.retryStream {st} (h : Keeps s u) : Keeps s (u.retryStream st) := by
  unfold State.retryStream
  extract_lets s0
  have h0 : Keeps s s0 := h.updJobs
  split
  · split
    · extract_lets
      exact h0.same.jobsFirst
    extract_lets s1 s2
    have h1 : Keeps s s1 := h0.updQueue.publish.jobsFirst
    have h2 : Keeps s s2 := by
      unfold s2
      split
      · exact h1.afterPkt
      · exact h1
    exact .ite h1.qpass h2.qgo
  · exact h0
  · exact h0.updConn.afterPkt

theorem Keeps.failMsg {cid m} (h : Keeps s u) : Keeps s (u.failMsg cid m) := by
  unfold State.failMsg
  extract_lets _ _ s1
  have h1 : Keeps s s1 := h.setConn
  split
  · exact h1.sendNak
  · exact h1.finishOrg

theorem Keeps.failTx {st} (h : Keeps s u) : Keeps s (u.failTx st) := by
  unfold State.failTx
  split
  · exact h.failMsg
  · exact h

theorem Keeps.failUnread {p q} (h : Keeps s u) : Keeps s (u.failUnread p q) := h.setQueue.complete

theorem Keeps.failStream {st} (h : Keeps s u) : Keeps s (u.failStream st) := by
  unfold State.failStream
  split
  · split
    · extract_lets s1
      have h1 : Keeps s s1 := by
        unfold s1
        split
        · exact h.jobEnd
        · exact h.failTx
      exact h1.same.foldl .finishOrg
    extract_lets _ s1 s2 s1'
    have h1 : Keeps s s1 := by
      unfold s1
      split
      · exact h.jobEnd
      · exact h.failTx
    have h2 : Keeps s s2 := h1.complete
    have h1' : Keeps s s1' := h.updQueue.publish
    split
    · extract_lets
      exact (Keeps.ite h2.updConn.afterPkt h2).updQueue.publish.qgo
    · exact .ite h1' h1'.failUnread.qgo
  · split
    · exact h.jobEnd.copiesGo
    · exact h
  extract_lets _ s1
  have h1 : Keeps s s1 := h.setConn
  split
  · exact h1.endMsg.afterPkt
  · exact h1.failTx.afterPkt

theorem Keeps.faultsGo (h : Keeps s u) : Keeps s u.faultsGo := h.same.faultAdmit.foldl .fqWrite

theorem Keeps.resume {token retry} (h : Keeps s u) : Keeps s (u.resume token retry).1 := by
  unfold State.resume
  split
  · exact h.raise
  extract_lets
  exact (h.same.faultsGo.foldl (fun hv => .ite hv.retryStream hv.failStream)).settle

theorem Keeps.execResumeRetry {inst} (h : Keeps s u) : Lands s (execResumeRetry inst u) :=
  .next (.ite h (h.pageWrite .resume))

theorem Keeps.execResumeFail {inst} (h : Keeps s u) : Lands s (execResumeFail inst u) :=
  .next (.ite h (h.pageWrite .resume))

theorem Keeps.faultResume {c token action} (h : Keeps s u) : Keeps s (u.faultResume c token action) :=
  .ite h.answer (.ite h.answer h.setReg.resume.answer)

theorem Keeps.execFaultResume {c token action} (h : Keeps s u) : Lands s (execFaultResume c token action u) :=
  .next (h.command .faultResume)

theorem Keeps.farLand {t v x} (h : Keeps s u) : Keeps s (u.farLand t v x) := by
  unfold State.farLand
  extract_lets _ s1
  have h1 : Keeps s s1 := h.updTile
  exact .ite h1.unpark h1

theorem Keeps.farFail {t} (h : Keeps s u) : Keeps s (u.farFail t) := .ite h.trapTile h

theorem Keeps.execXfldDone {t} (h : Keeps s u) : Lands s (execXfldDone t u) := by
  unfold Machine.execXfldDone
  extract_lets
  refine .next ?_
  split
  · exact h
  refine .ite h ?_
  split
  next e =>
    extract_lets s2
    have h2 : Keeps s s2 := (h.vget.fst e).updTile
    exact .ite h2.farLand h2.farFail
  next e => exact (h.vget.fst e).updTile.farFail

theorem Keeps.loseSlab {slab} (h : Keeps s u) : Keeps s (u.loseSlab slab) := (h.foldl .same).freshen

theorem Keeps.writeSlab {inst i v} (h : Keeps s u) : Keeps s (u.writeSlab inst i v).1 := by
  unfold State.writeSlab
  extract_lets _ s1
  have h1 : Keeps s s1 := .ite h.loseSlab h
  split
  · exact h.raise
  · exact h1.same

theorem Keeps.execDramcSlabDataWrite {inst v} (h : Keeps s u) : Lands s (execDramcSlabDataWrite inst v u) :=
  .next (.ite h (h.pageWrite .writeSlab))

theorem Keeps.slabWrite {c slab entry} (h : Keeps s u) : Keeps s (u.slabWrite c slab entry) := by
  unfold State.slabWrite
  refine .ite h.answer (.ite h.answer ?_)
  extract_lets
  exact h.writeSlab.answer

theorem Keeps.execSlabWrite {c slab entry} (h : Keeps s u) : Lands s (execSlabWrite c slab entry u) :=
  .next (h.command .slabWrite)

theorem Keeps.execEvacStart {dev} (h : Keeps s u) : Lands s (execEvacStart dev u) :=
  .next (.ite h (h.pageWrite .evacStart))

theorem Keeps.devEvac {c dev slab dstDev dstLocal} (h : Keeps s u) :
    Keeps s (u.devEvac c dev slab dstDev dstLocal) := by
  unfold State.devEvac
  refine .ite h.answer (.ite h.answer (.ite h.answer ?_))
  extract_lets s1
  have h1 : Keeps s s1 := h.setReg.setReg
  split
  next e => exact (h1.evacStart.fst e).raise.answer
  next e => exact (h1.evacStart.fst e).answer

theorem Keeps.execDevEvac {c dev slab dstDev dstLocal} (h : Keeps s u) :
    Lands s (execDevEvac c dev slab dstDev dstLocal u) :=
  .next (h.command .devEvac)

theorem Keeps.retireDev {d} (h : Keeps s u) : Keeps s (u.retireDev d).1 := by
  unfold State.retireDev
  split
  · exact h.raise
  · exact h.setDev.updStore.pair

theorem Keeps.execDevstateRetire {dev} (h : Keeps s u) : Lands s (execDevstateRetire dev u) :=
  .next (.ite h (h.pageWrite .retireDev))

theorem Keeps.devRetire {c dev} (h : Keeps s u) : Keeps s (u.devRetire c dev) := by
  unfold State.devRetire
  refine .ite h.answer (.ite h.answer (.ite h.answer ?_))
  extract_lets
  exact h.retireDev.answer

theorem Keeps.execDevRetire {c dev} (h : Keeps s u) : Lands s (execDevRetire c dev u) :=
  .next (h.command .devRetire)

/-- `delta%` as in `dirtyPage`, with the log's base kept opaque: the kernel would evaluate its upper half. -/
theorem Keeps.logLost {d slab l} (h : Keeps s u) : Keeps s (u.logLost d slab l).1 := by
  obtain ⟨base, hb⟩ : ∃ f, f = State.lostBase := ⟨_, rfl⟩
  rw [show @State.logLost = delta% @State.logLost by delta State.logLost; rfl,
    show @State.logLost._f = delta% @State.logLost._f from rfl, ← hb]
  clear hb
  induction l generalizing u with
  | nil => exact h
  | cons a l ih =>
    dsimp only [List.brecOn, List.brecOn.go] at ih ⊢
    split
    next e => exact h.load0.fst e
    split
    next e _ => exact h.load0.fst e
    next e _ => exact ih (h.load0.fst e).put0.put0.raise

theorem Keeps.evacLog {d} (h : Keeps s u) : Keeps s (u.evacLog d) := by
  unfold State.evacLog
  extract_lets
  split
  · exact h
  extract_lets
  exact h.logLost.setDev

theorem Keeps.runEnds {d} (h : Keeps s u) : Keeps s (u.runEnds d) := by
  unfold State.runEnds
  extract_lets
  split
  · exact h.setDev.evacLog
  · exact h

theorem Keeps.lineLost {d a} (h : Keeps s u) : Keeps s (u.lineLost d a) := h.same.count

theorem Keeps.evacLine {d l v} (h : Keeps s u) : Keeps s (u.evacLine d l v) := by
  unfold State.evacLine
  extract_lets _ _ s1
  have h1 : Keeps s s1 := h.readLine.count
  exact .ite h1.lineLost.setDev h1.same.runEnds

theorem Keeps.evacFinish {d} (h : Keeps s u) : Keeps s (u.evacFinish d) := by
  unfold State.evacFinish
  extract_lets _ s1
  have h1 : Keeps s s1 := h
  split
  · exact h
  refine .ite h ?_
  extract_lets _ _ _ _ s3 s4
  have h3 : Keeps s s3 := h1.same.setDev.raise
  have h4 : Keeps s s4 := by
    unfold s4
    split
    · exact h3.finish
    · exact h3
  exact .ite h4 (.ite h4.autoEvac h4.retireDev)

theorem Keeps.evacEnd {d} (h : Keeps s u) : Keeps s (u.evacEnd d) := h.runEnds.evacFinish

theorem Keeps.evacUnit {d} (h : Keeps s u) : Keeps s (u.evacUnit d) := by
  unfold State.evacUnit
  extract_lets
  split
  · exact h
  refine .ite h ?_
  extract_lets _ _ s2
  have h2 : Keeps s s2 := (h.foldl .evacLine).setDev
  exact .ite h2.evacEnd h2

theorem Keeps.evacRest {d v lost} (h : Keeps s u) : Keeps s (u.evacRest d v lost) :=
  ((h.count.count.foldl (fun hv => hv.same.dramCe)).foldl (fun hv => hv.dramUe.lineLost)).setDev.evacLog

theorem Keeps.execEvacDone {dev lost} (h : Keeps s u) : Lands s (execEvacDone dev lost u) := by
  unfold Machine.execEvacDone
  extract_lets
  refine .next ?_
  split
  · exact h
  · exact .ite h h.evacRest.evacFinish

theorem Keeps.execLostLogReread {dev} (h : Keeps s u) : Lands s (execLostLogReread dev u) := by
  refine .next (.ite h ?_)
  extract_lets s1
  have h1 : Keeps s s1 := h.evacLog
  exact .ite h1.evacFinish h1

theorem Keeps.memUse {c op p units grant} (h : Keeps s u) : Keeps s (u.memUse c op p units grant) := by
  unfold State.memUse
  extract_lets
  refine .ite h.refusePart (.ite h.refusePart ?_)
  split <;> exact .ite h.refusePart h.setReg.answer

theorem Keeps.execMemGrant {c p units} (h : Keeps s u) : Lands s (execMemGrant c p units u) :=
  .next (h.partCmd .memUse)

theorem Keeps.execMemReturn {c p units} (h : Keeps s u) : Lands s (execMemReturn c p units u) :=
  .next (h.partCmd .memUse)

theorem Keeps.execUnmappedAccess {addr write core complex} (h : Keeps s u) :
    Lands s (execUnmappedAccess addr write core complex u) :=
  .next (.ite h h.unmapped)

theorem Keeps.refreshBurst {dev} (h : Keeps s u) : Keeps s (u.refreshBurst dev) := h.setDev.count

theorem Keeps.execDramRefresh {dev waiting} (h : Keeps s u) : Lands s (execDramRefresh dev waiting u) := by
  refine .next (.ite h (.ite h.setDev (.ite h.setDev ?_)))
  extract_lets
  exact (Keeps.ite h.refreshBurst h).setDev

theorem Keeps.execRefreshBurst {dev} (h : Keeps s u) : Lands s (execRefreshBurst dev u) :=
  .next (.ite h.refreshBurst h)

theorem Keeps.execDramArbWindow {dev} (h : Keeps s u) : Lands s (execDramArbWindow dev u) := by
  refine .next (.ite h ?_)
  extract_lets
  exact h.setDev

theorem Keeps.withLinks {p g steady l} (h : Keeps s u) : Keeps s (u.withLinks p g steady l) :=
  h.same.foldl .setLink

theorem Keeps.giveLink {key v} (h : Keeps s u) : Keeps s (u.giveLink key v) := h.setReg.linkOwner
theorem Keeps.loadTable {r} (h : Keeps s u) : Keeps s (u.loadTable r) := (h.setReg.foldl .setReg).stLoad

theorem Keeps.installImage {p g steady l masks} (h : Keeps s u) :
    Keeps s (u.installImage p g steady l masks) := by
  unfold State.installImage
  extract_lets _ _ s2 s3
  have h2 : Keeps s s2 := (h.foldl .giveLink).foldl .giveLink
  have h3 : Keeps s s3 := .ite h2 (h2.foldl .loadTable)
  exact h3.foldl fun hv => .ite hv hv.setReg.setWave

theorem Keeps.gridLoad {c p va len} (h : Keeps s u) : Keeps s (u.gridLoad c p va len) := by
  unfold State.gridLoad
  refine .ite h.answer ?_
  split
  · extract_lets g steady n l
    split
    next e _ => exact (h.vget.fst e).answer
    split
    next e _ _ => exact (h.vget.fst e).answer
    next e _ _ => exact (h.vget.fst e).answer.installImage.finish
  next e => exact (h.vget.fst e).answer

theorem Keeps.execGridLoad {c p va len} (h : Keeps s u) : Lands s (execGridLoad c p va len u) :=
  .next (h.command .gridLoad)

/-! ### Mailboxes and management ports -/

theorem Keeps.execMboxPost {ch toFw words} (h : Keeps s u) : Lands s (execMboxPost ch toFw words u) := by
  refine .next (.ite h (.ite ?_ h.fwPost))
  extract_lets s1
  have h1 : Keeps s s1 := h.setMb
  split
  · exact h1.chanStatus
  · exact h1

theorem Keeps.postNotify {p words} (h : Keeps s u) : Keeps s (u.postNotify p words) := h.setMb.fwPost

theorem Keeps.fwTake {ch} (h : Keeps s u) : Keeps s (u.fwTake ch) := by
  unfold State.fwTake
  extract_lets _ _ _ take
  have htake {v} (hv : Keeps s v) : Keeps s (take v) := by
    unfold take
    split
    · exact hv.setMb.count.chanStatus
    · exact hv.setMb.count
  split
  · exact h
  split
  · exact (htake h).postNotify
  split
  · exact h.answer
  · exact .ite h (htake h)

theorem Keeps.execMboxTake {ch toFw} (h : Keeps s u) : Lands s (execMboxTake ch toFw u) := by
  refine .next (.ite h (.ite h.fwTake ?_))
  split
  · split
    · exact .ite h.hold.updTile.takeTileMsg h
    · exact h
  · exact h

theorem Keeps.execMboxAck {ch toFw rc} (h : Keeps s u) : Lands s (execMboxAck ch toFw rc u) :=
  .next (.ite h (.ite (.ite h.count.setMb h.count.setMb.emit) h.setMb.fwNext))

theorem Keeps.onPort {ch mp1} (h : Keeps s u) : Keeps s (u.onPort ch mp1) := h.setMb.setMb

theorem Keeps.mgmtPost {security newSession mp1 seq words} (h : Keeps s u) :
    Keeps s (u.mgmtPost security newSession mp1 seq words) := by
  unfold State.mgmtPost
  extract_lets _ s0 _ _ a _ _ s1
  have h0 : Keeps s s0 := h.onPort
  have ha : Keeps s a := .ite h0.resetReceiver.setMb.fwNext h0
  have h1 : Keeps s s1 := by
    unfold s1
    refine .ite h0 ?_
    split <;> exact ha.setMb
  exact h1.emit

theorem Keeps.execMgmtPost {security newSession mp1 seq words src} (h : Keeps s u) :
    Lands s (execMgmtPost security newSession mp1 seq words src u) :=
  .next (.ite h.mgmtPost h)

theorem Keeps.mgmtAck {security mp1 seq rc} (h : Keeps s u) : Keeps s (u.mgmtAck security mp1 seq rc) := by
  unfold State.mgmtAck
  extract_lets _ s0 _ _ _ s2
  have h0 : Keeps s s0 := h.onPort
  have h2 : Keeps s s2 := (Keeps.ite h0.setMb h0).emit
  exact .ite h2.fwNext h2

theorem Keeps.execMgmtAck {security mp1 seq rc src} (h : Keeps s u) :
    Lands s (execMgmtAck security mp1 seq rc src u) :=
  .next (.ite h.mgmtAck h)

theorem Keeps.mgmtEcho {security seq} (h : Keeps s u) : Keeps s (u.mgmtEcho security seq) := h.setMb.setMb

theorem Keeps.execMgmtStateEcho {security mp1 seq state src} (h : Keeps s u) :
    Lands s (execMgmtStateEcho security mp1 seq state src u) :=
  .next (.ite h.mgmtEcho h)

theorem Keeps.execMgmtResend {security} (h : Keeps s u) : Lands s (execMgmtResend security u) := by
  unfold Machine.execMgmtResend
  extract_lets _ again
  have ha {v b} (hv : Keeps s v) : Keeps s (again v b) := by
    unfold again
    split
    · exact hv.emit
    · exact hv
  exact .next (.ite (ha (ha h)) h)

theorem Keeps.peerGasp {src} (h : Keeps s u) : Keeps s (u.peerGasp src) := by
  unfold State.peerGasp
  refine h.foldl fun hv => ?_
  split
  · exact hv.collFail
  · exact hv

theorem Keeps.execMgmtLastGasp {src dataPort} (h : Keeps s u) : Lands s (execMgmtLastGasp src dataPort u) :=
  .next (.ite h.peerGasp.settle h)

theorem Keeps.recoveryData {off bytes} (h : Keeps s u) : Keeps s (u.recoveryData off bytes) := by
  unfold State.recoveryData
  refine .ite h ?_
  extract_lets
  exact h.same.emit

theorem Keeps.execMgmtRecoveryData {off bytes} (h : Keeps s u) : Lands s (execMgmtRecoveryData off bytes u) :=
  .next (.ite h.recoveryData h)

theorem Keeps.execRecoveryRequest (h : Keeps s u) : Lands s (execRecoveryRequest u) :=
  .next (.ite (h.foldl (fun hv => hv.emit.emit)) h)

theorem Keeps.setLocks {block l lock} (h : Keeps s u) : Keeps s (u.setLocks block l lock) := h.foldl .setReg

theorem Keeps.pageLock {seq block inst lock all mp1} (h : Keeps s u) :
    Keeps s (u.pageLock seq block inst lock all mp1) :=
  h.setLocks.emit

theorem Keeps.execMgmtPageLock {seq block inst lock all mp1 src} (h : Keeps s u) :
    Lands s (execMgmtPageLock seq block inst lock all mp1 src u) :=
  .next (.ite h.pageLock h)

theorem Keeps.mgmtIn {k} (h : Keeps s u) : Keeps s (u.mgmtIn k) := by
  unfold State.mgmtIn
  extract_lets _ kind
  refine .ite (.ite h.peerGasp h) (.ite h.recoveryData (.ite h ?_))
  clear_value kind
  split
  · exact h.mgmtPost
  · exact h.mgmtAck
  · exact h.mgmtEcho
  · exact h.pageLock
  · exact h

theorem Keeps.execKvtMgmt {k} (h : Keeps s u) : Lands s (execKvtMgmt k u) :=
  .next (.ite (h.plainOk .mgmtIn).settle h)

theorem Keeps.execChannelPost {p words seq len} (h : Keeps s u) : Lands s (execChannelPost p words seq len u) :=
  .next (.ite h h.setMb.chanStatus)

theorem Keeps.execChannelTaken {p seq} (h : Keeps s u) : Lands s (execChannelTaken p seq u) :=
  .next (.ite h h.setMb.chanStatus.fwNext)

/-! ### Power -/

theorem Keeps.updPwr {f} (h : Keeps s u) : Keeps s (u.updPwr f) := ⟨h.pending, h.form⟩
theorem Keeps.alertNow (h : Keeps s u) : Keeps s u.alertNow := ⟨h.pending, h.form⟩
theorem Keeps.alertClear {bits} (h : Keeps s u) : Keeps s (u.alertClear bits) := h.same.alertNow

theorem Keeps.execTrayAlertClear {bits} (h : Keeps s u) : Lands s (execTrayAlertClear bits u) :=
  .next (.ite h.alertClear h)

theorem Keeps.execAlertResponse (h : Keeps s u) : Lands s (execAlertResponse u) := .next (.ite h.emit h)

theorem Keeps.execTrayBusWrite {code data} (h : Keeps s u) : Lands s (execTrayBusWrite code data u) := by
  unfold Machine.execTrayBusWrite
  extract_lets
  refine .next ?_
  split
  · exact h
  · exact .ite h.emit (.ite h.alertClear.emit (.ite h.same.emit h.emit))

theorem Keeps.execTrayTelemetryUpdate {vin iin pin tj tcool} (h : Keeps s u) :
    Lands s (execTrayTelemetryUpdate vin iin pin tj tcool u) :=
  .next (.ite h.same.alertNow h)

theorem Keeps.execPpsOut (h : Keeps s u) : Lands s (execPpsOut u) := .next (.ite h.same.emit h)

theorem Keeps.lose (h : Keeps s u) : Keeps s u.lose := by
  unfold State.lose
  extract_lets _ _ s1
  have h1 : Keeps s s1 := h.emptied
  exact .ite h1.emit h1

theorem Keeps.loseMore (h : Keeps s u) : Keeps s u.loseMore := by
  unfold State.loseMore
  extract_lets x
  have hx : Keeps s x := h.lose
  exact hx.same.alertNow

theorem Keeps.loseVaux (h : Keeps s u) : Keeps s u.loseVaux := by
  unfold State.loseVaux
  extract_lets x
  have hx : Keeps s x := h.lose
  exact hx.same

theorem Keeps.startUp (h : Keeps s u) : Keeps s u.startUp := by
  unfold State.startUp
  extract_lets s1
  have h1 : Keeps s s1 := h.lose
  exact h1.same.freshen

theorem Keeps.tryStart (h : Keeps s u) : Keeps s u.tryStart := .ite h.startUp h
theorem Keeps.inserted (h : Keeps s u) : Keeps s u.inserted := h.updPwr

theorem Keeps.execHotInsertion (h : Keeps s u) : Lands s (execHotInsertion u) :=
  .next (.ite h h.inserted.updPwr)

theorem Keeps.execHotRemoval (h : Keeps s u) : Lands s (execHotRemoval u) := .next (.ite h h.loseVaux.updPwr)
theorem Keeps.execPowerGood (h : Keeps s u) : Lands s (execPowerGood u) := .next (.ite h.updPwr.tryStart h)
theorem Keeps.execHoldupRefilled (h : Keeps s u) : Lands s (execHoldupRefilled u) := .next (.ite h.updPwr h)
theorem Keeps.flushNotes (h : Keeps s u) : Keeps s u.flushNotes := h.foldl fun hv => .ite hv.notify hv
theorem Keeps.downOrderly {why} (h : Keeps s u) : Keeps s (u.downOrderly why) := h.flushNotes.updPwr
theorem Keeps.sendNotice (h : Keeps s u) : Keeps s u.sendNotice := h.emit.freshen

theorem Keeps.execModPwrenHigh (h : Keeps s u) : Lands s (execModPwrenHigh u) := by
  refine .next (.ite h ?_)
  extract_lets
  exact h.updPwr.tryStart

theorem Keeps.execModPwrenLow (h : Keeps s u) : Lands s (execModPwrenLow u) := by
  refine .next (.ite h ?_)
  extract_lets s1
  have h1 : Keeps s s1 := h.updPwr
  exact .ite h1.downOrderly (.ite h1.sendNotice.downOrderly h1)

theorem Keeps.execModResetNLow (h : Keeps s u) : Lands s (execModResetNLow u) := by
  refine .next (.ite h ?_)
  extract_lets s1 _ s2
  have h1 : Keeps s s1 := h.updPwr
  have h2 : Keeps s s2 := h1.same.loseMore
  exact .ite h2.updPwr h2

theorem Keeps.execModResetNHigh (h : Keeps s u) : Lands s (execModResetNHigh u) := by
  refine .next (.ite h ?_)
  extract_lets
  exact h.updPwr.tryStart

theorem Keeps.downDone {why} (h : Keeps s u) : Keeps s (u.downDone why) := by
  unfold State.downDone
  extract_lets _ _ _ s1 _ s3 s4 s5
  have h1 : Keeps s s1 := h.lose.updPwr
  have h3 : Keeps s s3 := (Keeps.ite h1.updStore h1).updPwr
  have h4 : Keeps s s4 := .ite h3.freshen h3
  have h5 : Keeps s s5 := h4.loseVaux
  exact .ite (.ite h5.updPwr h5.inserted) h4.tryStart

theorem Keeps.execPowerDownDone (h : Keeps s u) : Lands s (execPowerDownDone u) := by
  refine .next ?_
  split
  · exact h.downDone
  · exact h

theorem Keeps.execInputPowerReturn (h : Keeps s u) : Lands s (execInputPowerReturn u) := by
  refine .next (.ite h ?_)
  split
  · exact h.updPwr
  · exact .ite h h.inserted
  · exact h

theorem Keeps.gaspRecords {cause} (h : Keeps s u) : Keeps s (u.gaspRecords cause) := h.emit.emit.foldl .emit

theorem Keeps.lastGasp {cause} (h : Keeps s u) : Keeps s (u.lastGasp cause) :=
  (Keeps.ite h.raise.gaspRecords h).updPwr.alertNow

theorem Keeps.execLastGasp {atReserve} (h : Keeps s u) : Lands s (execLastGasp atReserve u) :=
  .next (.ite h.lastGasp h)

theorem Keeps.eraseAll (h : Keeps s u) : Keeps s u.eraseAll := ⟨h.pending, h.form⟩
theorem Keeps.portsStop (h : Keeps s u) : Keeps s u.portsStop := ⟨h.pending, h.form⟩

theorem Keeps.fatal {cause} (h : Keeps s u) : Keeps s (u.fatal cause) := by
  unfold State.fatal
  refine .ite h ?_
  extract_lets s1
  have h1 : Keeps s s1 := h.updStore.updPwr
  exact (Keeps.ite h1 h1.gaspRecords).portsStop.eraseAll.updPwr.alertNow

theorem Keeps.execReferenceLost {die pll} (h : Keeps s u) : Lands s (execReferenceLost die pll u) :=
  .next (.ite h h.raise.fatal)

theorem Keeps.execSerdesRefLost {fd1} (h : Keeps s u) : Lands s (execSerdesRefLost fd1 u) := by
  refine .next (.ite h ?_)
  extract_lets
  exact h.foldl fun hv => hv.linkLost.linkLost

theorem Keeps.ramp (h : Keeps s u) : Keeps s u.ramp := by
  unfold State.ramp
  split <;> exact h.updPwr

theorem Keeps.rampShares {old} (h : Keeps s u) : Keeps s (u.rampShares old) := .ite h h.updPwr

theorem Keeps.request {f} (h : Keeps s u) : Keeps s (u.request f) := by
  unfold State.request
  extract_lets s1
  have h1 : Keeps s s1 := h.updPwr
  exact (Keeps.ite h1.ramp h1).rampShares

theorem Keeps.loadK (h : Keeps s u) : Keeps s u.loadK := h.updPwr
theorem Keeps.frameBoundary (h : Keeps s u) : Keeps s u.frameBoundary := h.updPwr.loadK

theorem Keeps.execThrottleFrameBoundary (h : Keeps s u) : Lands s (execThrottleFrameBoundary u) :=
  .next (.ite h.loadK h)

theorem Keeps.execDroopTrip {x} (h : Keeps s u) : Lands s (execDroopTrip x u) := .next (.ite h.updPwr.count h)
theorem Keeps.execDroopRelease (h : Keeps s u) : Lands s (execDroopRelease u) := .next (.ite h.updPwr h)

theorem Keeps.sagEnter (h : Keeps s u) : Keeps s u.sagEnter := by
  unfold State.sagEnter
  refine .ite h.alertNow ?_
  extract_lets
  exact h.request.count.raise.alertNow

theorem Keeps.inputNow {low below40 cut} (h : Keeps s u) : Keeps s (u.inputNow low below40 cut) := by
  unfold State.inputNow
  extract_lets s1
  have h1 : Keeps s s1 := h.updPwr
  exact .ite h1.updPwr.freshen h1

theorem Keeps.execInputProtectionOpen (h : Keeps s u) : Lands s (execInputProtectionOpen u) :=
  .next (.ite h.inputNow.sagEnter h)

theorem Keeps.execInputProtectionClose (h : Keeps s u) : Lands s (execInputProtectionClose u) :=
  .next (.ite h.inputNow.alertNow h)

theorem Keeps.execSagStart {below40} (h : Keeps s u) : Lands s (execSagStart below40 u) :=
  .next (.ite h.inputNow.sagEnter h)

theorem Keeps.execSagEnd (h : Keeps s u) : Lands s (execSagEnd u) := by
  refine .next (.ite h ?_)
  extract_lets s1
  have h1 : Keeps s s1 := h.inputNow
  exact .ite h1.request.alertNow h1.alertNow

theorem Keeps.setMState (h : Keeps s u) : Keeps s u.setMState := .ite h.updPwr h

theorem Keeps.writeCap {v} (h : Keeps s u) : Keeps s (u.writeCap v) := by
  unfold State.writeCap
  extract_lets _ s1
  have h1 : Keeps s s1 := h.setReg.setMState
  exact (Keeps.ite h1.raise h1).alertNow

theorem Keeps.execPwrCapWrite {v} (h : Keeps s u) : Lands s (execPwrCapWrite v u) :=
  .next (.ite (h.pageWrite .writeCap) h)

theorem Keeps.execPowerCap {c watts} (h : Keeps s u) : Lands s (execPowerCap c watts u) :=
  .next (h.mgrCmd (fun hv => .ite hv.answer (.ite hv.answer hv.writeCap.answer)))

theorem Keeps.execPowerShare {c p watts nonTile} (h : Keeps s u) :
    Lands s (execPowerShare c p watts nonTile u) :=
  .next (h.mgrCmd (fun hv => .ite hv.answer (.ite hv.answer (.ite hv.answer hv.setReg.answer))))

theorem Keeps.shareStep {pin est} (h : Keeps s u) : Keeps s (u.shareStep pin est) := by
  unfold State.shareStep
  extract_lets
  refine .ite ?_ h.request
  split <;> exact h.updPwr

theorem Keeps.execShareEstimate {pin est} (h : Keeps s u) : Lands s (execShareEstimate pin est u) :=
  .next (.ite h.shareStep.freshen h)

theorem Keeps.addEnergy {pin} (h : Keeps s u) : Keeps s (u.addEnergy pin) := h.updPwr.count

theorem Keeps.slopeStep {pin idleLoad} (h : Keeps s u) : Keeps s (u.slopeStep pin idleLoad) := by
  unfold State.slopeStep
  extract_lets _ _ _ _ s1
  have h1 : Keeps s s1 := h.addEnergy.updPwr
  split
  · exact h1.updPwr
  · exact .ite h1.updPwr (.ite h1.updPwr.count.raise h1.updPwr)

theorem Keeps.execSlopeStep {pin idleLoad} (h : Keeps s u) : Lands s (execSlopeStep pin idleLoad u) :=
  .next (.ite h.slopeStep.freshen h)

theorem Keeps.thermal {tj} (h : Keeps s u) : Keeps s (u.thermal tj) := by
  unfold State.thermal
  extract_lets _ _ s1
  have h1 : Keeps s s1 := h.request
  exact .ite h.updPwr.fatal (Keeps.ite h1.raise h1).alertNow

theorem Keeps.execThermalSample {tj} (h : Keeps s u) : Lands s (execThermalSample tj u) :=
  .next (.ite h.thermal h)

theorem Keeps.execThermalHalt (h : Keeps s u) : Lands s (execThermalHalt u) :=
  .next (.ite h.updPwr.raise.alertNow h)

theorem Keeps.failStart {code} (h : Keeps s u) : Keeps s (u.failStart code) := h.same.emit.updPwr.downOrderly

theorem Keeps.execRailFault {rail} (h : Keeps s u) : Lands s (execRailFault rail u) := by
  refine .next (.ite h ?_)
  extract_lets s1
  have h1 : Keeps s s1 := h.raise
  exact .ite h1.failStart h1.fatal

theorem Keeps.execPmFailover (h : Keeps s u) : Lands s (execPmFailover u) := by
  refine .next (.ite h (.ite h.fatal ?_))
  extract_lets
  exact h.updPwr.raise.raise

theorem Keeps.execPmStandbyLost (h : Keeps s u) : Lands s (execPmStandbyLost u) := .next h.updPwr
theorem Keeps.reqRefused (h : Keeps s u) : Keeps s u.reqRefused := h.raise.freshen
theorem Keeps.setGate {on} (h : Keeps s u) : Keeps s (u.setGate on) := h.setReg.setMState
theorem Keeps.setDown {d} (h : Keeps s u) : Keeps s (u.setDown d) := h.setReg

theorem Keeps.reqM3 (h : Keeps s u) : Keeps s u.reqM3.1 := by
  unfold State.reqM3
  split
  · exact h
  split
  · exact h.setDown.updPwr.pair
  · exact h.reqRefused

theorem Keeps.reqM4 (h : Keeps s u) : Keeps s u.reqM4.1 := by
  unfold State.reqM4
  split
  · exact h.setDown.downOrderly
  split
  · exact h
  · exact h.reqRefused

theorem Keeps.reqRun (h : Keeps s u) : Keeps s u.reqRun.1 := by
  unfold State.reqRun
  split
  · exact h.setDown.updPwr.pair
  split
  · split
    · exact h.updPwr.tryStart
    · exact h
  split
  · exact h.setDown
  · exact h.reqRefused

theorem Keeps.reqWrite {v f} (h : Keeps s u) (hf : ∀ {v}, Keeps s v → Keeps s (f v).1) :
    Keeps s (u.reqWrite v f) :=
  h.pageWrite fun hv => hf hv

theorem Keeps.execStateReqGate {on} (h : Keeps s u) : Lands s (execStateReqGate on u) :=
  .next (.ite (h.reqWrite .setGate) h)

theorem Keeps.execStateReqM3 (h : Keeps s u) : Lands s (execStateReqM3 u) :=
  .next (.ite (h.reqWrite .reqM3) h)

theorem Keeps.execStateReqM4 (h : Keeps s u) : Lands s (execStateReqM4 u) :=
  .next (.ite (h.reqWrite .reqM4) h)

theorem Keeps.execStateReqRun (h : Keeps s u) : Lands s (execStateReqRun u) := .next (h.reqWrite .reqRun)

theorem Keeps.execM3EntryDone (h : Keeps s u) : Lands s (execM3EntryDone u) := by
  refine .next (.ite ?_ h)
  extract_lets
  exact h.same.wipe.wipe.updPwr

theorem Keeps.execM3ExitDone (h : Keeps s u) : Lands s (execM3ExitDone u) := by
  refine .next (.ite ?_ h)
  extract_lets _ s0
  have h0 : Keeps s s0 := h.same
  exact h0.same.updPwr

theorem Keeps.command4 {c op ok k} (h : Keeps s u) (hk : ∀ {v}, Keeps s v → Keeps s (k v)) :
    Keeps s (u.command4 c op ok k) :=
  .ite h (.ite h.answer (hk h))

theorem Keeps.powerState {c gate down} (h : Keeps s u) : Keeps s (u.powerState c gate down) := by
  unfold State.powerState
  refine .ite h.answer ?_
  extract_lets r s1
  have hr : Keeps s r.1 := by
    unfold r
    split
    · exact h.reqM3
    · exact h.reqM4
    · exact h.reqRun
  have h1 : Keeps s s1 := .ite hr.setGate hr
  exact h1.answer

theorem Keeps.execPowerState {c gate down} (h : Keeps s u) : Lands s (execPowerState c gate down u) :=
  .next (h.command4 .powerState)

/-! ### Start-up -/

theorem Keeps.updIdent {f} (h : Keeps s u) : Keeps s (u.updIdent f) := ⟨h.pending, h.form⟩

theorem Keeps.startImage {svn id raiseMin} (h : Keeps s u) : Keeps s (u.startImage svn id raiseMin) :=
  h.updIdent

theorem Keeps.readStore {r} (h : Keeps s u) : Keeps s (u.readStore r) := h.updStore

theorem Keeps.stage1 {r} (h : Keeps s u) : Keeps s (u.stage1 r) := by
  unfold State.stage1
  extract_lets s'
  have h' : Keeps s s' := h.readStore
  split
  · exact .ite h' (.ite h'.startImage.freshen h'.updIdent.raise)
  · exact .ite h'.startImage h'.updIdent

theorem Keeps.toStage {n} (h : Keeps s u) : Keeps s (u.toStage n) := h.updIdent
theorem Keeps.stage2 (h : Keeps s u) : Keeps s u.stage2 := h.updPwr.toStage

theorem Keeps.stage5 {r} (h : Keeps s u) : Keeps s (u.stage5 r) := by
  unfold State.stage5
  extract_lets s' s1 _ _ _ s4
  have h' : Keeps s s' := h.readStore
  have h1 : Keeps s s1 := .ite h' h'.raise
  have h4 : Keeps s s4 := ((Keeps.ite h1 h1.raise).foldl (fun hv => hv.count.raise)).updStore
  split
  · exact ((Keeps.ite h1 h1.raise).foldl (fun hv => hv.count.raise)).failStart
  · exact h4.same.count.updIdent.toStage

theorem Keeps.stage6 (h : Keeps s u) : Keeps s u.stage6 := h.same.toStage

theorem Keeps.stage7 (h : Keeps s u) : Keeps s u.stage7 :=
  (h.updIdent.foldl .setPtest).foldl fun hv => hv.setReg.setPort

theorem Keeps.storeImage (h : Keeps s u) : Keeps s u.storeImage := by
  unfold State.storeImage
  extract_lets _ s1
  have h1 : Keeps s s1 := h.updStore
  exact .ite h1.updStore h1

theorem Keeps.startDone (h : Keeps s u) : Keeps s u.startDone := h.storeImage.updIdent.updPwr

theorem Keeps.netUp {nolock} (h : Keeps s u) : Keeps s (u.netUp nolock) := by
  unfold State.netUp
  extract_lets s1 s2
  have h1 : Keeps s s1 := h.updIdent
  have h2 : Keeps s s2 := .ite h1.raise h1
  exact .ite h2.startDone h2

theorem Keeps.stage8 (h : Keeps s u) : Keeps s u.stage8 := .ite h.updIdent h.failStart

theorem Keeps.startFailed {f} (h : Keeps s u) : Keeps s (u.startFailed f) := by
  unfold State.startFailed
  extract_lets _ _ _ s1
  have h1 : Keeps s s1 := h.setPtest.raise
  exact .ite h (.ite h1.updIdent.raise h1.updIdent.raise.raise)

theorem Keeps.stage10 {r} (h : Keeps s u) : Keeps s (u.stage10 r) := by
  unfold State.stage10
  refine .ite h.failStart ?_
  extract_lets s1 _ s2
  have h1 : Keeps s s1 := (h.foldl .startFailed).saveMap
  have h2 : Keeps s s2 := h1.same
  exact .ite h2.startDone h2

theorem Keeps.execStartupStageDone {r} (h : Keeps s u) : Lands s (execStartupStageDone r u) := by
  unfold Machine.execStartupStageDone
  extract_lets n go
  have hgo {k} (hk : Keeps s k) : Keeps s (go k) := .ite hk h.failStart
  clear_value n
  refine .next (.ite h (.ite h.stage10 ?_))
  split
  · exact h.stage1
  · exact hgo h.stage2
  · exact hgo h.toStage
  · exact hgo h.toStage
  · exact h.stage5
  · exact hgo h.stage6
  · exact hgo h.stage7
  · exact .ite h.stage8 h
  · exact .ite h.netUp h
  · exact h

theorem Keeps.execStartupStageTimeout (h : Keeps s u) : Lands s (execStartupStageTimeout u) :=
  .next (.ite h (.ite h.stage8 (.ite h.netUp h.failStart)))

theorem Keeps.modRestart {c} (h : Keeps s u) : Keeps s (u.modRestart c) := by
  unfold State.modRestart
  extract_lets _ s1
  have h1 : Keeps s s1 := h.same
  split
  · exact .ite h1.answer.updPwr.tryStart h.answer
  · exact .ite h.answer h1.answer.downOrderly

theorem Keeps.execModRestart {c} (h : Keeps s u) : Lands s (execModRestart c u) :=
  .next (h.command4 .modRestart)

theorem Keeps.dropStaging (h : Keeps s u) : Keeps s u.dropStaging := h.updIdent.foldl .finish

theorem Keeps.dropActivation (h : Keeps s u) : Keeps s u.dropActivation :=
  .ite h (h.updIdent.foldl .finish).freshen

theorem Keeps.swapComplex (h : Keeps s u) : Keeps s u.swapComplex := h.updIdent.count.raise

theorem Keeps.ccFailover {sramUe} (h : Keeps s u) : Keeps s (u.ccFailover sramUe) := by
  unfold State.ccFailover
  extract_lets _ s0
  have h0 : Keeps s s0 := .ite h.raise h
  split
  · exact h0.fatal
  · exact h0.dropStaging.dropActivation.swapComplex.updIdent.raise.raise.raise

theorem Keeps.execCcFailover {sramUe} (h : Keeps s u) : Lands s (execCcFailover sramUe u) :=
  .next (.ite h h.ccFailover)

theorem Keeps.execCcRestartDone {ok} (h : Keeps s u) : Lands s (execCcRestartDone ok u) := by
  refine .next (.ite h ?_)
  extract_lets s1
  have h1 : Keeps s s1 := h.updIdent
  exact .ite h1 h1.raise

theorem Keeps.execStandbyLost (h : Keeps s u) : Lands s (execStandbyLost u) :=
  .next (.ite h h.dropStaging.updIdent.raise)

theorem Keeps.execSeamLaneReplace {seam lane dir spare} (h : Keeps s u) :
    Lands s (execSeamLaneReplace seam lane dir spare u) :=
  .next (.ite h (.ite h.raise h.fatal))

theorem Keeps.attest {c nonce sel p addr} (h : Keeps s u) : Keeps s (u.attest c nonce sel p addr) :=
  .ite h.answer (.ite h.answer h.updIdent.answer)

theorem Keeps.execAttest {c nonce sel p addr} (h : Keeps s u) : Lands s (execAttest c nonce sel p addr u) :=
  .next (h.command .attest)

theorem Keeps.mixBytes {p va bs} (h : Keeps s u) : Keeps s (u.mixBytes p va bs) := by
  unfold State.mixBytes
  refine Keeps.freshen ?_
  refine h.foldl fun hv => ?_
  split
  · exact .ite hv.poke hv
  · exact hv

theorem Keeps.writeReport {a bs} (h : Keeps s u) : Keeps s (u.writeReport a bs).1 := by
  unfold State.writeReport
  split
  · split
    next e => exact h.vput.fst e
    · exact h.mixBytes
  split
  · exact h.put0
  · exact h

theorem Keeps.attestDone {a sig t} (h : Keeps s u) : Keeps s (u.attestDone a sig t) := by
  unfold State.attestDone
  extract_lets s0
  have h0 : Keeps s s0 := h.updIdent
  split
  next e => exact (h0.rootJob.fst e).finish
  next e =>
    extract_lets s2 bs
    have h2 : Keeps s s2 := (h0.rootJob.fst e).count
    split
    next e => exact (h2.writeReport.fst e).freshen.count.finish
    next e => exact (h2.writeReport.fst e).finish

theorem Keeps.execAttestDone {p sig t} (h : Keeps s u) : Lands s (execAttestDone p sig t u) := by
  refine .next ?_
  split
  · exact h.attestDone.settle
  · exact h

theorem Keeps.fwStage {c o} (h : Keeps s u) : Keeps s (u.fwStage c o) := by
  unfold State.fwStage
  extract_lets
  split
  · exact h.answer
  · exact .ite h.answer (.ite h.answer h.updIdent.freshen.answer)

theorem Keeps.execFwStage {c o} (h : Keeps s u) : Lands s (execFwStage c o u) := .next (h.command .fwStage)

theorem Keeps.fwStaged {c o t} (h : Keeps s u) : Keeps s (u.fwStaged c o t) := by
  unfold State.fwStaged
  extract_lets s0
  have h0 : Keeps s s0 := h.updIdent
  split
  next e => exact (h0.rootJob.fst e).finish
  split
  · split
    next e _ _ _ _ _ => exact (h0.rootJob.fst e).updIdent.finish
    next e _ _ _ _ _ => exact (h0.rootJob.fst e).finish
  · split
    next e _ _ _ _ _ _ => exact (h0.rootJob.fst e).updStore.finish
    next e _ _ _ _ _ _ => exact (h0.rootJob.fst e).finish
  next e _ => exact (h0.rootJob.fst e).finish

theorem Keeps.execFwStageDone {t} (h : Keeps s u) : Lands s (execFwStageDone t u) := by
  refine .next ?_
  split
  · exact .ite h h.fwStaged
  · exact h

theorem Keeps.fwActivate {c} (h : Keeps s u) : Keeps s (u.fwActivate c) :=
  .ite h.answer (.ite h.answer h.updIdent.answer)

theorem Keeps.execFwActivate {c} (h : Keeps s u) : Lands s (execFwActivate c u) :=
  .next (h.command .fwActivate)

theorem Keeps.quietPoint {svn id rm} (h : Keeps s u) : Keeps s (u.quietPoint svn id rm) := by
  unfold State.quietPoint
  extract_lets s1
  have h1 : Keeps s s1 := h.updIdent.swapComplex
  exact .ite h1.updPwr.raise h1

theorem Keeps.execFwQuietPoint (h : Keeps s u) : Lands s (execFwQuietPoint u) := by
  refine .next ?_
  split
  · exact .ite h.quietPoint h
  · exact h

theorem Keeps.execFwActivateDone (h : Keeps s u) : Lands s (execFwActivateDone u) := by
  refine .next (.ite h ?_)
  extract_lets
  exact h.storeImage.updIdent.count.raise.foldl .finish

/-! ### Tests, patrols and snapshots -/

theorem Keeps.segStart {n col given} (h : Keeps s u) : Keeps s (u.segStart n col given) := by
  unfold State.segStart
  extract_lets
  split
  · refine .ite ?_ h
    extract_lets s1
    have h1 : Keeps s s1 := h.setPtest
    exact .ite h1.count h1
  · exact h

theorem Keeps.execTestSegmentStart {die row col idleNs} (h : Keeps s u) :
    Lands s (execTestSegmentStart die row col idleNs u) :=
  .next (.ite h.segStart h)

theorem Keeps.segFound {n col g ue ce} (h : Keeps s u) : Keeps s (u.segFound n col g ue ce) := by
  unfold State.segFound
  split
  · exact h
  extract_lets r here s1 b s2
  have h1 : Keeps s s1 := by
    unfold s1
    split
    · exact .ite h h.same
    · exact h
  have h2 : Keeps s s2 := by
    unfold s2
    split
    · exact .ite h1 (.ite h1.count.noteTileCe.raise h1.count.noteTileCe)
    · exact h1
  exact h2.same

theorem Keeps.segPass {n col g} (h : Keeps s u) : Keeps s (u.segPass n col g) := by
  unfold State.segPass
  extract_lets _ _ _ s1
  have h1 : Keeps s s1 := h.count
  exact .ite h1.setPtest.count h1.setPtest

theorem Keeps.segFail {n col g ue} (h : Keeps s u) : Keeps s (u.segFail n col g ue) := by
  unfold State.segFail
  extract_lets _ s1
  have h1 : Keeps s s1 := h.setPtest.count.raise
  exact .ite h1.condemn h1

theorem Keeps.execTestSegmentDone {die row col ok ue ce} (h : Keeps s u) :
    Lands s (execTestSegmentDone die row col ok ue ce u) := by
  unfold Machine.execTestSegmentDone
  extract_lets
  refine .next (.ite h ?_)
  split
  · exact h
  extract_lets s1
  have h1 : Keeps s s1 := h.segFound
  exact .ite h1.segPass h1.segFail

theorem Keeps.execTileTestOverdue {die row col} (h : Keeps s u) : Lands s (execTileTestOverdue die row col u) :=
  .next (.ite h.setPtest.raise h)

theorem Keeps.patrolStep {d} (h : Keeps s u) : Keeps s (u.patrolStep d) := by
  unfold State.patrolStep
  extract_lets
  split <;> exact h.setDev

theorem Keeps.patrolRead {d line f} (h : Keeps s u) : Keeps s (u.patrolRead d line f) := by
  unfold State.patrolRead
  extract_lets s1 s2
  have h1 : Keeps s s1 := h.lineRead.patrolStep
  have h2 : Keeps s s2 := h1.count.dramCe.lineWrite
  split
  · exact h1
  · exact h2.same
  · exact (Keeps.ite h1 h1.same).count.raise.dramUe

theorem Keeps.execPatrolRead {dev pa found} (h : Keeps s u) : Lands s (execPatrolRead dev pa found u) :=
  .next (.ite h.patrolRead h)

theorem Keeps.execPatrolOverdue {dev} (h : Keeps s u) : Lands s (execPatrolOverdue dev u) :=
  .next (.ite h.setDev.raise h)

theorem Keeps.retrain {n} (h : Keeps s u) : Keeps s (u.retrain n) := by
  unfold State.retrain
  extract_lets _ _ s2
  have h2 : Keeps s s2 := h.linkLost.linkLost.setPort
  exact h2.same

theorem Keeps.execMarginLow {port lane} (h : Keeps s u) : Lands s (execMarginLow port lane u) := by
  refine .next (.ite ?_ h)
  extract_lets _ s1
  have h1 : Keeps s s1 := h.same.raise
  exact .ite h1.retrain h1

theorem Keeps.testCtrl {cls en period} (h : Keeps s u) : Keeps s (u.testCtrl cls en period) := by
  unfold State.testCtrl
  extract_lets _ _ _ s1
  have h1 : Keeps s s1 := h.setReg
  exact .ite h1 h1.setReg

theorem Keeps.execTestCtrl {c cls en period} (h : Keeps s u) : Lands s (execTestCtrl c cls en period u) :=
  .next (h.mgrCmd (fun hv => .ite hv.answer hv.testCtrl.answer))

theorem Keeps.arm_ {sec ns} (h : Keeps s u) : Keeps s (u.arm_ sec ns) := by
  unfold State.arm_
  extract_lets _ s1
  have h1 : Keeps s s1 := h.same
  exact .ite h1.raise h1

theorem Keeps.snapArm {c w} (h : Keeps s u) : Keeps s (u.snapArm c w) :=
  .ite h.answer (.ite h.answer h.setReg.setReg.setReg.arm_.answer)

theorem Keeps.execSnapArm {c w} (h : Keeps s u) : Lands s (execSnapArm c w u) := .next (h.mgrCmd .snapArm)
theorem Keeps.execSnapCtrlArm (h : Keeps s u) : Lands s (execSnapCtrlArm u) := .next (h.pageWrite .arm_)

theorem Keeps.snapTake {early} (h : Keeps s u) : Keeps s (u.snapTake early) :=
  h.same.setReg.setReg.setReg.setReg.count.raise

theorem Keeps.execSnapshot (h : Keeps s u) : Lands s (execSnapshot u) := .next (.ite h.snapTake h)

theorem Keeps.stepTests (h : Keeps s u) : Keeps s u.stepTests := by
  unfold State.stepTests
  refine h.foldl fun hv => ?_
  split
  · exact .ite hv.abandonTest hv
  · exact hv

theorem Keeps.ptpStep (h : Keeps s u) : Keeps s u.ptpStep := by
  unfold State.ptpStep
  extract_lets s1
  have h1 : Keeps s s1 := h.timeStep
  exact (Keeps.ite h1.snapTake h1).stepTests

theorem Keeps.execPtpStep (h : Keeps s u) : Lands s (execPtpStep u) := .next (h.pageWrite .ptpStep)

/-! ### Counter reads -/

theorem Keeps.coreRead {blk inst off core} (h : Keeps s u) : Keeps s (u.coreRead blk inst off core).1 := by
  unfold State.coreRead
  extract_lets
  split
  · exact h
  split
  · exact h.same
  split
  · exact h.same
  · exact h

theorem Keeps.coreReads {blk inst core off n} (h : Keeps s u) :
    Keeps s (u.coreReads blk inst core off n).1 := by
  induction n generalizing u off with
  | zero => exact h
  | succ n ih => exact ih h.coreRead

theorem Keeps.execCounterLowRead {block inst off core} (h : Keeps s u) :
    Lands s (execCounterLowRead block inst off core u) :=
  .next (.ite h (.ite h.coreRead h.unmapped))

theorem Keeps.telemRead {c blk inst off cnt} (h : Keeps s u) : Keeps s (u.telemRead c blk inst off cnt) := by
  unfold State.telemRead
  refine .ite h.answer (.ite h.answer ?_)
  extract_lets
  exact h.coreReads.freshen.answer

theorem Keeps.execTelemRead {c block inst off cnt} (h : Keeps s u) :
    Lands s (execTelemRead c block inst off cnt u) :=
  .next (h.command4 .telemRead)

/-! ### Register writes -/

theorem Keeps.both {f g} (h : Keeps s u) (hf : ∀ {v}, Keeps s v → Keeps s (f v))
    (hg : ∀ {v}, Keeps s v → Keeps s (g v)) :
    Keeps s (u.both f g) :=
  (Keeps.ite (hg (hf h)) (hf (hg h))).freshen

theorem Keeps.releaseCapture {blk inst} (h : Keeps s u) : Keeps s (u.releaseCapture blk inst) := h.setReg

theorem Keeps.eventsWrite {blk inst v again} (h : Keeps s u) : Keeps s (u.eventsWrite blk inst v again) := by
  unfold State.eventsWrite
  extract_lets _ _ _ s1
  have h1 : Keeps s s1 := h.setReg
  exact (Keeps.ite h1.releaseCapture h1).foldl fun hv => .ite hv.raise.freshen hv

theorem Keeps.execEventsClear {block inst v again} (h : Keeps s u) :
    Lands s (execEventsClear block inst v again u) :=
  .next (.ite h.eventsWrite h.noPage)

theorem Keeps.enableWrite {blk inst v} (h : Keeps s u) : Keeps s (u.enableWrite blk inst v) :=
  h.setReg.foldl fun hv => .ite hv.route hv

theorem Keeps.execEventEnWrite {block inst v} (h : Keeps s u) : Lands s (execEventEnWrite block inst v u) :=
  .next (.ite (h.pageWrite .enableWrite) h.noPage)

theorem Keeps.plainWrite {blk inst off v} (h : Keeps s u) : Keeps s (u.plainWrite blk inst off v) := by
  unfold State.plainWrite
  split
  · exact .ite h.setReg h
  · exact h

theorem Keeps.tileCtrl {t v} (h : Keeps s u) : Keeps s (u.tileCtrl t v) := by
  unfold State.tileCtrl
  extract_lets s1
  have h1 : Keeps s s1 := by
    unfold s1
    refine .ite h ?_
    refine h.pageWrite fun hv => ?_
    extract_lets a b
    have ha : Keeps s a := .ite hv.armTile hv
    have hb : Keeps s b := .ite ha.stopTile ha
    exact .ite hb.resumeTile hb
  exact .ite h1.abortTile h1

theorem Keeps.writeReq {v} (h : Keeps s u) : Keeps s (u.writeReq v) := by
  unfold State.writeReq
  extract_lets s1
  have h1 : Keeps s s1 := .ite h.setGate h
  split
  · exact .ite h1.reqM3 h1
  · exact .ite h1.reqM4 h1
  · exact h1.reqRun

theorem Keeps.writeGrid {off v} (h : Keeps s u) : Keeps s (u.writeGrid off v) := by
  unfold State.writeGrid
  split
  · exact h.gridLaunch
  · extract_lets s1
    have h1 : Keeps s s1 := .ite h.stRead h
    exact .ite h1.stLoad h1
  · exact h.linkOwner
  · exact h.setWave
  · exact h.plainWrite

theorem Keeps.writeDramc {d off v} (h : Keeps s u) : Keeps s (u.writeDramc d off v) := by
  unfold State.writeDramc
  split
  · exact h.execDramcSlabDataWrite.after
  · exact .ite h.execEvacStart.after h
  · exact .ite h.execDevstateRetire.after h
  · exact h.plainWrite

theorem Keeps.writeXlat {i off v} (h : Keeps s u) : Keeps s (u.writeXlat i off v) := by
  unfold State.writeXlat
  split
  · exact .ite h.execResumeRetry.after (.ite h.execResumeFail.after h)
  · exact h.execXlatFqKick.after
  · exact h.execXlatReload.after
  · exact h.plainWrite

theorem Keeps.writePort {n off v} (h : Keeps s u) : Keeps s (u.writePort n off v) := by
  unfold State.writePort
  extract_lets
  split
  · exact .ite h.execPortEnable.after h.execPortDisable.after
  · exact h.execPortModeWrite.after
  · split
    · exact h.both (fun hv => hv.execTsPopRx.after) fun hv => hv.execTsPopTx.after
    · exact h.execTsPopRx.after
    · exact h.execTsPopTx.after
    · exact h
  · exact h.plainWrite

theorem Keeps.writePtp {off v} (h : Keeps s u) : Keeps s (u.writePtp off v) := by
  unfold State.writePtp
  refine .ite ?_ h.plainWrite
  extract_lets
  split
  · exact h.both (fun hv => hv.execPtpStep.after) fun hv => hv.execPtpLatch.after
  · exact h.execPtpStep.after
  · exact h.execPtpLatch.after
  · exact h

theorem Keeps.schedCtrl {n v} (h : Keeps s u) : Keeps s (u.schedCtrl n v).1 := by
  unfold State.schedCtrl
  extract_lets _ _ s2 s3
  have h2 : Keeps s s2 := (Keeps.ite h.execGateEnable.after h.setSched).setReg
  have h3 : Keeps s s3 := .ite h2.execShpCommit.after h2
  split
  · exact h3.execGateSwap.after.pair
  · exact h3

theorem Keeps.schedRefused {n} (h : Keeps s u) : Keeps s (u.schedRefused n).1 := h.raise

theorem Keeps.setShadow {n f} (h : Keeps s u) : Keeps s (u.setShadow n f).1 := by
  unfold State.setShadow
  extract_lets
  split
  · exact h.schedRefused
  · exact h.setSched

theorem Keeps.setStaged {n f} (h : Keeps s u) : Keeps s (u.setStaged n f).1 := by
  unfold State.setStaged
  extract_lets
  split
  · exact h.schedRefused
  · exact h.setSched

theorem Keeps.writeSched {n off v} (h : Keeps s u) : Keeps s (u.writeSched n off v).1 := by
  unfold State.writeSched
  split
  · exact h.setShadow
  split
  · exact h.schedCtrl
  · split
    · exact h.schedRefused
    · exact h.plainWrite.pair
  · exact h.setShadow
  · exact h.setShadow
  · exact h.setStaged
  · exact h.setStaged
  · exact h.plainWrite.pair

theorem Keeps.writeMeter {i off v} (h : Keeps s u) : Keeps s (u.writeMeter i off v) := by
  unfold State.writeMeter
  extract_lets
  split
  · exact .ite h.execMeterCommit.after h
  · exact .ite (.ite h.raise h.setMeter) h.plainWrite

theorem Keeps.writeColl {i off v} (h : Keeps s u) : Keeps s (u.writeColl i off v) := by
  unfold State.writeColl
  extract_lets
  refine .ite h.plainWrite (.ite h.raise ?_)
  split
  · exact .ite h.setColl h.removeColl.setColl
  · exact .ite h.setColl.defineColl h.raise

theorem Keeps.blockWrite {blk inst off v} (h : Keeps s u) : Keeps s (u.blockWrite blk inst off v) := by
  unfold State.blockWrite
  split
  · exact .ite h.execPwrCapWrite.after (.ite h.writeReq h.plainWrite)
  · exact h.writeGrid
  · exact h.writeDramc
  · exact h.writeXlat
  · exact h.writePort
  · exact h.writeSched
  · exact h.writeMeter
  · exact h.writeColl
  · exact .ite h h.plainWrite
  · exact .ite (.ite h.execSnapCtrlArm.after h) h.plainWrite
  · exact h.writePtp
  · exact h.plainWrite

theorem Keeps.writeReg {blk inst off v} (h : Keeps s u) : Keeps s (u.writeReg blk inst off v) := by
  unfold State.writeReg
  refine .ite h (.ite (.ite h.tileCtrl (h.pageWrite (fun hv => hv))) ?_)
  refine .ite h.eventsWrite (.ite (h.pageWrite .enableWrite) ?_)
  split
  · exact h.pageWrite .setReg
  · exact .ite (h.pageWrite (fun hv => .ite hv hv.blockWrite)) h

theorem Keeps.writePair {blk inst off v w} (h : Keeps s u) : Keeps s (u.writePair blk inst off v w) :=
  .ite h.writeReg (.ite h.writeReg h.writeReg.writeReg)

theorem Keeps.execRegisterWrite {block inst off x} (h : Keeps s u) :
    Lands s (execRegisterWrite block inst off x u) := by
  unfold Machine.execRegisterWrite
  extract_lets
  refine .next (.ite ?_ h.noPage)
  split
  · exact h.writeReg
  · exact h.writePair

theorem Keeps.schedSet {c n off v} (h : Keeps s u) : Keeps s (u.schedSet c n off v) := by
  unfold State.schedSet
  split
  · exact h.answer
  refine .ite h.answer (.ite h.answer ?_)
  extract_lets
  exact h.writeSched.answer

theorem Keeps.execSchedSet {c n off v} (h : Keeps s u) : Lands s (execSchedSet c n off v u) :=
  .next (h.mgrCmd .schedSet)

/-! ### One alignment period -/

theorem Keeps.tickTiles (h : Keeps s u) : Keeps s u.tickTiles := h.foldl fun hv => .ite hv.hold hv

theorem Keeps.tickGroups (h : Keeps s u) : Keeps s u.tickGroups := by
  unfold State.tickGroups
  refine h.foldl fun hv => ?_
  extract_lets
  exact .ite hv.setGroup hv

theorem Keeps.tickCounters (h : Keeps s u) : Keeps s u.tickCounters := by
  unfold State.tickCounters
  extract_lets _ s1 s2
  have h1 : Keeps s s1 := by
    unfold s1
    refine h.count.foldl fun hv => ?_
    extract_lets a'
    have ha' : Keeps s a' := hv.count
    exact .ite ha'.count ha'
  have h2 : Keeps s s2 := h1.count
  exact .ite h1 (.ite h2.count h2)

theorem Keeps.tickPps (h : Keeps s u) : Keeps s u.tickPps := .ite h.same.emit h.same

theorem Keeps.tickFrame (h : Keeps s u) : Keeps s u.tickFrame := by
  unfold State.tickFrame
  extract_lets s1
  have h1 : Keeps s s1 := h.updPwr
  exact .ite h1.frameBoundary h1.updPwr

theorem Keeps.tickEcc (h : Keeps s u) : Keeps s u.tickEcc := h.same.foldl fun hv => .ite hv.dramUe hv.dramCe

theorem Keeps.tickEvac (h : Keeps s u) : Keeps s u.tickEvac :=
  h.foldl fun hv => .ite hv.freshen.evacUnit hv.freshen

theorem Keeps.tick (h : Keeps s u) : Keeps s u.tick := by
  unfold State.tick
  refine .ite ?_ (.ite h.updPwr h)
  extract_lets s1
  have h1 : Keeps s s1 := h.tickEcc.tickEvac.tickTiles.tickGroups.tickCounters.nclk.tickPps.tickFrame
  exact h1.same

/-! ### Every command, and the step -/

/-- Every command has a next state that is kept. -/
theorem Keeps.exec {i} (h : Keeps s u) : Lands s (exec i u) := by
  cases i
  · exact h.execHotInsertion
  · exact h.execHotRemoval
  · exact h.execPowerGood
  · exact h.execHoldupRefilled
  · exact h.execModPwrenHigh
  · exact h.execModPwrenLow
  · exact h.execModResetNLow
  · exact h.execModResetNHigh
  · exact h.execTrayAlertClear
  · exact h.execAlertResponse
  · exact h.execTrayBusWrite
  · exact h.execTrayTelemetryUpdate
  · exact h.execPpsInEdge
  · exact h.execPpsOut
  · exact h.execReferenceLost
  · exact h.execSerdesRefLost
  · exact h.execInputProtectionOpen
  · exact h.execInputProtectionClose
  · exact h.execSagStart
  · exact h.execSagEnd
  · exact h.execLastGasp
  · exact h.execThrottleFrameBoundary
  · exact h.execDroopTrip
  · exact h.execDroopRelease
  · exact h.execPwrCapWrite
  · exact h.execShareEstimate
  · exact h.execSlopeStep
  · exact h.execThermalSample
  · exact h.execThermalHalt
  · exact h.execRailFault
  · exact h.execPmFailover
  · exact h.execStateReqGate
  · exact h.execStateReqM3
  · exact h.execStateReqM4
  · exact h.execStateReqRun
  · exact h.execM3ExitDone
  · exact h.execUngateDone
  · exact h.execTileClearDone
  · exact h.execTileCtrlArm
  · exact h.execTileCtrlStop
  · exact h.execTileCtrlResume
  · exact h.execTileCtrlAbort
  · exact h.execGridLaunch
  · exact h.execLaunchStart
  · exact h.execDrainDone
  · exact h.execPatchEngage
  · exact h.execPatchMoveDone
  · exact h.execHoldRelease
  iterate 45 exact .next h.slot
  · exact h.execEndDone
  iterate 2 exact .next h.slot
  · exact h.execWaittRelease
  iterate 42 exact .next h.slot
  · exact h.execXmovDone
  · exact .next h.slot
  · exact h.execTallyWaitRelease
  iterate 3 exact .next h.slot
  · exact h.execWaveComplete
  iterate 5 exact .next h.slot
  · exact h.execXfldDone
  next out idx => exact h.execMessageInject (out := out) (idx := idx)
  · exact h.execBeatForward
  · exact h.execMessageLand
  · exact h.execCopyComplete
  · exact h.execGridStLoad
  · exact h.execGridStRead
  · exact h.execGridLinkOwnerWrite
  · exact h.execGridLoad
  · exact h.execDramRefresh
  · exact h.execRefreshBurst
  · exact h.execDramArbWindow
  · exact h.execUnmappedAccess
  · exact h.execDramcSlabDataWrite
  · exact h.execSlabWrite
  · exact h.execTranslationWalkDone
  · exact h.execFqReread
  · exact h.execXlatFqKick
  · exact h.execXlatReload
  · exact h.execResumeRetry
  · exact h.execResumeFail
  · exact h.execFaultResume
  · exact h.execXlatFence
  · exact h.execXlatFenceDone
  · exact h.execEvacStart
  · exact h.execEvacDone
  · exact h.execLostLogReread
  · exact h.execDevstateRetire
  · exact h.execDevEvac
  · exact h.execDevRetire
  · exact h.execMemGrant
  · exact h.execMemReturn
  · exact h.execPortEnable
  · exact h.execPortDisable
  · exact h.execPortModeWrite
  · exact h.execLinkUp
  · exact h.execLinkDown
  · exact h.execFrameReceive
  · exact h.execFrameTransmit
  · exact h.execPauseReceive
  · exact h.execPauseExpire
  · exact h.execPauseRefresh
  · exact h.execPfcStorm
  · exact h.execTsPopRx
  · exact h.execTsPopTx
  · exact h.execPtpStep
  · exact h.execPtpLatch
  · exact h.execPtpSyncTimeout
  · exact h.execPtpPortMove
  · exact h.execGateEnable
  · exact h.execGateSwap
  · exact h.execGateEntryBoundary
  · exact h.execShpCommit
  · exact h.execShaperRefill
  · exact h.execMeterCommit
  · exact h.execMeterRefill
  · exact h.execSchedSet
  · exact h.execKvtWrite
  · exact h.execKvtWriteImm
  · exact h.execKvtReadReq
  · exact h.execKvtReadResp
  · exact h.execKvtSend
  · exact h.execKvtAtomicReq
  · exact h.execKvtAtomicResp
  · exact h.execKvtReduce
  · exact h.execKvtAck
  · exact h.execKvtProbe
  · exact h.execKvtNak
  · exact h.execKvtGrant
  · exact h.execKvtMoved
  · exact h.execKvtConnect
  · exact h.execKvtAccept
  · exact h.execKvtClose
  · exact h.execKvtMgmt
  · exact h.execUnknownCidPacket
  · exact h.execContextFetchDone
  · exact h.execKvtSendPacket
  · exact h.execAckTimer
  · exact h.execReorderTimeout
  · exact h.execRetransmitTimeout
  · exact h.execLabelHoldExpire
  · exact h.execConnectResend
  · exact h.execUnsolTimer
  · exact h.execGrantWindowUpdate
  · exact h.execGrantTimer
  · exact h.execGrantResend
  · exact h.execMovedHoldExpire
  · exact h.execEpochKeyDerived
  next fromFw => exact h.execDoorbell (fromFw := fromFw)
  · exact h.execLapReread
  · exact h.execNotifyTimer
  · exact h.execWrite
  · exact h.execWriteImm
  · exact h.execRead
  · exact h.execSend
  · exact h.execRecv
  · exact h.execFadd
  · exact h.execCswap
  · exact h.execReduce
  · exact h.execFence
  · exact h.execFenceDone
  · exact h.execFill
  · exact h.execSpill
  · exact h.execWindowOpen
  · exact h.execWindowRevoke
  · exact h.execWindowRevokeDone
  · exact h.execArm
  · exact h.execArmedFire
  · exact h.execTallySet
  · exact h.execCollStart
  · exact h.execCollSlotsGranted
  · exact h.execCollChunkCombine
  · exact h.execTileLaunch
  · exact h.execCollDefine
  · exact h.execCollRemove
  · exact h.execQueueCreate
  · exact h.execQueueDestroy
  · exact h.execConnOpen
  · exact h.execConnClose
  · exact h.execPartCreate
  · exact h.execPartSet
  · exact h.execPartActivate
  · exact h.execPartQuiesce
  · exact h.execPartQuiesceDone
  · exact h.execPartDestroy
  · exact h.execPartFreeze
  · exact h.execPartFreezeDone
  · exact h.execPartThaw
  · exact h.execPartSave
  · exact h.execPartRestore
  · exact h.execPartRestoreDone
  · exact h.execPartRelease
  · exact h.execMboxPost
  · exact h.execMboxTake
  · exact h.execMboxAck
  · exact h.execMgmtPost
  · exact h.execMgmtAck
  next mp1 _ st _ => exact h.execMgmtStateEcho (mp1 := mp1) (state := st)
  · exact h.execMgmtLastGasp
  · exact h.execMgmtResend
  · exact h.execMgmtRecoveryData
  · exact h.execRecoveryRequest
  · exact h.execMgmtPageLock
  · exact h.execChannelPost
  · exact h.execChannelTaken
  · exact h.execTileStop
  · exact h.execTileResume
  · exact h.execTileAbort
  · exact h.execKeyRoot
  · exact h.execKeyErase
  · exact h.execAttest
  · exact h.execFwStage
  · exact h.execFwStageDone
  · exact h.execFwActivate
  · exact h.execFwQuietPoint
  · exact h.execFwActivateDone
  · exact h.execPowerCap
  · exact h.execPowerShare
  · exact h.execPowerState
  · exact h.execTestCtrl
  · exact h.execTelemRead
  · exact h.execSnapArm
  · exact h.execModRestart
  · exact h.execAlarm
  · exact h.execAlarmClear
  · exact h.execStartupStageDone
  · exact h.execStartupStageTimeout
  · exact h.execCcFailover
  · exact h.execCcRestartDone
  · exact h.execSeamLaneReplace
  · exact h.execTestSegmentStart
  · exact h.execTestSegmentDone
  · exact h.execTileTestOverdue
  · exact h.execPatrolRead
  · exact h.execPatrolOverdue
  · exact h.execKatRun
  · exact h.execMarginLow
  · exact h.execSnapCtrlArm
  · exact h.execSnapshot
  · exact h.execEventsClear
  · exact h.execEventEnWrite
  · exact h.execCounterLowRead
  · exact h.execRegisterWrite
  · exact h.execKvtCollUp
  · exact h.execKvtCollDown
  · exact h.execPowerDownDone
  · exact h.execM3EntryDone
  · exact h.execInputPowerReturn
  · exact h.execStandbyLost
  · exact h.execPmStandbyLost
  · exact h.execProbeTimeout
  · exact h.execAttestDone
  · exact h.execLaunchMeasureDone

/-- A step has a next state, takes at most the command at the front, and keeps memory's form. -/
theorem step_lands (s : State) :
    ∃ t, step s = .next t ∧ t.pending = s.pending.tail ∧ (mwf 0 s.mem → mwf 0 t.mem) := by
  unfold step
  split
  next i rest e =>
    obtain ⟨t, ht, hk⟩ := (Keeps.refl (s := { s with pending := rest })).exec (i := i)
    exact ⟨t, ht, by rw [e]; exact hk.pending, hk.form⟩
  next e =>
    have hk : Keeps s s.tick := Keeps.refl.tick
    exact ⟨s.tick, rfl, by rw [hk.pending, e]; rfl, hk.form⟩

/-- Settles O59: every command and every period writes memory only by functions that keep its form. -/
theorem memoryKeepsItsForm : Obligations.MemoryKeepsItsForm := by
  unfold Obligations.MemoryKeepsItsForm
  intro s t hs ht
  obtain ⟨t', e, -, hm⟩ := step_lands s
  obtain rfl : t' = t := by simpa [e] using ht
  exact decide_eq_true (hm (of_decide_eq_true hs))

end Sys2Proof.Machine
end

section
/-! PROOF. Refreshes, the arbitration of DRAM, unmapped accesses and the memory accounts (O33; R30-R34, R387, R390). -/

namespace Sys2Proof.Machine

/-! ### The class granted next (R33) -/

namespace Device

variable {x : Device} {waits : List Nat}

theorem grant_q0 (h0 : 0 ∈ waits) (hq : x.q0 < q0Limit) : x.grant waits = some 0 := by
  unfold grant
  rw [if_pos (by simp [h0, hq])]

/-- Q2 below its floor goes first after a Q0 or Q1 transaction, where Q0 does not wait or is at its limit. -/
theorem grant_q2_floor (hno : ¬ (0 ∈ waits ∧ x.q0 < q0Limit)) (h2 : 2 ∈ waits) (hf : x.q2 < q2Floor) (hc : x.cls ≤ 1) :
    x.grant waits = some 2 := by
  unfold grant
  rw [if_neg (by simpa using hno), if_pos (by simp [h2, hf, hc])]

theorem grant_q1 (hno : ¬ (0 ∈ waits ∧ x.q0 < q0Limit)) (h1 : 1 ∈ waits)
    (hfloor : ¬ (2 ∈ waits ∧ x.q2 < q2Floor ∧ x.cls ≤ 1)) : x.grant waits = some 1 := by
  unfold grant
  rw [if_neg (by simpa using hno), if_neg (by simpa [and_assoc] using hfloor), if_pos (by simp [h1])]

end Device

/-! ### Refreshes (R31) -/

namespace State

variable (s : State) {d : Nat}

theorem dramRefresh_idle (hd : d < 12) :
    exec (.dramRefresh d false) s = .next (s.setDev d { s.dev d with postponed := 0, ahead := false }) := by
  show Host.Outcome.next (if 11 < d then _ else _) = _
  rw [if_neg (by omega)]
  rfl

/-- A refresh that meets a request: the first goes ahead, a later one is postponed, after a burst at the limit. -/
theorem dramRefresh_waiting (hd : d < 12) : exec (.dramRefresh d true) s = .next (
    if (s.dev d).ahead then
      let t := if (s.dev d).postponed = 8 then s.refreshBurst d else s
      t.setDev d { t.dev d with postponed := (t.dev d).postponed + 1 }
    else s.setDev d { s.dev d with ahead := true }) := by
  show Host.Outcome.next (if 11 < d then _ else _) = _
  rw [if_neg (by omega)]
  cases (s.dev d).ahead <;> rfl

theorem refreshBurst_dev (k : Nat) :
    (s.refreshBurst d).dev k = if k = d then { s.dev d with postponed := 0 } else s.dev k := by
  simp [refreshBurst]

theorem refreshBurst_cnt : (s.refreshBurst d).cnt bDRAMC d 0xC28 = s.cntUp bDRAMC d 0xC28 1 := by
  rw [refreshBurst, cnt_count_same]
  rfl

/-! ### Accesses the bus has nothing at (R30) -/

theorem logged_info (blk inst bit : Nat) (i0 i1 : W32) (h : (s.reg blk inst oINFO2).getLsbD 5 = false) :
    (s.logged blk inst bit i0 i1).reg blk inst oINFO0 = i0 ∧ (s.logged blk inst bit i0 i1).reg blk inst oINFO1 = i1 := by
  rw [reg_logged_eq, reg_logged_eq]
  rw [reg_setReg_offset _ _ _ _ _ _ _ _ (by decide) (by decide) (by decide),
    reg_setReg_offset _ _ _ _ _ _ _ _ (by decide) (by decide) (by decide)]
  unfold capture
  dsimp only
  rw [if_neg (by rw [h]; decide)]
  constructor
  · rw [reg_setReg_offset _ _ _ _ _ _ _ _ (by decide) (by decide) (by decide),
      reg_setReg_offset _ _ _ _ _ _ _ _ (by decide) (by decide) (by decide), reg_setReg_same]
  · rw [reg_setReg_offset _ _ _ _ _ _ _ _ (by decide) (by decide) (by decide), reg_setReg_same]

theorem unmapped_spec (a : Nat) (write : Bool) (core : Nat) (complex : Bool) :
    let u := s.unmapped a write core complex
    u.mem = s.mem ∧ u.tiles = s.tiles ∧ u.cnt bERR 0 0xC30 = s.cntUp bERR 0 0xC30 1 ∧ u.ev bERR 0 0 = true ∧
      ((s.reg bERR 0 oINFO2).getLsbD 5 = false → u.reg bERR 0 oINFO0 = BitVec.ofNat 32 a ∧
        u.reg bERR 0 oINFO1 =
          BitVec.ofNat 32 (a / 2 ^ 32 + write.toNat * 2 ^ 16 + core * 2 ^ 17 + complex.toNat * 2 ^ 20)) := by
  have h := managerOnly_err (s.count bERR 0 0xC30 1) 0
  refine ⟨mem_raise _ _ _ _ h, tiles_raise _ _ _ _ h, ?_, raise_ev _ _ _ h (by decide), fun hi => ?_⟩
  · rw [unmapped, cnt_raise _ _ _ _ h (by decide) (by decide), cnt_count_same]
    rfl
  · rw [unmapped, reg_raise_eq_logged _ _ _ _ h, reg_raise_eq_logged _ _ _ _ h]
    exact logged_info _ _ _ _ _ _ hi

/-! ### Answers to the manager (R409, R418) -/

/-- An answer acknowledges the command and changes no register, no memory and no queue. -/
theorem answer_manager {c : Cmd} (hc : c.chan = .manager) (hf : (s.mb .manager true).full = true) (op rc : Nat) :
    let u := s.answer c op rc
    u.acked rc = true ∧ u.mem = s.mem ∧ u.tiles = s.tiles ∧ u.queues = s.queues ∧ ∀ b i o, u.reg b i o = s.reg b i o := by
  have hack : (s.answer c op rc).acked rc = true := by
    unfold answer
    simp [hc, hf, chanPriv, acked]
  obtain ⟨n, m, o, e⟩ := s.answer_frame c op rc [] (by simp [hc])
  refine ⟨hack, ?_⟩
  rw [e]
  exact ⟨rfl, rfl, rfl, fun _ _ _ => rfl⟩

theorem mb_postEvent_manager (blk inst bit : Nat) :
    (s.postEvent .manager blk inst bit).mb .manager true = s.mb .manager true := by
  have other (t : State) (x : Mbox) : (t.setMb .manager false x).mb .manager true = t.mb .manager true :=
    t.mb_setMb_other .manager false x
  unfold postEvent fwPost sendFw
  dsimp only
  split_ifs
  · rw [mb_emit, other, other]
  · rw [other, other]
  · rw [mb_count, other, other]

theorem mb_raise {blk inst : Nat} (bit : Nat) (i0 i1 : W32) (h : s.managerOnly blk inst) :
    (s.raise blk inst bit i0 i1).mb .manager true = s.mb .manager true := by
  obtain ⟨r, c, hl⟩ := s.logged_frame blk inst bit i0 i1
  rcases s.raise_of_managerOnly bit i0 i1 h with e | e
  · rw [e, mb_postEvent_manager, hl]
    rfl
  · rw [e, hl]
    rfl

theorem queues_raise {blk inst : Nat} (bit : Nat) (i0 i1 : W32) (h : s.managerOnly blk inst) :
    (s.raise blk inst bit i0 i1).queues = s.queues := by
  obtain ⟨r, c, hl⟩ := s.logged_frame blk inst bit i0 i1
  rcases s.raise_of_managerOnly bit i0 i1 h with e | e
  · obtain ⟨c', m, o, hp⟩ := (s.logged blk inst bit i0 i1).postEvent_frame blk inst bit
    rw [e, hp, hl]
  · rw [e, hl]

end State

/-- A read of a map gives what it lists, or the default. -/
theorem mget_eq_or_mem {α : Type} (d : α) (m : SMap α) (k : Nat) : mget d m k = d ∨ (k, mget d m k) ∈ m := by
  induction m with
  | nil => exact .inl rfl
  | cons c m ih =>
    obtain ⟨a, x⟩ := c
    unfold mget
    split
    · subst_vars
      exact .inr (List.mem_cons_self ..)
    · exact ih.imp_right (List.mem_cons_of_mem _)

namespace State

variable {s : State} {c : Cmd} {p n : Nat}

/-- Queues that have nothing to consume stay as they are. -/
theorem settle_of_queuesIdle (h : s.queuesIdle = true) : s.settle = s := by
  have idle (q : Nat × Queue) : q ∈ s.queues → q.2.p = q.2.c ∧ q.2.unstarted = none := by
    intro hq
    simpa using List.all_eq_true.mp h q hq
  have nothing (p q : Nat) : (s.queue p q).p = (s.queue p q).c ∧ (s.queue p q).unstarted = none := by
    rcases mget_eq_or_mem {} s.queues (p * 4096 + q) with e | hq
    · rw [State.queue, e]
      exact ⟨rfl, rfl⟩
    · exact idle _ hq
  refine List.foldl_fixed' (fun x => ?_) s.queues
  obtain ⟨hp, hu⟩ := nothing (x.1 / 4096) (x.1 % 4096)
  dsimp only
  rw [if_neg (by simp [hp, hu])]

/-! ### MEM_GRANT and MEM_RETURN (R387, R390) -/

theorem takes_iff : s.takes c = true ↔
    s.fwReady = true ∧ s.queuesIdle = true ∧ c.chan = .manager ∧ (s.mb .manager true).full = true := by
  simp only [takes, Bool.and_eq_true, beq_iff_eq, and_assoc]

/-- A command of the manager for a partition with no other under way is served, and firmware is then settled. -/
theorem partCmd_taken (ht : s.takes c = true) (hp : p < 1024) (hcmd : (s.part p).cmd = none) (op : Nat)
    (k : State → State) : s.partCmd c op p false false k = (k s).settle := by
  obtain ⟨hfw, -, hc, -⟩ := takes_iff.mp ht
  unfold partCmd command
  rw [if_neg (by simp [hfw, hc, outranked]), if_neg (by simp [chanOk, hc])]
  dsimp only
  rw [if_neg (by omega), if_neg (by simp), if_neg (by simp [hcmd])]

/-- What a command for the account of partition p leaves when it is served: the account written, or unchanged and the
refusal reported. -/
structure Served (s u : State) (p rc used : Nat) : Prop where
  acked : u.acked rc = true
  mem : u.mem = s.mem
  tiles : u.tiles = s.tiles
  idle : u.queues = s.queues
  used : u.fld bPART p 0x05C 0 19 = used
  others : rc = 0 → ∀ r, r ≠ p → u.reg bPART r 0x05C = s.reg bPART r 0x05C
  refused : rc ≠ 0 → u.ev bPART p 5 = true

theorem Served.settle {u : State} {rc used : Nat} (h : Served s u p rc used) (hq : s.queuesIdle = true) :
    Served s u.settle p rc used := by
  rw [settle_of_queuesIdle (s := u) (by rw [queuesIdle, h.idle]; exact hq)]
  exact h

theorem served_account (ht : s.takes c = true) (op : Nat) {v : Nat} (hv : v < 2 ^ 19) :
    Served s ((s.setReg bPART p 0x05C (BitVec.ofNat 32 v)).answer c op 0) p 0 v := by
  obtain ⟨-, -, hc, hf⟩ := takes_iff.mp ht
  obtain ⟨ha, hm, hti, hq, hr⟩ := (s.setReg bPART p 0x05C (BitVec.ofNat 32 v)).answer_manager hc hf op 0
  refine ⟨ha, hm, hti, hq, ?_, fun _ r hne => ?_, fun h => absurd rfl h⟩
  · rw [fld, hr, reg_setReg_same]
    simp only [BitVec.ushiftRight_zero, BitVec.toNat_ofNat]
    omega
  · have hkey : rk bPART r 0x05C ≠ rk bPART p 0x05C := by
      simp only [rk]
      omega
    rw [hr, reg_setReg_other]
    exact hkey

theorem served_refusal (ht : s.takes c = true) (hp : p < 1024) (hroute : s.fld bPART p oEVENT_ROUTE 0 2 < 2)
    (op : Nat) {rc : Nat} (hrc : rc ≠ 0) :
    Served s (s.refusePart c op p rc) p rc (s.fld bPART p 0x05C 0 19) := by
  obtain ⟨-, -, hc, hf⟩ := takes_iff.mp ht
  have hm : s.managerOnly bPART p := .inl hroute
  rw [refusePart, if_pos hp]
  obtain ⟨ha, hmem, hti, hq, hr⟩ := (s.raise bPART p 5 (BitVec.ofNat 32 rc)).answer_manager hc
    (by rw [mb_raise _ _ _ _ hm]; exact hf) op rc
  refine ⟨ha, hmem.trans (mem_raise _ _ _ _ hm), hti.trans (tiles_raise _ _ _ _ hm), hq.trans (queues_raise _ _ _ _ hm), ?_,
    fun h => absurd h hrc, fun _ => ?_⟩
  · rw [fld, hr, reg_raise _ _ _ _ hm (by decide) (by decide) (by decide) (by decide) (by decide)]
    rfl
  · rw [ev, hr]
    exact raise_ev _ _ _ hm (by decide)

/-- What MEM_GRANT and MEM_RETURN do for a partition that exists: within the quota the account grows, past it the
grant is refused with 0x0005, and no more is returned than is accounted. -/
theorem memUse_eq (hp0 : p ≠ 0) (hn : n < 2 ^ 19) (hfree : (s.part p).lstate ≠ .free) (op : Nat) (grant : Bool) :
    s.memUse c op p n grant =
      let used := s.fld bPART p 0x05C 0 19
      if grant then
        if s.fld bPART p 0x058 0 19 < used + n then s.refusePart c op p 0x0005
        else (s.setReg bPART p 0x05C (BitVec.ofNat 32 (used + n))).answer c op 0
      else if used < n then s.refusePart c op p 0x0003
      else (s.setReg bPART p 0x05C (BitVec.ofNat 32 (used - n))).answer c op 0 := by
  unfold memUse
  have hin : ¬ (p = 0 || 2 ^ 19 ≤ n) = true := by
    simp only [Bool.or_eq_true, decide_eq_true_eq]
    omega
  simp only [if_neg hin, if_neg hfree]

section
variable (ht : s.takes c = true) (hp0 : p ≠ 0) (hp : p < 1024) (hn : n < 2 ^ 19) (hcmd : (s.part p).cmd = none)
  (hfree : (s.part p).lstate ≠ .free) (hroute : s.fld bPART p oEVENT_ROUTE 0 2 < 2)
include ht hp0 hp hn hcmd hfree hroute

theorem memGrant_served : ∃ u, exec (.memGrant c p n) s = .next u ∧
    if s.fld bPART p 0x05C 0 19 + n ≤ s.fld bPART p 0x058 0 19 then Served s u p 0 (s.fld bPART p 0x05C 0 19 + n)
    else Served s u p 5 (s.fld bPART p 0x05C 0 19) := by
  obtain ⟨-, hq, -, -⟩ := takes_iff.mp ht
  have hquota : s.fld bPART p 0x058 0 19 < 2 ^ 19 := Nat.mod_lt _ (by decide)
  refine ⟨(s.memUse c 0x0501 p n true).settle, congrArg _ (partCmd_taken ht hp hcmd _ _), ?_⟩
  simp only [memUse_eq hp0 hn hfree, ↓reduceIte]
  split
  next h =>
    rw [if_neg (by omega)]
    exact (served_account ht _ (by omega)).settle hq
  next h =>
    rw [if_pos (by omega)]
    exact (served_refusal ht hp hroute _ (by decide)).settle hq

theorem memReturn_served : ∃ u, exec (.memReturn c p n) s = .next u ∧
    if n ≤ s.fld bPART p 0x05C 0 19 then Served s u p 0 (s.fld bPART p 0x05C 0 19 - n)
    else Served s u p 3 (s.fld bPART p 0x05C 0 19) := by
  obtain ⟨-, hq, -, -⟩ := takes_iff.mp ht
  have hused : s.fld bPART p 0x05C 0 19 < 2 ^ 19 := Nat.mod_lt _ (by decide)
  refine ⟨(s.memUse c 0x0502 p n false).settle, congrArg _ (partCmd_taken ht hp hcmd _ _), ?_⟩
  simp only [memUse_eq hp0 hn hfree, Bool.false_eq_true, ↓reduceIte]
  split
  next h =>
    rw [if_neg (by omega)]
    exact (served_account ht _ (by omega)).settle hq
  next h =>
    rw [if_pos (by omega)]
    exact (served_refusal ht hp hroute _ (by decide)).settle hq

end

end State

/-- The clauses of the grant (R33). -/
theorem Device.grant_spec (x : Device) (waits : List Nat) :
    (0 ∈ waits → x.q0 < q0Limit → x.grant waits = some 0) ∧
    (x.q0 < q0Limit → 0 ∉ waits → 2 ∈ waits → x.q2 < q2Floor → x.cls ≤ 1 → x.grant waits = some 2) ∧
    (q0Limit ≤ x.q0 → 2 ∈ waits → x.q2 < q2Floor → x.cls ≤ 1 → x.grant waits = some 2) ∧
    (q0Limit ≤ x.q0 ∨ 0 ∉ waits → 1 ∈ waits → q2Floor ≤ x.q2 ∨ 2 ∉ waits ∨ 1 < x.cls → x.grant waits = some 1) := by
  refine ⟨grant_q0, fun _ h0 => grant_q2_floor fun h => h0 h.1,
    fun hq => grant_q2_floor fun h => Nat.not_lt.mpr hq h.2, fun h0 h1 h2 => grant_q1 ?_ h1 ?_⟩
  · rintro ⟨h, hq⟩
    exact h0.elim (Nat.not_le.mpr hq) (fun h' => h' h)
  · rintro ⟨h, hq, hc⟩
    exact h2.elim (Nat.not_le.mpr hq) (·.elim (fun h' => h' h) (Nat.not_lt.mpr hc))

/-- A burst at the limit issues the eight, and the refresh that forced it is postponed (R31). -/
theorem State.dramRefresh_burst (s : State) {d : Nat} (hd : d < 12) (ha : (s.dev d).ahead = true)
    (hp : (s.dev d).postponed = 8) : ∃ u, exec (.dramRefresh d true) s = .next u ∧
      u.dev d = { s.dev d with postponed := 1 } ∧ u.cnt bDRAMC d 0xC28 = s.cntUp bDRAMC d 0xC28 1 ∧
      (∀ k, k ≠ d → u.dev k = s.dev k) ∧ u.mem = s.mem ∧ u.regs = s.regs := by
  refine ⟨_, (s.dramRefresh_waiting hd).trans (congrArg _ (if_pos ha)), ?_⟩
  simp only [if_pos hp]
  refine ⟨?_, ?_, fun k hk => ?_, rfl, rfl⟩
  · simp [s.refreshBurst_dev]
  · rw [cnt_setDev, s.refreshBurst_cnt]
  · simp [s.refreshBurst_dev, hk]

/-- Settles O33: refreshes and windows by the device's record, grants by the class they choose, accesses by the
report of an unmapped one, accounts by how a command for them is served. -/
theorem refreshUnmappedAccessesAndAccounting : Obligations.RefreshUnmappedAccessesAndAccounting := by
  unfold Obligations.RefreshUnmappedAccessesAndAccounting
  refine ⟨fun s d hd => ?_, fun s c p n ht hp0 hp hn hcmd hfree hroute => ⟨?grant, ?ret⟩⟩
  · intro x
    refine ⟨s.dramRefresh_idle hd, fun ha => ?_, fun ha hpost => ?_, s.dramRefresh_burst hd, fun hpost => ?_, ?_,
      x.grant_spec, fun addr write core complex hno => ⟨s.unmapped addr.toNat write core.toNat complex, ?_, ?_⟩⟩
    · rw [s.dramRefresh_waiting hd, if_neg (by simpa [x] using ha)]
    · rw [s.dramRefresh_waiting hd, if_pos ha]
      dsimp only
      rw [if_neg hpost]
    · exact congrArg _ (if_pos (by simp [hd]; exact hpost))
    · exact congrArg _ (if_neg (by omega))
    · exact congrArg _ (if_neg (by simp [hno]))
    · obtain ⟨hm, ht, hc, he, hi⟩ := s.unmapped_spec addr.toNat write core.toNat complex
      refine ⟨hm, ht, hc, he, fun h5 => ?_⟩
      obtain ⟨h0, h1⟩ := hi h5
      refine ⟨h0, ?_⟩
      have := addr.isLt
      have := core.isLt
      have := write.toNat_le
      have := complex.toNat_le
      rw [h1, BitVec.toNat_ofNat]
      omega
  case grant =>
    obtain ⟨u, hu, h⟩ := State.memGrant_served ht hp0 hp hn hcmd hfree hroute
    split at h
    next hle =>
      exact ⟨u, hu, h.mem, h.tiles, fun _ => ⟨h.acked, h.used, h.others rfl⟩,
        fun hlt => absurd hle (Nat.not_le.mpr hlt)⟩
    next hlt =>
      exact ⟨u, hu, h.mem, h.tiles, fun hle => absurd hle hlt,
        fun _ => ⟨h.acked, h.used, h.refused (by decide)⟩⟩
  case ret =>
    obtain ⟨u, hu, h⟩ := State.memReturn_served ht hp0 hp hn hcmd hfree hroute
    split at h
    next hle =>
      exact ⟨u, hu, h.mem, h.tiles, fun _ => ⟨h.acked, h.used, h.others rfl⟩,
        fun hlt => absurd hle (Nat.not_le.mpr hlt)⟩
    next hlt => exact ⟨u, hu, h.mem, h.tiles, fun hle => absurd hle hlt, fun _ => ⟨h.acked, h.used⟩⟩

end Sys2Proof.Machine
end

section
/-! PROOF. An idle step is a period, but not one that leaves memory alone (O57): the ACLKs of a waiting tile go on, and
what its bundles before the wait had in flight lands (R152, R157). -/

namespace Sys2Proof.Machine

/-- Tile 40 waits for network time (WAITT) with a store of the bundle before still in flight, in a powered module
with no command waiting. -/
def storeBeforeWait : State :=
  { pwr := { phase := .on }
    tiles := [(40, { run := .running, aclk := 100, eng := 50, waitFor := some (.time 1), waitExt := true
                     flight := [⟨101, .mem (sramAt 40 0) [some 1]⟩] })] }

/-- The store lands in the period. -/
theorem storeBeforeWait_lands : storeBeforeWait.tick.mem = [(sramAt 40 0, 1)] := by decide +kernel

/-- Refutes O57: in the state `storeBeforeWait` nothing evacuates and no finding is unreported, and yet the period
writes the byte the waiting tile stored. -/
theorem not_anIdleStepIsAPeriod : ¬ Obligations.AnIdleStepIsAPeriod := by
  unfold Obligations.AnIdleStepIsAPeriod
  intro h
  obtain ⟨t, ht, -, -, hkept, -⟩ := h storeBeforeWait rfl rfl
  obtain rfl : storeBeforeWait.tick = t := by simpa [step, storeBeforeWait] using ht
  have hmem := (hkept rfl rfl).1
  rw [storeBeforeWait_lands] at hmem
  exact absurd hmem (by decide)

end Sys2Proof.Machine
end

section
/-! PROOF. What reset leaves (O60): the reset state is the record of default values, so every map is empty and every
register reads as its page's reset value. -/

namespace Sys2Proof.Machine

/-- No table row lies in a page's header (Table 22-1). -/
theorem findReg_header (b : Nat) {o : Nat} (ho : o < 0x040) : findReg b o = none := by
  have hlo : ∀ d ∈ regDefs, 0x040 ≤ d.lo := by decide
  refine List.find?_eq_none.mpr fun d hd h => ?_
  have := hlo d hd
  simp only [Bool.and_eq_true, decide_eq_true_eq] at h
  omega

theorem regReset_header (b : Nat) {o : Nat} (ho : o < 0x040) (hen : o ≠ oEVENT_EN) (hroute : o ≠ oEVENT_ROUTE) :
    regReset b o = 0 := by
  rw [regReset, if_neg hen, if_neg hroute, findReg_header b ho]

theorem reg_reset (b i o : Nat) : State.reset.reg b i o = regReset b o := rfl

/-- Settles O60: every part of the statement is read off the default values. -/
theorem resetState : Obligations.ResetState := by
  have header {b i o : Nat} (ho : o < 0x040) (hen : o ≠ oEVENT_EN) (hroute : o ≠ oEVENT_ROUTE) :
      State.reset.reg b i o = 0 := regReset_header b ho hen hroute
  have unowned (t : Nat) : State.reset.tileOwner t = none := by
    rw [State.tileOwner, reg_reset, show regReset bTILE 0x048 = 0 by decide]
    rfl
  have shadow (b i o : Nat) : State.reset.shadowRead b i o = 0 := by
    rw [State.shadowRead, show State.reset.shadows = [] from rfl]
    simp [mget]
  refine ⟨rfl, rfl, rfl, reg_reset, fun b i => ⟨rfl, rfl, ?_, ?_, ?_, rfl⟩,
    fun b i o => ⟨rfl, fun _ => rfl, shadow b i o⟩, fun t => ⟨unowned t, rfl⟩, fun _ => rfl, rfl, rfl,
    fun _ _ => ⟨rfl, rfl⟩, ?_, rfl, rfl, rfl, rfl, rfl, fun c => ⟨rfl, rfl⟩⟩
  · exact header (by decide) (by decide) (by decide)
  · exact header (by decide) (by decide) (by decide)
  · rw [State.locked, header (by decide) (by decide) (by decide)]
    rfl
  · rw [State.fld, reg_reset]
    decide

end Sys2Proof.Machine
end

section
/-! PROOF. What firmware's last notifications leave alone (R47, R380-R382): a notification record, and the
translations, lines and tables that sending it meets, change neither the power record nor what start-up has found,
no register of the power managers' pages, and take back nothing the module has sent. One relation,
`Undisturbed s u`, is carried through the functions a notification is made of. -/

namespace Sys2Proof.Machine

namespace State

variable (s : State)

/-! ### Reports that only the manager hears of -/

/-- A message of firmware's to the manager, sent or held back. -/
theorem fwPost_manager_frame (w : List W64) :
    ∃ c m l, s.fwPost .manager w = { s with cnts := c, mbox := m, out := s.out ++ l } := by
  unfold fwPost
  extract_lets m
  split
  · exact ⟨_, _, _, rfl⟩
  split
  · exact ⟨_, _, [], by rw [List.append_nil]; rfl⟩
  · exact ⟨_, _, [], by rw [List.append_nil]; rfl⟩

/-- An event that only the manager hears of changes registers, counters and mailbox directions, and is sent after
what has been sent before it. -/
theorem raise_manager_frame {blk inst : Nat} (bit : Nat) (i0 i1 : W32) (h : s.managerOnly blk inst) :
    ∃ r c m l, s.raise blk inst bit i0 i1 = { s with regs := r, cnts := c, mbox := m, out := s.out ++ l } := by
  obtain ⟨r, c, hl⟩ := s.logged_frame blk inst bit i0 i1
  rcases s.raise_of_managerOnly bit i0 i1 h with e | e
  · unfold postEvent at e
    extract_lets _ _ _ w at e
    obtain ⟨c', m, l, hp⟩ := fwPost_manager_frame (setMb (s.logged blk inst bit i0 i1) .manager false _) w
    exact ⟨r, c', m, l, by rw [e, hp, hl]; rfl⟩
  · exact ⟨r, c, _, [], by rw [e, hl, List.append_nil]⟩

theorem home_le (b i o : Nat) : home b i o ≤ i := by
  unfold home
  split_ifs <;> omega

/-- A page of another block lies apart from the power managers' pages: above them whatever its number, below them
where its number is one a page can have. -/
def apartFromPower (blk inst : Nat) : Prop := bPWR < blk ∨ blk < bPWR ∧ inst < 4096

theorem reg_setReg_power {blk inst off i o : Nat} (v : W32) (hb : apartFromPower blk inst) (hoff : off < 4096)
    (hi : i < 4096) (ho : o < 4096) : (s.setReg blk inst off v).reg bPWR i o = s.reg bPWR i o := by
  refine s.reg_setReg_other v ?_
  have h1 := home_le bPWR i o
  have h2 := home_le blk inst off
  simp only [apartFromPower, rk, bPWR] at hb h1 ⊢
  omega

theorem reg_raise_power {blk inst i o : Nat} (bit : Nat) (i0 i1 : W32) (h : s.managerOnly blk inst)
    (hb : apartFromPower blk inst) (hi : i < 4096) (ho : o < 4096) :
    (s.raise blk inst bit i0 i1).reg bPWR i o = s.reg bPWR i o := by
  have hcapture : (s.capture blk inst bit i0 i1).reg bPWR i o = s.reg bPWR i o := by
    unfold capture
    extract_lets
    split
    · rw [reg_setReg_power _ _ hb (by decide) hi ho]
    · rw [reg_setReg_power _ _ hb (by decide) hi ho, reg_setReg_power _ _ hb (by decide) hi ho,
        reg_setReg_power _ _ hb (by decide) hi ho]
  rw [s.reg_raise_eq_logged bit i0 i1 h, reg_logged_eq, reg_setReg_power _ _ hb (by decide) hi ho, hcapture]

end State

/-! ### The relation -/

variable {α : Type} {s u v : State}

/-- Power record, identification and the power managers' pages are those of `s`, and what `s` had sent is sent. -/
structure Undisturbed (s u : State) : Prop where
  pwr : u.pwr = s.pwr
  ident : u.ident = s.ident
  out : s.out <+: u.out
  page : ∀ i o, i < 4096 → o < 4096 → u.reg bPWR i o = s.reg bPWR i o

namespace Undisturbed

theorem refl : Undisturbed s s := ⟨rfl, rfl, List.prefix_rfl, fun _ _ _ _ => rfl⟩

/-- Other fields are free. -/
theorem same (h : Undisturbed s u) (hp : v.pwr = u.pwr := by with_reducible rfl)
    (hi : v.ident = u.ident := by with_reducible rfl) (ho : v.out = u.out := by with_reducible rfl)
    (hr : v.regs = u.regs := by with_reducible rfl) : Undisturbed s v :=
  ⟨hp.trans h.pwr, hi.trans h.ident, ho ▸ h.out, fun i o hi ho => by rw [← h.page i o hi ho, State.reg, hr]; rfl⟩

theorem fst {p : State × α} {a : α} (h : Undisturbed s p.1) (e : p = (v, a)) : Undisturbed s v := by
  rw [e] at h
  exact h

theorem ite {c : Prop} [Decidable c] (ht : Undisturbed s u) (hu : Undisturbed s v) : Undisturbed s (if c then u else v) := by
  split
  · exact ht
  · exact hu

theorem foldl {l : List α} {f : State → α → State} (h : Undisturbed s u)
    (hf : ∀ {v a}, Undisturbed s v → Undisturbed s (f v a)) : Undisturbed s (l.foldl f u) := by
  induction l generalizing u with
  | nil => exact h
  | cons a l ih => exact ih (hf h)

theorem ev (h : Undisturbed s u) {i bit : Nat} (hi : i < 4096) : u.ev bPWR i bit = s.ev bPWR i bit := by
  rw [State.ev, h.page i oEVENTS hi (by decide)]
  rfl

theorem sent (h : Undisturbed s u) {o : Out} (ho : o ∈ s.out) : o ∈ u.out := h.out.subset ho

/-! ### Records, counters, events -/

theorem count {blk inst off n} (h : Undisturbed s u) : Undisturbed s (u.count blk inst off n) :=
  ⟨h.pwr, h.ident, h.out, h.page⟩
theorem setConn {c x} (h : Undisturbed s u) : Undisturbed s (u.setConn c x) :=
  ⟨h.pwr, h.ident, h.out, h.page⟩
theorem setDev {d x} (h : Undisturbed s u) : Undisturbed s (u.setDev d x) :=
  ⟨h.pwr, h.ident, h.out, h.page⟩
theorem setQueue {p q x} (h : Undisturbed s u) : Undisturbed s (u.setQueue p q x) :=
  ⟨h.pwr, h.ident, h.out, h.page⟩
theorem setMb {ch toFw x} (h : Undisturbed s u) : Undisturbed s (u.setMb ch toFw x) :=
  ⟨h.pwr, h.ident, h.out, h.page⟩
theorem setTb {fd1 l} (h : Undisturbed s u) : Undisturbed s (u.setTb fd1 l) :=
  ⟨h.pwr, h.ident, h.out, h.page⟩
theorem updTile {t f} (h : Undisturbed s u) : Undisturbed s (u.updTile t f) :=
  ⟨h.pwr, h.ident, h.out, h.page⟩
theorem freshen (h : Undisturbed s u) : Undisturbed s u.freshen :=
  ⟨h.pwr, h.ident, h.out, h.page⟩
theorem poke {a bs} (h : Undisturbed s u) : Undisturbed s (u.poke a bs) :=
  ⟨h.pwr, h.ident, h.out, h.page⟩

/-- An event of a block above the power managers' that no partition hears of. -/
theorem raise {blk inst bit i0 i1} (h : Undisturbed s u) (hb : bPWR < blk := by decide)
    (ht : blk ≠ bTILE := by decide) (hp : blk ≠ bPART := by decide) : Undisturbed s (u.raise blk inst bit i0 i1) := by
  have hm : u.managerOnly blk inst := .inr ⟨ht, hp⟩
  obtain ⟨r, c, m, l, e⟩ := u.raise_manager_frame bit i0 i1 hm
  refine ⟨?_, ?_, ?_, fun i o hi ho => ?_⟩
  · rw [e]; exact h.pwr
  · rw [e]; exact h.ident
  · rw [e]; exact h.out.trans (List.prefix_append _ _)
  · rw [u.reg_raise_power bit i0 i1 hm (.inl hb) hi ho, h.page i o hi ho]

/-! ### The DRAM tier (R217, R494, R495) -/

theorem lineRead {cls l} (h : Undisturbed s u) : Undisturbed s (u.lineRead cls l) := h.count.setDev
theorem lineWrite {cls l} (h : Undisturbed s u) : Undisturbed s (u.lineWrite cls l) := h.count.setDev

theorem evacStart {d slab dstDev dstLocal auto cmd} (h : Undisturbed s u) :
    Undisturbed s (u.evacStart d slab dstDev dstLocal auto cmd).1 := by
  unfold State.evacStart
  extract_lets
  split
  · exact h.setDev.raise
  · exact h.setDev

theorem autoEvac {d} (h : Undisturbed s u) : Undisturbed s (u.autoEvac d) := by
  unfold State.autoEvac
  refine .ite h ?_
  split
  · exact .ite h.evacStart.raise h.evacStart.raise
  · exact h.raise
  · exact h

theorem devThresholds {d} (h : Undisturbed s u) : Undisturbed s (u.devThresholds d) := .ite h.autoEvac (.ite h.raise h)
theorem dramUe {line} (h : Undisturbed s u) : Undisturbed s (u.dramUe line) := h.count.raise.setDev.devThresholds
theorem dramCe {line} (h : Undisturbed s u) : Undisturbed s (u.dramCe line) := h.count.count.raise.setDev.devThresholds

theorem readLine {cls l} (h : Undisturbed s u) : Undisturbed s (u.readLine cls l).1 := by
  unfold State.readLine
  extract_lets
  split
  · exact h.lineRead.dramUe
  · exact .ite h.lineRead.dramCe h.lineRead

theorem readLines {cls a} (h : Undisturbed s u) : Undisturbed s (u.readLines cls a).1 := by
  induction a generalizing u with
  | nil => exact h
  | cons a l ih =>
    unfold State.readLines
    extract_lets
    split
    · exact h.readLine
    · exact ih h.readLine

theorem load0 {a n cls} (h : Undisturbed s u) : Undisturbed s (u.load0 a n cls).1 := by
  have hr : Undisturbed s (u.dramRead 0 0 a n cls).1 := by
    unfold State.dramRead
    split
    · exact h
    extract_lets
    split
    · exact h.readLines
    · exact h.readLines.freshen
  unfold State.load0
  split
  next e => exact hr.fst e
  next e => exact hr.fst e

theorem writeLine {id a bs cls} (h : Undisturbed s u) : Undisturbed s (u.writeLine id a bs cls).1 := by
  unfold State.writeLine
  extract_lets _ _ whole _ _ kept _ _ moved
  have hwhole : Undisturbed s whole := h.lineWrite.poke
  have hkept : Undisturbed s kept := h.readLine.lineWrite.poke
  have hmoved : Undisturbed s moved := h.readLine.lineWrite.poke
  split
  · exact hwhole.same
  split
  · exact h.readLine
  split
  · exact hkept.same
  · exact hmoved.same.freshen

theorem writeLines {id cls a b} (h : Undisturbed s u) : Undisturbed s (u.writeLines id cls a b).1 := by
  induction a generalizing u b with
  | nil => exact h
  | cons a l ih =>
    unfold State.writeLines
    split
    next e => exact h.writeLine.fst e
    next e => exact ih (h.writeLine.fst e)

theorem dramPut {p k a bs cls} (h : Undisturbed s u) : Undisturbed s (u.dramPut p k a bs cls).1 := by
  unfold State.dramPut
  split
  · exact h
  · exact h.writeLines

theorem put0 {a bs cls} (h : Undisturbed s u) : Undisturbed s (u.put0 a bs cls) := h.dramPut

/-! ### Writes through translation (R230-R233, R242) -/

theorem physPut {p k a bs cls} (h : Undisturbed s u) : Undisturbed s (u.physPut p k a bs none cls).1 := by
  unfold State.physPut
  dsimp only
  split
  · exact h.dramPut
  split
  · exact h.poke
  · exact h.poke.foldl .updTile

theorem walkCost {p va cls} (h : Undisturbed s u) : Undisturbed s (u.walkCost p va cls) :=
  .ite h (h.foldl fun hv => .ite hv.lineRead.dramCe hv.lineRead)

/-- The walk of a miss, whatever is done with the entry found. -/
theorem xlate_miss {fd1 p va acc cls i w use} (h : Undisturbed s u)
    (huse : ∀ {v e}, Undisturbed s v → Undisturbed s (use v e).1) :
    Undisturbed s (State.xlate.miss fd1 p va acc cls u i w use).1 := by
  unfold State.xlate.miss
  extract_lets _ s1
  have h1 : Undisturbed s s1 := h.count.count.walkCost
  split
  · split
    · exact huse h1.setTb
    · exact h1
  · exact h1
  · exact h1.dramUe.raise

theorem xlate {fd1 p va acc cls} (h : Undisturbed s u) : Undisturbed s (u.xlate fd1 p va acc cls).1 := by
  unfold State.xlate
  extract_lets _ _ hit _ _ use
  have huse {v e} (hv : Undisturbed s v) : Undisturbed s (use v e).1 := by
    unfold use
    split
    · exact hv
    split <;> exact hv
  clear_value hit
  split
  · split
    · exact huse h.setTb.count.freshen
    · exact h.setTb.freshen.xlate_miss huse
  · exact h.xlate_miss huse

theorem xlHeld {fd1 p va acc hs cls} (h : Undisturbed s u) : Undisturbed s (u.xlHeld fd1 p va acc hs cls).1 := by
  unfold State.xlHeld
  extract_lets
  split
  · split <;> exact h
  split
  next e => exact h.xlate.fst e
  next e => exact h.xlate.fst e

theorem vwrite {fd1 p acc ok a b c d f g} (h : Undisturbed s u) :
    Undisturbed s (u.vwrite fd1 p acc ok none a b c d f g).1 := by
  induction a generalizing u b c d f g with
  | zero => exact h
  | succ n ih =>
    unfold State.vwrite
    split
    · exact h
    split
    next e => exact h.xlHeld.fst e
    next e =>
      have h1 := h.xlHeld.fst e
      extract_lets
      split
      · exact h1
      split
      next e' => exact ih (h1.physPut.fst e')
      next e' => exact h1.physPut.fst e'

/-- `delta%` puts the body in: unfolded, the page's address would be evaluated. -/
theorem dirtyPage {p pa cls} (h : Undisturbed s u) : Undisturbed s (u.dirtyPage p pa cls) := by
  rw [show State.dirtyPage = delta% State.dirtyPage from rfl]
  dsimp only
  split
  next e => exact (h.load0.fst e).put0.raise
  next e => exact (h.load0.fst e).put0

theorem vput {fd1 p va bs hs} (h : Undisturbed s u) : Undisturbed s (u.vput fd1 p va bs hs).1 :=
  h.vwrite.foldl fun hv => .ite (hv.foldl .dirtyPage) hv

/-! ### Control blocks, channel blocks, notifications (R369, R380-R382, R416) -/

theorem publish {p q} (h : Undisturbed s u) : Undisturbed s (u.publish p q) := by
  unfold State.publish
  extract_lets
  split
  next e => exact (h.vput.fst e).vput.raise
  next e => exact h.vput.fst e

theorem nfail {p q} (h : Undisturbed s u) : Undisturbed s (u.nfail p q) := h.setQueue.publish

theorem noteEcc {l} (h : Undisturbed s u) : Undisturbed s (u.noteEcc l) := .ite h.same (.ite h.same h)

theorem fwLine {id a bs} (h : Undisturbed s u) : Undisturbed s (u.fwLine id a bs) := by
  unfold State.fwLine
  extract_lets _ _ whole _ _ _ part
  have hwhole : Undisturbed s whole := h.lineWrite.poke
  have hpart : Undisturbed s part := h.lineWrite.lineRead.noteEcc.poke
  exact .ite hwhole.same (.ite h.lineWrite.lineRead.noteEcc hpart.same.freshen)

theorem chanStatus {p} (h : Undisturbed s u) : Undisturbed s (u.chanStatus p) := by
  unfold State.chanStatus State.chanPut
  split
  · exact h.fwLine
  · exact h

theorem notify {p q shut overrun} (h : Undisturbed s u) : Undisturbed s (u.notify p q shut overrun) := by
  unfold State.notify
  extract_lets _ _ _ _ s1
  have h1 : Undisturbed s s1 := h.setQueue
  refine .ite h ?_
  split
  · exact .ite h1.setConn h1.nfail
  · exact h1.setMb.chanStatus
  · exact .ite h1.setMb h1.nfail

theorem flushNotes (h : Undisturbed s u) : Undisturbed s u.flushNotes := h.foldl fun hv => .ite hv.notify hv

end Undisturbed

end Sys2Proof.Machine
end

section
/-! PROOF. The tray bus, its alerts and error codes, and the pulses per second (O23; R50-R53). -/

namespace Sys2Proof.Machine

namespace State

variable (s : State)

/-! ### Alerts (R50, R53) -/

/-- Bits 3 and 4 of the conditions: the module stops, the coolant is above 45 °C (Table 2-4). -/
theorem trayCond_bits : s.trayCond.getLsbD 3 = s.stopping ∧ s.trayCond.getLsbD 4 = decide (450 < s.tray.tcool.toInt) := by
  unfold trayCond
  extract_lets x off
  generalize ((x.seen && off) || s.pwr.low || s.pwr.sag || s.pwr.cut) = inputBad
  generalize decide (s.fld bPWR 0 0x040 0 12 < x.pin.toNat) = overCap
  generalize (decide (s.pwr.kTherm < 64) || s.pwr.halt) = hot
  generalize s.stopping = stops
  generalize decide (450 < x.tcool.toInt) = warm
  revert inputBad overCap hot stops warm
  decide

/-- A condition that begins sets its bit; no other bit changes. -/
theorem alertNow_alert_bit {i : Nat} (hi : i < 8) :
    s.alertNow.tray.alert.getLsbD i = (s.tray.alert.getLsbD i || s.trayCond.getLsbD i && !s.tray.cond.getLsbD i) := by
  simp [alertNow, hi]

theorem alertClear_eq (bits : Byte) : s.alertClear bits = { s with tray := { s.tray with
    alert := (s.tray.alert &&& ~~~bits) ||| (s.trayCond &&& (bits ||| ~~~s.tray.cond)), cond := s.trayCond } } := by
  rw [BitVec.and_or_distrib_left, ← BitVec.or_assoc]
  rfl

/-! ### Writes on the bus (R52) -/

/-- The Packet Error Code a host sent, if it sent one, is that of the transfer. -/
def pecSound (c : Byte) (v : TrayData) : Prop := ∀ p, v.pec = some p → p = pecOf [0x94, c, v.value.setWidth 8]

theorem pec_refused_iff (c : Byte) (v : TrayData) :
    v.pec.any (fun p => p != pecOf [0x94, c, v.value.setWidth 8]) = true ↔ ¬ pecSound c v := by
  unfold pecSound
  cases v.pec <;> simp

section

variable {s} (hv : s.pwr.vaux = true)
include hv

theorem trayBusWrite_nack {c : Byte} {v : TrayData} (h : c ≠ 8 ∧ c ≠ 9 ∨ ¬ pecSound c v) :
    exec (.trayBusWrite c v) s = .next (s.emit .trayNack) := by
  show Host.Outcome.next (ite ..) = _
  rw [if_neg (by simp [hv])]
  split
  · rfl
  next hp =>
    obtain ⟨h8, h9⟩ := h.resolve_right (mt (pec_refused_iff c v).mpr hp)
    rw [if_neg h8, if_neg h9]

theorem trayBusWrite_alert {v : TrayData} (h : pecSound 8 v) :
    exec (.trayBusWrite 8 v) s = .next ((s.alertClear (v.value.setWidth 8)).emit .trayAck) := by
  show Host.Outcome.next (ite ..) = _
  rw [if_neg (by simp [hv]), if_neg (fun hp => (pec_refused_iff 8 v).mp hp h), if_pos rfl]

theorem trayBusWrite_mask {v : TrayData} (h : pecSound 9 v) : exec (.trayBusWrite 9 v) s =
    .next ({ s with tray := { s.tray with mask := BitVec.ofNat 8 (v.value.toNat % 32) } }.emit .trayAck) := by
  have low5 : v.value.setWidth 8 &&& 0x1F = BitVec.ofNat 8 (v.value.toNat % 32) := by
    refine BitVec.eq_of_toNat_eq ?_
    rw [BitVec.toNat_and, BitVec.toNat_setWidth, BitVec.toNat_ofNat, show (0x1F : Byte).toNat = 2 ^ 5 - 1 from rfl,
      Nat.and_two_pow_sub_one_eq_mod]
    omega
  show Host.Outcome.next (ite ..) = _
  rw [if_neg (by simp [hv]), if_neg (fun hp => (pec_refused_iff 9 v).mp hp h), if_neg (by decide), if_pos rfl, low5]

/-- New readings are what the bus reads, and may set alerts; the mask stays. -/
theorem trayTelemetryUpdate_spec (vin iin pin tj tcool : BitVec 16) :
    ∃ u, exec (.trayTelemetryUpdate vin iin pin tj tcool) s = .next u ∧
      u = { s with tray := u.tray } ∧ u.trayRead 2 = some vin ∧ u.trayRead 3 = some iin ∧ u.trayRead 4 = some pin ∧
      u.trayRead 6 = some tj ∧ u.trayRead 7 = some tcool ∧ u.tray.mask = s.tray.mask ∧
      u.tray.alert.getLsbD 4 = (s.tray.alert.getLsbD 4 || (decide (450 < tcool.toInt) && !s.tray.cond.getLsbD 4)) := by
  refine ⟨_, congrArg Host.Outcome.next (if_pos hv), rfl, rfl, rfl, rfl, rfl, rfl, rfl, ?_⟩
  rw [alertNow_alert_bit _ (by decide), (trayCond_bits _).2]

end

/-! ### Pulses per second (R51) -/

theorem timeRegs_frame (off : Nat) : ∃ r, s.timeRegs off = { s with regs := r } := ⟨_, rfl⟩

theorem timeRegs_reg : (s.timeRegs 0x064).reg bPTP 0 0x064 = BitVec.ofNat 32 s.time.sec ∧
    (s.timeRegs 0x064).reg bPTP 0 0x068 = BitVec.ofNat 32 (s.time.sec / 2 ^ 32 % 65536 + s.time.frac * 65536) ∧
    (s.timeRegs 0x064).reg bPTP 0 0x06C = BitVec.ofNat 32 s.time.ns := by
  unfold timeRegs
  refine ⟨?_, ?_, reg_setReg_same ..⟩
  · rw [reg_setReg_offset _ _ _ _ _ _ _ _ (by decide) (by decide) (by decide),
      reg_setReg_offset _ _ _ _ _ _ _ _ (by decide) (by decide) (by decide), reg_setReg_same]
  · rw [reg_setReg_offset _ _ _ _ _ _ _ _ (by decide) (by decide) (by decide), reg_setReg_same]

variable {s}

/-- A rising edge of MOD_PPS_IN: the time of the edge is captured, and an edge further than 1 µs from a whole second
is counted. -/
theorem ppsInEdge_spec (hp : s.powered = true) : ∃ u, exec .ppsInEdge s = .next u ∧ u.ev bPTP 0 4 = true ∧
    u.time = s.time ∧ u.mem = s.mem ∧ u.tiles = s.tiles ∧ u.reg bPTP 0 0x064 = BitVec.ofNat 32 s.time.sec ∧
    u.reg bPTP 0 0x068 = BitVec.ofNat 32 (s.time.sec / 2 ^ 32 % 65536 + s.time.frac * 65536) ∧
    u.reg bPTP 0 0x06C = BitVec.ofNat 32 s.time.ns ∧
    u.cnt bPTP 0 0xC10 = (if 1000 < s.time.ns ∧ s.time.ns < 999999000 then s.cntUp bPTP 0 0xC10 1 else s.cnt bPTP 0 0xC10) := by
  have hm : (s.timeRegs 0x064).managerOnly bPTP 0 := .inr ⟨by decide, by decide⟩
  obtain ⟨u, hu⟩ : ∃ u, u = (s.timeRegs 0x064).raise bPTP 0 4 := ⟨_, rfl⟩
  have hframe : u.time = s.time ∧ u.mem = s.mem ∧ u.tiles = s.tiles := by
    obtain ⟨_, _, _, _, e⟩ := (s.timeRegs 0x064).raise_manager_frame 4 0 0 hm
    rw [hu, e]
    exact ⟨rfl, rfl, rfl⟩
  have hev : u.ev bPTP 0 4 = true := hu ▸ raise_ev _ 0 0 hm (by decide)
  have hreg {o : Nat} (ho : 0x064 ≤ o) (ho' : o < 4096) : u.reg bPTP 0 o = (s.timeRegs 0x064).reg bPTP 0 o := by
    have above {k : Nat} (hk : k < 0x064) : o ≠ k := by omega
    rw [hu]
    exact reg_raise _ 4 0 0 hm ho' (above (by decide)) (above (by decide)) (above (by decide)) (above (by decide))
  have hcnt : u.cnt bPTP 0 0xC10 = s.cnt bPTP 0 0xC10 := by
    rw [hu, cnt_raise _ _ _ _ hm (by decide) (by decide)]
    rfl
  obtain ⟨htime, hmem, htiles⟩ := hframe
  obtain ⟨hsec, hfrac, hns⟩ := s.timeRegs_reg
  rw [← hreg (by decide) (by decide)] at hsec hfrac hns
  have hexec : exec .ppsInEdge s =
      .next (if 1000 < s.time.ns ∧ s.time.ns < 999999000 then u.count bPTP 0 0xC10 1 else u) := by
    show Host.Outcome.next (ite ..) = _
    rw [if_pos hp]
    simp [hu]
  refine ⟨_, hexec, ?_⟩
  split
  · exact ⟨hev, htime, hmem, htiles, hsec, hfrac, hns, by rw [cnt_count_same, hcnt]; rfl⟩
  · exact ⟨hev, htime, hmem, htiles, hsec, hfrac, hns, hcnt⟩

end State

/-- Settles O23: alerts by the conditions that stand, writes by their code and Packet Error Code, pulses by the
time they fall in. -/
theorem trayBusAndPulses : Obligations.TrayBusAndPulses := by
  unfold Obligations.TrayBusAndPulses
  intro s x cleared sound
  refine ⟨fun hv => ⟨fun bits => ?_, fun ha => ?_, fun v h => State.trayBusWrite_mask hv h, fun v h => ?_,
    fun c v h => State.trayBusWrite_nack hv h, State.trayTelemetryUpdate_spec hv⟩, fun hp hl ho ht => ?_,
    State.ppsInEdge_spec⟩
  · exact congrArg _ ((if_pos hv).trans (s.alertClear_eq bits))
  · exact congrArg _ (if_pos (by simpa [hv, State.alertOut] using ha))
  · rw [State.trayBusWrite_alert hv h, s.alertClear_eq]
    rfl
  · exact congrArg _ (if_pos (by simpa [hp, hl, x] using ⟨ho, ht⟩))

end Sys2Proof.Machine
end

section
/-! PROOF. Insertion, power-good, power enable and reset (O24; R45-R49, R61, R73): what a loss of the rails leaves, when
a start-up begins, how the module goes down, and what each signal of the connector does. -/

namespace Sys2Proof.Machine

/-- The power record after the rails have gone down: the requests on K, the sag, the setpoints and the power
managers' parts are lost; the supply, the signals and the phase stay. -/
def Pwr.afterLoss (x : Pwr) : Pwr := { x with
  keep := 64, kCap := 64, kSag := 64, kTherm := 64, kSlope := 64, halt := false, shareK := []
  keepShare := [], slopeShare := [], droopDies := [], droopFor := 0, droopSeen := false, droopLast := false
  keepLast := 64, frame := 0, prevPin := 0, fill := 0, sag := false, joule := 0, vcd := [], tj := 0
  pmStandbyOk := false, pmRole := false }

/-- The power record of a module that has come to rest in M4: after a failed or fatal stop it stays there, after a
requested one until it is asked to run, unless a rise waits (R47, R78, R481). -/
def Pwr.atRest (x : Pwr) (why : DownWhy) : Pwr := { x.afterLoss with
  phase := .off, state := 4, rails := 1, startQueued := false
  blocked := (why == .fatal || why == .thermal || why == .failed) && !x.startQueued
  slept := why == .requested && !x.startQueued }

namespace State

variable (s : State)

/-! ### Loss of volatile state (R48, R73) -/

@[simp] theorem lose_pwr : s.lose.pwr = s.pwr.afterLoss := by
  unfold lose
  split <;> rfl
@[simp] theorem lose_tiles : s.lose.tiles = [] := by
  unfold lose
  split <;> rfl
@[simp] theorem lose_mem : s.lose.mem = [] := by
  unfold lose
  split <;> rfl
@[simp] theorem lose_keys : s.lose.keys = [] := by
  unfold lose
  split <;> rfl

/-- All volatile state is gone, and nothing was sent but the fall of MOD_PPS_OUT. -/
def volatileLost (u : State) : Prop := u.tiles = [] ∧ u.mem = [] ∧ u.keys = [] ∧ u.conns = [] ∧ u.queues = [] ∧
  u.parts = [] ∧ u.windows = [] ∧ u.colls = [] ∧ u.mbox = [] ∧ u.regs = [] ∧ u.cnts = [] ∧ u.shadows = [] ∧
  u.pending = s.pending ∧ u.out = s.out ++ (if s.tray.ppsOut then [.pps false] else [])

/-- The rails' loss empties what VAUX does not supply; the manager channel with it makes the loss complete. -/
theorem volatileLost_lose : volatileLost s { s.lose with mbox := [] } := by
  unfold lose
  split
  next h => exact ⟨rfl, rfl, rfl, rfl, rfl, rfl, rfl, rfl, rfl, rfl, rfl, rfl, rfl, by rw [if_pos h]; rfl⟩
  next h =>
    exact ⟨rfl, rfl, rfl, rfl, rfl, rfl, rfl, rfl, rfl, rfl, rfl, rfl, rfl, by rw [if_neg h, List.append_nil]⟩

theorem volatileLost_loseMore : volatileLost s s.loseMore := s.volatileLost_lose
theorem volatileLost_loseVaux : volatileLost s s.loseVaux := s.volatileLost_lose

@[simp] theorem loseMore_pwr : s.loseMore.pwr = s.pwr.afterLoss := s.lose_pwr
@[simp] theorem loseVaux_pwr : s.loseVaux.pwr = s.pwr.afterLoss := s.lose_pwr
@[simp] theorem loseVaux_tiles : s.loseVaux.tiles = [] := s.lose_tiles
@[simp] theorem loseVaux_mem : s.loseVaux.mem = [] := s.lose_mem
@[simp] theorem loseVaux_keys : s.loseVaux.keys = [] := s.lose_keys

/-! ### Starting up (R47, R61, R457, R510) -/

/-- A module whose start-up has just begun. -/
def justStarted (u : State) : Prop := u.pwr.phase = .starting ∧ u.ident.stage = 1 ∧ u.regs = [] ∧ u.cnts = [] ∧
  u.tiles = [] ∧ u.keys = [] ∧ u.mem = [] ∧ u.pwr.state = 4 ∧ u.pwr.pmRole = false

theorem justStarted_startUp : s.startUp.justStarted :=
  ⟨rfl, rfl, rfl, rfl, s.lose_tiles, s.lose_keys, s.lose_mem, rfl, congrArg Pwr.pmRole s.lose_pwr⟩

@[simp] theorem startUp_pwr : s.startUp.pwr = { s.pwr.afterLoss with
    phase := .starting, startQueued := false, blocked := false, slept := false, state := 4, pmStandbyOk := true } := by
  rw [← lose_pwr]
  rfl

variable {s}

theorem justStarted_tryStart (hphase : s.pwr.phase = .off) (hgood : s.pwr.powerGood = true) (hen : s.pwr.pwren = true)
    (hreset : s.pwr.resetN = true) (hblock : s.pwr.blocked = false) (hslept : s.pwr.slept = false) :
    s.tryStart.justStarted := by
  unfold tryStart
  simp only [hphase, hgood, hen, hreset, hblock, hslept]
  exact s.justStarted_startUp

/-- No start-up begins outside M4, or with MOD_PWREN or MOD_RESET_N low. -/
theorem tryStart_eq_self (h : s.pwr.phase ≠ .off ∨ s.pwr.pwren = false ∨ s.pwr.resetN = false) : s.tryStart = s := by
  refine if_neg fun hc => ?_
  simp only [Bool.and_eq_true, beq_iff_eq] at hc
  obtain ⟨⟨⟨⟨⟨hphase, -⟩, hen⟩, hreset⟩, -⟩, -⟩ := hc
  rcases h with h | h | h
  · exact h hphase
  · simp [h] at hen
  · simp [h] at hreset

theorem tryStart_eq : s.tryStart = s.startUp ∨ s.tryStart = s := ite_eq_or_eq _ _ _

/-- A start-up leaves power-good, the bank's state and the two signals as they are. -/
theorem tryStart_supply : s.tryStart.pwr.powerGood = s.pwr.powerGood ∧ s.tryStart.pwr.bankFull = s.pwr.bankFull ∧
    s.tryStart.pwr.pwren = s.pwr.pwren ∧ s.tryStart.pwr.resetN = s.pwr.resetN := by
  rcases s.tryStart_eq with e | e
  · rw [e, startUp_pwr]
    exact ⟨rfl, rfl, rfl, rfl⟩
  · rw [e]
    exact ⟨rfl, rfl, rfl, rfl⟩

theorem tryStart_empty (ht : s.tiles = []) (hm : s.mem = []) (hk : s.keys = []) :
    s.tryStart.tiles = [] ∧ s.tryStart.mem = [] ∧ s.tryStart.keys = [] := by
  rcases s.tryStart_eq with e | e
  · obtain ⟨-, -, -, -, htiles, hkeys, hmem, -, -⟩ := s.justStarted_startUp
    rw [e]
    exact ⟨htiles, hmem, hkeys⟩
  · rw [e]
    exact ⟨ht, hm, hk⟩

/-! ### Going down (R47) -/

variable (s)

/-- An orderly power-down sends the pending notifications, and changes only the phase of the power record. -/
theorem downOrderly_eq (why : DownWhy) : ∃ v, Undisturbed s v ∧
    s.downOrderly why = v.updPwr (fun x => { x with phase := .down why }) := ⟨_, Undisturbed.refl.flushNotes, rfl⟩

@[simp] theorem downOrderly_pwr (why : DownWhy) : (s.downOrderly why).pwr = { s.pwr with phase := .down why } := by
  obtain ⟨v, hv, e⟩ := s.downOrderly_eq why
  rw [e, ← hv.pwr]
  rfl

theorem downOrderly_sent {o : Out} (why : DownWhy) (ho : o ∈ s.out) : o ∈ (s.downOrderly why).out := by
  obtain ⟨v, hv, e⟩ := s.downOrderly_eq why
  rw [e]
  exact hv.sent ho

theorem downOrderly_ident (why : DownWhy) : (s.downOrderly why).ident = s.ident := by
  obtain ⟨v, hv, e⟩ := s.downOrderly_eq why
  rw [e]
  exact hv.ident

theorem downOrderly_ev (why : DownWhy) {i bit : Nat} (hi : i < 4096) :
    (s.downOrderly why).ev bPWR i bit = s.ev bPWR i bit := by
  obtain ⟨v, hv, e⟩ := s.downOrderly_eq why
  rw [e]
  exact hv.ev hi

/-- A module that is in service is neither off nor starting nor going down. -/
theorem phase_of_inService (h : s.inService = true) :
    s.pwr.phase ≠ .off ∧ s.pwr.phase ≠ .starting ∧ s.goingDown = false := by
  unfold inService at h
  unfold goingDown
  cases hp : s.pwr.phase <;> simp_all

theorem phase_of_goingDown (h : s.goingDown = true) : s.pwr.phase ≠ .off ∧ s.pwr.phase ≠ .starting := by
  unfold goingDown at h
  cases hp : s.pwr.phase <;> simp_all

/-- The rails are down: a module that comes to rest in M4, whatever it then does. -/
theorem downDone_eq (why : DownWhy) : ∃ v : State, v.tiles = [] ∧ v.mem = [] ∧ v.keys = [] ∧
    v.pwr = s.pwr.atRest why ∧ s.downDone why = if why == .lastGasp then
        if s.pwr.low || s.pwr.below40 || s.pwr.cut then v.loseVaux.updPwr (fun x => { x with
          vaux := false, rails := 0, powerGood := false, bankFull := false, bank := 0 })
        else v.loseVaux.inserted
      else v.tryStart := by
  unfold downDone
  extract_lets gone stuck mark s1 s2 s3 s4
  have h2 : s2.tiles = [] ∧ s2.mem = [] ∧ s2.keys = [] ∧ s2.pwr = s1.pwr := by
    unfold s2
    split <;> exact ⟨s.lose_tiles, s.lose_mem, s.lose_keys, rfl⟩
  obtain ⟨htiles, hmem, hkeys, hpwr⟩ := h2
  have h4 : s4.tiles = [] ∧ s4.mem = [] ∧ s4.keys = [] ∧ s4.pwr = s3.pwr := by
    unfold s4
    split <;> exact ⟨htiles, hmem, hkeys, rfl⟩
  obtain ⟨htiles4, hmem4, hkeys4, hpwr4⟩ := h4
  refine ⟨s4, htiles4, hmem4, hkeys4, ?_, rfl⟩
  calc s4.pwr
    _ = { s2.pwr with blocked := stuck, slept := why == .requested && !s.pwr.startQueued } := hpwr4
    _ = { s.lose.pwr with
          phase := .off, state := 4, rails := 1, startQueued := false
          blocked := stuck, slept := why == .requested && !s.pwr.startQueued } := by rw [hpwr]; rfl
    _ = s.pwr.atRest why := by rw [lose_pwr]; rfl

variable {s}

/-! ### The signals, one by one -/

theorem hotRemoval_spec (hs : s.pwr.seated = true) : ∃ u, exec .hotRemoval s = .next u ∧ s.volatileLost u ∧
    u.pwr.seated = false ∧ u.pwr.vaux = false ∧ u.ports = [] ∧ u.pwr.state = 4 ∧ u.pwr.phase = .off ∧
    u.pwr.pwren = false ∧ u.pwr.resetN = true :=
  ⟨_, congrArg Host.Outcome.next (if_neg (by simp [hs])), s.volatileLost_loseVaux, rfl, rfl, rfl, rfl, rfl, rfl, rfl⟩

theorem powerGood_spec (hs : s.pwr.seated = true) (hv : s.pwr.vaux = true) (hcut : s.pwr.cut = false)
    (hlow : s.pwr.low = false) (h40 : s.pwr.below40 = false) :
    ∃ u, exec .powerGood s = .next u ∧ u.pwr.powerGood = true ∧ u.pwr.bankFull = true ∧
      (s.pwr.phase = .off ∧ s.pwr.blocked = false ∧ s.pwr.slept = false →
        s.pwr.pwren = true → s.pwr.resetN = true → u.justStarted) ∧
      (s.pwr.pwren = false ∨ s.pwr.resetN = false → u.pwr.phase = s.pwr.phase ∧ u.mem = s.mem) := by
  refine ⟨_, congrArg Host.Outcome.next (if_pos (by simp [hs, hv, hcut, hlow, h40])), tryStart_supply.1,
    tryStart_supply.2.1, fun ⟨hphase, hblock, hslept⟩ hen hreset => ?_, fun h => ?_⟩
  · exact justStarted_tryStart hphase rfl hen hreset hblock hslept
  · rw [tryStart_eq_self]
    · exact ⟨rfl, rfl⟩
    · exact .inr h

theorem modPwrenHigh_spec (hs : s.pwr.seated = true) (hen : s.pwr.pwren = false) :
    ∃ u, exec .modPwrenHigh s = .next u ∧ u.pwr.pwren = true ∧
      (s.pwr.phase = .off → s.pwr.powerGood = true → s.pwr.resetN = true → u.justStarted) ∧
      (s.goingDown = true → u.pwr.phase = s.pwr.phase ∧ u.pwr.startQueued = true ∧ u.mem = s.mem) := by
  refine ⟨_, congrArg Host.Outcome.next (if_neg (by simp [hs, hen])), tryStart_supply.2.2.1,
    fun hphase hgood hreset => justStarted_tryStart hphase hgood rfl hreset rfl rfl, fun hdown => ?_⟩
  dsimp only
  rw [tryStart_eq_self]
  · exact ⟨rfl, by simp [updPwr, hdown], rfl⟩
  · exact .inl (s.phase_of_goingDown hdown).1

theorem modPwrenLow_spec (hen : s.pwr.pwren = true) :
    ∃ u, exec .modPwrenLow s = .next u ∧ u.pwr.pwren = false ∧ u.pwr.startQueued = false ∧
      (s.pwr.phase = .starting → u.pwr.phase = .down .abandoned) ∧
      (s.inService = true → u.pwr.phase = .down .orderly ∧ .notice (s.freeBit 7) ∈ u.out) ∧
      (s.pwr.phase = .off ∨ s.goingDown = true → u.pwr.phase = s.pwr.phase) := by
  refine ⟨_, congrArg Host.Outcome.next (if_neg (by simp [hen])), ?_⟩
  extract_lets s1
  by_cases hstart : s.pwr.phase = .starting
  · rw [if_pos hstart, downOrderly_pwr]
    refine ⟨rfl, rfl, fun _ => rfl, fun hin => absurd hstart (s.phase_of_inService hin).2.1, fun h => ?_⟩
    exact h.elim (fun h => by simp [hstart] at h) (fun h => absurd hstart (s.phase_of_goingDown h).2)
  rw [if_neg hstart]
  by_cases hin : s.inService = true
  · obtain ⟨hoff, -, hdown⟩ := s.phase_of_inService hin
    rw [if_pos hin, downOrderly_pwr]
    refine ⟨rfl, rfl, fun h => absurd h hstart, fun _ => ⟨rfl, downOrderly_sent _ _ ?_⟩, fun h => ?_⟩
    · exact List.mem_append_right _ (List.mem_singleton_self _)
    · exact h.elim (fun h => absurd h hoff) (fun h => by simp [hdown] at h)
  · rw [if_neg hin]
    exact ⟨rfl, rfl, fun h => absurd h hstart, fun h => absurd h hin, fun _ => rfl⟩

theorem modResetNLow_spec (hs : s.pwr.seated = true) (hreset : s.pwr.resetN = true) :
    ∃ u, exec .modResetNLow s = .next u ∧ u.pwr.resetN = false ∧ u.pwr.pwren = s.pwr.pwren ∧ s.volatileLost u ∧
      (s.powered = true → u.pwr.phase = .down .reset ∧ u.pwr.state = 4) ∧
      (s.powered = false → u.pwr.phase = .off) := by
  refine ⟨_, congrArg Host.Outcome.next (if_neg (by simp [hs, hreset])), ?_⟩
  extract_lets s1 _ s2
  have hlost : s.volatileLost s2 := volatileLost_loseMore _
  have hpwr : s2.pwr = s1.pwr.afterLoss := loseMore_pwr _
  have hlow : s2.pwr.resetN = false := congrArg Pwr.resetN hpwr
  have hen : s2.pwr.pwren = s.pwr.pwren := by rw [hpwr]; rfl
  split
  next hp =>
    refine ⟨hlow, hen, hlost, fun _ => ⟨rfl, rfl⟩, fun h => ?_⟩
    exact absurd hp (by simp [h])
  next hp =>
    refine ⟨hlow, hen, hlost, fun h => absurd h hp, fun h => ?_⟩
    have hoff : s.pwr.phase = .off := by simpa [powered] using h
    exact (congrArg Pwr.phase hpwr).trans hoff

theorem modResetNHigh_spec (hreset : s.pwr.resetN = false) : ∃ u, exec .modResetNHigh s = .next u ∧ u.pwr.resetN = true ∧
    (s.pwr.phase = .off → s.pwr.powerGood = true → s.pwr.pwren = true → u.justStarted) ∧
    (s.pwr.pwren = false → u.pwr.phase = s.pwr.phase) := by
  refine ⟨_, congrArg Host.Outcome.next (if_neg (by simp [hreset])), tryStart_supply.2.2.2,
    fun hphase hgood hen => justStarted_tryStart hphase hgood hen rfl rfl rfl, fun hen => ?_⟩
  dsimp only
  rw [tryStart_eq_self]
  · rfl
  · exact .inr (.inl hen)

theorem powerDownDone_spec {why : DownWhy} (hdown : s.pwr.phase = .down why) :
    ∃ u, exec .powerDownDone s = .next u ∧ u.tiles = [] ∧ u.mem = [] ∧ u.keys = [] ∧
      (why ≠ .lastGasp → s.pwr.pwren = false ∨ s.pwr.resetN = false →
        u.pwr.phase = .off ∧ u.pwr.rails = 1 ∧ u.pwr.state = 4) ∧
      (why = .orderly → s.pwr.powerGood = true → s.pwr.pwren = true → s.pwr.resetN = true → u.justStarted) ∧
      (why = .lastGasp → (s.pwr.low || s.pwr.below40 || s.pwr.cut) = true →
        u.pwr.phase = .off ∧ u.pwr.rails = 0 ∧ u.pwr.vaux = false) := by
  obtain ⟨v, htiles, hmem, hkeys, hpwr, e⟩ := s.downDone_eq why
  have hexec : exec .powerDownDone s = .next (s.downDone why) := by
    show execPowerDownDone s = _
    rw [execPowerDownDone, hdown]
  refine ⟨_, hexec, ?_⟩
  by_cases hgasp : why = .lastGasp
  · have hphase : v.loseVaux.pwr.phase = .off := by rw [loseVaux_pwr, hpwr]; rfl
    rw [e, if_pos (by simp [hgasp])]
    split
    · exact ⟨v.loseVaux_tiles, v.loseVaux_mem, v.loseVaux_keys, fun h => absurd hgasp h,
        fun h => by simp [hgasp] at h, fun _ _ => ⟨hphase, rfl, rfl⟩⟩
    next hin => exact ⟨v.loseVaux_tiles, v.loseVaux_mem, v.loseVaux_keys, fun h => absurd hgasp h,
        fun h => by simp [hgasp] at h, fun _ h => absurd h hin⟩
  · obtain ⟨ht, hm, hk⟩ := tryStart_empty htiles hmem hkeys
    rw [e, if_neg (by simp [hgasp])]
    refine ⟨ht, hm, hk, fun _ hlow => ?_, fun ho hgood hen hreset => ?_, fun h => absurd h hgasp⟩
    · rw [tryStart_eq_self (.inr (by rw [hpwr]; exact hlow)), hpwr]
      exact ⟨rfl, rfl, rfl⟩
    · refine justStarted_tryStart ?_ ?_ ?_ ?_ ?_ ?_ <;> rw [hpwr]
      · rfl
      · exact hgood
      · exact hen
      · exact hreset
      · subst ho; rfl
      · subst ho; rfl

theorem inputPowerReturn_spec (hs : s.pwr.seated = true) : ∃ u, exec .inputPowerReturn s = .next u ∧
    (s.pwr.phase = .down .lastGasp →
      u.pwr.phase = .down .lastGasp ∧ u.pwr.low = false ∧ u.pwr.below40 = false ∧ u.pwr.cut = false) ∧
    (s.pwr.phase = .off → s.pwr.vaux = false →
      u.pwr.phase = .off ∧ u.pwr.vaux = true ∧ u.pwr.rails = 1 ∧ u.pwr.inrush = .inputCap) := by
  refine ⟨_, congrArg Host.Outcome.next (if_neg (by simp [hs])), fun h => ?_, fun h hv => ?_⟩
  · simp only [h]
    exact ⟨h, rfl, rfl, rfl⟩
  · simp only [h, hv]
    exact ⟨rfl, rfl, rfl, rfl⟩

end State

/-- Settles O24: each signal by its own lemma, from what a loss leaves and when a start-up begins. -/
theorem insertionPowerEnableAndReset : Obligations.InsertionPowerEnableAndReset := by
  unfold Obligations.InsertionPowerEnableAndReset
  intro s x mayStart started lost
  refine ⟨fun hs => ?_, State.hotRemoval_spec, State.powerGood_spec, fun hs hv hcut h40 => ?_, State.modPwrenHigh_spec,
    State.modPwrenLow_spec, State.modResetNLow_spec, State.modResetNHigh_spec, fun _ => State.powerDownDone_spec,
    State.inputPowerReturn_spec⟩
  · exact congrArg Host.Outcome.next (if_neg (by simpa [x] using hs))
  · exact congrArg Host.Outcome.next (if_pos (by simp [show s.pwr = x from rfl, hs, hv, hcut, h40]))

end Sys2Proof.Machine
end

section
/-! PROOF. Module-fatal causes, the last gasp and the power managers (O29; R55, R72, R75, R81, R481): what a fatal stop
leaves, what firmware sends before it, and which ports go down with a SerDes reference. -/

namespace Sys2Proof.Machine

/-- The log ends in the note just added, whatever it dropped at its other end. -/
theorem Store.lastFatal_note (x : Store) (cause : Nat) : (x.note (.fatal cause)).lastFatal = cause := by
  have hroom : (x.log ++ [LogNote.fatal cause]).length - logEntries ≤ x.log.length := by
    rw [List.length_append, show logEntries = 0x60000 from rfl, List.length_singleton]
    omega
  rw [lastFatal, note, List.drop_append_of_le_length hroom, List.reverse_append]
  rfl

/-- What holds of the default and of every entry after a map holds of what is read there. -/
theorem mget_map_of_forall {α : Type} {d : α} {m : SMap α} {f : Nat × α → Nat × α} {k : Nat} {P : α → Prop} (hd : P d)
    (hf : ∀ e, (f e).1 = k → P (f e).2) : P (mget d (m.map f) k) := by
  rcases mget_eq_or_mem d (m.map f) k with h | h
  · rw [h]
    exact hd
  · obtain ⟨e, -, he⟩ := List.mem_map.mp h
    have := hf e (by rw [he])
    rwa [he] at this

namespace State

variable (s : State)

theorem phase_of_on (h : s.pwr.phase = .on) : s.powered = true ∧ s.goingDown = false := by
  unfold powered goingDown
  rw [h]
  exact ⟨rfl, rfl⟩

/-! ### The records of a stop (R72) -/

theorem foldl_emit {α : Type} (l : List α) (f : α → Out) :
    l.foldl (fun u x => u.emit (f x)) s = { s with out := s.out ++ l.map f } := by
  induction l generalizing s with
  | nil => rw [List.map_nil, List.append_nil]; rfl
  | cons a l ih =>
    rw [List.foldl_cons, ih, List.map_cons, ← List.singleton_append, ← List.append_assoc]
    rfl

/-- Both records for the manager are sent, one on each management port. -/
def gaspSent (cause : Nat) (u : State) : Prop :=
  .mgmt false 3 false 0 0 [s.timeWord, BitVec.ofNat 64 (cause * 2 ^ 56)] ∈ u.out ∧
    .mgmt true 3 false 0 0 [s.timeWord, BitVec.ofNat 64 (cause * 2 ^ 56)] ∈ u.out

theorem gaspRecords_frame (cause : Nat) :
    ∃ l, s.gaspRecords cause = { s with out := l } ∧ s.gaspSent cause (s.gaspRecords cause) := by
  unfold gaspRecords
  extract_lets w s1
  refine ⟨_, foldl_emit .., ?_⟩
  rw [foldl_emit]
  exact ⟨by simp [s1, w], by simp [s1, w]⟩

/-! ### The fatal stop (R481) -/

/-- The module has stopped for a cause: every key erased, the data ports silent, the records sent. -/
def fatalStop (u : State) (cause : Nat) : Prop :=
  u.pwr.phase = .down .fatal ∧ u.pwr.keep = 0 ∧ u.store.lastFatal = cause ∧
    (∀ p, (u.pkeys p).root = none) ∧ u.ciph.storageRoot = 0 ∧
    (∀ n, n < 24 → (u.port n).up0 = false ∧ (u.port n).up1 = false) ∧
    .mgmt false 3 false 0 0 [s.timeWord, BitVec.ofNat 64 (cause * 2 ^ 56)] ∈ u.out ∧
    .mgmt true 3 false 0 0 [s.timeWord, BitVec.ofNat 64 (cause * 2 ^ 56)] ∈ u.out ∧ u.mem = s.mem

theorem pkeys_eraseAll (p : Nat) : (s.eraseAll.pkeys p).root = none :=
  mget_map_of_forall (P := fun x : PKeys => x.root = none) rfl fun _ _ => rfl

theorem port_portsStop {n : Nat} (hn : n < 24) : (s.portsStop.port n).up0 = false ∧ (s.portsStop.port n).up1 = false := by
  refine mget_map_of_forall (P := fun x : Port => x.up0 = false ∧ x.up1 = false) ⟨rfl, rfl⟩ fun e he => ?_
  split at he
  next h => rw [if_pos h]; exact ⟨rfl, rfl⟩
  next h => omega

/-- Store and power record change alone, whatever is written there: with the functions left open nothing evaluates the
log that a note drops entries from. -/
theorem updStore_updPwr (f : Store → Store) (g : Pwr → Pwr) : let v := (s.updStore f).updPwr g
    v.store = f s.store ∧ v.pwr = g s.pwr ∧ v.mem = s.mem ∧ v.regs = s.regs ∧ v.time = s.time :=
  ⟨rfl, rfl, rfl, rfl, rfl⟩

/-- The module goes down: keys erased, ports silent. -/
def silenced : State :=
  (s.portsStop.eraseAll.updPwr (fun x => { x with phase := .down .fatal, startQueued := false })).alertNow

theorem silenced_regs : s.silenced.regs = s.regs := rfl

variable {s}

theorem fatalStop_silenced {v : State} {cause : Nat} (hlast : v.store.lastFatal = cause) (hkeep : v.pwr.keep = 0)
    (hmem : v.mem = s.mem) (hsent : s.gaspSent cause v) : s.fatalStop v.silenced cause :=
  ⟨rfl, hkeep, hlast, v.portsStop.pkeys_eraseAll, rfl, fun _ hn => v.port_portsStop hn, hsent.1, hsent.2, hmem⟩

theorem fatal_eq {cause : Nat} (hon : s.pwr.phase = .on) (hc : cause ≠ 0x12) : s.fatal cause =
    (((s.updStore (fun x => x.note (.fatal cause))).updPwr (fun x => { x with keep := 0 })).gaspRecords cause).silenced := by
  obtain ⟨hp, hd⟩ := s.phase_of_on hon
  unfold fatal silenced
  simp only [hp, hd, if_neg hc]
  rfl

theorem fatalStop_fatal {cause : Nat} (hon : s.pwr.phase = .on) (hc : cause ≠ 0x12) :
    s.fatalStop (s.fatal cause) cause ∧ (s.fatal cause).regs = s.regs := by
  rw [fatal_eq hon hc, silenced_regs]
  obtain ⟨hstore, hpwr, hmem, hregs, htime⟩ :=
    s.updStore_updPwr (fun x => x.note (.fatal cause)) (fun x => { x with keep := 0 })
  generalize (s.updStore (fun x => x.note (.fatal cause))).updPwr (fun x => { x with keep := 0 }) = v at *
  obtain ⟨l, e, hsent⟩ := v.gaspRecords_frame cause
  rw [gaspSent, timeWord, htime] at hsent
  have hlast : v.store.lastFatal = cause := by rw [hstore, Store.lastFatal_note]
  have hkeep : v.pwr.keep = 0 := by rw [hpwr]
  rw [e] at hsent ⊢
  exact ⟨fatalStop_silenced hlast hkeep hmem hsent, hregs⟩

/-- A fatal stop that follows the event of its cause. -/
theorem fatalStop_raise {blk inst bit cause : Nat} (i0 i1 : W32) (hon : s.pwr.phase = .on) (hc : cause ≠ 0x12)
    (hm : s.managerOnly blk inst) (hb : bit < 32) :
    s.fatalStop ((s.raise blk inst bit i0 i1).fatal cause) cause ∧
      ((s.raise blk inst bit i0 i1).fatal cause).ev blk inst bit = true := by
  obtain ⟨_, _, _, _, e⟩ := s.raise_manager_frame bit i0 i1 hm
  have hpwr : (s.raise blk inst bit i0 i1).pwr.phase = .on := by rw [e]; exact hon
  obtain ⟨hstop, hregs⟩ := fatalStop_fatal hpwr hc
  refine ⟨?_, ?_⟩
  · have htime : (s.raise blk inst bit i0 i1).timeWord = s.timeWord := by rw [e]; rfl
    rwa [fatalStop, htime, mem_raise _ _ _ _ hm] at hstop
  · rw [ev, reg, hregs]
    exact raise_ev s i0 i1 hm hb

theorem referenceLost_on {die : Nat} (pll : Bool) (hon : s.pwr.phase = .on) (hdie : die < 6) :
    ∃ u, exec (.referenceLost die pll) s = .next u ∧ s.fatalStop u 0x10 ∧
      u.ev bCLK die (if pll then 0 else 1) = true := by
  obtain ⟨hp, hd⟩ := s.phase_of_on hon
  refine ⟨_, congrArg Host.Outcome.next (if_neg ?_), fatalStop_raise 0 0 hon (by decide) (.inr ⟨by decide, by decide⟩) ?_⟩
  · simp [hp, hd, hon]
    omega
  · split <;> decide

/-! ### Rails (R75, R458) -/

theorem managerOnly_power (inst : Nat) : s.managerOnly bPWR inst := .inr ⟨by decide, by decide⟩

theorem pwrInst_lt : s.pwrInst < 4096 := by
  unfold pwrInst dieInst
  split <;> decide

theorem railFault_eq {rail : Nat} (h1 : 1 ≤ rail) (h8 : rail ≤ 8) (hp : s.powered = true) (hd : s.goingDown = false) :
    exec (.railFault rail) s = .next (if s.pwr.phase = .starting then
        (s.raise bPWR s.pwrInst 6 (BitVec.ofNat 32 rail)).failStart (stageCode s.ident.stage)
      else (s.raise bPWR s.pwrInst 6 (BitVec.ofNat 32 rail)).fatal 0x11) := by
  refine congrArg Host.Outcome.next (if_neg ?_)
  simp [hp, hd]
  omega

theorem railFault_on {rail : Nat} (hon : s.pwr.phase = .on) (h1 : 1 ≤ rail) (h8 : rail ≤ 8) :
    ∃ u, exec (.railFault rail) s = .next u ∧ s.fatalStop u 0x11 ∧ u.ev bPWR s.pwrInst 6 = true := by
  obtain ⟨hp, hd⟩ := s.phase_of_on hon
  refine ⟨_, railFault_eq h1 h8 hp hd, ?_⟩
  rw [if_neg (by simp [hon])]
  exact fatalStop_raise _ 0 hon (by decide) (managerOnly_power _) (by decide)

theorem railFault_starting {rail : Nat} (hstart : s.pwr.phase = .starting) (h1 : 1 ≤ rail) (h8 : rail ≤ 8) :
    ∃ u, exec (.railFault rail) s = .next u ∧ u.pwr.phase = .down .failed ∧ u.ev bPWR s.pwrInst 6 = true ∧
      u.ident.failCode = stageCode s.ident.stage ∧ .startFail s.ident.stage (stageCode s.ident.stage) ∈ u.out := by
  have hp : s.powered = true := by simp [powered, hstart]
  have hd : s.goingDown = false := by simp [goingDown, hstart]
  have hev : (s.raise bPWR s.pwrInst 6 (BitVec.ofNat 32 rail)).ev bPWR s.pwrInst 6 = true :=
    raise_ev _ _ _ (managerOnly_power _) (by decide)
  refine ⟨_, railFault_eq h1 h8 hp hd, ?_⟩
  rw [if_pos hstart]
  unfold failStart
  refine ⟨?_, ?_, ?_, downOrderly_sent _ _ ?_⟩
  · rw [downOrderly_pwr]
  · exact (downOrderly_ev _ _ pwrInst_lt).trans hev
  · rw [downOrderly_ident]
    rfl
  · obtain ⟨_, _, _, _, e⟩ := s.raise_manager_frame 6 (BitVec.ofNat 32 rail) 0 (managerOnly_power s.pwrInst)
    rw [e]
    exact List.mem_append_right _ (List.mem_singleton_self _)

/-! ### The power managers (R81) -/

theorem pmFailover_fatal (hon : s.pwr.phase = .on) (hok : s.pwr.pmStandbyOk = false) :
    ∃ u, exec .pmFailover s = .next u ∧ s.fatalStop u 0x15 := by
  obtain ⟨hp, hd⟩ := s.phase_of_on hon
  refine ⟨_, congrArg Host.Outcome.next ?_, (fatalStop_fatal hon (by decide)).1⟩
  rw [if_neg (by simp [hp, hd]), if_pos (by simp [hok])]

/-- The standby takes over with K as it stands, and its page records that it did. -/
theorem pmFailover_takeover (hon : s.pwr.phase = .on) (hok : s.pwr.pmStandbyOk = true) :
    ∃ u, exec .pmFailover s = .next u ∧ u.pwr.phase = .on ∧ u.pwr.keep = s.pwr.keep ∧ u.pwr.pmRole = !s.pwr.pmRole ∧
      u.pwr.pmStandbyOk = false ∧ u.ev bPWR u.pwrInst 7 = true ∧ u.tiles = s.tiles ∧ u.mem = s.mem := by
  obtain ⟨hp, hd⟩ := s.phase_of_on hon
  refine ⟨_, congrArg Host.Outcome.next ((if_neg (by simp [hp, hd])).trans (if_neg (by simp [hok]))), ?_⟩
  extract_lets s1
  have hm1 : s1.managerOnly bPWR s1.pwrInst := managerOnly_power _
  have hm2 : (s1.raise bPWR s1.pwrInst 7).managerOnly bMOD 0 := .inr ⟨by decide, by decide⟩
  obtain ⟨u, hu⟩ : ∃ u, u = (s1.raise bPWR s1.pwrInst 7).raise bMOD 0 2 := ⟨_, rfl⟩
  have hframe : u.pwr = s1.pwr ∧ u.tiles = s1.tiles ∧ u.mem = s1.mem := by
    obtain ⟨_, _, _, _, e1⟩ := s1.raise_manager_frame 7 0 0 hm1
    obtain ⟨_, _, _, _, e2⟩ := (s1.raise bPWR s1.pwrInst 7).raise_manager_frame 2 0 0 hm2
    rw [hu, e2, e1]
    exact ⟨rfl, rfl, rfl⟩
  obtain ⟨hpwr, htiles, hmem⟩ := hframe
  have hev : u.ev bPWR s1.pwrInst 7 = true := by
    rw [hu, ev, reg_raise_power _ _ _ _ hm2 (.inr ⟨by decide, by decide⟩) pwrInst_lt (by decide)]
    exact raise_ev _ _ _ hm1 (by decide)
  have hinst : u.pwrInst = s1.pwrInst := by rw [pwrInst, hpwr]; rfl
  rw [← hu, hinst, hpwr]
  exact ⟨hon, rfl, rfl, rfl, hev, htiles, hmem⟩

/-! ### The last gasp (R72) -/

theorem lastGasp_spec (r : Bool) (hon : s.pwr.phase = .on) (hsag : s.pwr.sag = true) (hv : s.pwr.vaux = true)
    (hbank : s.pwr.onBank = true) (hstage : 2 ≤ s.ident.stage) : ∃ u, exec (.lastGasp r) s = .next u ∧
      u.pwr.bank = (if r then 60 else s.pwr.bank) ∧ u.pwr.phase = .down .lastGasp ∧ u.ev bPWR s.pwrInst 1 = true ∧
      u.stopping = true ∧ u.mem = s.mem ∧ (s.tray.cond.getLsbD 3 = false → u.tray.alert.getLsbD 3 = true) ∧
      s.gaspSent (if r then 2 else 1) u := by
  obtain ⟨hp, hd⟩ := s.phase_of_on hon
  refine ⟨_, congrArg Host.Outcome.next (if_pos (by simp [hv, hd, hsag, hbank])), ?_⟩
  unfold lastGasp
  extract_lets s0
  have hm : s.managerOnly bPWR s.pwrInst := managerOnly_power _
  have h0 : s0 = (s.raise bPWR s.pwrInst 1).gaspRecords (if r then 2 else 1) := if_pos (by simp [fwRuns, hp, hstage])
  have hev : (s.raise bPWR s.pwrInst 1).ev bPWR s.pwrInst 1 = true := raise_ev _ _ _ hm (by decide)
  obtain ⟨_, _, _, _, e⟩ := s.raise_manager_frame 1 0 0 hm
  obtain ⟨_, e', hsent⟩ := (s.raise bPWR s.pwrInst 1).gaspRecords_frame (if r then 2 else 1)
  have htime : (s.raise bPWR s.pwrInst 1).timeWord = s.timeWord := by rw [e]; rfl
  rw [gaspSent, htime, ← h0] at hsent
  have hregs : s0.ev bPWR s.pwrInst 1 = true := by rw [h0, e']; exact hev
  have hframe : s0.pwr = s.pwr ∧ s0.mem = s.mem ∧ s0.tray = s.tray := by
    rw [h0, e', e]
    exact ⟨rfl, rfl, rfl⟩
  obtain ⟨hpwr, hmem, htray⟩ := hframe
  refine ⟨?_, rfl, hregs, rfl, hmem, fun hc => ?_, hsent⟩
  · show (if _ = 2 then 60 else s0.pwr.bank) = _
    rw [hpwr]
    cases r <;> rfl
  · rw [alertNow_alert_bit _ (by decide), (trayCond_bits _).1]
    show (_ || true && !s0.tray.cond.getLsbD 3) = true
    rw [htray, hc]
    simp

/-! ### A lost SerDes reference (R55, R253) -/

variable (s)

/-- A half goes down: it is down, the other half and the other ports are as they were, and nothing of the supply or
of memory changes. -/
theorem linkLost_spec (n : Nat) (half1 : Bool) :
    (s.linkLost n half1).pwr = s.pwr ∧ (s.linkLost n half1).mem = s.mem ∧
      (∀ k, (s.linkLost n half1).halves k = s.halves k) ∧ (∀ k, k ≠ n → (s.linkLost n half1).port k = s.port k) ∧
      (s.linkLost n half1).halfUp n half1 = false ∧ (s.linkLost n half1).halfUp n (!half1) = s.halfUp n (!half1) := by
  unfold linkLost
  split
  next hup =>
    extract_lets x y x2 s1
    obtain ⟨t, ht⟩ : ∃ t, t = (s1.setPort n y).count bPORT n 0xCA0 1 := ⟨_, rfl⟩
    have hm : t.managerOnly bPORT n := .inr ⟨by decide, by decide⟩
    have h1 : s1.pwr = s.pwr ∧ s1.mem = s.mem ∧ s1.regs = s.regs ∧ s1.ports = s.ports := by
      unfold s1
      split <;> exact ⟨rfl, rfl, rfl, rfl⟩
    obtain ⟨hpwr, hmem, hregs, hports⟩ := h1
    obtain ⟨_, _, _, _, e⟩ := t.raise_manager_frame 0 0 0 hm
    have hreg (k : Nat) : (t.raise bPORT n 0).reg bPORT k 0x044 = s.reg bPORT k 0x044 := by
      rw [reg_raise _ _ _ _ hm (by decide) (by decide) (by decide) (by decide) (by decide), reg, ht]
      exact congrArg (mget _ · _) hregs
    have hport (k : Nat) : (t.raise bPORT n 0).port k = if k = n then y else s.port k := by
      rw [e, ht]
      show (s1.setPort n y).port k = _
      rw [port_setPort]
      exact congrArg (ite _ y ·) (congrArg (mget _ · k) hports)
    have hhalves (k : Nat) : (t.raise bPORT n 0).halves k = s.halves k := by
      simp only [halves, fld, hreg]
    rw [← ht]
    refine ⟨?_, ?_, hhalves, fun k hk => (hport k).trans (if_neg hk), ?_, ?_⟩
    · rw [e, ht]; exact hpwr
    · rw [e, ht]; exact hmem
    · rw [halfUp, hhalves, hport, if_pos rfl]
      cases half1 <;> simp [y]
    · rw [halfUp, hhalves, hport, if_pos rfl]
      cases half1 <;> simp [y, x, halfUp]
  next hdown =>
    exact ⟨rfl, rfl, fun _ => rfl, fun _ _ => rfl, by simpa using hdown, rfl⟩

/-- Both halves of a port go down. -/
theorem portLost_spec (n : Nat) : let u := (s.linkLost n false).linkLost n true
    u.pwr = s.pwr ∧ u.mem = s.mem ∧ (∀ k, u.halves k = s.halves k) ∧ (∀ k, k ≠ n → u.port k = s.port k) ∧
      u.portUp n = false := by
  obtain ⟨hpwr, hmem, hhalves, hport, hdown, -⟩ := s.linkLost_spec n false
  obtain ⟨hpwr', hmem', hhalves', hport', hdown', hother⟩ := (s.linkLost n false).linkLost_spec n true
  refine ⟨hpwr'.trans hpwr, hmem'.trans hmem, fun k => (hhalves' k).trans (hhalves k),
    fun k hk => (hport' k hk).trans (hport k hk), ?_⟩
  have hother' : ((s.linkLost n false).linkLost n true).halfUp n false = false := hother.trans hdown
  rw [portUp, hdown', hother']
  rfl

/-- A list of ports goes down; the others stay as they are. -/
theorem portsLost_spec (ns : List Nat) : let u := ns.foldl (fun s n => (s.linkLost n false).linkLost n true) s
    u.pwr = s.pwr ∧ u.mem = s.mem ∧ (∀ k, u.halves k = s.halves k) ∧ (∀ k, k ∉ ns → u.port k = s.port k) ∧
      ∀ k, k ∈ ns → u.portUp k = false := by
  induction ns generalizing s with
  | nil => exact ⟨rfl, rfl, fun _ => rfl, fun _ _ => rfl, fun _ hk => absurd hk List.not_mem_nil⟩
  | cons n ns ih =>
    obtain ⟨hpwr, hmem, hhalves, hport, hdown⟩ := s.portLost_spec n
    obtain ⟨hpwr', hmem', hhalves', hport', hdown'⟩ := ih ((s.linkLost n false).linkLost n true)
    refine ⟨hpwr'.trans hpwr, hmem'.trans hmem, fun k => (hhalves' k).trans (hhalves k), fun k hk => ?_, fun k hk => ?_⟩
    · obtain ⟨hn, hns⟩ := not_or.mp (mt List.mem_cons.mpr hk)
      exact (hport' k hns).trans (hport k hn)
    · by_cases hns : k ∈ ns
      · exact hdown' k hns
      · obtain rfl : k = n := (List.mem_cons.mp hk).resolve_right hns
        simp only [portUp, halfUp] at hdown ⊢
        rw [List.foldl_cons, hhalves', hport' k hns]
        exact hdown

variable {s}

theorem serdesRefLost_spec (fd1 : Bool) (hon : s.pwr.phase = .on) : ∃ u, exec (.serdesRefLost fd1) s = .next u ∧
    u.pwr = s.pwr ∧ u.mem = s.mem ∧ (∀ n, n < 24 → (12 ≤ n ↔ fd1 = true) → u.portUp n = false) ∧
    (∀ n, n < 24 → ¬ (12 ≤ n ↔ fd1 = true) → u.port n = s.port n) := by
  refine ⟨_, congrArg Host.Outcome.next (if_neg (by simp [(s.phase_of_on hon).1])), ?_⟩
  extract_lets ns
  have mem_ns {n : Nat} (hn : n < 24) : n ∈ ns ↔ (12 ≤ n ↔ fd1 = true) := by
    unfold ns
    cases fd1
    · simp
      omega
    · simp only [if_pos, List.mem_append, List.mem_map, List.mem_range, List.mem_singleton, iff_true]
      constructor
      · rintro (⟨m, -, rfl⟩ | rfl) <;> omega
      · exact fun h => .inl ⟨n - 12, by omega, by omega⟩
  obtain ⟨hpwr, hmem, -, hport, hdown⟩ := s.portsLost_spec ns
  exact ⟨hpwr, hmem, fun n hn h => hdown n ((mem_ns hn).mpr h), fun n hn h => hport n (mt (mem_ns hn).mp h)⟩

end State

/-- Settles O29: each cause by its own lemma, the fatal ones from what a fatal stop leaves. -/
theorem fatalCausesAndTakeover : Obligations.FatalCausesAndTakeover := by
  unfold Obligations.FatalCausesAndTakeover
  intro s x stopped
  refine ⟨fun hon => ⟨fun die pll => State.referenceLost_on pll hon, fun rail => State.railFault_on hon,
    State.pmFailover_fatal hon, State.pmFailover_takeover hon,
    fun hsag hv hbank hstage r => State.lastGasp_spec r hon hsag hv hbank hstage,
    fun fd1 => State.serdesRefLost_spec fd1 hon⟩, fun hstart rail => State.railFault_starting hstart, rfl⟩

end Sys2Proof.Machine
end

section
/-! PROOF. The throttle's records and reports (O25 to O28; R63 to R70): the pattern of a frame, what a request of K
leaves alone, shares lowered one after another, and what an event of the power managers' pages changes. -/

namespace Sys2Proof.Machine

/-! ### The pattern of a frame (R63) -/

/-- The periods kept among the first n are the steps of floor(j × k / 64) up to n. -/
theorem length_filter_keptAt {k : Nat} (hk : k ≤ 64) (n : Nat) :
    ((List.range n).filter (fun j => keptAt k j)).length = n * k / 64 := by
  induction n with
  | zero => simp
  | succ n ih =>
    rw [List.range_succ, List.filter_append, List.length_append, ih, List.filter_singleton, Nat.succ_mul]
    by_cases h : keptAt k n = true
    · have hstep : n * k / 64 < (n * k + k) / 64 := by simpa [keptAt, Nat.succ_mul] using h
      simp only [h, cond_true, List.length_singleton]
      omega
    · have hstep : ¬ n * k / 64 < (n * k + k) / 64 := by simpa [keptAt, Nat.succ_mul] using h
      simp only [h, cond_false, List.length_nil]
      omega

/-- Settles O26: of 64 periods the pattern keeps the floor of 64 × K / 64. -/
theorem keepPattern : Obligations.KeepPattern := by
  unfold Obligations.KeepPattern
  intro k hk
  refine ⟨?_, fun j _ => decide_eq_true_iff⟩
  rw [length_filter_keptAt hk]
  omega

/-! ### Maps written key by key -/

theorem mget_foldl_mset {α : Type} [DecidableEq α] (d : α) (g : Nat → α) (l : List Nat) (m : SMap α) (p : Nat) :
    mget d (l.foldl (fun m p => mset d m p (g p)) m) p = if p ∈ l then g p else mget d m p := by
  induction l generalizing m with
  | nil => simp
  | cons a l ih =>
    rw [List.foldl_cons, ih, mget_mset]
    by_cases hl : p ∈ l <;> by_cases ha : p = a <;> simp [hl, ha]

theorem mget_eq_default {α : Type} {d : α} {m : SMap α} {p : Nat} (h : p ∉ m.map Prod.fst) : mget d m p = d :=
  (mget_eq_or_mem d m p).resolve_right fun hm => h (List.mem_map_of_mem (f := Prod.fst) hm)

/-! ### Shares lowered one after another (R68) -/

namespace Pwr

theorem shareOf_lowerShare (x : Pwr) (q d p : Nat) :
    (x.lowerShare q d).shareOf p = if p = q then max 1 (min x.kCap (x.shareOf q) - d) else x.shareOf p :=
  mget_mset ..

variable {l : List (Nat × Nat)} {d : Nat × Nat → Nat} {p : Nat}

theorem foldl_lowerShare (l : List (Nat × Nat)) (d : Nat × Nat → Nat) (x : Pwr) :
    ∃ m, l.foldl (fun x y => x.lowerShare y.1 (d y)) x = { x with shareK := m } := by
  induction l generalizing x with
  | nil => exact ⟨_, rfl⟩
  | cons y l ih =>
    obtain ⟨m, e⟩ := ih (x.lowerShare y.1 (d y))
    exact ⟨m, e⟩

theorem shareOf_foldl_lowerShare_other (x : Pwr) (h : ∀ y ∈ l, y.1 ≠ p) :
    (l.foldl (fun x y => x.lowerShare y.1 (d y)) x).shareOf p = x.shareOf p := by
  induction l generalizing x with
  | nil => rfl
  | cons y l ih =>
    rw [List.foldl_cons, ih _ fun z hz => h z (List.mem_cons_of_mem _ hz), shareOf_lowerShare,
      if_neg (h y List.mem_cons_self).symm]

theorem shareOf_foldl_lowerShare_le (x : Pwr) (h : 1 ≤ x.shareOf p) :
    (l.foldl (fun x y => x.lowerShare y.1 (d y)) x).shareOf p ≤ x.shareOf p := by
  induction l generalizing x with
  | nil => exact Nat.le_refl _
  | cons y l ih =>
    have hstep : 1 ≤ (x.lowerShare y.1 (d y)).shareOf p ∧ (x.lowerShare y.1 (d y)).shareOf p ≤ x.shareOf p := by
      rw [shareOf_lowerShare]
      split
      · subst_vars
        omega
      · omega
    exact (ih _ hstep.1).trans hstep.2

/-- A partition on the list falls, whatever else is on it. -/
theorem shareOf_foldl_lowerShare_lt (x : Pwr) (hd : ∀ y, 1 ≤ d y) (hp : ∃ y ∈ l, y.1 = p) (h : 1 < x.shareOf p) :
    (l.foldl (fun x y => x.lowerShare y.1 (d y)) x).shareOf p < x.shareOf p := by
  induction l generalizing x with
  | nil => simp at hp
  | cons y l ih =>
    have hy := hd y
    rw [List.foldl_cons]
    by_cases hk : p = y.1
    · have hstep : (x.lowerShare y.1 (d y)).shareOf p = max 1 (min x.kCap (x.shareOf p) - d y) := by
        rw [shareOf_lowerShare, if_pos hk, hk]
      have hle := shareOf_foldl_lowerShare_le (l := l) (d := d) (p := p) (x.lowerShare y.1 (d y)) (by omega)
      omega
    · have hsame : (x.lowerShare y.1 (d y)).shareOf p = x.shareOf p := by rw [shareOf_lowerShare, if_neg hk]
      obtain ⟨z, hz, hzp⟩ := hp
      have hl : z ∈ l := (List.mem_cons.mp hz).resolve_left (by rintro rfl; exact hk hzp.symm)
      rw [← hsame]
      exact ih _ ⟨z, hl, hzp⟩ (by rw [hsame]; exact h)

end Pwr

namespace State

variable (s : State)

/-! ### Requests of K (R64, R65) -/

theorem ramp_eq : ∃ k, s.ramp = { s with pwr := { s.pwr with kSlope := k } } := by
  unfold ramp
  split
  · exact ⟨_, rfl⟩
  · exact ⟨_, rfl⟩

theorem foldl_rampShare (old : Pwr) (l : SMap Nat) (x : Pwr) :
    ∃ m, l.foldl (fun x e => old.rampShare x e.1) x = { x with slopeShare := m } := by
  induction l generalizing x with
  | nil => exact ⟨_, rfl⟩
  | cons e l ih =>
    have hstep : ∃ m, old.rampShare x e.1 = { x with slopeShare := m } := by
      unfold Pwr.rampShare
      split
      · exact ⟨_, rfl⟩
      · exact ⟨_, rfl⟩
    obtain ⟨m, hm⟩ := hstep
    obtain ⟨m', hm'⟩ := ih (old.rampShare x e.1)
    exact ⟨m', by rw [List.foldl_cons, hm', hm]⟩

theorem rampShares_eq (old : Pwr) : ∃ m, s.rampShares old = { s with pwr := { s.pwr with slopeShare := m } } := by
  unfold rampShares
  split
  · exact ⟨_, rfl⟩
  · obtain ⟨m, e⟩ := foldl_rampShare old old.shareK s.pwr
    exact ⟨m, by rw [updPwr, e]⟩

/-- Beyond the requests themselves only the slope limit's own K, module-wide and by partition, can change. -/
theorem request_eq (f : Pwr → Pwr) :
    ∃ k m, s.request f = { s with pwr := { f s.pwr with kSlope := k, slopeShare := m } } := by
  have hramp : ∃ k, (if s.pwr.want < (s.updPwr f).pwr.want then (s.updPwr f).ramp else s.updPwr f) =
      { s with pwr := { f s.pwr with kSlope := k } } := by
    split
    · obtain ⟨k, e⟩ := (s.updPwr f).ramp_eq
      exact ⟨k, e⟩
    · exact ⟨_, rfl⟩
  obtain ⟨k, hk⟩ := hramp
  obtain ⟨m, hm⟩ := rampShares_eq { s with pwr := { f s.pwr with kSlope := k } } s.pwr
  unfold request
  dsimp only
  rw [hk, hm]
  exact ⟨k, m, rfl⟩

/-! ### Free values and register fields -/

theorem freeIn_bounds (i : Nat) {lo hi : Nat} (h : lo ≤ hi) : lo ≤ s.freeIn i lo hi ∧ s.freeIn i lo hi ≤ hi := by
  have hlt := Nat.mod_lt (Config.freeNat s.fresh i) (Nat.succ_pos (hi - lo))
  rw [Nat.succ_eq_add_one] at hlt
  unfold freeIn
  omega

theorem fld_eq (blk inst off lo w : Nat) : s.fld blk inst off lo w = (s.reg blk inst off).toNat / 2 ^ lo % 2 ^ w := by
  rw [fld, BitVec.toNat_ushiftRight, Nat.shiftRight_eq_div_pow]

/-- A field of the register just written. -/
theorem fld_setReg_ofNat (blk inst off lo w : Nat) {n : Nat} (hn : n < 2 ^ 32) :
    (s.setReg blk inst off (BitVec.ofNat 32 n)).fld blk inst off lo w = n / 2 ^ lo % 2 ^ w := by
  rw [fld_eq, reg_setReg_same, BitVec.toNat_ofNat, Nat.mod_eq_of_lt hn]

/-! ### Events of the power managers' pages (R469, R470) -/

/-- What an event on a power manager's page leaves: the event recorded, and every block register and every counter of
the two pages as they were. -/
structure Reported (s u : State) (inst bit : Nat) : Prop where
  ev : u.ev bPWR inst bit = true
  pwr : u.pwr = s.pwr
  mem : u.mem = s.mem
  tiles : u.tiles = s.tiles
  queues : u.queues = s.queues
  reg : ∀ b i o, 0x030 ≤ o → o < 4096 → u.reg b i o = s.reg b i o
  cnt : ∀ i o, i < 4096 → o < 4096 → u.cnt bPWR i o = s.cnt bPWR i o
  command : u.mb .manager true = s.mb .manager true

theorem reported_raise (inst : Nat) {bit : Nat} (i0 : W32) (hb : bit < 32) :
    Reported s (s.raise bPWR inst bit i0) inst bit := by
  have hm : s.managerOnly bPWR inst := managerOnly_power inst
  refine ⟨raise_ev _ _ _ hm hb, ?_, mem_raise _ _ _ _ hm, tiles_raise _ _ _ _ hm, queues_raise _ _ _ _ hm,
    fun b i o hlo ho => ?_, fun i o hi ho => ?_, mb_raise _ _ _ _ hm⟩
  · obtain ⟨r, c, m, l, e⟩ := s.raise_manager_frame bit i0 0 hm
    rw [e]
  · have ne {x : Nat} (hx : x < 0x030) : o ≠ x := by omega
    exact reg_raise _ _ _ _ hm ho (ne (by decide)) (ne (by decide)) (ne (by decide)) (ne (by decide))
  · refine cnt_raise _ _ _ _ hm ?_ ?_ <;> simp only [rk, bPWR, bERR] <;> omega

theorem Reported.fld {s u : State} {inst bit : Nat} (h : Reported s u inst bit) {b i o : Nat} (lo w : Nat)
    (hlo : 0x030 ≤ o) (ho : o < 4096) : u.fld b i o lo w = s.fld b i o lo w := by
  rw [State.fld, h.reg b i o hlo ho]
  rfl

end State

end Sys2Proof.Machine
end

section
/-! PROOF. The throttle (O25; R62 to R66, R71, R76, R80): the frame boundary, droop, sag handling, and the samples of
temperature up to the trip. -/

namespace Sys2Proof.Machine

namespace State

variable {s : State}

theorem stopping_of_not_goingDown (h : s.goingDown = false) : s.stopping = false := by
  unfold goingDown at h
  unfold stopping
  cases hphase : s.pwr.phase with
  | down why => simp [hphase] at h
  | _ => rfl

/-! ### The frame boundary (R64, R65) -/

theorem throttleFrameBoundary_spec (hp : s.powered = true) (hd : s.goingDown = false) (hf : s.pwr.frame = 0) :
    ∃ u, exec .throttleFrameBoundary s = .next u ∧ u = { s with pwr := u.pwr } ∧ u.pwr.frame = 0 ∧
      (∀ p, mget 64 u.pwr.keepShare p = min (s.pwr.shareOf p) (mget 64 s.pwr.slopeShare p)) ∧
      u.pwr.keep = (if s.pwr.halt = true then 0
        else min (min s.pwr.kCap s.pwr.kSag) (min s.pwr.kTherm s.pwr.kSlope)) := by
  refine ⟨s.loadK, congrArg Host.Outcome.next (if_pos (by simp [hp, hf])), rfl, hf, fun p => ?_, ?_⟩
  · show mget 64 (List.foldl _ _ _) p = _
    rw [mget_foldl_mset]
    split
    · rfl
    next hout =>
      rw [List.map_append, List.mem_append, not_or] at hout
      rw [Pwr.shareOf, mget_eq_default hout.1, mget_eq_default hout.2]
      rfl
  · show (if s.stopping = true then 0 else s.pwr.want) = _
    rw [if_neg (by simp [stopping_of_not_goingDown hd])]
    rfl

/-! ### Droop (R66) -/

theorem droopTrip_deep (d : Droop) (hp : s.powered = true) (hdie : d.die < 4) (hr : s.pwr.rails = 8)
    (hdeep : s.fld bPWR 0 0x068 0 8 < d.drop) : ∃ u, exec (.droopTrip d) s = .next u ∧ u.pwr.droop = true ∧
      d.die ∈ u.pwr.droopDies ∧
      u.pwr = { s.pwr with droopDies := u.pwr.droopDies, droopFor := 0, droopSeen := true } ∧
      u.cnt bPWR s.pwrInst 0xC08 = s.cntUp bPWR s.pwrInst 0xC08 1 ∧ u.regs = s.regs ∧ u.mem = s.mem := by
  refine ⟨_, congrArg Host.Outcome.next (if_pos (by simp [hp, hdie, hr, hdeep])), ?_⟩
  have hmem : d.die ∈ (if s.pwr.droopDies.contains d.die then s.pwr.droopDies else s.pwr.droopDies ++ [d.die]) := by
    split
    next h => exact List.contains_iff_mem.mp h
    next => exact List.mem_append_right _ List.mem_cons_self
  refine ⟨?_, hmem, rfl, cnt_count_same .., rfl, rfl⟩
  show (!List.isEmpty _) = true
  rw [Bool.not_eq_true', List.isEmpty_eq_false_iff]
  exact List.ne_nil_of_mem hmem

/-! ### Sag (R60, R62, R71) -/

variable (s)

/-- A change of the input's condition writes only the supply's part of the power record, and may use a free value. -/
theorem inputNow_eq (low below40 cut : Bool) : ∃ g f b n, s.inputNow low below40 cut = { s with
    fresh := n
    pwr := { s.pwr with low := low, below40 := below40, cut := cut, powerGood := g, bankFull := f, bank := b } } := by
  unfold inputNow
  extract_lets s1
  split
  · exact ⟨_, _, _, _, rfl⟩
  · exact ⟨_, _, _, _, rfl⟩

/-- Sag handling that begins requests 26 and is counted and reported; K in force stays until the frame ends. -/
theorem sagEnter_spec (hp : s.powered = true) (hd : s.goingDown = false) (hsag : s.pwr.sag = false) :
    s.sagEnter.pwr.sag = true ∧ s.sagEnter.pwr.kSag = 26 ∧ s.sagEnter.pwr.cut = s.pwr.cut ∧
      s.sagEnter.pwr.below40 = s.pwr.below40 ∧ s.sagEnter.pwr.keep = s.pwr.keep ∧
      s.sagEnter.ev bPWR s.pwrInst 0 = true ∧
      s.sagEnter.cnt bPWR s.pwrInst 0xC10 = s.cntUp bPWR s.pwrInst 0xC10 1 ∧
      s.sagEnter.tiles = s.tiles ∧ s.sagEnter.mem = s.mem := by
  obtain ⟨k, m, e⟩ := s.request_eq (fun x => { x with sag := true, kSag := 26 })
  unfold sagEnter
  rw [if_neg (by simp [hp, hd, hsag])]
  extract_lets s1
  have hpwr : s1.pwr = { s.pwr with sag := true, kSag := 26, kSlope := k, slopeShare := m } := (congrArg State.pwr e :)
  have hr : Reported s1 (s1.raise bPWR s.pwrInst 0) s.pwrInst 0 := s1.reported_raise s.pwrInst 0 (by decide)
  have hcnt : (s1.raise bPWR s.pwrInst 0).cnt bPWR s.pwrInst 0xC10 = s.cntUp bPWR s.pwrInst 0xC10 1 := by
    rw [hr.cnt _ _ pwrInst_lt (by decide), show s1 = _ from congrArg (State.count · bPWR s.pwrInst 0xC10 1) e]
    exact cnt_count_same ..
  have hsup := hr.pwr.trans hpwr
  exact ⟨(congrArg Pwr.sag hsup :), (congrArg Pwr.kSag hsup :), (congrArg Pwr.cut hsup :), (congrArg Pwr.below40 hsup :),
    (congrArg Pwr.keep hsup :), hr.ev, hcnt, hr.tiles.trans (congrArg State.tiles e :),
    hr.mem.trans (congrArg State.mem e :)⟩

variable {s}

section
variable (hp : s.powered = true) (hd : s.goingDown = false)
include hp hd

theorem sagStart_spec (below : Bool) (hs : s.pwr.seated = true) (hv : s.pwr.vaux = true) (hsag : s.pwr.sag = false) :
    ∃ u, exec (.sagStart below) s = .next u ∧ u.pwr.sag = true ∧ u.pwr.kSag = 26 ∧ u.pwr.below40 = below ∧
      u.pwr.keep = s.pwr.keep ∧ u.ev bPWR s.pwrInst 0 = true ∧
      u.cnt bPWR s.pwrInst 0xC10 = s.cntUp bPWR s.pwrInst 0xC10 1 ∧ u.tiles = s.tiles ∧ u.mem = s.mem := by
  refine ⟨_, congrArg Host.Outcome.next (if_pos (by simp [hs, hv])), ?_⟩
  obtain ⟨g, f, b, n, e⟩ := s.inputNow_eq true below s.pwr.cut
  rw [e]
  obtain ⟨hin, hk, -, hbelow, hkeep, hev, hcnt, htiles, hmem⟩ := sagEnter_spec { s with
    fresh := n
    pwr := { s.pwr with low := true, below40 := below, powerGood := g, bankFull := f, bank := b } } hp hd hsag
  exact ⟨hin, hk, hbelow, hkeep, hev, hcnt, htiles, hmem⟩

theorem inputProtectionOpen_spec (hs : s.pwr.seated = true) (hv : s.pwr.vaux = true) (hsag : s.pwr.sag = false) :
    ∃ u, exec .inputProtectionOpen s = .next u ∧ u.pwr.sag = true ∧ u.pwr.kSag = 26 ∧ u.pwr.cut = true ∧
      u.ev bPWR s.pwrInst 0 = true ∧ u.mem = s.mem := by
  refine ⟨_, congrArg Host.Outcome.next (if_pos (by simp [hs, hv])), ?_⟩
  obtain ⟨g, f, b, n, e⟩ := s.inputNow_eq s.pwr.low s.pwr.below40 true
  rw [e]
  obtain ⟨hin, hk, hcut, -, -, hev, -, -, hmem⟩ := sagEnter_spec { s with
    fresh := n
    pwr := { s.pwr with cut := true, powerGood := g, bankFull := f, bank := b } } hp hd hsag
  exact ⟨hin, hk, hcut, hev, hmem⟩

end

/-- The input is good again after the bank has supplied the load. -/
theorem inputNow_good_of_onBank (h : s.pwr.onBank = true) : s.inputNow false false false = { s with
    fresh := s.fresh + 1
    pwr := { s.pwr with
      low := false, below40 := false, cut := false, bankFull := false
      bank := s.freeIn 0 (min 60 s.pwr.bank) s.pwr.bank } } := by
  unfold inputNow
  extract_lets s1
  have hgood : s1.pwr.onBank = false := rfl
  rw [if_pos (by rw [h, hgood]; rfl)]
  simp only [s1, updPwr, freshen, Bool.not_false, Bool.and_true]
  rfl

/-- The same where the bank has not supplied it. -/
theorem inputNow_good_of_not_onBank (h : s.pwr.onBank = false) : s.inputNow false false false =
    { s with pwr := { s.pwr with low := false, below40 := false, cut := false } } := by
  unfold inputNow
  extract_lets s1
  rw [if_neg (by simp [h])]
  simp only [s1, updPwr, Bool.not_false, Bool.and_true]
  rfl

theorem inputProtectionClose_spec (hcut : s.pwr.cut = true) : ∃ u, exec .inputProtectionClose s = .next u ∧
    u = { s with pwr := u.pwr, tray := u.tray, fresh := s.fresh + 1 } ∧
    u.pwr = { s.pwr with cut := false, low := false, below40 := false, bankFull := false, bank := u.pwr.bank } ∧
    min 60 s.pwr.bank ≤ u.pwr.bank ∧ u.pwr.bank ≤ s.pwr.bank := by
  refine ⟨_, congrArg Host.Outcome.next (if_pos hcut), ?_⟩
  rw [inputNow_good_of_onBank (by simp [Pwr.onBank, hcut])]
  exact ⟨rfl, rfl, s.freeIn_bounds 0 (Nat.min_le_right ..)⟩

theorem sagEnd_spec (hd : s.goingDown = false) (hcut : s.pwr.cut = false) (hsag : s.pwr.sag = true) :
    ∃ u, exec .sagEnd s = .next u ∧ u.pwr.sag = false ∧ u.pwr.kSag = 64 ∧
      u.pwr.keep = s.pwr.keep ∧ u.pwr.below40 = false ∧ u.pwr.bankFull = (s.pwr.bankFull && !s.pwr.below40) ∧
      u = { s with pwr := u.pwr, tray := u.tray, fresh := u.fresh } := by
  refine ⟨_, congrArg Host.Outcome.next ((if_neg (by simp [hcut])).trans (if_pos (by simp [hd, hsag]))), ?_⟩
  have hgood : ∃ b n, s.inputNow false false false = { s with
      fresh := n
      pwr := { s.pwr with
        low := false, below40 := false, cut := false, bankFull := s.pwr.bankFull && !s.pwr.below40, bank := b } } := by
    cases h40 : s.pwr.below40
    · exact ⟨_, _, by rw [inputNow_good_of_not_onBank (by simp [Pwr.onBank, hcut, h40]), Bool.not_false, Bool.and_true]⟩
    · exact ⟨_, _, by rw [inputNow_good_of_onBank (by simp [Pwr.onBank, h40]), Bool.not_true, Bool.and_false]⟩
  obtain ⟨b, n, e⟩ := hgood
  obtain ⟨k, m, e'⟩ := (s.inputNow false false false).request_eq (fun x => { x with sag := false, kSag := 64 })
  rw [e', e]
  exact ⟨rfl, rfl, rfl, rfl, rfl, rfl⟩

/-! ### Temperature (R76, R80) -/

theorem thermK_cold {t : Int} (h : t ≤ 1000) : thermK t = 64 := if_pos h
theorem thermK_hot {t : Int} (h : 1050 ≤ t) : thermK t = 8 := by
  unfold thermK
  rw [if_neg (by omega), if_pos h]
/-- Between 100 and 105 °C K falls by 11.2 for each degree, rounded down. -/
theorem thermK_between {t : Int} (h0 : 1000 < t) (h5 : t < 1050) :
    (50 * (64 - thermK t) : Int) < 56 * (t - 1000) + 50 ∧ 56 * (t - 1000) ≤ 50 * (64 - thermK t) := by
  unfold thermK
  rw [if_neg (by omega), if_neg (by omega)]
  omega
theorem thermK_lt {t : Int} (h : 1000 < t) : thermK t < 64 := by
  unfold thermK
  rw [if_neg (by omega)]
  split <;> omega

theorem vcdStep_bounds (cal tj : BitVec 16) (now : Nat) : now - 5 ≤ vcdStep cal now tj ∧ vcdStep cal now tj ≤ now + 5 := by
  unfold vcdStep
  dsimp only
  generalize clampN 550 800 (Config.vcd cal tj) = want
  unfold clampN
  split_ifs <;> omega

theorem thermalSample_spec (tj : BitVec 16) (hp : s.powered = true) (hd : s.goingDown = false) (ht : tj.toInt < 1100) :
    ∃ u, exec (.thermalSample tj) s = .next u ∧ u.pwr.tj = tj ∧ u.pwr.kTherm = thermK tj.toInt ∧
      u.pwr.halt = (s.pwr.halt && decide (1030 ≤ tj.toInt)) ∧ u.pwr.keep = s.pwr.keep ∧ u.mem = s.mem ∧
      u.pwr.vcd = s.pwr.vcd.map (fun e => (e.1, vcdStep (s.store.vcd e.1) e.2 tj)) ∧
      (s.pwr.kTherm = 64 → 1000 < tj.toInt → u.ev bPWR s.pwrInst 2 = true) := by
  refine ⟨_, congrArg Host.Outcome.next (if_pos (by simp [hp, hd])), ?_⟩
  unfold thermal
  extract_lets t k s1
  rw [if_neg (by omega)]
  obtain ⟨kS, m, e⟩ := s.request_eq (fun x => { s.vcdMove tj x with tj := tj, kTherm := k, halt := x.halt && 1030 ≤ t })
  obtain ⟨v, hv⟩ : ∃ v, v = if (s.pwr.kTherm = 64 && k < 64) = true then s1.raise bPWR s.pwrInst 2 else s1 := ⟨_, rfl⟩
  have hr : Reported s1 (s1.raise bPWR s.pwrInst 2) s.pwrInst 2 := s1.reported_raise s.pwrInst 0 (by decide)
  have hsame : v.pwr = s1.pwr ∧ v.mem = s1.mem := by
    rw [hv]
    split
    · exact ⟨hr.pwr, hr.mem⟩
    · exact ⟨rfl, rfl⟩
  have hev (h64 : s.pwr.kTherm = 64) (hhot : 1000 < tj.toInt) : v.ev bPWR s.pwrInst 2 = true := by
    rw [hv, if_pos (by simp [h64, k, t, thermK_lt hhot])]
    exact hr.ev
  obtain ⟨hpwr, hmem⟩ := hsame
  have hsup : v.pwr = { s.vcdMove tj s.pwr with
      tj := tj, kTherm := k, halt := s.pwr.halt && 1030 ≤ t, kSlope := kS, slopeShare := m } :=
    hpwr.trans (congrArg State.pwr e :)
  rw [← hv]
  exact ⟨(congrArg Pwr.tj hsup :), (congrArg Pwr.kTherm hsup :), (congrArg Pwr.halt hsup :), (congrArg Pwr.keep hsup :),
    hmem.trans (congrArg State.mem e :), (congrArg Pwr.vcd hsup :), hev⟩

theorem updStore_updPwr_out (s : State) (f : Store → Store) (g : Pwr → Pwr) :
    ((s.updStore f).updPwr g).out = s.out := rfl

/-- A module that has tripped: keys erased, ports silent. -/
def tripped (s : State) : State :=
  (s.portsStop.eraseAll.updPwr (fun x => { x with phase := .down .thermal, startQueued := false })).alertNow

theorem fatal_eq_tripped {cause : Nat} (hp : s.powered = true) (hd : s.goingDown = false) (hc : cause = 0x12) :
    s.fatal cause = ((s.updStore (fun x => x.note (.fatal cause))).updPwr (fun x => { x with keep := 0 })).tripped := by
  unfold fatal tripped
  simp only [hp, hd, if_pos hc]
  rfl

theorem tripped_spec (v : State) :
    v.tripped.pwr.phase = .down .thermal ∧ v.tripped.store = v.store ∧ v.tripped.out = v.out := ⟨rfl, rfl, rfl⟩

/-- A thermal trip: the module goes down, and unlike any other fatal cause it sends no record. -/
theorem fatal_thermal {cause : Nat} (hp : s.powered = true) (hd : s.goingDown = false) (hc : cause = 0x12) :
    (s.fatal cause).pwr.phase = .down .thermal ∧ (s.fatal cause).store.lastFatal = cause ∧
      (s.fatal cause).out = s.out := by
  obtain ⟨hstore, -, -, -, -⟩ := s.updStore_updPwr (fun x => x.note (.fatal cause)) (fun x => { x with keep := 0 })
  have hout := updStore_updPwr_out s (fun x => x.note (.fatal cause)) (fun x => { x with keep := 0 })
  rw [fatal_eq_tripped hp hd hc]
  obtain ⟨hphase, hstore', hout'⟩ :=
    tripped_spec ((s.updStore (fun x => x.note (.fatal cause))).updPwr (fun x => { x with keep := 0 }))
  exact ⟨hphase, by rw [hstore', hstore, Store.lastFatal_note], hout'.trans hout⟩

theorem execThermalSample_hot (tj : BitVec 16) (hp : s.powered = true) (hd : s.goingDown = false)
    (ht : 1100 ≤ tj.toInt) :
    exec (.thermalSample tj) s = .next ((s.updPwr (fun x => { x with tj := tj })).fatal 0x12) := by
  show Host.Outcome.next (if _ then s.thermal tj else s) = _
  rw [if_pos (by simp [hp, hd]), thermal]
  dsimp only
  rw [if_pos ht]

theorem thermalSample_trip (tj : BitVec 16) (hp : s.powered = true) (hd : s.goingDown = false) (ht : 1100 ≤ tj.toInt) :
    ∃ u, exec (.thermalSample tj) s = .next u ∧ u.pwr.phase = .down .thermal ∧ u.store.lastFatal = 0x12 ∧
      u.out = s.out := by
  rw [execThermalSample_hot tj hp hd ht]
  exact ⟨_, rfl, fatal_thermal (s := s.updPwr (fun x => { x with tj := tj })) hp hd rfl⟩

theorem thermalHalt_spec (hp : s.powered = true) (hd : s.goingDown = false) (hk : s.pwr.kTherm = 8)
    (ht : 1050 ≤ s.pwr.tj.toInt) (hh : s.pwr.halt = false) : ∃ u, exec .thermalHalt s = .next u ∧ u.pwr.halt = true ∧
      u.pwr.want = 0 ∧ u.ev bPWR s.pwrInst 3 = true ∧ u.tiles = s.tiles ∧ u.mem = s.mem := by
  refine ⟨_, congrArg Host.Outcome.next (if_pos (by simp [hp, hd, hk, ht, hh])), ?_⟩
  have hr := reported_raise (s.updPwr (fun x => { x with halt := true })) s.pwrInst 0 (bit := 3) (by decide)
  have hhalt : ((s.updPwr (fun x => { x with halt := true })).raise bPWR s.pwrInst 3).pwr.halt = true :=
    congrArg Pwr.halt hr.pwr
  exact ⟨hhalt, if_pos hhalt, hr.ev, hr.tiles, hr.mem⟩

end State

/-- Settles O25: each cause of a lower K by its own lemma, and the boundary at which the smallest takes effect. -/
theorem throttleDroopSagAndHeat : Obligations.ThrottleDroopSagAndHeat := by
  unfold Obligations.ThrottleDroopSagAndHeat
  intro s x hp hd
  refine ⟨State.throttleFrameBoundary_spec hp hd, fun hf => ?_, fun d hdie hr => ⟨State.droopTrip_deep d hp hdie hr, fun h => ?_⟩,
    fun h => ?_, fun h => ?_, fun below hs hv hsag => State.sagStart_spec hp hd below hs hv hsag,
    fun hs hv hsag => State.inputProtectionOpen_spec hp hd hs hv hsag, State.inputProtectionClose_spec,
    fun hcut hsag => State.sagEnd_spec hd hcut hsag, fun tj ht => ?_, fun tj ht => State.thermalSample_trip tj hp hd ht,
    fun hk ht hh => State.thermalHalt_spec hp hd hk ht hh⟩
  · exact congrArg Host.Outcome.next (if_neg (by simpa [x, hp] using hf))
  · exact congrArg Host.Outcome.next (if_neg (by simp; omega))
  · exact congrArg Host.Outcome.next (if_pos h)
  · exact congrArg Host.Outcome.next (if_neg (by exact Nat.not_le.mpr h))
  · obtain ⟨u, hu, htj, hk, hhalt, hkeep, hmem, hvcd, hev⟩ := State.thermalSample_spec tj hp hd ht
    refine ⟨u, hu, htj, fun h => ?_, fun h => ?_, fun h0 h5 => ?_, hhalt, hkeep, hmem, fun d v hv => ?_, hev⟩
    · rw [hk, State.thermK_cold h]
    · rw [hk, State.thermK_hot h]
    · rw [hk]
      exact State.thermK_between h0 h5
    · obtain ⟨hlo, hhi⟩ := State.vcdStep_bounds (s.store.vcd d) tj v
      exact ⟨_, by rw [hvcd]; exact List.mem_map_of_mem hv, hlo, hhi⟩

end Sys2Proof.Machine
end

section
/-! PROOF. The cap, the shares and the slope limit (O27; R67 to R70, R82): what a write of the cap, a step under the cap
and a measured step of power leave, and the manager's two commands. -/

namespace Sys2Proof.Machine

theorem clampN_eq (lo hi x : Nat) : clampN lo hi x = if x < lo then lo else if hi < x then hi else x := rfl

theorem clampN_bounds {lo hi : Nat} (h : lo ≤ hi) (x : Nat) : lo ≤ clampN lo hi x ∧ clampN lo hi x ≤ hi := by
  rw [clampN_eq]
  split_ifs <;> omega

theorem bitsAt_low (n w : Nat) : bitsAt n 0 w = n % 2 ^ w := by rw [bitsAt, Nat.pow_zero, Nat.div_one]

theorem clampReg_cap (v : W32) : clampReg bPWR 0x040 v = BitVec.ofNat 32 (clampN 800 3200 (v.toNat % 4096)) :=
  congrArg (fun n => BitVec.ofNat 32 (clampN 800 3200 n)) (bitsAt_low v.toNat 12)

theorem one_le_portionOf (c e m : Nat) : 1 ≤ portionOf c e m := Nat.le_max_left ..

theorem le_foldl_min {α : Type} (f : α → Nat) (l : List α) {a : Nat} (c : Nat) (hc : a ≤ c) (hf : ∀ y, a ≤ f y) :
    a ≤ l.foldl (fun d y => min d (f y)) c := by
  induction l generalizing c with
  | nil => exact hc
  | cons y l ih => exact ih _ (Nat.le_min.mpr ⟨hc, hf y⟩)

namespace State

variable (s : State)

/-! ### The state among M0 to M2 (Table 3-5) -/

/-- The power state follows GATE and the cap while the module is in M0 to M2; nothing else changes. -/
theorem setMState_eq : s.setMState =
    { s with pwr := { s.pwr with state := if s.pwr.state < 3 then s.mState else s.pwr.state } } := by
  unfold setMState
  split <;> rfl

@[simp] theorem reg_setMState (b i o : Nat) : s.setMState.reg b i o = s.reg b i o := by
  rw [setMState_eq]
  rfl
@[simp] theorem fld_setMState (b i o lo w : Nat) : s.setMState.fld b i o lo w = s.fld b i o lo w := by
  rw [setMState_eq]
  rfl
theorem setMState_state (h : s.pwr.state < 3) : s.setMState.pwr.state = s.mState := by
  rw [setMState_eq]
  exact if_pos h

/-! ### The cap (R67) -/

/-- Watts that a write of PWR_CAP stores. -/
def capOf (v : W32) : Nat := clampN 800 3200 (v.toNat % 4096)

/-- The state with the cap stored and followed, before its report. -/
def capped (v : W32) : State := (s.setReg bPWR 0 0x040 (BitVec.ofNat 32 (capOf v))).setMState

theorem fld_setReg_capOf (v : W32) :
    (s.setReg bPWR 0 0x040 (BitVec.ofNat 32 (capOf v))).fld bPWR 0 0x040 0 12 = capOf v := by
  have hb : capOf v ≤ 3200 := (clampN_bounds (by decide) _).2
  rw [fld_setReg_ofNat _ _ _ _ _ _ (by omega)]
  omega

theorem fld_capped (v : W32) : (s.capped v).fld bPWR 0 0x040 0 12 = capOf v :=
  (fld_setMState ..).trans (s.fld_setReg_capOf v)

theorem reg_capped (v : W32) {b i o : Nat} (ho : o < 4096) (h : o ≠ 0x040) : (s.capped v).reg b i o = s.reg b i o := by
  rw [capped, reg_setMState]
  exact reg_setReg_offset _ _ _ _ _ _ _ _ ho (by decide) h

theorem state_capped (v : W32) (h : s.pwr.state < 3) : (s.capped v).pwr.state =
    (if s.fld bPWR 0 0x048 0 1 = 1 then 2 else if 3200 ≤ v.toNat % 4096 then 0 else 1) := by
  have hgate : (s.setReg bPWR 0 0x040 (BitVec.ofNat 32 (capOf v))).fld bPWR 0 0x048 0 1 = s.fld bPWR 0 0x048 0 1 := by
    rw [fld, reg_setReg_offset _ _ _ _ _ _ _ _ (by decide) (by decide) (by decide)]
    rfl
  have hfull : capOf v = 3200 ↔ 3200 ≤ v.toNat % 4096 := by
    rw [capOf, clampN_eq]
    split_ifs <;> omega
  rw [capped, setMState_state (s.setReg bPWR 0 0x040 _) h, mState, hgate, fld_setReg_capOf]
  simp only [hfull]

/-- A write of the cap is reported if and only if it had to be clamped. -/
theorem writeCap_eq (v : W32) : s.writeCap v = (if v.toNat % 4096 < 800 ∨ 3200 < v.toNat % 4096 then
    (s.capped v).raise bPWR s.pwrInst 5 else s.capped v).alertNow := by
  unfold writeCap
  rw [clampReg_cap, bitsAt_low]
  simp only [Bool.or_eq_true, decide_eq_true_eq]
  rfl

/-- What a write of the cap leaves. -/
structure CapWritten (v : W32) (u : State) : Prop where
  cap : u.fld bPWR 0 0x040 0 12 = capOf v
  reported : v.toNat % 4096 < 800 ∨ 3200 < v.toNat % 4096 → u.ev bPWR s.pwrInst 5 = true
  quiet : 800 ≤ v.toNat % 4096 → v.toNat % 4096 ≤ 3200 → u.out = s.out ∧ u.ev bPWR s.pwrInst 5 = s.ev bPWR s.pwrInst 5
  state : s.pwr.state < 3 → u.pwr.state =
    (if s.fld bPWR 0 0x048 0 1 = 1 then 2 else if 3200 ≤ v.toNat % 4096 then 0 else 1)
  mem : u.mem = s.mem
  tiles : u.tiles = s.tiles
  queues : u.queues = s.queues
  command : u.mb .manager true = s.mb .manager true

theorem capWritten_writeCap (v : W32) : s.CapWritten v (s.writeCap v) := by
  have hsame : (s.capped v).out = s.out ∧ (s.capped v).mem = s.mem ∧ (s.capped v).tiles = s.tiles ∧
      (s.capped v).queues = s.queues ∧ (s.capped v).mb .manager true = s.mb .manager true := by
    rw [capped, setMState_eq]
    exact ⟨rfl, rfl, rfl, rfl, rfl⟩
  obtain ⟨hout, hmem, htiles, hqueues, hmb⟩ := hsame
  have hr : Reported (s.capped v) ((s.capped v).raise bPWR s.pwrInst 5) s.pwrInst 5 := reported_raise _ _ _ (by decide)
  rw [writeCap_eq]
  split
  next hclamp =>
    exact ⟨(hr.fld 0 12 (by decide) (by decide)).trans (s.fld_capped v), fun _ => hr.ev, fun _ _ => by omega,
      fun h => (congrArg Pwr.state hr.pwr).trans (s.state_capped v h), hr.mem.trans hmem, hr.tiles.trans htiles,
      hr.queues.trans hqueues, hr.command.trans hmb⟩
  next hin =>
    have hev : (s.capped v).ev bPWR s.pwrInst 5 = s.ev bPWR s.pwrInst 5 := by
      rw [ev, s.reg_capped v (by decide) (by decide)]
      rfl
    exact ⟨s.fld_capped v, fun h => absurd h hin, fun _ _ => ⟨hout, hev⟩, s.state_capped v, hmem, htiles, hqueues, hmb⟩

theorem pwrCapWrite_spec (v : W32) (hp : s.powered = true) (hl : s.locked bPWR 0 = false) :
    ∃ u, exec (.pwrCapWrite v) s = .next u ∧ s.CapWritten v u :=
  ⟨s.writeCap v, congrArg Host.Outcome.next ((if_pos hp).trans (s.pageWrite_unlocked hl ..)), s.capWritten_writeCap v⟩

/-! ### The manager's commands (R417, R459) -/

variable {s}

/-- A command of the manager that touches no queue is served at once, and that is all. -/
theorem mgrCmd_taken {c : Cmd} {u : State} (ht : s.takes c = true) (op : Nat) {k : State → State} (hk : k s = u)
    (hu : u.queues = s.queues) : s.mgrCmd c op k = u := by
  obtain ⟨hfw, hq, hc, -⟩ := takes_iff.mp ht
  unfold mgrCmd command
  rw [if_neg (by simp [hfw, hc, outranked]), if_neg (by simp [chanOk, hc])]
  show (k s).settle = u
  rw [hk]
  exact settle_of_queuesIdle (by rw [queuesIdle, hu]; exact hq)

theorem powerCap_spec {c : Cmd} {watts : Nat} (ht : s.takes c = true) (hl : s.locked bPWR 0 = false)
    (hw : watts < 4096) : ∃ u, exec (.powerCap c watts) s = .next u ∧ u.acked 0 = true ∧ u.mem = s.mem ∧
      u.fld bPWR 0 0x040 0 12 = (if watts < 800 then 800 else if 3200 < watts then 3200 else watts) := by
  obtain ⟨-, -, hc, hf⟩ := takes_iff.mp ht
  have hcap := s.capWritten_writeCap (BitVec.ofNat 32 watts)
  obtain ⟨hack, hmem, -, hqueues, hreg⟩ :=
    (s.writeCap (BitVec.ofNat 32 watts)).answer_manager hc (by rw [hcap.command]; exact hf) 0x0A01 0
  refine ⟨_, congrArg Host.Outcome.next (mgrCmd_taken ht _ ((if_neg (by omega)).trans (if_neg (by simp [hl])))
    (hqueues.trans hcap.queues)), hack, hmem.trans hcap.mem, ?_⟩
  rw [fld, hreg]
  refine hcap.cap.trans ?_
  rw [capOf, BitVec.toNat_ofNat, Nat.mod_eq_of_lt (show watts < 2 ^ 32 by omega), Nat.mod_eq_of_lt hw, clampN_eq]

section
variable {c : Cmd} {p watts nonTile : Nat} (ht : s.takes c = true) (hp0 : p ≠ 0) (hp : p < 1024) (hw : watts < 4096)
  (hl : s.locked bPART p = false) (hfree : (s.part p).lstate ≠ .free)
include ht hp0 hp hw hl hfree

/-- Room under the cap for the shares and the power of what is no tile: the share is stored. -/
theorem powerShare_room
    (hroom : s.shareSum - s.fld bPART p 0x078 0 12 + watts + nonTile ≤ s.fld bPWR 0 0x040 0 12) :
    ∃ u, exec (.powerShare c p watts nonTile) s = .next u ∧ u.mem = s.mem ∧ u.pwr = s.pwr ∧ u.acked 0 = true ∧
      u.fld bPART p 0x078 0 12 = watts ∧ ∀ r, r ≠ p → u.fld bPART r 0x078 0 12 = s.fld bPART r 0x078 0 12 := by
  obtain ⟨-, -, hc, hf⟩ := takes_iff.mp ht
  obtain ⟨hack, hmem, -, hqueues, hreg⟩ :=
    (s.setReg bPART p 0x078 (BitVec.ofNat 32 watts)).answer_manager hc hf 0x0A02 0
  obtain ⟨n, m, o, e⟩ := (s.setReg bPART p 0x078 (BitVec.ofNat 32 watts)).answer_frame c 0x0A02 0 [] (by simp [hc])
  refine ⟨_, congrArg Host.Outcome.next (mgrCmd_taken ht _ ((if_neg (by simp; omega)).trans
    ((if_neg (by simp [hl, hfree])).trans (if_neg (Nat.not_lt.mpr hroom)))) hqueues), hmem, (congrArg State.pwr e :), hack,
    ?_, fun r hr => ?_⟩
  · rw [fld, hreg]
    refine (s.fld_setReg_ofNat bPART p 0x078 0 12 (by omega)).trans ?_
    omega
  · have hkey : rk bPART r 0x078 ≠ rk bPART p 0x078 := by
      simp only [rk]
      omega
    rw [fld, hreg, reg_setReg_other]
    · rfl
    · exact hkey

/-- No room: the command is refused with 0x0005 and no register changes. -/
theorem powerShare_refused
    (hroom : ¬ s.shareSum - s.fld bPART p 0x078 0 12 + watts + nonTile ≤ s.fld bPWR 0 0x040 0 12) :
    ∃ u, exec (.powerShare c p watts nonTile) s = .next u ∧ u.mem = s.mem ∧ u.pwr = s.pwr ∧ u.acked 5 = true ∧
      u.regs = s.regs := by
  obtain ⟨-, -, hc, hf⟩ := takes_iff.mp ht
  obtain ⟨hack, hmem, -, hqueues, -⟩ := s.answer_manager hc hf 0x0A02 5
  obtain ⟨n, m, o, e⟩ := s.answer_frame c 0x0A02 5 [] (by simp [hc])
  exact ⟨_, congrArg Host.Outcome.next (mgrCmd_taken ht _ ((if_neg (by simp; omega)).trans
    ((if_neg (by simp [hl, hfree])).trans (if_pos (Nat.not_le.mp hroom)))) hqueues), hmem, (congrArg State.pwr e :), hack,
    (congrArg State.regs e :)⟩

end

/-! ### Steps under the cap (R68) -/

/-- A partition that has a share and is estimated to draw more. -/
def pastShare (s : State) (y : Nat × Nat) : Prop :=
  y.1 < 1024 ∧ s.fld bPART y.1 0x078 0 12 ≠ 0 ∧ s.fld bPART y.1 0x078 0 12 < y.2

/-- The estimates past their share, and the partitions under a share with it. -/
def pastOf (s : State) (est : List (Nat × Nat)) : List (Nat × Nat) :=
  est.filter (fun x => x.1 < 1024 && s.fld bPART x.1 0x078 0 12 != 0 && s.fld bPART x.1 0x078 0 12 < x.2)
def givenOf (s : State) : List (Nat × Nat) :=
  (s.partIds.map (fun p => (p, s.fld bPART p 0x078 0 12))).filter (fun x => x.2 != 0)

theorem mem_pastOf {est : List (Nat × Nat)} {y : Nat × Nat} : y ∈ s.pastOf est ↔ y ∈ est ∧ s.pastShare y := by
  simp [pastOf, pastShare, and_assoc]

theorem mem_givenOf {p : Nat} (hp : p ∈ s.partIds) (hs : s.fld bPART p 0x078 0 12 ≠ 0) :
    ∃ y ∈ s.givenOf, y.1 = p :=
  ⟨(p, s.fld bPART p 0x078 0 12), List.mem_filter.mpr ⟨List.mem_map_of_mem hp, by simpa using hs⟩, rfl⟩

/-- Above the cap, some partitions past their share: theirs are lowered, and nothing else. -/
theorem shareStep_past {pin : Nat} {est : List (Nat × Nat)} (hcap : s.fld bPWR 0 0x040 0 12 < pin)
    (h : ∃ y, y ∈ est ∧ s.pastShare y) : ∃ d : Nat × Nat → Nat, (∀ y, 1 ≤ d y) ∧ s.shareStep pin est =
      s.updPwr (fun x => (s.pastOf est).foldl (fun x y => x.lowerShare y.1 (d y)) x) := by
  obtain ⟨y, hy⟩ := h
  have hne : (!(s.pastOf est).isEmpty) = true := by
    rw [Bool.not_eq_true', List.isEmpty_eq_false_iff]
    exact List.ne_nil_of_mem (mem_pastOf.mpr hy)
  exact ⟨_, fun y => one_le_portionOf .., (if_pos hcap).trans (if_pos hne)⟩

/-- Above the cap, none past its share: every share's K and the K of all are lowered. -/
theorem shareStep_none {pin : Nat} {est : List (Nat × Nat)} (hcap : s.fld bPWR 0 0x040 0 12 < pin)
    (h : ∀ y, y ∈ est → ¬ s.pastShare y) : ∃ (d : Nat × Nat → Nat) (c : Nat), (∀ y, 1 ≤ d y) ∧ 1 ≤ c ∧
      s.shareStep pin est = s.updPwr (fun x => { s.givenOf.foldl (fun x y => x.lowerShare y.1 (d y)) x with
        kCap := max 1 (x.kCap - c) }) := by
  have hnil : s.pastOf est = [] := List.eq_nil_iff_forall_not_mem.mpr fun y hy =>
    h y (mem_pastOf.mp hy).1 (mem_pastOf.mp hy).2
  refine ⟨_, _, fun y => one_le_portionOf .., ?_, (if_pos hcap).trans (if_neg ?_)⟩
  · exact le_foldl_min _ _ _ (s.freeIn_bounds 0 (by decide)).1 fun y => one_le_portionOf ..
  · show ¬ (!(s.pastOf est).isEmpty) = true
    simp [hnil]

theorem request_kCap (s : State) (f : Pwr → Pwr) :
    ∃ x, s.request f = { s with pwr := x } ∧ x.kCap = (f s.pwr).kCap := by
  obtain ⟨k, m, e⟩ := s.request_eq f
  exact ⟨_, e, rfl⟩

/-- Under the cap K may rise. -/
theorem shareStep_under {pin : Nat} {est : List (Nat × Nat)} (hcap : pin ≤ s.fld bPWR 0 0x040 0 12) :
    ∃ x, s.shareStep pin est = { s with pwr := x } ∧ x.kCap = s.freeIn 0 s.pwr.kCap 64 := by
  unfold shareStep
  dsimp only
  rw [if_neg (Nat.not_lt.mpr hcap)]
  exact s.request_kCap _

theorem shareEstimate_spec (pin : Nat) (est : List (Nat × Nat)) (hp : s.powered = true) (hd : s.goingDown = false) :
    ∃ u, exec (.shareEstimate pin est) s = .next u ∧ u = { s with pwr := u.pwr, fresh := s.fresh + 1 } ∧
      (s.fld bPWR 0 0x040 0 12 < pin → (∀ y, y ∈ est → ¬ s.pastShare y) →
        1 ≤ u.pwr.kCap ∧ (1 < s.pwr.kCap → u.pwr.kCap < s.pwr.kCap) ∧
        ∀ p, p ∈ s.partIds → s.fld bPART p 0x078 0 12 ≠ 0 → 1 < s.pwr.shareOf p → u.pwr.shareOf p < s.pwr.shareOf p) ∧
      (s.fld bPWR 0 0x040 0 12 < pin → (∃ y, y ∈ est ∧ s.pastShare y) → u.pwr.kCap = s.pwr.kCap ∧
        (∀ y, y ∈ est → s.pastShare y → 1 < s.pwr.shareOf y.1 → u.pwr.shareOf y.1 < s.pwr.shareOf y.1) ∧
        ∀ p, (∀ w, (p, w) ∈ est → ¬ s.pastShare (p, w)) → u.pwr.shareOf p = s.pwr.shareOf p) ∧
      (pin ≤ s.fld bPWR 0 0x040 0 12 → s.pwr.kCap ≤ 64 → s.pwr.kCap ≤ u.pwr.kCap ∧ u.pwr.kCap ≤ 64) := by
  refine ⟨(s.shareStep pin est).freshen, congrArg Host.Outcome.next (if_pos (by simp [hp, hd])), ?_⟩
  by_cases hcap : s.fld bPWR 0 0x040 0 12 < pin
  · by_cases h : ∃ y, y ∈ est ∧ s.pastShare y
    · obtain ⟨d, hd1, e⟩ := shareStep_past hcap h
      obtain ⟨m, hm⟩ := Pwr.foldl_lowerShare (s.pastOf est) d s.pwr
      rw [e]
      refine ⟨rfl, fun _ hnone => ?_, fun _ _ => ⟨?_, fun y hy hpast h1 => ?_, fun p hnone => ?_⟩, fun hle => by omega⟩
      · obtain ⟨y, hy, hpast⟩ := h
        exact absurd hpast (hnone y hy)
      · exact (congrArg Pwr.kCap hm :)
      · exact Pwr.shareOf_foldl_lowerShare_lt s.pwr hd1 ⟨y, mem_pastOf.mpr ⟨hy, hpast⟩, rfl⟩ h1
      · refine Pwr.shareOf_foldl_lowerShare_other s.pwr fun y hy hyp => ?_
        obtain ⟨hest, hpast⟩ := mem_pastOf.mp hy
        subst hyp
        exact hnone y.2 hest hpast
    · have hnone : ∀ y, y ∈ est → ¬ s.pastShare y := fun y hy hpast => h ⟨y, hy, hpast⟩
      obtain ⟨d, c, hd1, hc, e⟩ := shareStep_none hcap hnone
      rw [e]
      refine ⟨rfl, fun _ _ => ⟨Nat.le_max_left .., fun h1 => ?_, fun p hpart hs h1 => ?_⟩, fun _ hsome => absurd hsome h,
        fun hle => by omega⟩
      · show max 1 (s.pwr.kCap - c) < _
        omega
      · exact Pwr.shareOf_foldl_lowerShare_lt s.pwr hd1 (mem_givenOf hpart hs) h1
  · obtain ⟨x, e, hk⟩ := shareStep_under (s := s) (est := est) (Nat.not_lt.mp hcap)
    rw [e]
    refine ⟨rfl, fun hlt => absurd hlt hcap, fun hlt => absurd hlt hcap, fun _ h64 => ?_⟩
    show _ ≤ x.kCap ∧ x.kCap ≤ 64
    rw [hk]
    exact s.freeIn_bounds 0 h64

/-! ### The slope limit (R69, R70) -/

/-- The slope limit applies: it is on, and nothing that exempts a change is under way. -/
def slopeBound (s : State) : Prop := s.fld bPWR 0 0x044 0 12 ≠ 0 ∧ s.pwr.exempt = false
/-- Test load may fill a fall. -/
def slopeFilled (s : State) (idle : Bool) : Prop := s.fld bPWR 0 0x06C 0 1 = 1 ∧ idle = true
/-- How far a fall of the input power goes beyond the permitted step. -/
def slopeGap (s : State) (pin : Nat) : Int := 100 * ((s.pwr.prevPin : Int) - pin) - s.fld bPWR 0 0x044 0 12
/-- A rise beyond the permitted step that nothing exempts. -/
def slopeRises (s : State) (pin : Nat) : Bool :=
  !s.pwr.exempt && decide (s.fld bPWR 0 0x044 0 12 + 100 * s.pwr.prevPin < 100 * pin)

/-- The measured step before its test load: energy counted, the K of the slope limit moved. -/
def measured (s : State) (pin : Nat) : State :=
  (s.addEnergy pin).updPwr (fun x => { x with
    prevPin := pin
    kSlope := if s.fld bPWR 0 0x044 0 12 = 0 then 64 else s.slopeK 0 (s.slopeRises pin) s.pwr.kSlope s.pwr.keep
    slopeShare := if s.fld bPWR 0 0x044 0 12 = 0 then [] else (s.pwr.slopeShare.zipIdx.map (fun y =>
      (y.1.1, s.slopeK (y.2 + 1) (s.slopeRises pin) y.1.2 (mget 64 s.pwr.keepShare y.1.1)))).filter (fun y => y.2 != 64) })

/-- The step where no test load is due. -/
def measuredNoFill (s : State) (pin : Nat) : State := (s.measured pin).updPwr (fun x => { x with fill := 0 })

variable {pin : Nat} {idle : Bool}

theorem slopeStep_unbound (h : ¬ s.slopeBound) : s.slopeStep pin idle = s.measuredNoFill pin :=
  if_pos (by simpa [slopeBound, or_iff_not_imp_left] using h)

theorem slopeStep_filled (hb : s.slopeBound) (hf : s.slopeFilled idle) : s.slopeStep pin idle =
    (s.measured pin).updPwr (fun x => { x with fill := ((x.fill : Int) + s.slopeGap pin).toNat }) :=
  (if_neg (by simp [hb.1, hb.2])).trans (if_pos (by simp [hf.1, hf.2]))

theorem slopeStep_missed (hb : s.slopeBound) (hf : ¬ s.slopeFilled idle) (hgap : 0 < s.slopeGap pin) :
    s.slopeStep pin idle = ((s.measuredNoFill pin).count bPWR s.pwrInst 0xC18 1).raise bPWR s.pwrInst 4 :=
  (if_neg (by simp [hb.1, hb.2])).trans ((if_neg (by simpa [slopeFilled] using hf)).trans (if_pos hgap))

theorem slopeStep_within (hb : s.slopeBound) (hf : ¬ s.slopeFilled idle) (hgap : s.slopeGap pin ≤ 0) :
    s.slopeStep pin idle = s.measuredNoFill pin :=
  (if_neg (by simp [hb.1, hb.2])).trans
    ((if_neg (by simpa [slopeFilled] using hf)).trans (if_neg (not_lt.mpr hgap)))

/-- What every measured step leaves, whatever becomes of its test load. -/
structure Stepped (s : State) (pin : Nat) (u : State) : Prop where
  pwr : u.pwr = { (s.measured pin).pwr with fill := u.pwr.fill }
  mem : u.mem = s.mem
  energy : u.cnt bPWR s.pwrInst 0xC28 = s.cntUp bPWR s.pwrInst 0xC28 ((s.pwr.joule + pin) / 10000)

/-- What becomes of the test load. -/
structure LoadFilled (s : State) (pin : Nat) (idle : Bool) (u : State) : Prop where
  filled : s.slopeBound → s.slopeFilled idle → (u.pwr.fill : Int) = max 0 (s.pwr.fill + s.slopeGap pin)
  missed : s.slopeBound → ¬ s.slopeFilled idle → 0 < s.slopeGap pin → u.pwr.fill = 0 ∧ u.ev bPWR s.pwrInst 4 = true ∧
    u.cnt bPWR s.pwrInst 0xC18 = s.cntUp bPWR s.pwrInst 0xC18 1
  kept : ¬ s.slopeBound ∨ s.slopeFilled idle ∨ s.slopeGap pin ≤ 0 → u.cnt bPWR s.pwrInst 0xC18 = s.cnt bPWR s.pwrInst 0xC18
  none : ¬ s.slopeBound ∨ ¬ s.slopeFilled idle → u.pwr.fill = 0

theorem rk_power_ne {i o o' : Nat} (h : o ≠ o') : rk bPWR i o ≠ rk bPWR i o' := by
  simp only [rk]
  omega

theorem cnt_measured_energy (s : State) (pin : Nat) :
    (s.measured pin).cnt bPWR s.pwrInst 0xC28 = s.cntUp bPWR s.pwrInst 0xC28 ((s.pwr.joule + pin) / 10000) :=
  cnt_count_same ..

theorem cnt_measured_missed (s : State) (pin : Nat) :
    (s.measured pin).cnt bPWR s.pwrInst 0xC18 = s.cnt bPWR s.pwrInst 0xC18 :=
  cnt_count_other _ _ (rk_power_ne (by decide))

/-- A step that only sets the test load is a measured step, and no fall is counted as missed. -/
theorem stepped_setFill (s : State) (pin : Nat) (f : Nat → Nat) :
    Stepped s pin ((s.measured pin).updPwr (fun x => { x with fill := f x.fill })) :=
  ⟨rfl, rfl, s.cnt_measured_energy pin⟩

theorem slopeStep_spec (s : State) (pin : Nat) (idle : Bool) :
    Stepped s pin (s.slopeStep pin idle) ∧ LoadFilled s pin idle (s.slopeStep pin idle) := by
  by_cases hb : s.slopeBound
  · by_cases hf : s.slopeFilled idle
    · rw [slopeStep_filled hb hf]
      exact ⟨s.stepped_setFill pin (fun n => ((n : Int) + s.slopeGap pin).toNat),
        fun _ _ => (Int.toNat_eq_max _).trans (max_comm ..), fun _ hn => absurd hf hn,
        fun _ => s.cnt_measured_missed pin, fun h => absurd h (by simp [hb, hf])⟩
    · by_cases hgap : 0 < s.slopeGap pin
      · rw [slopeStep_missed hb hf hgap]
        have hr := reported_raise ((s.measuredNoFill pin).count bPWR s.pwrInst 0xC18 1) s.pwrInst 0 (bit := 4) (by decide)
        generalize ((s.measuredNoFill pin).count bPWR s.pwrInst 0xC18 1).raise bPWR s.pwrInst 4 = u at *
        have hfill : u.pwr.fill = 0 := congrArg Pwr.fill hr.pwr
        have hcnt := hr.cnt s.pwrInst 0xC18 pwrInst_lt (by decide)
        have hene := hr.cnt s.pwrInst 0xC28 pwrInst_lt (by decide)
        rw [cnt_count_other _ _ (rk_power_ne (by decide))] at hene
        rw [cnt_count_same] at hcnt
        refine ⟨⟨?_, hr.mem, hene.trans (s.cnt_measured_energy pin)⟩, fun _ h => absurd h hf,
          fun _ _ _ => ⟨hfill, hr.ev, hcnt.trans ?_⟩, fun h => absurd h ?_, fun _ => hfill⟩
        · rw [hfill]
          exact hr.pwr
        · show BitVec.ofNat 64 (min (((s.measured pin).cnt bPWR s.pwrInst 0xC18).toNat + 1) _) = _
          rw [cnt_measured_missed]
          rfl
        · simp [hb, hf, hgap]
      · rw [slopeStep_within hb hf (not_lt.mp hgap)]
        exact ⟨s.stepped_setFill pin (fun _ => 0), fun _ h => absurd h hf, fun _ _ h => absurd h hgap,
          fun _ => s.cnt_measured_missed pin, fun _ => rfl⟩
  · rw [slopeStep_unbound hb]
    exact ⟨s.stepped_setFill pin (fun _ => 0), fun h => absurd h hb, fun h => absurd h hb,
      fun _ => s.cnt_measured_missed pin, fun _ => rfl⟩

/-! ### The K of the slope limit -/

theorem slopeK_beyond (s : State) (i k inForce : Nat) :
    1 ≤ s.slopeK i true k inForce ∧ s.slopeK i true k inForce ≤ max 1 (min k inForce - 1) :=
  s.freeIn_bounds i (Nat.le_max_left ..)
theorem slopeK_within (s : State) (i : Nat) {k : Nat} (inForce : Nat) (hk : k ≤ 64) :
    k ≤ s.slopeK i false k inForce ∧ s.slopeK i false k inForce ≤ 64 :=
  s.freeIn_bounds i hk

theorem kSlope_off (h : s.fld bPWR 0 0x044 0 12 = 0) : (s.measured pin).pwr.kSlope = 64 := if_pos h
theorem kSlope_on (h : s.fld bPWR 0 0x044 0 12 ≠ 0) :
    (s.measured pin).pwr.kSlope = s.slopeK 0 (s.slopeRises pin) s.pwr.kSlope s.pwr.keep := if_neg h

end State

/-- Settles O27: the cap, a step under it, a measured step and the manager's two commands, each by its own lemma. -/
theorem capSharesAndSlope : Obligations.CapSharesAndSlope := by
  unfold Obligations.CapSharesAndSlope
  intro s hp hd
  refine ⟨fun v hl => ?_, fun pin est => State.shareEstimate_spec pin est hp hd, fun pin idle => ?_,
    fun c watts ht hl hw => State.powerCap_spec ht hl hw,
    fun c p watts nonTile ht hp0 hpart hw hl hfree => ?_⟩
  · obtain ⟨u, hu, h⟩ := s.pwrCapWrite_spec v hp hl
    exact ⟨u, hu, h.cap, h.reported, h.quiet, fun hstate => h.state (by omega), h.mem, h.tiles⟩
  · intro slope gap bound filled
    obtain ⟨hstep, hload⟩ := s.slopeStep_spec pin idle
    have hK : (s.slopeStep pin idle).pwr.kSlope = (s.measured pin).pwr.kSlope := (congrArg Pwr.kSlope hstep.pwr :)
    refine ⟨(s.slopeStep pin idle).freshen, congrArg Host.Outcome.next (if_pos (by simp [hp, hd])),
      (congrArg Pwr.prevPin hstep.pwr :), (congrArg Pwr.keep hstep.pwr :), hstep.mem, hstep.energy,
      (congrArg Pwr.joule hstep.pwr :), fun h => hK.trans (State.kSlope_off h), fun hb hrise => ?_, fun h hle hk => ?_,
      hload.filled, hload.missed, hload.kept, hload.none⟩
    · have hrises : s.slopeRises pin = true := by simp [State.slopeRises, hb.2, slope, hrise]
      rw [State.freshen_pwr, hK, State.kSlope_on hb.1, hrises]
      exact s.slopeK_beyond ..
    · have hwithin : s.slopeRises pin = false := by simp [State.slopeRises, slope, hle]
      rw [State.freshen_pwr, hK, State.kSlope_on h, hwithin]
      exact s.slopeK_within 0 _ hk
  · intro room
    by_cases hroom : room
    · obtain ⟨u, hu, hmem, hpwr, hdone⟩ := State.powerShare_room ht hp0 hpart hw hl hfree hroom
      exact ⟨u, hu, hmem, hpwr, fun _ => hdone, fun h => absurd hroom h⟩
    · obtain ⟨u, hu, hmem, hpwr, hdone⟩ := State.powerShare_refused ht hp0 hpart hw hl hfree hroom
      exact ⟨u, hu, hmem, hpwr, fun h => absurd h hroom, fun _ => hdone⟩

end Sys2Proof.Machine
end

section
/-! PROOF. Power states by request (O28; R77 to R79): the two fields of PWR_STATE_REQ, what a refusal leaves, and the
ends of an entry to state M3 and of an exit. -/

namespace Sys2Proof.Machine

theorem mget_filterMap_const {α : Type} (d v : α) (c : Nat → Bool) (l : List Nat) (t : Nat) :
    mget d (l.filterMap (fun t => if c t then none else some (t, v))) t = if t ∈ l ∧ c t = false then v else d := by
  induction l with
  | nil => simp [mget]
  | cons a l ih =>
    by_cases ha : c a = true
    · rw [List.filterMap_cons_none (by simp [ha]), ih]
      by_cases hta : t = a
      · simp [hta, ha]
      · simp [hta]
    · rw [List.filterMap_cons_some (b := (a, v)) (by simp [ha]), mget, ih]
      by_cases hta : t = a
      · simp [hta, ha]
      · simp [hta]

namespace State

variable (s : State)

/-! ### PWR_STATE_REQ (Table 3-8) -/

/-- GATE and DOWN as they stand. -/
def gate (s : State) : Nat := s.fld bPWR 0 0x048 0 1
def down (s : State) : Nat := s.fld bPWR 0 0x048 1 2

theorem gate_setGate (on : Bool) : (s.setGate on).gate = on.toNat := by
  have h := (s.reg bPWR 0 0x048).isLt
  have hon : on.toNat ≤ 1 := on.toNat_le
  rw [gate, setGate, fld_setMState, fld_setReg_ofNat _ _ _ _ _ _ (by omega)]
  omega

theorem down_setGate (on : Bool) : (s.setGate on).down = s.down := by
  have h := (s.reg bPWR 0 0x048).isLt
  have hon : on.toNat ≤ 1 := on.toNat_le
  rw [down, setGate, fld_setMState, fld_setReg_ofNat _ _ _ _ _ _ (by omega), down, fld_eq]
  omega

theorem down_setDown {d : Nat} (hd : d < 4) : (s.setDown d).down = d := by
  rw [down, setDown, fld_setReg_ofNat _ _ _ _ _ _ (by omega)]
  omega

/-- GATE changes the register and the state among M0 to M2. -/
theorem setGate_state (on : Bool) (h : s.pwr.state < 3) :
    (s.setGate on).pwr.state = if on = true then 2 else if s.fld bPWR 0 0x040 0 12 = 3200 then 0 else 1 := by
  have hcap (w : W32) : (s.setReg bPWR 0 0x048 w).fld bPWR 0 0x040 0 12 = s.fld bPWR 0 0x040 0 12 := by
    rw [fld, reg_setReg_offset _ _ _ _ _ _ _ _ (by decide) (by decide) (by decide)]
    rfl
  have hgate := s.gate_setGate on
  rw [gate, setGate, fld_setMState] at hgate
  rw [setGate, setMState_state (s.setReg bPWR 0 0x048 _) h, mState, hgate, hcap]
  cases on <;> rfl

theorem setGate_frame (on : Bool) : (s.setGate on).tiles = s.tiles ∧ (s.setGate on).pwr.phase = s.pwr.phase ∧
    (s.setGate on).mb .manager true = s.mb .manager true := by
  rw [setGate, setMState_eq]
  exact ⟨rfl, rfl, rfl⟩

/-- A refusal is reported, and leaves DOWN and the phase as they were. -/
theorem reqRefused_spec : s.reqRefused.ev bPWR s.pwrInst 8 = true ∧ s.reqRefused.down = s.down ∧
    s.reqRefused.pwr = s.pwr ∧ s.reqRefused.mem = s.mem ∧ s.reqRefused.tiles = s.tiles := by
  have hr := s.reported_raise s.pwrInst (bit := 8) (BitVec.ofNat 32 (s.freeIn 0 0 (2 ^ 32 - 1))) (by decide)
  exact ⟨hr.ev, hr.fld 1 2 (by decide) (by decide), hr.pwr, hr.mem, hr.tiles⟩

theorem down_downOrderly (why : DownWhy) : (s.downOrderly why).down = s.down := by
  obtain ⟨v, hv, e⟩ := s.downOrderly_eq why
  rw [down, e, fld_updPwr, fld, hv.page 0 0x048 (by decide) (by decide)]
  rfl

variable {s}

theorem powered_of_phase {p : Phase} (h : s.pwr.phase = p) (hp : p ≠ .off) : s.powered = true := by
  simp [powered, h, hp]

/-! ### Requests, one by one (R77, R78) -/

section
variable (hl : s.locked bPWR 0 = false)
include hl

theorem reqWrite_unlocked (v : W32) (f : State → State × Bool) : s.reqWrite v f = (f s).1 := s.pageWrite_unlocked hl ..

theorem stateReqGate_spec (hp : s.powered = true) (on : Bool) : ∃ u, exec (.stateReqGate on) s = .next u ∧
    u.gate = on.toNat ∧ u.down = s.down ∧ (s.pwr.state < 3 → on = true → u.pwr.state = 2) ∧
    (s.pwr.state < 3 → on = false → u.pwr.state = (if s.fld bPWR 0 0x040 0 12 = 3200 then 0 else 1)) ∧
    u.tiles = s.tiles := by
  refine ⟨s.setGate on, congrArg Host.Outcome.next ((if_pos hp).trans (reqWrite_unlocked hl ..)), s.gate_setGate on,
    s.down_setGate on, fun h hon => ?_, fun h hoff => ?_, (s.setGate_frame on).1⟩
  · rw [s.setGate_state on h, if_pos hon]
  · rw [s.setGate_state on h, if_neg (by simp [hoff])]

theorem stateReqM3_spec (hp : s.powered = true) (hon : s.pwr.phase = .on) (h3 : s.pwr.state ≠ 3) :
    ∃ u, exec .stateReqM3 s = .next u ∧ u.mem = s.mem ∧ u.tiles = s.tiles ∧
      (s.tenantTiles = false → u.pwr.phase = .toM3 ∧ u.down = 1) ∧
      (s.tenantTiles = true → u.pwr.phase = .on ∧ u.down = s.down ∧ u.ev bPWR s.pwrInst 8 = true) := by
  refine ⟨s.reqM3.1, congrArg Host.Outcome.next ((if_pos hp).trans (reqWrite_unlocked hl ..)), ?_⟩
  unfold reqM3
  rw [if_neg (by simp [h3])]
  cases ht : s.tenantTiles
  · rw [if_pos (by simp [hon])]
    exact ⟨rfl, rfl, fun _ => ⟨rfl, s.down_setDown (by decide)⟩, nofun⟩
  · rw [if_neg (by simp)]
    obtain ⟨hev, hdown, hpwr, hmem, htiles⟩ := s.reqRefused_spec
    exact ⟨hmem, htiles, nofun, fun _ => ⟨(congrArg Pwr.phase hpwr).trans hon, hdown, hev⟩⟩

theorem stateReqM4_spec (hp : s.powered = true) (hon : s.pwr.phase = .on) : ∃ u, exec .stateReqM4 s = .next u ∧
    (s.tenants = false → u.pwr.phase = .down .requested ∧ u.down = 2) ∧
    (s.tenants = true → u.pwr.phase = .on ∧ u.down = s.down ∧ u.ev bPWR s.pwrInst 8 = true) := by
  refine ⟨s.reqM4.1, congrArg Host.Outcome.next ((if_pos hp).trans (reqWrite_unlocked hl ..)), ?_⟩
  unfold reqM4
  cases ht : s.tenants
  · rw [if_pos (by simp [hon])]
    exact ⟨fun _ => ⟨congrArg Pwr.phase (downOrderly_pwr ..), (down_downOrderly ..).trans (s.down_setDown (by decide))⟩,
      nofun⟩
  · rw [if_neg (by simp), if_neg (by simp [hon])]
    obtain ⟨hev, hdown, hpwr, -, -⟩ := s.reqRefused_spec
    exact ⟨nofun, fun _ => ⟨(congrArg Pwr.phase hpwr).trans hon, hdown, hev⟩⟩

theorem stateReqRun_spec (hon : s.pwr.phase = .on) (h3 : s.pwr.state = 3) :
    ∃ u, exec .stateReqRun s = .next u ∧ u.pwr.phase = .fromM3 ∧ u.down = 0 ∧ u.mem = s.mem := by
  refine ⟨s.reqRun.1, congrArg Host.Outcome.next (reqWrite_unlocked hl ..), ?_⟩
  unfold reqRun
  rw [if_pos (by simp [hon, h3])]
  exact ⟨rfl, s.down_setDown (by decide), rfl⟩

/-- POWER_STATE with DOWN = 0 in states M0 to M2: GATE is set, DOWN is 0. -/
theorem powerState_run {c : Cmd} (gate : Bool) (hv : s.pwr.vaux = true) (hc : c.chan = .manager)
    (hf : (s.mb .manager true).full = true) (hon : s.pwr.phase = .on) (hstate : s.pwr.state < 3) :
    ∃ u, exec (.powerState c gate 0) s = .next u ∧ u.gate = gate.toNat ∧ u.down = 0 ∧
      (u.mb .manager true).full = false ∧ (u.mb .manager true).rc = 0 ∧ u.pwr.phase = .on ∧ u.tiles = s.tiles := by
  have hp : s.powered = true := powered_of_phase hon (by decide)
  have hrun : s.reqRun = (s.setDown 0, true) := by
    unfold reqRun
    rw [if_neg (by simp; omega), if_neg (by simp [hon]), if_pos (by simp [hon])]
  have hexec : exec (.powerState c gate 0) s = .next (((s.setDown 0).setGate gate).answer c 0x0A03 0) := by
    refine congrArg Host.Outcome.next ((if_neg (by simp [hv])).trans ((if_neg (by simp [chanOk, hc])).trans ?_))
    show s.powerState c gate 0 = _
    unfold powerState
    rw [if_neg (by simp [hl])]
    simp only [hrun, hp, Bool.and_self, if_true]
  obtain ⟨htiles, hphase, hmb⟩ := (s.setDown 0).setGate_frame gate
  obtain ⟨hack, -, htiles', -, hreg⟩ := ((s.setDown 0).setGate gate).answer_manager hc (by rw [hmb]; exact hf) 0x0A03 0
  obtain ⟨n, m, o, e⟩ := ((s.setDown 0).setGate gate).answer_frame c 0x0A03 0 [] (by simp [hc])
  simp only [acked, Bool.and_eq_true, Bool.not_eq_true', beq_iff_eq] at hack
  obtain ⟨⟨hfull, -⟩, hrc⟩ := hack
  refine ⟨_, hexec, ?_, ?_, hfull, hrc, ?_, htiles'.trans htiles⟩
  · rw [State.gate, fld, hreg]
    exact (s.setDown 0).gate_setGate gate
  · rw [down, fld, hreg]
    exact ((s.setDown 0).down_setGate gate).trans (s.down_setDown (by decide))
  · rw [e]
    exact hphase.trans hon

end

/-! ### Entry to state M3 and exit from it (R78, Table 3-6) -/

theorem m3EntryDone_spec (h : s.pwr.phase = .toM3) : ∃ u, exec .m3EntryDone s = .next u ∧ u.pwr.phase = .on ∧
    u.pwr.state = 3 ∧ u.pwr.rails = 6 ∧ (∀ t, (u.tile t).run = .unavailable) ∧ u.conns = s.conns ∧
    u.queues = s.queues ∧ u.parts = s.parts ∧ (∀ a, inDram a = true → mget 0 u.mem a = mget 0 s.mem a) := by
  refine ⟨_, congrArg Host.Outcome.next (if_pos h), rfl, rfl, rfl, fun _ => rfl, rfl, rfl, rfl, fun a ha => ?_⟩
  have hlow : a < dramTop := of_decide_eq_true ha
  rw [updPwr_mem, wipe_mem, wipe_mem, mget_mclear, mget_mclear, if_neg, if_neg]
  · simp only [sramAt, sramBase0, dramTop] at hlow ⊢
    omega
  · simp only [imAt, imBase0, dramTop] at hlow ⊢
    omega

theorem tile_freshTiles {t : Nat} (ht : t < 1440) : (mget {} s.freshTiles t : Tile).run =
    (if s.degraded (tileN t) = true then .unavailable else .idle) := by
  unfold freshTiles
  rw [mget_filterMap_const _ _ (fun t => s.degraded (tileN t))]
  cases s.degraded (tileN t) <;> simp [ht]

/-- The repair map of the store is in force, and the grid is ready with it. -/
def gridReady (s : State) : State :=
  { s with ident := { s.ident with map := s.store.repair.1, second := s.store.repair.2, gridReady := true } }

/-- The rails are up again over a set of tiles; the tiles left open, nothing evaluates them. -/
theorem compute_up (s v : State) (ts : SMap Tile) : let u := ({ v with tiles := ts } : State).updPwr (fun x =>
      { State.vcdUp { v with tiles := ts } x with phase := .on, state := s.mState, rails := 8 })
    u.pwr.phase = .on ∧ u.pwr.rails = 8 ∧ u.pwr.state = s.mState ∧ u.mem = v.mem ∧ u.ident = v.ident ∧ u.tiles = ts :=
  ⟨rfl, rfl, rfl, rfl, rfl, rfl⟩

theorem m3ExitDone_spec (h : s.pwr.phase = .fromM3) : ∃ u, exec .m3ExitDone s = .next u ∧ u.pwr.phase = .on ∧
    u.pwr.rails = 8 ∧ u.mem = s.mem ∧ u.pwr.state = s.mState ∧ u.ident.gridReady = true ∧
    (u.ident.map, u.ident.second) = s.store.repair ∧
    (∀ t, t < 1440 → (u.tile t).run = (if u.degraded (tileN t) = true then .unavailable else .idle)) := by
  refine ⟨_, congrArg Host.Outcome.next (if_pos h), ?_⟩
  obtain ⟨hphase, hrails, hstate, hmem, hident, htiles⟩ := compute_up s s.gridReady s.gridReady.freshTiles
  refine ⟨hphase, hrails, hmem, hstate, congrArg Ident.gridReady hident, ?_, fun t ht => ?_⟩
  · exact congrArg (fun x : Ident => (x.map, x.second)) hident
  · have hrun := tile_freshTiles (s := s.gridReady) ht
    rw [← htiles] at hrun
    exact hrun

end State

/-- Settles O28: each request by its own lemma, the ends of entry and exit by theirs. -/
theorem powerStateRequests : Obligations.PowerStateRequests := by
  unfold Obligations.PowerStateRequests
  intro s x down
  exact ⟨fun hp hl => ⟨State.stateReqGate_spec hl hp, State.stateReqM3_spec hl hp, State.stateReqM4_spec hl hp,
      State.stateReqRun_spec hl⟩, State.m3EntryDone_spec, State.m3ExitDone_spec,
    fun c gate hv hc hf hl hon hstate => State.powerState_run hl gate hv hc hf hon hstate⟩

end Sys2Proof.Machine
end

section
/-! PROOF. The launch of a group (O21; R106, R107, R184, R185): what GRID_LAUNCH decides, what the launch of one
armed tile gives it, and that a group's launch does so to its armed tiles and touches no other. -/

namespace Sys2Proof.Machine

namespace State

variable {s : State} {g t : Nat}

/-! ### GRID_LAUNCH (R106, R184) -/

theorem gridLaunch_launched (ht : t ∈ s.groupTiles g) (harmed : (s.tile t).run = .armed) (hmode : s.oneMode g = true) :
    s.gridLaunch g = s.setGroup g { s.group g with launchAt := some s.align } := by
  have hany : (s.groupTiles g).any (fun t => (s.tile t).run == .armed) = true :=
    List.any_eq_true.mpr ⟨t, ht, by simp [harmed]⟩
  unfold gridLaunch
  rw [if_neg (by simp [hany]), if_pos hmode]

theorem gridLaunch_empty (h : ∀ t, t ∈ s.groupTiles g → (s.tile t).run ≠ .armed) : s.gridLaunch g = s.raise bGRID 0 2 := by
  have hnone : (s.groupTiles g).any (fun t => (s.tile t).run == .armed) = false :=
    List.any_eq_false.mpr fun t ht => by simp [h t ht]
  unfold gridLaunch
  rw [if_pos (by simp [hnone])]

/-- EMPTY_LAUNCH is reported, and no tile and no group changes. -/
theorem emptyLaunch_spec : (s.raise bGRID 0 2).ev bGRID 0 2 = true ∧ (s.raise bGRID 0 2).tiles = s.tiles ∧
    (s.raise bGRID 0 2).groups = s.groups := by
  have hm : s.managerOnly bGRID 0 := .inr ⟨by decide, by decide⟩
  refine ⟨s.raise_ev 0 0 hm (by decide), s.tiles_raise 2 0 0 hm, ?_⟩
  obtain ⟨r, c, m, l, e⟩ := s.raise_manager_frame 2 0 0 hm
  rw [e]

theorem exec_gridLaunch {v : W32} (hv : v.toNat % 2 ^ 11 = g) (hl : s.locked bGRID 0 = false) :
    exec (.gridLaunch v) s = .next (s.gridLaunch g) := by
  have hbits : bitsAt v.toNat 0 11 = g := by simpa [bitsAt] using hv
  show Host.Outcome.next (s.pageWrite bGRID 0 0x184 v (·.gridLaunch (bitsAt v.toNat 0 11))) = _
  rw [s.pageWrite_unlocked hl, hbits]

/-! ### The launch of one tile (R106, R185) -/

/-- A tile's record after its launch from the state `s`: it runs from its entry bundle in its mode, the counters of
the launch are 0, and its registers, accumulators and tallies are those it had. -/
structure Launched (s : State) (t : Nat) (y : Tile) : Prop where
  run : y.run = .running
  pc : y.pc = s.fld bTILE t 0x040 0 14
  mode : y.mode = (s.reg bTILE t 0x044).getLsbD 0
  cycle : y.cycle = 0
  stepcnt : y.stepcnt = 0
  extwait : y.extwait = 0
  aclk : y.aclk = 0
  scalars : y.s = (s.tile t).s
  vectors : y.v = (s.tile t).v
  acc : y.acc = (s.tile t).acc
  tallies : y.tallies = (s.tile t).tallies
  landing : y.landing = []

/-- Nothing of the tile is left to settle before its launch: no test on its silicon, no line in its landing buffer. -/
def settledForLaunch (s : State) (t : Nat) : Prop := s.testing t = false ∧ (s.tile t).landing = []

theorem launchTile_settled (h : s.settledForLaunch t) : ∃ y, s.launchTile t = s.setTile t y ∧ Launched s t y := by
  obtain ⟨htest, hland⟩ := h
  have habandon : s.abandonTest t = s := by
    unfold abandonTest
    rw [if_neg (by simp [htest])]
  have hflush : s.flushLanding t = s := by
    unfold flushLanding
    rw [hland]
    rfl
  unfold launchTile
  rw [habandon, hflush]
  exact ⟨_, rfl, rfl, rfl, rfl, rfl, rfl, rfl, rfl, rfl, rfl, rfl, rfl, congrArg (List.map _) hland⟩

/-- A launch repeated gives what it gave: the group's list may name a tile twice. -/
theorem Launched.again {m : SMap Tile} {y : Tile} (h : Launched s t (mget {} m t))
    (hy : Launched { s with tiles := m } t y) : Launched s t y :=
  { hy with
    scalars := hy.scalars.trans h.scalars
    vectors := hy.vectors.trans h.vectors
    acc := hy.acc.trans h.acc
    tallies := hy.tallies.trans h.tallies }

/-! ### The launch of the group (R106, R185) -/

/-- States that differ from `s` in tiles only, each tile as in `s` or launched from it. -/
structure Launching (s u : State) : Prop where
  frame : u = { s with tiles := u.tiles }
  tile : ∀ t, u.tile t = s.tile t ∨ Launched s t (u.tile t)

theorem Launching.launchTile {u : State} (h : Launching s u) (ht : s.settledForLaunch t) : ∃ y,
    u.launchTile t = u.setTile t y ∧ Launched s t y := by
  obtain ⟨hframe, htile⟩ := h
  have hland : (u.tile t).landing = [] := by
    rcases htile t with e | l
    · rw [e]; exact ht.2
    · exact l.landing
  obtain ⟨y, hy, hl⟩ := launchTile_settled (s := u) ⟨by rw [hframe]; exact ht.1, hland⟩
  refine ⟨y, hy, ?_⟩
  rw [hframe] at hl
  rcases htile t with e | l
  · exact { hl with
      scalars := hl.scalars.trans (congrArg Tile.s e), vectors := hl.vectors.trans (congrArg Tile.v e)
      acc := hl.acc.trans (congrArg Tile.acc e), tallies := hl.tallies.trans (congrArg Tile.tallies e) }
  · exact l.again hl

theorem Launching.setTile {u : State} {y : Tile} (h : Launching s u) (hy : Launched s t y) : Launching s (u.setTile t y) := by
  refine ⟨?_, fun k => ?_⟩
  · rw [h.frame]; rfl
  · rw [tile_setTile]
    split
    next e => exact .inr (e ▸ hy)
    next => exact h.tile k

/-- Every tile of the list is launched, every other stays as it is. -/
theorem Launching.foldl {l : List Nat} (hl : ∀ t, t ∈ l → s.settledForLaunch t) {u : State} (h : Launching s u) :
    let w := l.foldl State.launchTile u
    Launching s w ∧ (∀ t, t ∈ l ∨ Launched s t (u.tile t) → Launched s t (w.tile t)) ∧
      ∀ t, t ∉ l → w.tile t = u.tile t := by
  induction l generalizing u with
  | nil => exact ⟨h, by simp, fun _ _ => rfl⟩
  | cons a l ih =>
    obtain ⟨y, hy, hlaunched⟩ := h.launchTile (hl a (by simp))
    obtain ⟨hw, hin, hout⟩ := ih (fun t ht => hl t (by simp [ht])) (h.setTile hlaunched)
    rw [List.foldl_cons, hy]
    refine ⟨hw, fun t ht => hin t ?_, fun t ht => ?_⟩
    · rw [tile_setTile]
      split
      next e => exact .inr (e ▸ hlaunched)
      next hne => simpa [hne] using ht
    · rw [hout t (by simp_all), tile_setTile, if_neg (by simp_all)]

/-- A group's launch: its armed tiles are launched, no other tile changes, its slot counter starts at 0. -/
theorem launchGroup_spec (h : ∀ t, t ∈ s.groupTiles g → s.settledForLaunch t) :
    let u := s.launchGroup g
    (u.group g).gclk = 0 ∧ (u.group g).counting = true ∧ (u.group g).launchAt = none ∧
      (u.group g).entry = (s.group g).entry ∧ u.mem = s.mem ∧ u.regs = s.regs ∧
      (∀ t, t ∈ s.groupTiles g → (s.tile t).run = .armed → Launched s t (u.tile t)) ∧
      ∀ t, (s.tile t).run ≠ .armed → u.tile t = s.tile t := by
  extract_lets u
  let ts := (s.groupTiles g).filter (fun t => (s.tile t).run == .armed)
  have hts (t : Nat) : t ∈ ts ↔ t ∈ s.groupTiles g ∧ (s.tile t).run = .armed := by simp [ts]
  obtain ⟨x, hu, hx⟩ : ∃ x : Group, u = ts.foldl State.launchTile (s.setGroup g x) ∧
      x.gclk = 0 ∧ x.counting = true ∧ x.launchAt = none ∧ x.entry = (s.group g).entry := ⟨_, rfl, rfl, rfl, rfl, rfl⟩
  have hgroup : (s.setGroup g x).group g = x := by simp
  obtain ⟨hlaunching, hin, hout⟩ := Launching.foldl (s := s.setGroup g x) (l := ts) (fun t ht => h t ((hts t).1 ht).1)
    ⟨rfl, fun _ => .inl rfl⟩
  rw [← hu] at hlaunching hin hout
  have hsame : u.group g = x := by
    rw [hlaunching.frame]
    exact hgroup
  rw [hsame]
  obtain ⟨hgclk, hcounting, hat, hentry⟩ := hx
  refine ⟨hgclk, hcounting, hat, hentry, ?_, ?_, fun t ht ha => ?_, fun t ha => hout t fun ht => ha ((hts t).1 ht).2⟩
  · rw [hlaunching.frame]; rfl
  · rw [hlaunching.frame]; rfl
  · -- `Launched` reads registers and tiles only, which a group's record leaves alone.
    exact { hin t (.inl ((hts t).2 ⟨ht, ha⟩)) with }

/-- LAUNCH_START with no TILE_LAUNCH to complete. -/
theorem exec_launchStart {n : Nat} (hat : (s.group g).launchAt = some n) (hentry : ((s.launchGroup g).group g).entry = none)
    (hready : ∀ t, t ∈ s.groupTiles g → (s.tile t).armPending = false ∧ s.tileEdges t = true) :
    exec (.launchStart g) s = .next (s.launchGroup g) := by
  have hpending : (s.groupTiles g).any (fun t => (s.tile t).armPending) = false :=
    List.any_eq_false.mpr fun t ht => by simp [(hready t ht).1]
  have hedges : (s.groupTiles g).all s.tileEdges = true := List.all_eq_true.mpr fun t ht => (hready t ht).2
  refine congrArg Host.Outcome.next ((if_pos (by simp [hat, hpending, hedges])).trans ?_)
  dsimp only
  rw [hentry]

/-! ### UNGATE_DONE (R107) -/

theorem exec_ungateDone (hp : (s.tile t).armPending = true) (hentry : (s.group (s.tileGroup t)).entry = none) :
    exec (.ungateDone t) s = .next (s.setTile t { s.tile t with run := .armed, armPending := false }) := by
  refine congrArg Host.Outcome.next ((if_pos hp).trans ?_)
  dsimp only
  rw [if_neg (by simp [hentry])]
  rfl

end State

/-- Settles O21: GRID_LAUNCH by what it decides, LAUNCH_START by the launch of the group, UNGATE_DONE by its own
lemma. -/
theorem groupLaunch : Obligations.GroupLaunch := by
  unfold Obligations.GroupLaunch
  refine fun s g => ⟨fun v hv hl => ⟨?launched, ?empty⟩, ?start, fun t => State.exec_ungateDone⟩
  case launched =>
    rintro ⟨t, ht, harmed⟩ hmode
    rw [State.exec_gridLaunch hv hl, State.gridLaunch_launched ht harmed hmode]
  case empty =>
    intro hnone
    exact ⟨_, State.exec_gridLaunch hv hl, by rw [State.gridLaunch_empty hnone]; exact State.emptyLaunch_spec⟩
  case start =>
    intro n hat hentry _ hready
    obtain ⟨hgclk, hcounting, hnone, hkept, hmem, hregs, hlaunched, hothers⟩ :=
      State.launchGroup_spec (s := s) (g := g) fun t ht => ⟨(hready t ht).2.1, (hready t ht).2.2.2⟩
    refine ⟨_, State.exec_launchStart hat (hkept.trans hentry) fun t ht => ⟨(hready t ht).1, (hready t ht).2.2.1⟩,
      hgclk, hcounting, hnone, hmem, hregs, fun t ht harmed => ?_, hothers⟩
    have y := hlaunched t ht harmed
    exact ⟨y.run, y.pc, y.mode, y.cycle, y.stepcnt, y.extwait, y.aclk, y.scalars, y.vectors, y.acc, y.tallies⟩

end Sys2Proof.Machine
end

section
/-! PROOF. The end of a tile's clearing is not always the tile's own affair (O30; R105, R416, R418): an activation
that waited for it is answered on the channel its command came by, and an answer on a partition's channel counts the
tally that the channel block names, which may be a tile's. -/

namespace Sys2Proof.Machine

/-- Partition 3, being configured, with a command that came by its own channel waiting for tile 40 to end its
clearing. Its tables map the 1 GiB from address 0 with rights R and W; its channel block at 0x3000 names tally 48 of tile 41,
which it holds too. -/
def waitingActivation : State :=
  let p : Part := { lstate := .configuring, chan := some 0x3000, cmd := some { chan := .part 3, tag := 0 },
                    rec_ := { en := true, root := 0x1000 } }
  let s : State := { parts := [(3, p)], tiles := [(40, { clearing := true })], slabs := [(0, 0x80000000)],
                     keys := [(3, { root := some 0 })], lineKey := [(0xC3, 48)],
                     mem := [(0x1000, 0x01), (0x1001, 0x20), (0x2000, 0x0F), (0x30D0, 0x29), (0x30D2, 0x30), (0x30D3, 0xC0)] }
  (s.setReg bTILE 40 0x048 0x80000003).setReg bTILE 41 0x048 0x80000003

/-- Its clearing ends, and the tally of the other tile counts the answer. -/
theorem waitingActivation_counts : ∃ u, exec (.tileClearDone 40) waitingActivation = .next u ∧
    (u.tile 41).tally 48 = 1 ∧ (waitingActivation.tile 41).tally 48 = 0 :=
  ⟨_, rfl, by decide +kernel⟩

/-- Refutes O30 in its clause on the end of clearing, which speaks of every state and not only where the waiting command
came from the manager (Table 17-7): in `waitingActivation` tile 40 ends its clearing and tile 41 does not stay as it was. -/
theorem not_tileControlAndPatching : ¬ Obligations.TileControlAndPatching := by
  unfold Obligations.TileControlAndPatching
  intro h
  obtain ⟨-, -, -, -, hclear⟩ := h.1 waitingActivation 40 (by decide) (by decide +kernel)
  obtain ⟨u, hu, -, hothers, -⟩ := hclear (by decide +kernel) (by decide +kernel)
  obtain ⟨w, hw, hcounted, hbefore⟩ := waitingActivation_counts
  obtain rfl : u = w := by simpa [hu] using hw
  rw [hothers 41 (by decide), hbefore] at hcounted
  exact absurd hcounted (by decide)

end Sys2Proof.Machine
end

section
/-! PROOF. The issue of a lone slot on a quiet tile whose effect neither transfers control nor uses an SRAM port of the
program (R143, R145, R146): the effect and one ACLK, with the forms that instructions of the matrix unit have. -/

namespace Sys2Proof.Machine

variable {s : State} {t : Nat} {x y : Tile} {g : Tile → Tile}

/-- The record of a tile one ACLK on, its next bundle the one in sequence (R145, R154). -/
def Tile.next (x : Tile) : Tile :=
  { x with pc := x.pc + 1, aclk := x.aclk + 1, eng := (x.aclk + 1) / 2, cycle := x.cycle + BitVec.ofNat 64 1 }

/-- Whether a result is the products of an MMA or MMAV, which wait for their operand lines (R166). -/
def Land.isProducts : Land → Bool
  | .mma .. => true
  | .mmav .. => true
  | _ => false

/-- Only products in flight are ever delayed. -/
theorem delayMma_eq_self (h : ∀ f ∈ x.flight, f.land.isProducts = false) (a : Nat) : delayMma x a = x := by
  have hlate (d : Nat) : x.flight.filter (fun f => f.land.isProducts && decide (f.due < d)) = [] :=
    List.filter_eq_nil_iff.mpr fun f hf => by simp [h f hf]
  have hrest (d : Nat) : x.flight.filter (fun f => !(f.land.isProducts && decide (f.due < d))) = x.flight :=
    List.filter_eq_self.mpr fun f hf => by simp [h f hf]
  let d := if x.m0 = 0 && x.m1 = 0 then x.mEnd else max (a + 1) x.mEnd
  let late := x.flight.filter (fun f => f.land.isProducts && decide (f.due < d))
  let rest := x.flight.filter (fun f => !(f.land.isProducts && decide (f.due < d)))
  show ({ x with flight := late.foldl (fun l f => addFlight { f with due := d } l) rest } : Tile) = x
  rw [show late = [] from hlate d, show rest = x.flight from hrest d]
  rfl

/-- Nothing lands on a tile in its next ACLK, and no products are in flight. -/
def Tile.NothingDue (x : Tile) : Prop := ∀ f ∈ x.flight, x.aclk + 1 < f.due ∧ f.land.isProducts = false

theorem Tile.NothingDue.nil (h : x.flight = []) : x.NothingDue := by simp [NothingDue, h]

theorem Tile.NothingDue.single {d : Nat} {l : Land} (h : x.flight = [⟨d, l⟩]) (hd : x.aclk + 1 < d)
    (hl : l.isProducts = false) : x.NothingDue := by simpa [NothingDue, h, hl] using hd

theorem Tile.fly_of_flight_nil (h : x.flight = []) (d : Nat) (l : Land) : x.fly d l = { x with flight := [⟨d, l⟩] } := by
  unfold fly
  rw [h]
  rfl

/-- What a slot's effect keeps of its tile, so that the bundle in sequence follows in the next ACLK: its control, its
clocks and its ports; nothing it puts in flight lands by then. -/
structure Tile.Follows (x y : Tile) : Prop where
  run : y.run = x.run := by rfl
  waitFor : y.waitFor = x.waitFor := by rfl
  loops : y.loops = x.loops := by rfl
  aclk : y.aclk = x.aclk := by rfl
  cycle : y.cycle = x.cycle := by rfl
  pc : y.pc = x.pc := by rfl
  eng : y.eng = x.eng := by rfl
  rp0 : y.rp0 = x.rp0 := by rfl
  rp1 : y.rp1 = x.rp1 := by rfl
  wp : y.wp = x.wp := by rfl
  m0 : y.m0 = x.m0 := by rfl
  m1 : y.m1 = x.m1 := by rfl
  injq : y.injq = x.injq := by rfl
  xmovs : y.xmovs = x.xmovs := by rfl
  landing : y.landing = x.landing := by rfl
  due : y.NothingDue

theorem Tile.engIdle_iff : x.engIdle = true ↔ x.m0 = 0 ∧ x.m1 = 0 ∧ x.injq = [] ∧ x.xmovs = [] ∧ x.landing = [] := by
  simp only [engIdle, Bool.and_eq_true, beq_iff_eq, List.isEmpty_iff, and_assoc]

theorem Tile.Follows.engIdle (h : x.Follows y) (hx : x.engIdle = true) : y.engIdle = true := by
  rw [engIdle_iff] at hx ⊢
  rwa [h.m0, h.m1, h.injq, h.xmovs, h.landing]

/-- The matrix unit is made busy by an instruction with no lines to fetch (R164). -/
theorem Tile.Follows.busyFor (h : x.Follows y) (hx : x.engIdle = true) (n : Nat) : x.Follows (y.busyFor n) := by
  obtain ⟨hm0, hm1, -⟩ := engIdle_iff.mp hx
  exact { h with m0 := hm0.symm, m1 := hm1.symm, due := h.due }

theorem State.quiet_engIdle (hq : s.quiet t = true) : (s.tile t).engIdle = true := by
  obtain ⟨-, -, -, -, -, -, -, -, hinjq, hland, hxmovs, -, -, -, -, -, -, -, hm0, hm1, -⟩ := (quiet_iff s t).mp hq
  exact Tile.engIdle_iff.mpr ⟨hm0, hm1, hinjq, hxmovs, hland⟩

theorem State.quiet_run (hq : s.quiet t = true) : (s.tile t).run ≠ .unavailable := by
  obtain ⟨-, hrun, -⟩ := (quiet_iff s t).mp hq
  rw [hrun]
  decide

theorem State.quiet_flight (hq : s.quiet t = true) : (s.tile t).flight = [] := by
  obtain ⟨-, -, -, -, -, hf, -⟩ := (quiet_iff s t).mp hq
  exact hf

/-- The tile of an instruction that rounded `n` elements (R127, R161). -/
def Tile.tookSre (x : Tile) (rm : BitVec 3) (n : Nat) : Tile :=
  if rm = 4 then { x with sre := x.sre + BitVec.ofNat 32 n } else x

theorem Tile.Follows.tookSre (h : x.Follows y) (rm : BitVec 3) (n : Nat) : x.Follows (y.tookSre rm n) := by
  unfold Tile.tookSre
  split
  · exact { h with due := h.due }
  · exact h

/-- A slot that meets no trap, writes at most one register, neither waits nor transfers control, and uses no SRAM port
of the program. -/
structure SlotSem.Plain (m : SlotSem) : Prop where
  causes : m.causes = []
  dest : m.dest.length ≤ 1 := by exact Nat.zero_le _
  isWait : m.isWait = false := by rfl
  uses : m.uses = [] := by rfl
  ctl : m.ctl = .seq := by rfl

theorem SlotSem.Plain.composition {m : SlotSem} (h : m.Plain) : compositionBad [m] = false := by
  have hdup : ∀ l : List RegName, l.length ≤ 1 → hasDup l = false
    | [], _ => rfl
    | [_], _ => rfl
    | _ :: _ :: l, h => by simp at h
  have hd := hdup _ ((List.length_filter_le (fun r => r != (0, 0) && r != (2, 0)) m.dest).trans h.dest)
  simp [compositionBad, h.isWait, hd]

/-- The state in which a tile has assembled a bundle of one slot. -/
def State.assembled (s : State) (t : Nat) (i : Instr) : State := s.setTile t { s.tile t with slots := [i] }

namespace State

/-- Where every result in flight is due later, what lands changes nothing but the record as it is. -/
theorem landUpTo_of_later {a : Nat} (h : ∀ f ∈ (s.tile t).flight, a < f.due) :
    s.landUpTo t a = s.setTile t (s.tile t) := by
  have hp (f) (hf : f ∈ (s.tile t).flight) : (if f.isTally then decide (f.due < a) else decide (f.due ≤ a)) = false := by
    have := h f hf
    split <;> simp <;> omega
  have hkeep : (s.tile t).flight.filter (fun f => !(if f.isTally then decide (f.due < a) else decide (f.due ≤ a))) =
      (s.tile t).flight := List.filter_eq_self.mpr fun f hf => by rw [hp f hf]; rfl
  have hnone : (s.tile t).flight.filter (fun f => if f.isTally then decide (f.due < a) else decide (f.due ≤ a)) = [] :=
    List.filter_eq_nil_iff.mpr fun f hf => by rw [hp f hf]; decide
  unfold landUpTo landIf
  dsimp only
  rw [hkeep, hnone]
  rfl

theorem updTile_setTile {f : Tile → Tile} (h : x.run ≠ .unavailable) :
    (s.setTile t x).updTile t f = s.setTile t (f x) := by
  rw [updTile, tile_setTile, if_pos rfl, setTile_setTile s t x _ h]

theorem busyFor_setTile {x : Tile} (h : x.run ≠ .unavailable) (n : Nat) :
    (s.setTile t x).busyFor t n = s.setTile t (x.busyFor n) := updTile_setTile h

theorem takeSre_setTile {x : Tile} (h : x.run ≠ .unavailable) (rm : BitVec 3) (n : Nat) :
    (s.setTile t x).takeSre t rm.toNat n = s.setTile t (x.tookSre rm n) := by
  unfold takeSre Tile.tookSre
  have hrm : rm.toNat = 4 ↔ rm = 4 := by bv_omega
  simp only [hrm]
  split
  · rw [updTile_setTile h]
  · rfl

theorem updTile_count_setTile {x : Tile} (h : x.run ≠ .unavailable) (blk inst off n : Nat) (f : Tile → Tile) :
    ((s.setTile t x).count blk inst off n).updTile t f = (s.setTile t (f x)).count blk inst off n := by
  rw [updTile, tile_count, tile_setTile, if_pos rfl]
  exact congrArg (State.count · blk inst off n) (setTile_setTile s t x (f x) h)

theorem tookSre_ran (h : (g (s.tile t)).run ≠ .unavailable) (rm : BitVec 3) (n : Nat) :
    (s.ran t g).tookSre t rm n = s.ran t (fun y => (g y).tookSre rm n) := by
  unfold State.tookSre Tile.tookSre
  split
  · exact updTile_count_setTile (s := s) (x := { g (s.tile t) with
      pc := (s.tile t).pc + 1, aclk := (s.tile t).aclk + 1, eng := ((s.tile t).aclk + 1) / 2
      cycle := (s.tile t).cycle + BitVec.ofNat 64 1 }) h bTILE t 0xC00 1 _
  · rfl

theorem drawOf_setTile_tile (rm e : Nat) : (s.setTile t (s.tile t)).drawOf t rm e = s.drawOf t rm e := by
  unfold drawOf
  rw [tile_setTile, if_pos rfl]
  rfl

/-- An advance to an ACLK in which nothing lands, on a tile that does not wait. -/
theorem setTile_next {y : Tile} (hy : y.run ≠ .unavailable) (hw : y.waitFor = none) {a : Nat}
    (hl : ∀ f ∈ y.flight, a < f.due) :
    (((s.setTile t y).count bTILE t 0xC00 1).landUpTo t a).settleTime t = (s.setTile t y).count bTILE t 0xC00 1 := by
  have hnext : ((s.setTile t y).count bTILE t 0xC00 1).tile t = y := by
    rw [tile_count, tile_setTile, if_pos rfl]
  rw [landUpTo_of_later (by rwa [hnext]), hnext]
  unfold settleTime
  rw [tile_setTile, if_pos rfl, hw]
  show ((s.setTile t y).setTile t y).count bTILE t 0xC00 1 = _
  rw [setTile_setTile s t y y hy]

/-- What follows a bundle that transfers no control and used no port, on a tile with nothing due in the next ACLK. -/
theorem afterBundle_seq (hx : s.tile t = x) (hr : x.run = .running) (hw : x.waitFor = none) (hl : x.loops = [])
    (hi : x.engIdle = true) (he : x.eng = x.aclk / 2) (hpc : x.pc < 16383)
    (h0 : x.rp0 = []) (h1 : x.rp1 = []) (h2 : x.wp = []) (hd : x.NothingDue) :
    s.afterBundle t 0 0 .seq = (s.setTile t x.next).count bTILE t 0xC00 1 := by
  subst hx
  have hrun : (s.tile t).run ≠ .unavailable := by rw [hr]; decide
  rw [after_seq s t hl hi he hpc hrun fun z hz => delayMma_eq_self fun f hf => (hd f (hz ▸ hf)).2]
  dsimp only
  have hkeep {l : List (Nat × Nat)} (h : l = []) (a : Nat) : l.filter (fun v => a / 2 ≤ v.1) = l := by
    rw [h]
    rfl
  rw [hkeep h0, hkeep h1, hkeep h2]
  exact setTile_next (y := (s.tile t).next) hrun hw fun f hf => (hd f hf).1

/-- What follows a bundle whose effect `g` keeps the tile's control, clocks and ports; `n` is the free-value number it
leaves. -/
theorem afterBundle_follows (hq : s.quiet t = true) (n : Nat) (hg : (s.tile t).Follows (g (s.tile t))) :
    ({ s.setTile t (g (s.tile t)) with fresh := n } : State).afterBundle t 0 0 .seq = { s.ran t g with fresh := n } := by
  obtain ⟨-, hrun, hwait, -, -, -, hloops, -, -, -, -, -, hrp0, hrp1, hwp, -, -, heng, -, -, -, -, hpc, -⟩ :=
    (quiet_iff s t).mp hq
  have htile : ({ s.setTile t (g (s.tile t)) with fresh := n } : State).tile t = g (s.tile t) := by
    show (s.setTile t (g (s.tile t))).tile t = g (s.tile t)
    rw [tile_setTile, if_pos rfl]
  rw [afterBundle_seq htile (hg.run.trans hrun) (hg.waitFor.trans hwait) (hg.loops.trans hloops)
    (hg.engIdle (quiet_engIdle hq)) (by rw [hg.eng, hg.aclk, heng]) (by rw [hg.pc]; exact hpc)
    (hg.rp0.trans hrp0) (hg.rp1.trans hrp1) (hg.wp.trans hwp) hg.due]
  show ({ ((s.setTile t (g (s.tile t))).setTile t (g (s.tile t)).next).count bTILE t 0xC00 1 with fresh := n } : State) = _
  rw [setTile_setTile s t _ _ (by rw [hg.run, hrun]; decide)]
  unfold ran ranTo Tile.next
  dsimp only
  rw [hg.pc, hg.aclk, hg.cycle]

/-- The issue of a lone plain slot whose effect on the tile is `g` (R145, R146). -/
theorem slot_follows (hq : s.quiet t = true) {i : Instr} (n : Nat) (hm : (slotSem i (s.assembled t i) t).Plain)
    (hact : (slotSem i (s.assembled t i) t).act (s.setTile t (s.tile t)) = { s.setTile t (g (s.tile t)) with fresh := n })
    (hg : (s.tile t).Follows (g (s.tile t))) :
    s.slot ⟨t, false⟩ i = { s.ran t g with fresh := n } := by
  obtain ⟨-, hrun, -, -, hslots, -⟩ := (quiet_iff s t).mp hq
  have hback : (s.assembled t i).setTile t { s.tile t with slots := [] } = s.setTile t (s.tile t) := by
    rw [assembled, setTile_setTile s t { s.tile t with slots := [i] } _ (by rw [hrun]; decide), ← hslots]
  rw [slot_quiet s t i hq]
  show (if !((slotSem i (s.assembled t i) t).causes ++ when_ (compositionBad [slotSem i (s.assembled t i) t]) 0x02).isEmpty
    then _ else _) = _
  rw [hm.causes, hm.composition, if_neg (by decide)]
  dsimp only
  rw [show slotSem i (s.setTile t { s.tile t with slots := [i] }) t = slotSem i (s.assembled t i) t from rfl, hm.uses,
    hm.ctl]
  show ((slotSem i (s.assembled t i) t).act
    ((s.assembled t i).setTile t { s.tile t with slots := [] })).afterBundle t 0 0 .seq = _
  rw [hback, hact, afterBundle_follows hq n hg]

/-- A read of bytes with no stored error uses up a free-value number and leaves nothing else. -/
theorem progReadMarks_sound {a n : Nat} (h : s.sound t a n = true) : s.progReadMarks t a n = s.freshen := by
  simp only [sound, Bool.and_eq_true, List.isEmpty_iff] at h
  obtain ⟨hue, hce⟩ := h
  unfold progReadMarks
  dsimp only
  rw [hue, hce]
  rfl

theorem sound_of_settled {a n : Nat} (h : s.settled t a n = true) : s.sound t a n = true := by
  simp only [settled, Bool.and_eq_true] at h
  exact h.2

/-- An effect on the tile and the busy count that goes with it (Table 6-7). -/
theorem updTile_busyFor {h : Tile → Tile} (hq : s.quiet t = true) (k : Nat) (hh : h (s.tile t) = g (s.tile t))
    (hg : (s.tile t).Follows (g (s.tile t))) :
    ((s.setTile t (s.tile t)).updTile t h).busyFor t k = s.setTile t ((g (s.tile t)).busyFor k) := by
  have hrun := quiet_run hq
  rw [updTile_setTile hrun, hh, busyFor_setTile (by rw [hg.run]; exact hrun)]

/-- A lone instruction of the matrix unit that makes it busy for `k` ACLK and uses up no free-value number: its effect
on the tile is `h`, which comes to `g`. -/
theorem slot_busy (hq : s.quiet t = true) {i : Instr} {h : Tile → Tile} {k : Nat}
    (hm : (slotSem i (s.assembled t i) t).Plain)
    (hact : (slotSem i (s.assembled t i) t).act (s.setTile t (s.tile t)) =
      ((s.setTile t (s.tile t)).updTile t h).busyFor t k)
    (hh : h (s.tile t) = g (s.tile t)) (hg : (s.tile t).Follows (g (s.tile t))) :
    s.slot ⟨t, false⟩ i = s.ran t (fun y => (g y).busyFor k) := by
  refine slot_follows (g := fun y => (g y).busyFor k) hq s.fresh hm ?_ (hg.busyFor (quiet_engIdle hq) k)
  rw [hact, updTile_busyFor hq k hh hg]
  rfl

/-- The same for one that has read `n` settled bytes of tile SRAM at `a`, which uses up a free-value number. -/
theorem slot_busy_read (hq : s.quiet t = true) {i : Instr} {h : Tile → Tile} {k a n : Nat}
    (hm : (slotSem i (s.assembled t i) t).Plain)
    (hact : (slotSem i (s.assembled t i) t).act (s.setTile t (s.tile t)) =
      (((s.setTile t (s.tile t)).updTile t h).busyFor t k).progReadMarks t a n)
    (hs : s.settled t a n = true) (hh : h (s.tile t) = g (s.tile t)) (hg : (s.tile t).Follows (g (s.tile t))) :
    s.slot ⟨t, false⟩ i = (s.ran t (fun y => (g y).busyFor k)).freshen := by
  have hsound := sound_of_settled hs
  refine slot_follows (g := fun y => (g y).busyFor k) hq (s.fresh + 1) hm ?_ (hg.busyFor (quiet_engIdle hq) k)
  rw [hact, updTile_busyFor hq k hh hg]
  exact progReadMarks_sound (s := s.setTile t _) hsound

/-- The same for one that rounds `n` elements. -/
theorem slot_busy_draws (hq : s.quiet t = true) {i : Instr} {h : Tile → Tile} {k n : Nat} {rm : BitVec 3}
    (hm : (slotSem i (s.assembled t i) t).Plain)
    (hact : (slotSem i (s.assembled t i) t).act (s.setTile t (s.tile t)) =
      (((s.setTile t (s.tile t)).updTile t h).busyFor t k).takeSre t rm.toNat n)
    (hh : h (s.tile t) = g (s.tile t)) (hg : (s.tile t).Follows (g (s.tile t))) :
    s.slot ⟨t, false⟩ i = (s.ran t (fun y => (g y).busyFor k)).tookSre t rm n := by
  have hgrun : (g (s.tile t)).run ≠ .unavailable := by rw [hg.run]; exact quiet_run hq
  rw [tookSre_ran (g := fun y => (g y).busyFor k) hgrun]
  refine slot_follows (g := fun y => ((g y).busyFor k).tookSre rm n) hq s.fresh hm ?_
    ((hg.busyFor (quiet_engIdle hq) k).tookSre rm n)
  rw [hact, updTile_busyFor hq k hh hg, takeSre_setTile (x := (g (s.tile t)).busyFor k) hgrun]
  rfl

end State

end Sys2Proof.Machine
end

section
/-! PROOF. What each instruction of the matrix unit but MMA and MMAV leaves of a quiet tile (R137, R138, R161, R164,
R165): the bank words and accumulators it writes, the settled bytes it reads, and its busy count. -/

namespace Sys2Proof.Machine

/-! ### Sparse maps -/

/-- What a key reads as after `n` values have been written at consecutive keys from `c`. -/
theorem mget_foldl_mset_from {α : Type} [DecidableEq α] (d : α) (m : SMap α) (c n : Nat) (v : Nat → α) (j : Nat) :
    mget d ((List.range n).foldl (fun m e => mset d m (c + e) (v e)) m) j =
      if c ≤ j ∧ j < c + n then v (j - c) else mget d m j := by
  have hkeys := mget_foldl_mset d (fun p => v (p - c)) ((List.range n).map (c + ·)) m j
  simp only [List.foldl_map, Nat.add_sub_cancel_left] at hkeys
  have hmem : j ∈ (List.range n).map (c + ·) ↔ c ≤ j ∧ j < c + n := by
    rw [List.mem_map]
    exact ⟨fun ⟨e, he, hj⟩ => by have := List.mem_range.mp he; omega,
      fun h => ⟨j - c, List.mem_range.mpr (by omega), by omega⟩⟩
  rw [hkeys]
  simp only [hmem]

namespace Tile
variable (x : Tile)

/-- The bank words of a tile after `n` words have been written at consecutive indices from `c`. Irreducible, as is
`accMap`, so that no comparison of two tiles unfolds thousands of writes. -/
@[irreducible] def wordsFrom (c n : Nat) (w : Nat → W32) : SMap W32 :=
  (List.range n).foldl (fun m e => mset 0 m (c + e) (w e)) x.banks

theorem mget_wordsFrom_in (c : Nat) {n e : Nat} (w : Nat → W32) (he : e < n) : mget 0 (x.wordsFrom c n w) (c + e) = w e := by
  rw [wordsFrom, mget_foldl_mset_from, if_pos (by omega), Nat.add_sub_cancel_left]

theorem mget_wordsFrom_out (c n : Nat) (w : Nat → W32) {j : Nat} (hj : ∀ e, e < n → j ≠ c + e) :
    mget 0 (x.wordsFrom c n w) j = mget 0 x.banks j := by
  rw [wordsFrom, mget_foldl_mset_from, if_neg]
  rintro ⟨hle, hlt⟩
  exact hj (j - c) (by omega) (by omega)

theorem foldl_setBank (b c n : Nat) (r k : Nat → Nat) (hk : ∀ e, b * 4096 + r e * 64 + k e = c + e) (w : Nat → W32) :
    (List.range n).foldl (fun y e => y.setBank b (r e) (k e) (w e)) x = { x with banks := x.wordsFrom c n w } := by
  unfold wordsFrom
  induction n with
  | zero => rfl
  | succ n ih =>
    rw [List.range_succ, List.foldl_concat, List.foldl_concat, ih, setBank, hk]

/-- The accumulators after every one has been changed by its own index. -/
@[irreducible] def accMap (f : Nat → LAcc → LAcc) : SMap LAcc :=
  (List.range 4096).foldl (fun m e => mset {} m e (f e (x.lacc e))) x.acc

theorem mget_accMap (f : Nat → LAcc → LAcc) {e : Nat} (he : e < 4096) : mget {} (x.accMap f) e = f e (x.lacc e) := by
  unfold accMap
  rw [mget_foldl_mset, if_pos (List.mem_range.mpr he)]

theorem mapL_eq (f : Nat → LAcc → LAcc) : x.mapL f = { x with acc := x.accMap f } := by
  unfold mapL accMap
  induction 4096 with
  | zero => rfl
  | succ n ih => rw [List.range_succ, List.foldl_concat, List.foldl_concat, ih, setLacc]

end Tile

/-! ### Settled bytes of tile SRAM -/

theorem length_readBytes (m : SMap Byte) (a n : Nat) : (readBytes m a n).length = n := by
  induction n generalizing a with
  | zero => rfl
  | succ n ih => rw [readBytes, List.length_cons, ih]

theorem readBytes_drop (m : SMap Byte) (a n k : Nat) : (readBytes m a n).drop k = readBytes m (a + k) (n - k) := by
  induction k generalizing a n with
  | zero => rfl
  | succ k ih =>
    cases n with
    | zero => simp [readBytes]
    | succ n => rw [readBytes, List.drop_succ_cons, ih, Nat.add_assoc, Nat.add_comm 1, Nat.add_sub_add_right]

theorem readBytes_take (m : SMap Byte) (a : Nat) {n k : Nat} (h : k ≤ n) : (readBytes m a n).take k = readBytes m a k := by
  induction k generalizing a n with
  | zero => rfl
  | succ k ih =>
    obtain ⟨n, rfl⟩ : ∃ j, n = j + 1 := ⟨n - 1, by omega⟩
    rw [readBytes, List.take_succ_cons, ih _ (by omega), readBytes]

/-- The bytes of one element of an array as a reader of the whole array takes them. -/
theorem readBytes_elem (m : SMap Byte) (t a : Nat) {n w e : Nat} (h : w * e + w ≤ n) :
    ((readBytes m (sramAt t a) n).drop (w * e)).take w = readBytes m (sramAt t (a + w * e)) w := by
  rw [readBytes_drop, readBytes_take _ _ (by omega), sramAt, Nat.add_assoc]
  rfl

theorem sramTile_sramAt {t a : Nat} (ha : a < 0x800000) : sramTile (sramAt t a) = t := by
  unfold sramTile sramAt
  omega

namespace State
variable {s : State} {t a n : Nat}

theorem settled_iff : s.settled t a n = true ↔ s.soft = [] ∧ s.jobs = [] ∧ (s.tile t).landing = [] ∧
    hits s.ue (sramAt t a) n = [] ∧ hits s.ce (sramAt t a) n = [] := by
  simp only [settled, sound, Bool.and_eq_true, List.isEmpty_iff, and_assoc]

/-- A read of settled bytes finds what memory holds. -/
theorem peek_settled (h : s.settled t a n = true) (hr : a + n ≤ 0x800000) : s.sram t a n = readBytes s.mem (sramAt t a) n := by
  obtain ⟨hsoft, hjobs, hland, -⟩ := settled_iff.mp h
  have hbyte (p : Nat) : s.byteAt p = mget 0 s.mem p := by
    rw [byteAt, hsoft, hjobs]
    rfl
  clear h
  unfold sram
  induction n generalizing a with
  | zero => rfl
  | succ n ih =>
    have hat : s.landByte (sramTile (sramAt t a)) ((sramAt t a - sramBase0) % 0x800000) (s.byteAt (sramAt t a)) =
        s.byteAt (sramAt t a) := by
      rw [sramTile_sramAt (by omega), landByte, hland]
      rfl
    rw [peek, hat, ite_self, hbyte, readBytes]
    exact congrArg _ (ih (a := a + 1) (by omega))

/-- With no stored error a read takes the bytes as they are found. -/
theorem guessed_sound {p : Nat} {bs : List Byte} (h : hits s.ue p bs.length = []) : s.guessed p bs = bs := by
  unfold guessed
  simp only [h, List.any_nil, Bool.false_and, Bool.false_eq_true, if_false]
  exact List.zipIdx_map_fst 0 bs

/-- An M-slot instruction reads settled bytes as memory holds them, nothing being in flight (R165). -/
theorem matRead_settled (h : s.settled t a n = true) (hf : (s.tile t).flight = []) (hr : a + n ≤ 0x800000) :
    s.matRead t a n = readBytes s.mem (sramAt t a) n := by
  have hp := peek_settled h hr
  obtain ⟨-, -, -, hue, -⟩ := settled_iff.mp h
  unfold matRead
  dsimp only
  simp only [hf, List.foldl_nil]
  rw [show s.peek (sramAt t a) n = readBytes s.mem (sramAt t a) n from hp, List.zipIdx_map_fst 0,
    guessed_sound (by rw [length_readBytes]; exact hue)]

theorem settled_setTile {x : Tile} (h : x.landing = (s.tile t).landing) :
    (s.setTile t x).settled t a n = s.settled t a n := by
  unfold settled
  rw [tile_setTile, if_pos rfl, h]
  rfl

/-- A tile with the slot of a lone bundle. -/
theorem tile_assembled {i : Instr} : (s.assembled t i).tile t = { s.tile t with slots := [i] } := by
  rw [assembled, tile_setTile, if_pos rfl]

theorem matRead_assembled {i : Instr} (hq : s.quiet t = true) (h : s.settled t a n = true) (hr : a + n ≤ 0x800000) :
    (s.assembled t i).matRead t a n = readBytes s.mem (sramAt t a) n := by
  obtain ⟨-, -, -, -, -, hf, -⟩ := (quiet_iff s t).mp hq
  have hset := settled_setTile (s := s) (t := t) (a := a) (n := n) (x := { s.tile t with slots := [i] }) rfl
  exact matRead_settled (hset.trans h) (by rw [tile_assembled]; exact hf) hr

end State

theorem maBad_eq_nil {a n : Nat} (hr : a + n ≤ 0x800000) (ha : a % 256 = 0) : maBad a n = [] := by
  simp [maBad, when_, inTile, hr, ha]

theorem rsv_eq_nil {n : Nat} {b : BitVec n} (h : b = 0) : rsv (b != 0) = [] := by
  rw [h, bne_self_eq_false]
  rfl

/-! ### Instructions of the matrix unit -/

namespace State
variable {s : State} {t : Nat}

/-- MADD adds the words of a bank exactly, busy 32 (R138, R164). -/
theorem slot_madd (hq : s.quiet t = true) {f : FmtMA} (hrs : f.rs = 0) (hrsv : f.rsv = 0) :
    s.slot ⟨t, false⟩ (.madd ⟨t, false⟩ f) = s.ran t (fun y => ({ y with
      acc := (s.tile t).accMap (fun e l => laddX l (f32 ((s.tile t).bank f.bank.toNat (e / 64) (e % 64)).toNat)) } : Tile
      ).busyFor 32) := by
  refine slot_busy hq { causes := ?_ } rfl ?_ { due := .nil (quiet_flight hq) }
  · show rsv (f.rs != 0 || f.rsv != 0) = []
    rw [hrs, hrsv]
    rfl
  · exact Tile.mapL_eq _ _

/-- MCLR clears the long accumulators, busy 4. -/
theorem slot_mclr (hq : s.quiet t = true) {f : FmtMA} (hbank : f.bank = 0) (hrs : f.rs = 0) (hrsv : f.rsv = 0) :
    s.slot ⟨t, false⟩ (.mclr ⟨t, false⟩ f) = s.ran t (fun y => ({ y with acc := [] } : Tile).busyFor 4) := by
  refine slot_busy hq { causes := ?_ } rfl rfl { due := .nil (quiet_flight hq) }
  show rsv (f.bank != 0 || f.rs != 0 || f.rsv != 0) = []
  rw [hbank, hrs, hrsv]
  rfl

theorem sreg_assembled {i : Instr} {r a : Nat} (h : ((s.tile t).sreg r).toNat = a) :
    (((s.assembled t i).tile t).sreg r).toNat = a := by
  rw [tile_assembled]
  exact h

/-- ALD loads a bank from settled bytes and owns read port 0 for its busy count of 144 (R164, R165). -/
theorem slot_ald (hq : s.quiet t = true) {f : FmtMA} (hrsv : f.rsv = 0) {a : Nat}
    (hat : ((s.tile t).sreg f.rs.toNat).toNat = a) (hr : a + 16384 ≤ 0x800000) (ha : a % 256 = 0)
    (hs : s.settled t a 16384 = true) :
    s.slot ⟨t, false⟩ (.ald ⟨t, false⟩ f) = (s.ran t (fun y => ({ y with
      banks := (s.tile t).wordsFrom (f.bank.toNat * 4096) 4096 (fun e => BitVec.ofNat 32 (leNat
        (((readBytes s.mem (sramAt t a) 16384).drop (4 * e)).take 4)))
      own0 := y.aclk + 144 } : Tile).busyFor 144)).freshen := by
  have hat' := sreg_assembled (i := .ald ⟨t, false⟩ f) hat
  refine slot_busy_read hq { causes := ?_ } rfl (by rw [hat']; exact hs) ?_ { due := .nil (quiet_flight hq) }
  · show rsv (f.rsv != 0) ++ maBad _ 16384 = []
    rw [rsv_eq_nil hrsv, hat', maBad_eq_nil hr ha]
    rfl
  · rw [hat', matRead_assembled hq hs hr, Tile.foldl_setBank _ _ (f.bank.toNat * 4096) _ _ _ (fun e => by omega)]

/-- AST's bytes are due 2 ACLK after its busy count of 160, for which it owns the write port (R165). -/
theorem slot_ast (hq : s.quiet t = true) {f : FmtMA} (hrsv : f.rsv = 0) {a : Nat}
    (hat : ((s.tile t).sreg f.rs.toNat).toNat = a) (hr : a + 16384 ≤ 0x800000) (ha : a % 256 = 0) :
    s.slot ⟨t, false⟩ (.ast ⟨t, false⟩ f) = s.ran t (fun y => ({ y with
      ownW := y.aclk + 160
      flight := [⟨y.aclk + 162, .memBusy (sramAt t a) (((s.tile t).bankBytes f.bank.toNat).map some)⟩] } : Tile
      ).busyFor 160) := by
  have hat' := sreg_assembled (i := .ast ⟨t, false⟩ f) hat
  refine slot_busy hq { causes := ?_ } rfl ?_ { due := .single rfl (Nat.add_lt_add_left (by decide) _) rfl }
  · show rsv (f.rsv != 0) ++ maBad _ 16384 = []
    rw [rsv_eq_nil hrsv, hat', maBad_eq_nil hr ha]
    rfl
  · rw [hat', tile_assembled, Tile.fly_of_flight_nil (quiet_flight hq)]
    rfl

/-- MLST's bytes, the long form of L, are due 2 ACLK after its busy count of 1,488 (R138, R165). -/
theorem slot_mlst (hq : s.quiet t = true) {f : FmtMA} (hbank : f.bank = 0) (hrsv : f.rsv = 0) {a : Nat}
    (hat : ((s.tile t).sreg f.rs.toNat).toNat = a) (hr : a + 163840 ≤ 0x800000) (ha : a % 256 = 0) :
    s.slot ⟨t, false⟩ (.mlst ⟨t, false⟩ f) = s.ran t (fun y => ({ y with
      ownW := y.aclk + 1488
      flight := [⟨y.aclk + 1490, .memBusy (sramAt t a)
        (((List.range 4096).flatMap (fun e => lform ((s.tile t).lacc e))).map some)⟩] } : Tile).busyFor 1488) := by
  have hat' := sreg_assembled (i := .mlst ⟨t, false⟩ f) hat
  refine slot_busy hq { causes := ?_ } rfl ?_ { due := .single rfl (Nat.add_lt_add_left (by decide) _) rfl }
  · show rsv (f.bank != 0 || f.rsv != 0) ++ maBad _ 163840 = []
    rw [hbank, hrsv, hat', maBad_eq_nil hr ha]
    rfl
  · rw [hat', tile_assembled, Tile.fly_of_flight_nil (quiet_flight hq)]
    rfl

/-- MLAD adds a long-form array; its flag is in NSTAT for the next bundle (R138, log entry 54). -/
theorem slot_mlad (hq : s.quiet t = true) {f : FmtMA} (hbank : f.bank = 0) (hrsv : f.rsv = 0) {a : Nat}
    (hat : ((s.tile t).sreg f.rs.toNat).toNat = a) (hr : a + 163840 ≤ 0x800000) (ha : a % 256 = 0)
    (hs : s.settled t a 163840 = true) :
    let acc := (s.tile t).accMap (fun e l =>
      laddL l (lparse (((readBytes s.mem (sramAt t a) 163840).drop (40 * e)).take 40)))
    s.slot ⟨t, false⟩ (.mlad ⟨t, false⟩ f) = (s.ran t (fun y => ({ y with
      acc := acc, own0 := y.aclk + 1296
      nstat := if acc.any (fun c => c.2.sp == .nan) then y.nstat ||| fNV else y.nstat } : Tile
      ).busyFor 1296)).freshen := by
  intro acc
  have hat' := sreg_assembled (i := .mlad ⟨t, false⟩ f) hat
  refine slot_busy_read hq { causes := ?_ } rfl (by rw [hat']; exact hs) ?_ { due := .nil (quiet_flight hq) }
  · show rsv (f.bank != 0 || f.rsv != 0) ++ maBad _ 163840 = []
    rw [hbank, hrsv, hat', maBad_eq_nil hr ha]
    rfl
  · rw [hat', matRead_assembled hq hs hr, Tile.mapL_eq]

/-- ARDV's row lands in a vector register 4 ACLK after the issue (Table 6-7). -/
theorem slot_ardv (hq : s.quiet t = true) {f : FmtMX} (hrsv : f.rsv = 0) :
    s.slot ⟨t, false⟩ (.ardv ⟨t, false⟩ f) = s.ran t (fun y => ({ y with
      flight := [⟨y.aclk + 4, .v f.v.toNat
        (vecOf (fun j => ((s.tile t).bank f.bank.toNat f.row.toNat j).toNat)) (BitVec.allOnes 2048)⟩] } : Tile
      ).busyFor 2) := by
  refine slot_busy hq { causes := rsv_eq_nil hrsv, dest := Nat.le_refl 1 } rfl ?_
    { due := .single rfl (Nat.add_lt_add_left (by decide) _) rfl }
  dsimp only
  rw [quiet_flight hq, List.foldl_nil, ite_self, tile_assembled, Tile.fly_of_flight_nil (quiet_flight hq)]
  rfl

/-- AWRV writes a vector register to a bank row (Table 6-7). -/
theorem slot_awrv (hq : s.quiet t = true) {f : FmtMX} (hrsv : f.rsv = 0) :
    s.slot ⟨t, false⟩ (.awrv ⟨t, false⟩ f) = s.ran t (fun y => ({ y with
      banks := (s.tile t).wordsFrom (f.bank.toNat * 4096 + f.row.toNat * 64) 64
        (fun j => BitVec.ofNat 32 (lane ((s.tile t).vreg f.v.toNat) j)) } : Tile).busyFor 2) := by
  refine slot_busy hq { causes := rsv_eq_nil hrsv } rfl ?_ { due := .nil (quiet_flight hq) }
  rw [tile_assembled, Tile.foldl_setBank _ _ (f.bank.toNat * 4096 + f.row.toNat * 64) _ _ _ (fun e => rfl)]
  rfl

end State

/-- A tile with a list of rounded values read out into a bank (R137). -/
def Tile.readInto (x : Tile) (f : FmtMR) (r : List (Nat × Flags5)) : Tile :=
  let y := r.zipIdx.foldl (fun y p => y.setBank f.bank.toNat (p.2 / 64) (p.2 % 64) (BitVec.ofNat 32 p.1.1)) x
  { y with nstat := y.nstat ||| r.foldl (fun a p => a ||| p.2) 0, acc := if f.clr then [] else y.acc }

theorem zipIdx_map_range {α : Type} (n : Nat) (q : Nat → α) :
    ((List.range n).map q).zipIdx = (List.range n).map (fun e => (q e, e)) :=
  List.ext_getElem (by simp) (by simp)

theorem Tile.readInto_eq (x : Tile) (f : FmtMR) (q : Nat → Nat × Flags5) :
    x.readInto f ((List.range 4096).map q) = { x with
      banks := x.wordsFrom (f.bank.toNat * 4096) 4096 (fun e => BitVec.ofNat 32 (q e).1)
      acc := if f.clr then [] else x.acc
      nstat := x.nstat ||| (List.range 4096).foldl (fun a e => a ||| (q e).2) 0 } := by
  unfold readInto
  dsimp only
  rw [zipIdx_map_range, List.foldl_map, List.foldl_map,
    foldl_setBank _ _ (f.bank.toNat * 4096) _ _ _ (fun e => by dsimp only; omega)]

namespace State
variable {s : State} {t : Nat}

/-- What MRD rounds accumulator `e` to, with its flags (R135, R137). -/
def readOut (s : State) (t : Nat) (f : FmtMR) (el : Elt) (e : Nat) : Nat × Flags5 :=
  let q := roundTo el f.rm.toNat (s.drawOf t f.rm.toNat e) f.sat (lread ((s.tile t).lacc e))
  (q.1, if ((s.tile t).lacc e).sp = .nan then q.2 ||| fNV else q.2)

/-- MRD's effect, its format being one of Table 6-7's. -/
theorem act_mrd {f : FmtMR} {el : Elt} (hel : mrdCode f.fmt.toNat = some el) :
    (slotSem (.mrd ⟨t, false⟩ f) (s.assembled t (.mrd ⟨t, false⟩ f)) t).act (s.setTile t (s.tile t)) =
      (((s.setTile t (s.tile t)).updTile t (fun y => y.readInto f ((List.range 4096).map (s.readOut t f el)))).busyFor t 32
        ).takeSre t f.rm.toNat 4096 := by
  unfold slotSem instrSem semMrd
  dsimp only
  rw [hel]
  unfold readOut
  simp only [drawOf_setTile_tile, tile_assembled]
  rfl

/-- MRD writes the rounded accumulators to a bank, clears them if CLR is set, and takes 4,096 elements under RM = 4; its
flags are in NSTAT for the next bundle (R137, R161, log entry 54). -/
theorem slot_mrd (hq : s.quiet t = true) {f : FmtMR} (hrsv : f.rsv = 0) (hrm : f.rm.toNat ≤ 4) {el : Elt}
    (hel : mrdCode f.fmt.toNat = some el) :
    s.slot ⟨t, false⟩ (.mrd ⟨t, false⟩ f) = (s.ran t (fun y => ({ y with
      banks := (s.tile t).wordsFrom (f.bank.toNat * 4096) 4096 (fun e => BitVec.ofNat 32 (s.readOut t f el e).1)
      acc := if f.clr then [] else y.acc
      nstat := y.nstat ||| (List.range 4096).foldl (fun a e => a ||| (s.readOut t f el e).2) 0 } : Tile).busyFor 32)
      ).tookSre t f.rm 4096 := by
  refine slot_busy_draws hq { causes := ?_ } (act_mrd hel) (Tile.readInto_eq _ _ _) { due := .nil (quiet_flight hq) }
  show rsv (f.rsv != 0) ++ rmBad f.rm ++ when_ (mrdCode f.fmt.toNat).isNone 0x05 = []
  rw [rsv_eq_nil hrsv, hel]
  simp [rmBad, when_, hrm]

end State

end Sys2Proof.Machine
end

section
/-! PROOF. Exactness of the long accumulators (R130, R134, R136): a block of finite products is added exactly while the
running value stays in the finite range. -/

namespace Sys2Proof.Machine

/-- The multiple of 2^-170 a finite term adds (R134); a special one adds none. -/
def XVal.term : XVal → Int
  | .fin neg m e => toTerm neg m e
  | _ => 0

theorem lval_ofInt {y : Int} (h : y.natAbs < 2 ^ 318) : lval { v := BitVec.ofInt 320 y, sp := .fin } = y := by
  unfold lval
  rw [BitVec.toInt_ofInt]
  apply Int.bmod_eq_of_le <;> omega

/-- An addition that stays in the finite range is exact (Table 5-8). -/
theorem ladd_exact {l : LAcc} {x : Int} (hl : l.sp = .fin) (h : (lval l).natAbs + x.natAbs < 2 ^ 318) :
    (ladd l x).sp = .fin ∧ lval (ladd l x) = lval l + x := by
  have hfits : lfits (lval l + x) = true := by
    simp only [lfits, Bool.and_eq_true, decide_eq_true_eq]
    omega
  unfold ladd
  rw [if_pos hl]
  dsimp only
  rw [if_pos hfits]
  exact ⟨rfl, lval_ofInt (by omega)⟩

/-- A block's sum of finite products. -/
def blockSum (ps : List XVal) : Int := ps.foldl (fun t v => match v with | .fin ng m e => t + toTerm ng m e | _ => t) 0

theorem blockSum_eq (ps : List XVal) : blockSum ps = (ps.map XVal.term).sum := by
  have hfold (t : Int) : ps.foldl (fun t v => match v with | .fin ng m e => t + toTerm ng m e | _ => t) t =
      t + (ps.map XVal.term).sum := by
    induction ps generalizing t with
    | nil => simp
    | cons p ps ih =>
      rw [List.foldl_cons, ih, List.map_cons, List.sum_cons, ← Int.add_assoc]
      cases p <;> simp [XVal.term]
  rw [blockSum, hfold, Int.zero_add]

theorem natAbs_sum_le (xs : List Int) : xs.sum.natAbs ≤ (xs.map Int.natAbs).sum := by
  induction xs with
  | nil => rfl
  | cons x xs ih =>
    simp only [List.sum_cons, List.map_cons]
    omega

/-- Finite products leave the second pass over a block without effect. -/
theorem specials_of_xfinite {ps : List XVal} (h : ∀ p ∈ ps, xfinite p = true) (l : LAcc) :
    ps.foldl (fun l v => match v with | .fin _ _ _ => l | v => laddX l v) l = l := by
  induction ps with
  | nil => rfl
  | cons p ps ih =>
    have hrest := ih fun r hr => h r (List.mem_cons_of_mem _ hr)
    cases p with
    | fin neg m e => exact hrest
    | inf neg => exact absurd (h _ List.mem_cons_self) Bool.false_ne_true
    | nan => exact absurd (h _ List.mem_cons_self) Bool.false_ne_true

/-- An accumulator after the finite products of a block (R134). -/
def addBlock (l : LAcc) (ps : List XVal) : LAcc := if blockSum ps = 0 then l else ladd l (blockSum ps)

theorem addBlock_exact {l : LAcc} {ps : List XVal} (hl : l.sp = .fin)
    (h : (lval l).natAbs + ((ps.map XVal.term).map Int.natAbs).sum < 2 ^ 318) :
    (addBlock l ps).sp = .fin ∧ lval (addBlock l ps) = lval l + (ps.map XVal.term).sum := by
  have hle := natAbs_sum_le (ps.map XVal.term)
  unfold addBlock
  rw [blockSum_eq]
  split
  next hx => exact ⟨hl, by omega⟩
  next => exact ladd_exact hl (by omega)

theorem blocks_succ {n : Nat} {ps : List XVal} (hfin : ∀ p ∈ ps, xfinite p = true) (l : LAcc) :
    macAcc.blocks (n + 1) ps l = macAcc.blocks n (ps.drop 32) (addBlock l (ps.take 32)) := by
  show macAcc.blocks n (ps.drop 32) ((ps.take 32).foldl _ _) = _
  exact congrArg _ (specials_of_xfinite (fun p hp => hfin p (List.mem_of_mem_take hp)) _)

/-- Blocks of finite products are added exactly while the sum of the magnitudes stays in the finite range. -/
theorem blocks_exact {n : Nat} {ps : List XVal} {l : LAcc} (hfin : ∀ p ∈ ps, xfinite p = true) (hlen : ps.length ≤ 32 * n)
    (hl : l.sp = .fin) (hsum : (lval l).natAbs + ((ps.map XVal.term).map Int.natAbs).sum < 2 ^ 318) :
    (macAcc.blocks n ps l).sp = .fin ∧ lval (macAcc.blocks n ps l) = lval l + (ps.map XVal.term).sum := by
  induction n generalizing ps l with
  | zero =>
    obtain rfl : ps = [] := List.length_eq_zero_iff.mp (by omega)
    exact ⟨hl, by simp [macAcc.blocks]⟩
  | succ n ih =>
    have hparts : ps.map XVal.term = (ps.take 32).map XVal.term ++ (ps.drop 32).map XVal.term := by
      rw [← List.map_append, List.take_append_drop]
    rw [hparts, List.map_append, List.sum_append] at hsum
    have hle := natAbs_sum_le ((ps.take 32).map XVal.term)
    obtain ⟨hsp, hval⟩ := addBlock_exact (ps := ps.take 32) hl (by omega)
    obtain ⟨hsp', hval'⟩ := ih (ps := ps.drop 32) (fun p hp => hfin p (List.mem_of_mem_drop hp))
      (by rw [List.length_drop]; omega) hsp (by omega)
    rw [blocks_succ hfin, hparts, List.sum_append]
    exact ⟨hsp', by rw [hval', hval, Int.add_assoc]⟩

theorem macAcc_exact {l : LAcc} {av bv : Nat → XVal} {k : Nat} {neg : Nat → Bool} {m : Nat → Nat} {e : Nat → Int}
    (hl : l.sp = .fin) (hmul : ∀ i, i < k → (xmul (av i) (bv i)).1 = .fin (neg i) (m i) (e i))
    (hsum : (lval l).natAbs + ((List.range k).map (fun i => (toTerm (neg i) (m i) (e i)).natAbs)).sum < 2 ^ 318) :
    (macAcc l av bv k).sp = .fin ∧
      lval (macAcc l av bv k) = lval l + ((List.range k).map (fun i => toTerm (neg i) (m i) (e i))).sum := by
  have hps : (List.range k).map (fun i => (xmul (av i) (bv i)).1) =
      (List.range k).map (fun i => XVal.fin (neg i) (m i) (e i)) :=
    List.map_congr_left fun i hi => hmul i (List.mem_range.mp hi)
  have hterms : ((List.range k).map (fun i => XVal.fin (neg i) (m i) (e i))).map XVal.term =
      (List.range k).map (fun i => toTerm (neg i) (m i) (e i)) := by
    rw [List.map_map]
    rfl
  unfold macAcc
  dsimp only
  rw [hps, ← hterms]
  refine blocks_exact ?_ (by simp; omega) hl (by rw [hterms, List.map_map]; exact hsum)
  intro p hp
  obtain ⟨i, -, rfl⟩ := List.mem_map.mp hp
  rfl

end Sys2Proof.Machine
end

section
/-! PROOF. The statements about the accumulator banks, the long accumulators and the floating-point operations of the
V slot (O7, O12, O13). -/

namespace Sys2Proof.Machine

open State

variable {s : State} {t : Nat}

theorem lane_eq_extractLsb' (v : Vec) (j : Nat) : BitVec.ofNat 32 (lane v j) = v.extractLsb' (32 * j) 32 := by
  apply BitVec.eq_of_toNat_eq
  simp [lane, elem, BitVec.extractLsb'_toNat, Nat.shiftRight_eq_div_pow]

theorem sramWord_eq (a : Nat) {e : Nat} (he : e < 4096) :
    leNat (((readBytes s.mem (sramAt t a) 16384).drop (4 * e)).take 4) = s.sramWord t (a + 4 * e) 4 :=
  congrArg leNat (readBytes_elem s.mem t a (by omega))

/-- Settles O13: each instruction's effect on the tile, and what the words of a bank read as after it. -/
theorem accumulatorBanks : Obligations.AccumulatorBanks := by
  unfold Obligations.AccumulatorBanks
  intro s t hq
  refine ⟨?wholeBanks, ?rows⟩
  case wholeBanks =>
    intro f hrsv x a b ha
    refine ⟨?load, ?store, ?longForm⟩
    case load =>
      intro hr hs
      refine ⟨_, congrArg Host.Outcome.next (slot_ald hq hrsv rfl hr ha hs), fun e he => ?_,
        fun j hj => Tile.mget_wordsFrom_out _ _ _ _ hj⟩
      rw [Tile.mget_wordsFrom_in _ _ _ he, sramWord_eq a he]
    case store =>
      intro hr bytes land
      exact congrArg Host.Outcome.next (slot_ast hq hrsv rfl hr ha)
    case longForm =>
      intro hr hbank land
      exact congrArg Host.Outcome.next (slot_mlst hq hbank hrsv rfl hr ha)
  case rows =>
    intro f hrsv x b r row
    refine ⟨congrArg Host.Outcome.next (slot_ardv hq hrsv), _, congrArg Host.Outcome.next (slot_awrv hq hrsv),
      fun j hj => ?_, fun k hk => Tile.mget_wordsFrom_out _ _ _ _ hk⟩
    rw [Tile.mget_wordsFrom_in _ _ _ hj, lane_eq_extractLsb']

/-- Settles O12: each instruction's effect on the tile, what an accumulator and a bank word read as after it, and
`macAcc_exact`, by induction over the blocks. -/
theorem longAccumulatorsAreExact : Obligations.LongAccumulatorsAreExact := by
  unfold Obligations.LongAccumulatorsAreExact
  refine ⟨fun s t hq => ⟨?addBank, ?read, ?addLong⟩, ?exact⟩
  case addBank =>
    intro f hrs hrsv x
    refine ⟨⟨_, congrArg Host.Outcome.next (slot_madd hq hrs hrsv), fun i j hi hj => ?_⟩,
      fun hbank => congrArg Host.Outcome.next (slot_mclr hq hbank hrs hrsv)⟩
    have hrow : (i * 64 + j) / 64 = i := by omega
    have hcol : (i * 64 + j) % 64 = j := by omega
    rw [Tile.mget_accMap _ _ (by omega), hrow, hcol]
  case read =>
    intro f hrsv hrm el hel x q fl
    exact ⟨_, congrArg Host.Outcome.next (slot_mrd hq hrsv hrm hel), fun e he => Tile.mget_wordsFrom_in _ _ _ he,
      fun j hj => Tile.mget_wordsFrom_out _ _ _ _ hj⟩
  case addLong =>
    intro f hbank hrsv x a hr ha hs
    refine ⟨_, congrArg Host.Outcome.next (slot_mlad hq hbank hrsv rfl hr ha hs), fun e he => ?_⟩
    rw [Tile.mget_accMap _ _ he, readBytes_elem s.mem t a (by omega)]
  case exact =>
    intro l av bv k neg m e hl hmul term hsum
    exact macAcc_exact hl hmul hsum

/-- Tile 40 running its first bundle with every register at 0 and nothing under way. -/
def zeroTile : State := { tiles := [(40, { run := .running })] }
/-- `VADD.F v1, v2, v3` under p0 and RNE. -/
def addZeros : FmtVR := { vd := 1, va := 2, vb := 3, vc := 0, pred := 0, rm := 0 }

/-- The sums of zeros set no flag, and yet two results are in flight: the vector and the empty set of flags, which
reaches NSTAT as the vector lands (R158). -/
theorem zeroTile_adds : ∃ u, exec (.vaddF ⟨40, false⟩ addZeros) zeroTile = .next u ∧
    (u.tile 40).flight = [⟨4, .v 1 0 (BitVec.allOnes 2048)⟩, ⟨4, .nstat 0⟩] :=
  ⟨_, rfl, by decide +kernel⟩

/-- Refutes O7 in its clause on VADD.F: the statement has no flags in flight where an instruction sets none, but the
model puts the flags of every floating-point result in flight, the empty set too, as it does in `zeroTile`. -/
theorem not_vectorFloatingPoint : ¬ Obligations.VectorFloatingPoint := by
  unfold Obligations.VectorFloatingPoint
  intro h
  obtain ⟨hround, -⟩ := (h zeroTile 40 (by decide +kernel)).1 addZeros
  obtain ⟨hadd, -⟩ := hround (by decide) rfl
  obtain ⟨u, hu, hflight⟩ := zeroTile_adds
  have hone := Host.Outcome.next.inj (hu.symm.trans hadd)
  rw [hone] at hflight
  exact absurd hflight (by decide +kernel)

end Sys2Proof.Machine
end

section
/-! PROOF. The issue of a lone slot on a quiet tile, whichever slot it is (R143 to R147, R152, R154): what its effect
leaves of the tile, the ACLK it takes, and what of its result has landed at the next bundle. -/

namespace Sys2Proof.Machine

variable {s u : State} {t : Nat} {x y z : Tile} {g : Tile → Tile}

/-! ### Records of a tile -/

/-- A record other than the default one: the tile is available, or its program waits. -/
def Tile.Live (x : Tile) : Prop := x.run ≠ .unavailable ∨ x.waitFor ≠ none

theorem Tile.Live.ne_default (h : x.Live) : x ≠ {} := by
  rintro rfl
  exact h.elim (· rfl) (· rfl)

theorem State.setTile_setTile_live (h : x.Live) : (s.setTile t x).setTile t y = s.setTile t y := by
  unfold State.setTile
  dsimp only
  rw [mset_mset _ _ _ _ _ h.ne_default]

theorem State.setTile_count (n b i o : Nat) : (s.count b i o n).setTile t x = (s.setTile t x).count b i o n := rfl

theorem State.quiet_live (hq : s.quiet t = true) : (s.tile t).Live := .inl (State.quiet_run hq)

/-- A record with its loops, next bundle, clocks, port uses and results in flight replaced. -/
def Tile.clocked (x : Tile) (loops : List LoopRec) (pc aclk eng : Nat) (cycle : W64) (rp0 rp1 wp : List (Nat × Nat))
    (flight : List Flight) : Tile :=
  { x with
    loops := loops, pc := pc, aclk := aclk, eng := eng, cycle := cycle, rp0 := rp0, rp1 := rp1, wp := wp
    flight := flight }

/-- The record of a tile `n` ACLK on, with bundle `pc` next (R145, R154). -/
def Tile.ahead (x : Tile) (pc n : Nat) : Tile :=
  { x with pc := pc, aclk := x.aclk + n, eng := (x.aclk + n) / 2, cycle := x.cycle + BitVec.ofNat 64 n }

/-- The record with its loops replaced and those port uses left that still count `n` ACLK on (R152, R155). -/
def Tile.kept (x : Tile) (loops : List LoopRec) (n : Nat) : Tile :=
  let keep (l : List (Nat × Nat)) := l.filter (fun u => (x.aclk + n) / 2 ≤ u.1)
  { x with loops := loops, rp0 := keep x.rp0, rp1 := keep x.rp1, wp := keep x.wp }

theorem Tile.kept_self (h0 : x.rp0 = []) (h1 : x.rp1 = []) (h2 : x.wp = []) (n : Nat) : x.kept x.loops n = x := by
  have hkeep {l : List (Nat × Nat)} (h : l = []) : l.filter (fun u => (x.aclk + n) / 2 ≤ u.1) = l := by
    rw [h]
    rfl
  unfold kept
  dsimp only
  rw [hkeep h0, hkeep h1, hkeep h2]

/-! ### What lands -/

/-- Whether a result reaches its tile's registers, flags and tallies alone. -/
def Land.registers : Land → Bool
  | .s .. => true
  | .v .. => true
  | .p .. => true
  | .nstat _ => true
  | .csr .. => true
  | .csrClear .. => true
  | .tally _ _ none => true
  | _ => false

/-- What such a result makes of its tile's record as it lands (R145, R146, R149, R181). -/
def Land.onto (l : Land) (x : Tile) : Tile :=
  match l with
  | .s r w => x.setS r w
  | .v r w m => x.setV r (merge (x.vreg r) w m)
  | .p r w => x.setP r w
  | .nstat f => { x with nstat := x.nstat ||| f }
  | .csr 0 w => { x with nstat := w.setWidth 5 }
  | .csr _ w => { x with xerr := w.setWidth 17 }
  | .csrClear 0 w => { x with nstat := x.nstat &&& ~~~(w.setWidth 5) }
  | .csrClear _ w => { x with xerr := x.xerr &&& ~~~(w.setWidth 17) }
  | .tally k true _ => { x.incTally k with marks := mset false x.marks k true }
  | .tally k false _ => x.incTally k
  | _ => x

/-- s0 keeps what it has (R146, R148). -/
theorem Tile.setS_eq (r : Nat) (v : W64) : x.setS r v = { x with s := if r = 0 then x.s else mset 0 x.s r v } := by
  unfold setS
  split <;> rfl

/-- p0 keeps what it has (R146, R148). -/
theorem Tile.setP_eq (r : Nat) (v : W64) : x.setP r v = { x with p := if r = 0 then x.p else mset 0 x.p r v } := by
  unfold setP
  split <;> rfl

theorem State.landFlight_registers {l : Land} (h : l.registers = true) : s.landFlight t l = s.updTile t l.onto := by
  cases l with
  | s | v | p | nstat => rfl
  | csr r w => cases r <;> rfl
  | csrClear r w => cases r <;> rfl
  | tally k m o =>
    cases o with
    | none => cases m <;> rfl
    | some o => exact absurd h Bool.false_ne_true
  | _ => exact absurd h Bool.false_ne_true

theorem Land.onto_clocked (l : Land) (ls : List LoopRec) (pc a e : Nat) (c : W64) (r0 r1 w : List (Nat × Nat))
    (fl : List Flight) : l.onto (x.clocked ls pc a e c r0 r1 w fl) = (l.onto x).clocked ls pc a e c r0 r1 w fl := by
  cases l with
  | s r v => exact (Tile.setS_eq r v).trans (congrArg (Tile.clocked · ls pc a e c r0 r1 w fl) (Tile.setS_eq r v).symm)
  | p r v => exact (Tile.setP_eq r v).trans (congrArg (Tile.clocked · ls pc a e c r0 r1 w fl) (Tile.setP_eq r v).symm)
  | csr r v => cases r <;> rfl
  | csrClear r v => cases r <;> rfl
  | tally k m o => cases m <;> rfl
  | _ => rfl

/-- The state of a tile's program is no result. -/
theorem Land.onto_run (l : Land) : (l.onto x).run = x.run ∧ (l.onto x).waitFor = x.waitFor := by
  cases l with
  | s r w =>
    show (x.setS r w).run = _ ∧ (x.setS r w).waitFor = _
    rw [Tile.setS_eq]
    exact ⟨rfl, rfl⟩
  | p r w =>
    show (x.setP r w).run = _ ∧ (x.setP r w).waitFor = _
    rw [Tile.setP_eq]
    exact ⟨rfl, rfl⟩
  | csr r v => cases r <;> exact ⟨rfl, rfl⟩
  | csrClear r v => cases r <;> exact ⟨rfl, rfl⟩
  | tally k m o => cases m <;> exact ⟨rfl, rfl⟩
  | _ => exact ⟨rfl, rfl⟩

/-- Results land on a record in the order in which they are listed. -/
def Tile.takes (x : Tile) (l : List Flight) : Tile := l.foldl (fun y f => f.land.onto y) x

theorem Tile.takes_run (l : List Flight) : (x.takes l).run = x.run ∧ (x.takes l).waitFor = x.waitFor := by
  unfold takes
  induction l generalizing x with
  | nil => exact ⟨rfl, rfl⟩
  | cons f l ih => exact ⟨ih.1.trans f.land.onto_run.1, ih.2.trans f.land.onto_run.2⟩

theorem Tile.takes_live (h : x.Live) (l : List Flight) : (x.takes l).Live := by
  obtain ⟨hrun, hwait⟩ := x.takes_run l
  rwa [Live, hrun, hwait]

theorem Tile.takes_clocked (l : List Flight) (ls : List LoopRec) (pc a e : Nat) (c : W64) (r0 r1 w : List (Nat × Nat))
    (fl : List Flight) : (x.clocked ls pc a e c r0 r1 w fl).takes l = (x.takes l).clocked ls pc a e c r0 r1 w fl := by
  unfold takes
  induction l generalizing x with
  | nil => rfl
  | cons f l ih => rw [List.foldl_cons, List.foldl_cons, Land.onto_clocked, ih]

theorem State.landAllOf_registers {l : List Flight} (hl : ∀ f ∈ l, f.land.registers = true) (h : x.Live) :
    (s.setTile t x).landAllOf t l = s.setTile t (x.takes l) := by
  induction l generalizing x with
  | nil => rfl
  | cons f l ih =>
    have hx : (f.land.onto x).Live := Tile.takes_live h [f]
    rw [landAllOf, landFlight_registers (hl f List.mem_cons_self), updTile, tile_setTile, if_pos rfl,
      setTile_setTile_live h, ih (fun g hg => hl g (List.mem_cons_of_mem _ hg)) hx]
    rfl

/-- Whether a result lands by an ACLK: an increment not before the operations of the bundle that issues then (R181). -/
def Flight.dueBy (f : Flight) (a : Nat) : Bool := if f.isTally then f.due < a else f.due ≤ a

theorem Flight.not_dueBy {f : Flight} {a : Nat} (h : a < f.due) : f.dueBy a = false := by
  unfold dueBy
  split <;> simp <;> omega

/-- A tile's record after what is due by an ACLK has landed in its registers. -/
def Tile.landed (x : Tile) (a : Nat) : Tile :=
  { x with flight := x.flight.filter (fun f => !f.dueBy a) }.takes (x.flight.filter (·.dueBy a))

/-- Whether what is due by an ACLK reaches its tile's registers alone. -/
def Tile.LandsInRegisters (x : Tile) (a : Nat) : Prop := ∀ f ∈ x.flight, f.dueBy a = true → f.land.registers = true

theorem State.landUpTo_landed {a : Nat} (hl : (s.tile t).LandsInRegisters a) (h : (s.tile t).Live) :
    s.landUpTo t a = s.setTile t ((s.tile t).landed a) :=
  landAllOf_registers (x := { s.tile t with flight := (s.tile t).flight.filter (fun f => !f.dueBy a) })
    (fun f hf => hl f (List.mem_filter.mp hf).1 (List.mem_filter.mp hf).2) h

namespace Tile

theorem landed_eq (a : Nat) : x.landed a = (x.takes (x.flight.filter (·.dueBy a))).clocked x.loops x.pc x.aclk x.eng
    x.cycle x.rp0 x.rp1 x.wp (x.flight.filter (fun f => !f.dueBy a)) := by
  rw [← takes_clocked]
  rfl

theorem landed_ahead (a pc n : Nat) : (x.ahead pc n).landed a = (x.landed a).ahead pc n := by
  rw [landed_eq, landed_eq, show x.ahead pc n = x.clocked x.loops pc (x.aclk + n) ((x.aclk + n) / 2)
    (x.cycle + BitVec.ofNat 64 n) x.rp0 x.rp1 x.wp x.flight from rfl, takes_clocked]
  rfl

theorem landed_aclk (a : Nat) : (x.landed a).aclk = x.aclk := by rw [landed_eq]; rfl
theorem landed_cycle (a : Nat) : (x.landed a).cycle = x.cycle := by rw [landed_eq]; rfl
theorem landed_run (a : Nat) : (x.landed a).run = x.run ∧ (x.landed a).waitFor = x.waitFor := takes_run _

theorem landed_live (h : x.Live) (a : Nat) : (x.landed a).Live :=
  takes_live (x := { x with flight := x.flight.filter (fun f => !f.dueBy a) }) h _

/-- The next bundle is no result. -/
theorem ahead_landed_pc (a q pc n : Nat) : ({ x with pc := q }.landed a).ahead pc n = (x.landed a).ahead pc n := by
  rw [landed_eq, landed_eq, show ({ x with pc := q } : Tile) = x.clocked x.loops q x.aclk x.eng x.cycle x.rp0 x.rp1 x.wp
    x.flight from rfl, takes_clocked]
  rfl

theorem landed_nil (h : x.flight = []) (a : Nat) : x.landed a = x := by
  unfold landed
  rw [h]
  show ({ x with flight := [] } : Tile) = x
  rw [← h]

/-- With nothing in flight due, nothing lands. -/
theorem landed_none {a : Nat} (hnot : ∀ f ∈ x.flight, f.dueBy a = false) : x.landed a = x := by
  have hnone : x.flight.filter (·.dueBy a) = [] := List.filter_eq_nil_iff.mpr fun f hf => by simp [hnot f hf]
  have hkeep : x.flight.filter (fun f => !f.dueBy a) = x.flight := List.filter_eq_self.mpr fun f hf => by simp [hnot f hf]
  unfold landed
  rw [hnone, hkeep]
  rfl

theorem landed_later {a : Nat} (h : ∀ f ∈ x.flight, a < f.due) : x.landed a = x :=
  landed_none fun f hf => Flight.not_dueBy (h f hf)

/-- With everything in flight due, all of it lands. -/
theorem landed_all {a : Nat} (h : ∀ f ∈ x.flight, f.dueBy a = true) :
    x.landed a = { x with flight := [] }.takes x.flight := by
  have hnone : x.flight.filter (fun f => !f.dueBy a) = [] := List.filter_eq_nil_iff.mpr fun f hf => by simp [h f hf]
  unfold landed
  rw [hnone, List.filter_eq_self.mpr h]

/-- A tile does not wait for a time word (R157). -/
def Timeless (x : Tile) : Prop := ∀ w, x.waitFor ≠ some (.time w)

theorem timeless_of_none (h : x.waitFor = none) : x.Timeless := by simp [Timeless, h]

/-- No products in flight have yet to be delayed for their operand lines (R166). -/
def NoneLate (x : Tile) (a : Nat) : Prop :=
  ∀ f ∈ x.flight, f.land.isProducts = true → (if x.m0 = 0 && x.m1 = 0 then x.mEnd else max (a + 1) x.mEnd) ≤ f.due

theorem NoneLate.of_noProducts {a : Nat} (h : ∀ f ∈ x.flight, f.land.isProducts = false) : x.NoneLate a :=
  fun f hf hp => absurd ((h f hf).symm.trans hp) Bool.false_ne_true

/-- None is then delayed. -/
theorem NoneLate.delayMma {a : Nat} (h : x.NoneLate a) : delayMma x a = x := by
  let d := if x.m0 = 0 && x.m1 = 0 then x.mEnd else max (a + 1) x.mEnd
  let late := x.flight.filter (fun f => f.land.isProducts && decide (f.due < d))
  let rest := x.flight.filter (fun f => !(f.land.isProducts && decide (f.due < d)))
  have hnot (f : Flight) (hf : f ∈ x.flight) : (f.land.isProducts && decide (f.due < d)) = false := by
    cases hp : f.land.isProducts with
    | false => rfl
    | true => exact decide_eq_false (Nat.not_lt.mpr (h f hf hp))
  have hlate : late = [] := List.filter_eq_nil_iff.mpr fun f hf => by simp [hnot f hf]
  have hrest : rest = x.flight := List.filter_eq_self.mpr fun f hf => by simp [hnot f hf]
  show ({ x with flight := late.foldl (fun l f => addFlight { f with due := d } l) rest } : Tile) = x
  rw [hlate, hrest]
  rfl

/-- A record whose next `n` ACLK bring it results in registers alone. -/
structure Lasts (x : Tile) (n : Nat) : Prop where
  live : x.Live
  noneLate : x.NoneLate (x.aclk + n)
  lands : x.LandsInRegisters (x.aclk + n)

/-- A record whose next `n` ACLK also end no wait. -/
structure Passes (x : Tile) (n : Nat) : Prop extends x.Lasts n where
  timeless : x.Timeless

theorem Lasts.of_later {n : Nat} (h : x.Live) (hd : ∀ f ∈ x.flight, x.aclk + n < f.due)
    (hp : ∀ f ∈ x.flight, f.land.isProducts = false) : x.Lasts n where
  live := h
  noneLate := .of_noProducts hp
  lands f hf hdue := absurd hdue (by rw [Flight.not_dueBy (hd f hf)]; exact Bool.false_ne_true)

theorem Passes.of_later {n : Nat} (h : x.Live) (hw : x.waitFor = none) (hd : ∀ f ∈ x.flight, x.aclk + n < f.due)
    (hp : ∀ f ∈ x.flight, f.land.isProducts = false) : x.Passes n :=
  { Lasts.of_later h hd hp with timeless := timeless_of_none hw }

end Tile

/-! ### The advance of a tile's clocks -/

/-- The ports of a tile have nothing to do for `n` ACLK: their clock goes on and nothing else (R152). -/
def State.PortsRest (s : State) (t n : Nat) : Prop :=
  let x := s.tile t
  let v := s.engTo t ((x.aclk + n) / 2 - x.eng)
  (∀ y, v.setTile t y = s.setTile t y) ∧ v.tile t = { x with eng := (x.aclk + n) / 2 }

theorem State.portsRest_of_idle {n : Nat} (h : (s.tile t).Live) (hi : (s.tile t).engIdle = true)
    (he : (s.tile t).eng ≤ ((s.tile t).aclk + n) / 2) : s.PortsRest t n := by
  unfold PortsRest
  dsimp only
  rw [engTo_idle s t _ hi]
  split
  next h0 =>
    have e : ((s.tile t).aclk + n) / 2 = (s.tile t).eng := by omega
    exact ⟨fun _ => rfl, by rw [e]⟩
  next =>
    refine ⟨fun y => setTile_setTile_live h, ?_⟩
    rw [tile_setTile, if_pos rfl, Nat.add_sub_cancel' he]

namespace State

/-- The advance of a tile whose ports rest: CYCLE and TILE_CNT_ACLK count, and what is due lands. -/
theorem advance_lands {n : Nat} (hp : s.PortsRest t n) (hprod : (s.tile t).NoneLate ((s.tile t).aclk + n)) :
    s.advance t n = ((s.setTile t (((s.tile t).kept (s.tile t).loops n).ahead (s.tile t).pc n)).count bTILE t 0xC00 n
      ).landUpTo t ((s.tile t).aclk + n) := by
  obtain ⟨hset, htile⟩ := hp
  unfold advance
  dsimp only
  rw [htile, Tile.NoneLate.delayMma (x := { s.tile t with eng := ((s.tile t).aclk + n) / 2 }) hprod, hset]
  rfl

/-- The same where what is due reaches the tile's registers alone. -/
theorem advance_rest {n : Nat} (hp : s.PortsRest t n) (hx : (s.tile t).Lasts n) :
    s.advance t n = (s.setTile t ((((s.tile t).kept (s.tile t).loops n).landed ((s.tile t).aclk + n)).ahead
      (s.tile t).pc n)).count bTILE t 0xC00 n := by
  obtain ⟨hlive, hprod, hland⟩ := hx
  have hrec : ((s.setTile t (((s.tile t).kept (s.tile t).loops n).ahead (s.tile t).pc n)).count bTILE t 0xC00 n).tile t =
      ((s.tile t).kept (s.tile t).loops n).ahead (s.tile t).pc n := by rw [tile_count, tile_setTile, if_pos rfl]
  rw [advance_lands hp hprod, landUpTo_landed (by rw [hrec]; exact hland) (by rw [hrec]; exact hlive), hrec,
    Tile.landed_ahead, setTile_count, setTile_setTile_live (x := ((s.tile t).kept (s.tile t).loops n).ahead (s.tile t).pc n) hlive]

theorem settleTime_timeless (h : (s.tile t).Timeless) : s.settleTime t = s := by
  unfold settleTime
  split
  next w hw => exact absurd hw (h w)
  next => rfl

/-! ### What follows a bundle -/

/-- A tile's record once control has gone on after a bundle (R154, R155). -/
def led (s : State) (t : Nat) (ls : List LoopRec) (pc : Nat) : State := s.setTile t { s.tile t with loops := ls, pc := pc }

theorem tile_led (ls : List LoopRec) (pc : Nat) : (s.led t ls pc).tile t = { s.tile t with loops := ls, pc := pc } := by
  rw [led, tile_setTile, if_pos rfl]

/-- The `n` ACLK after a bundle whose control has gone on: what is due lands. -/
theorem led_advance {n pc : Nat} {ls : List LoopRec} (hx : (u.tile t).Lasts n) (hports : (u.led t ls pc).PortsRest t n) :
    (u.led t ls pc).advance t n = (u.setTile t ((((u.tile t).kept ls n).landed ((u.tile t).aclk + n)).ahead pc n)).count
      bTILE t 0xC00 n := by
  have hadv := advance_rest hports (by rw [tile_led]; exact ⟨hx.live, hx.noneLate, hx.lands⟩)
  rw [tile_led] at hadv
  rw [hadv, led, setTile_setTile_live (x := { u.tile t with loops := ls, pc := pc }) hx.live]
  exact congrArg (fun y => (u.setTile t y).count bTILE t 0xC00 n)
    (Tile.ahead_landed_pc (x := (u.tile t).kept ls n) _ pc pc n)

/-- What follows a bundle that is neither a step boundary nor the end of its program: control goes on as `ctlNext` says. -/
theorem afterBundle_led {ctl : Ctl} {ls : List LoopRec} {pc b : Nat}
    (hctl : ctlNext (u.tile t) ctl = (ls, pc, b)) (hstep : ctl ≠ .step) (hend : ctl ≠ .endp) (hpc : pc ≤ 16383) :
    u.afterBundle t 0 0 ctl = ((u.led t ls pc).advance t (1 + b)).settleTime t := by
  have hover : decide (16383 < pc) = false := decide_eq_false (Nat.not_lt.mpr hpc)
  unfold afterBundle
  dsimp only
  rw [hctl]
  simp only [if_neg hend, if_neg hstep, if_true, Nat.add_zero, hover, Bool.false_and, Bool.false_eq_true, if_false]
  rfl

/-- Where what is due by the next bundle's ACLK reaches registers alone and no wait ends, it has landed then. -/
theorem afterBundle_rest {ctl : Ctl} {ls : List LoopRec} {pc b : Nat}
    (hctl : ctlNext (u.tile t) ctl = (ls, pc, b)) (hstep : ctl ≠ .step) (hend : ctl ≠ .endp) (hpc : pc ≤ 16383)
    (hx : (u.tile t).Passes (1 + b)) (hports : (u.led t ls pc).PortsRest t (1 + b)) :
    u.afterBundle t 0 0 ctl = (u.setTile t ((((u.tile t).kept ls (1 + b)).landed ((u.tile t).aclk + (1 + b))).ahead
      pc (1 + b))).count bTILE t 0xC00 (1 + b) := by
  rw [afterBundle_led hctl hstep hend hpc, led_advance hx.toLasts hports, settleTime_timeless]
  rw [tile_count, tile_setTile, if_pos rfl]
  exact fun w => (Tile.landed_run _).2.trans_ne (hx.timeless w)

end State

end Sys2Proof.Machine
end

section
/-! PROOF. The issue of a lone slot on a quiet tile as the statements give it (R145, R152, R154): with its effect on the
tile, the ports it uses and the bundle that follows. -/

namespace Sys2Proof.Machine

variable {s u : State} {t : Nat} {x y z : Tile} {g : Tile → Tile}

/-! ### The ports of the program -/

/-- A port that can serve an access in its first GCLK serves it without a stall. -/
theorem Tile.serveAt_now {port d g0 n : Nat} (h : x.canServe port d g0 g0 = true) : x.serveAt port d g0 (n + 1) g0 = g0 := by
  rw [serveAt, if_pos h]

/-- Read port 0 serves an access of the program at once where neither read port is in use (R152). -/
theorem Tile.serve_read {a : Nat} (d : Nat) (h0 : x.rp0 = []) (h1 : x.rp1 = []) (hown : x.own0 ≤ a) :
    x.serve a [(0, d)] 0 0 = ({ x with rp0 := [(a / 2, bankOf d)] }, 0, 0) := by
  have hserve : x.canServe 0 d (a / 2) (a / 2) = true := by simp [canServe, h0, h1]
  unfold serve
  dsimp only
  rw [if_pos rfl, Nat.max_eq_left hown, serveAt_now hserve, h0]
  simp [serve]

/-- The write port serves an access of the program at once where no line is landing, but in the GCLK of the scrubber. -/
theorem Tile.serve_write {a : Nat} (d : Nat) (hw : x.wp = []) (hl : x.landing = []) (hown : x.ownW ≤ a) (hg : a / 2 % 8 ≠ 7) :
    x.serve a [(2, d)] 0 0 = ({ x with wp := [(a / 2, bankOf d)] }, 0, 0) := by
  have hserve : x.canServe 2 d (a / 2) (a / 2) = true := by simp [canServe, landLines, hw, hl, hg]
  unfold serve
  dsimp only
  rw [if_neg (by decide), if_pos rfl, Nat.max_eq_left hown, serveAt_now hserve, hw]
  simp [serve]

/-! ### The issue of a slot -/

/-- A slot that writes at most one register makes a legal bundle unless it waits and ends a step. -/
theorem compositionBad_single {m : SlotSem} (hd : m.dest.length ≤ 1)
    (hw : m.isWait = true → m.ctl ≠ .step ∧ m.ctl ≠ .endp) : compositionBad [m] = false := by
  have hdup : ∀ l : List RegName, l.length ≤ 1 → hasDup l = false
    | [], _ => rfl
    | [_], _ => rfl
    | _ :: _ :: l, h => by simp at h
  have hone := hdup _ ((List.length_filter_le (fun r => r != (0, 0) && r != (2, 0)) m.dest).trans hd)
  cases hwait : m.isWait with
  | false => simp [compositionBad, hwait, hone]
  | true => simp [compositionBad, hwait, hone, hw hwait]

/-- A slot that meets no trap and is a legal bundle by itself. -/
structure SlotSem.Alone (m : SlotSem) : Prop where
  causes : m.causes = []
  fits : compositionBad [m] = false

theorem SlotSem.Plain.alone {m : SlotSem} (h : m.Plain) : m.Alone := ⟨h.causes, h.composition⟩

/-- A slot that writes at most one register and does not wait. -/
theorem SlotSem.Alone.of_dest {m : SlotSem} (hc : m.causes = []) (hd : m.dest.length ≤ 1) (hw : m.isWait = false) :
    m.Alone := ⟨hc, compositionBad_single hd fun h => absurd (hw.symm.trans h) Bool.false_ne_true⟩

/-- A slot that writes at most one register and goes on in sequence. -/
theorem SlotSem.Alone.of_seq {m : SlotSem} (hc : m.causes = []) (hd : m.dest.length ≤ 1) (hctl : m.ctl = .seq) :
    m.Alone := ⟨hc, compositionBad_single hd fun _ => by simp [hctl]⟩

namespace State

/-- The issue of a lone slot whose accesses make `v` of the tile: its effect, and what follows a bundle. -/
theorem slot_serves (hq : s.quiet t = true) {i : Instr} (hm : (slotSem i (s.assembled t i) t).Alone) {v : Tile} {st cnt : Nat}
    (hv : ({ s.tile t with slots := [i] } : Tile).serve (s.tile t).aclk (slotSem i (s.assembled t i) t).uses 0 0 =
      (v, st, cnt)) :
    s.slot ⟨t, false⟩ i = ((slotSem i (s.assembled t i) t).act (s.setTile t { v with slots := [] })).afterBundle t st cnt
      (slotSem i (s.assembled t i) t).ctl := by
  rw [slot_quiet s t i hq]
  show (if !((slotSem i (s.assembled t i) t).causes ++ when_ (compositionBad [slotSem i (s.assembled t i) t]) 0x02).isEmpty
    then _ else _) = _
  rw [hm.causes, hm.fits, if_neg (by decide)]
  dsimp only
  rw [show slotSem i (s.setTile t { s.tile t with slots := [i] }) t = slotSem i (s.assembled t i) t from rfl, hv]
  dsimp only
  rw [setTile_setTile_live (x := { s.tile t with slots := [i] }) (quiet_live hq)]

/-- A lone slot that uses no SRAM port of the program. -/
theorem slot_alone (hq : s.quiet t = true) {i : Instr} (hm : (slotSem i (s.assembled t i) t).Alone)
    (huses : (slotSem i (s.assembled t i) t).uses = []) :
    s.slot ⟨t, false⟩ i = ((slotSem i (s.assembled t i) t).act (s.setTile t (s.tile t))).afterBundle t 0 0
      (slotSem i (s.assembled t i) t).ctl := by
  obtain ⟨-, -, -, -, hslots, -⟩ := (quiet_iff s t).mp hq
  rw [slot_serves hq hm (v := { s.tile t with slots := [i] }) (by rw [huses]; rfl)]
  dsimp only
  rw [← hslots]

/-- The state with its number of free values replaced. -/
def freshAt (s : State) (n : Nat) : State := { s with fresh := n }

theorem ranTo_congr {h : Tile → Tile} {n pc : Nat} (e : g (s.tile t) = h (s.tile t)) : s.ranTo t n pc g = s.ranTo t n pc h := by
  unfold ranTo
  dsimp only
  rw [e]

theorem freshAt_ranTo {n pc : Nat} : (s.ranTo t n pc g).freshAt s.fresh = s.ranTo t n pc g := rfl

theorem ran_congr {h : Tile → Tile} (e : g (s.tile t) = h (s.tile t)) : s.ran t g = s.ran t h := ranTo_congr e

/-- An effect that leaves the tile's clocks, and the ACLK that follow it. -/
theorem ranTo_eq_ahead {n pc : Nat} (ha : (g (s.tile t)).aclk = (s.tile t).aclk) (hc : (g (s.tile t)).cycle = (s.tile t).cycle) :
    s.ranTo t n pc g = (s.setTile t ((g (s.tile t)).ahead pc n)).count bTILE t 0xC00 n := by
  unfold ranTo Tile.ahead
  dsimp only
  rw [ha, hc]

/-- What follows a bundle whose effect on the tile is `g`, as the statements give it. -/
theorem afterBundle_ranTo {n pc b : Nat} {ctl : Ctl} {ls : List LoopRec} (hu : u = (s.setTile t (g (s.tile t))).freshAt n)
    (ha : (g (s.tile t)).aclk = (s.tile t).aclk) (hc : (g (s.tile t)).cycle = (s.tile t).cycle)
    (hctl : ctlNext (g (s.tile t)) ctl = (ls, pc, b)) (hstep : ctl ≠ .step) (hend : ctl ≠ .endp) (hpc : pc ≤ 16383)
    (hx : (g (s.tile t)).Passes (1 + b)) (hports : (u.led t ls pc).PortsRest t (1 + b)) :
    u.afterBundle t 0 0 ctl =
      (s.ranTo t (1 + b) pc (fun y => ((g y).kept ls (1 + b)).landed ((g y).aclk + (1 + b)))).freshAt n := by
  have htile : u.tile t = g (s.tile t) := by
    rw [hu]
    show (s.setTile t (g (s.tile t))).tile t = _
    rw [tile_setTile, if_pos rfl]
  rw [afterBundle_rest (by rw [htile]; exact hctl) hstep hend hpc (by rw [htile]; exact hx) hports, htile, hu]
  show (((s.setTile t (g (s.tile t))).setTile t _).count bTILE t 0xC00 (1 + b)).freshAt n = _
  rw [setTile_setTile_live hx.live]
  rw [ranTo_eq_ahead (by rw [Tile.landed_aclk]; exact ha) (by rw [Tile.landed_cycle]; exact hc)]

end State

/-- Only an increment of a tally waits for the operations of the bundle of its ACLK (R181). -/
theorem Flight.dueBy_of_le {l : Land} (h : ∀ k m o, l ≠ .tally k m o) {d a : Nat} (hd : d ≤ a) : (Flight.mk d l).dueBy a = true := by
  cases l with
  | tally k m o => exact absurd rfl (h k m o)
  | _ => exact decide_eq_true hd

theorem Land.not_isProducts {l : Land} (h : l.registers = true) : l.isProducts = false := by
  cases l with
  | mma | mmav => exact absurd h Bool.false_ne_true
  | _ => rfl

theorem Tile.result_passes {lat n : Nat} {l : Land} (h : x.Live) (hw : x.waitFor = none) (hp : l.isProducts = false)
    (hl : l.registers = true) : (x.result lat l).Passes n where
  live := h
  timeless := Tile.timeless_of_none hw
  noneLate := .of_noProducts fun f hf => by
    obtain rfl := List.mem_singleton.mp hf
    exact hp
  lands f hf _ := by
    obtain rfl := List.mem_singleton.mp hf
    exact hl

theorem Tile.landed_result {lat a : Nat} {l : Land} (hloops : x.loops = []) (hflight : x.flight = [])
    (hd : (Flight.mk (x.aclk + lat) l).dueBy a = true) : { x.result lat l with loops := [] }.landed a = l.onto x := by
  have hx : ({ x with loops := [], flight := [] } : Tile) = x := by rw [← hloops, ← hflight]
  rw [Tile.landed_all (x := { x.result lat l with loops := [] }) (fun f hf => by
    obtain rfl := List.mem_singleton.mp hf
    exact hd)]
  exact congrArg l.onto hx

/-- What a slot's effect keeps of its tile: the clocks and the port uses; and what it leaves passes the next `n` ACLK. -/
structure Tile.Goes (x y : Tile) (n : Nat) : Prop where
  aclk : y.aclk = x.aclk := by rfl
  cycle : y.cycle = x.cycle := by rfl
  eng : y.eng = x.eng := by rfl
  rp0 : y.rp0 = x.rp0 := by rfl
  rp1 : y.rp1 = x.rp1 := by rfl
  wp : y.wp = x.wp := by rfl
  passes : y.Passes n

namespace State

/-- The ports of a tile with nothing under way beside its program rest. -/
theorem portsRest_led {v : State} {n pc : Nat} {ls : List LoopRec} (hy : v.tile t = y) (hlive : y.Live)
    (hi : y.engIdle = true) (he : y.eng ≤ (y.aclk + n) / 2) : (v.led t ls pc).PortsRest t n := by
  subst hy
  exact portsRest_of_idle (by rw [tile_led]; exact hlive) (by rw [tile_led]; exact hi) (by rw [tile_led]; exact he)

/-- The issue of a lone slot without an access of its own, whose effect on the tile is `g`. -/
theorem slot_ranTo (hq : s.quiet t = true) {i : Instr} (n : Nat) {ls : List LoopRec} {pc b : Nat}
    (hm : (slotSem i (s.assembled t i) t).Alone) (huses : (slotSem i (s.assembled t i) t).uses = [])
    (hact : (slotSem i (s.assembled t i) t).act (s.setTile t (s.tile t)) = (s.setTile t (g (s.tile t))).freshAt n)
    (hctl : ctlNext (g (s.tile t)) (slotSem i (s.assembled t i) t).ctl = (ls, pc, b))
    (hstep : (slotSem i (s.assembled t i) t).ctl ≠ .step) (hend : (slotSem i (s.assembled t i) t).ctl ≠ .endp)
    (hpc : pc ≤ 16383) (hg : (s.tile t).Goes (g (s.tile t)) (1 + b))
    (hports : (((s.setTile t (g (s.tile t))).freshAt n).led t ls pc).PortsRest t (1 + b)) :
    s.slot ⟨t, false⟩ i =
      (s.ranTo t (1 + b) pc (fun y => { g y with loops := ls }.landed (y.aclk + (1 + b)))).freshAt n := by
  obtain ⟨-, -, -, -, -, -, -, -, -, -, -, -, hrp0, hrp1, hwp, -⟩ := (quiet_iff s t).mp hq
  rw [slot_alone hq hm huses, hact,
    afterBundle_ranTo rfl hg.aclk hg.cycle hctl hstep hend hpc hg.passes hports]
  refine congrArg (freshAt · n) (ranTo_congr ?_)
  have hkept : (g (s.tile t)).kept ls (1 + b) = { g (s.tile t) with loops := ls } :=
    Tile.kept_self (x := { g (s.tile t) with loops := ls }) (hg.rp0.trans hrp0) (hg.rp1.trans hrp1) (hg.wp.trans hwp) _
  exact congrArg₂ Tile.landed hkept (by rw [hg.aclk])

/-- Nothing is under way at the ports of a quiet tile after an effect that leaves them so. -/
theorem portsRest_quiet (hq : s.quiet t = true) {k n pc : Nat} {ls : List LoopRec} (hg : (s.tile t).Goes (g (s.tile t)) n)
    (hi : (g (s.tile t)).engIdle = true) :
    (((s.setTile t (g (s.tile t))).freshAt k).led t ls pc).PortsRest t n := by
  obtain ⟨-, -, -, -, -, -, -, -, -, -, -, -, -, -, -, -, -, heng, -⟩ := (quiet_iff s t).mp hq
  refine portsRest_led (y := g (s.tile t)) ?_ hg.passes.live hi ?_
  · show (s.setTile t (g (s.tile t))).tile t = _
    rw [tile_setTile, if_pos rfl]
  · rw [hg.eng, hg.aclk, heng]
    omega

/-- A result put in flight on a tile with none. -/
theorem fly_setTile (h : x.Live) (hf : x.flight = []) (lat : Nat) (l : Land) :
    (s.setTile t x).fly t lat l = s.setTile t { x with flight := [⟨x.aclk + lat, l⟩] } := by
  unfold fly updTile
  rw [tile_setTile, if_pos rfl]
  dsimp only
  rw [hf, List.foldl_nil, ite_self, Tile.fly_of_flight_nil hf, setTile_setTile_live h]

theorem fly_quiet (hq : s.quiet t = true) (lat : Nat) (l : Land) :
    (s.setTile t (s.tile t)).fly t lat l = s.setTile t ((s.tile t).result lat l) :=
  fly_setTile (quiet_live hq) (quiet_flight hq) lat l

/-- Control after a bundle depends on the loops and the bundle alone. -/
theorem ctlNext_congr (hl : y.loops = x.loops) (hp : y.pc = x.pc) (ctl : Ctl) : ctlNext y ctl = ctlNext x ctl := by
  cases ctl <;> simp only [ctlNext, hl, hp]

/-- With no loop active the bundle in sequence follows (R154). -/
theorem ctlNext_seq (hl : x.loops = []) : ctlNext x .seq = ([], x.pc + 1, 0) := by
  simp only [ctlNext, hl, seqNext]

/-- A result of latency 1 has landed at the next bundle, whichever that is (R145). -/
theorem slot_lands (hq : s.quiet t = true) {i : Instr} {l : Land} {pc b : Nat}
    (hm : (slotSem i (s.assembled t i) t).Alone) (huses : (slotSem i (s.assembled t i) t).uses = [])
    (hact : (slotSem i (s.assembled t i) t).act (s.setTile t (s.tile t)) = (s.setTile t (s.tile t)).fly t 1 l)
    (hctl : ctlNext (s.tile t) (slotSem i (s.assembled t i) t).ctl = ([], pc, b))
    (hstep : (slotSem i (s.assembled t i) t).ctl ≠ .step) (hend : (slotSem i (s.assembled t i) t).ctl ≠ .endp)
    (hpc : pc ≤ 16383) (hl : l.registers = true) (hlt : ∀ k m o, l ≠ .tally k m o) :
    s.slot ⟨t, false⟩ i = s.ranTo t (1 + b) pc l.onto := by
  obtain ⟨-, hrun, hwait, -, -, hflight, hloops, -⟩ := (quiet_iff s t).mp hq
  have hg : (s.tile t).Goes ((s.tile t).result 1 l) (1 + b) :=
    { passes := Tile.result_passes (quiet_live hq) hwait (Land.not_isProducts hl) hl }
  have hidle : ((s.tile t).result 1 l).engIdle = true := quiet_engIdle hq
  rw [slot_ranTo (g := (·.result 1 l)) hq s.fresh hm huses (hact.trans (fly_quiet hq 1 l))
    ((ctlNext_congr rfl rfl _).trans hctl) hstep hend hpc hg (portsRest_quiet (g := (·.result 1 l)) hq hg hidle)]
  have hdue := Flight.dueBy_of_le hlt (show (s.tile t).aclk + 1 ≤ (s.tile t).aclk + (1 + b) by omega)
  rw [freshAt_ranTo]
  refine ranTo_congr ?_
  exact Tile.landed_result hloops hflight hdue

/-- The same for a bundle that goes on in sequence. -/
theorem slot_now (hq : s.quiet t = true) {i : Instr} {l : Land} (hm : (slotSem i (s.assembled t i) t).Plain)
    (hact : (slotSem i (s.assembled t i) t).act (s.setTile t (s.tile t)) = (s.setTile t (s.tile t)).fly t 1 l)
    (hl : l.registers = true) (hlt : ∀ k m o, l ≠ .tally k m o) : s.slot ⟨t, false⟩ i = s.ran t l.onto := by
  obtain ⟨-, -, -, -, -, -, hloops, -, -, -, -, -, -, -, -, -, -, -, -, -, -, -, hpc, -⟩ := (quiet_iff s t).mp hq
  refine slot_lands hq hm.alone hm.uses hact (b := 0) ?_ (by simp [hm.ctl]) (by simp [hm.ctl]) hpc hl hlt
  rw [hm.ctl, ctlNext_seq hloops]

/-- A result of a latency above 1 is in flight at the next bundle (R145). -/
theorem slot_later (hq : s.quiet t = true) {i : Instr} {l : Land} {lat : Nat} (hm : (slotSem i (s.assembled t i) t).Plain)
    (hact : (slotSem i (s.assembled t i) t).act (s.setTile t (s.tile t)) = (s.setTile t (s.tile t)).fly t lat l)
    (hlat : 1 < lat) (hl : l.isProducts = false) : s.slot ⟨t, false⟩ i = s.ranLater t lat l :=
  slot_follows (g := (·.result lat l)) hq s.fresh hm (hact.trans (fly_quiet hq lat l)) { due := .single rfl (Nat.add_lt_add_left hlat _) hl }

end State
end Sys2Proof.Machine
end

section
/-! PROOF. The operations of the S slot on registers, immediates and predicates (O1, O2). -/

namespace Sys2Proof.Machine

variable {s : State} {t : Nat}

namespace State

/-- A slot whose one effect is a scalar result of latency 1. -/
theorem slot_ranS (hq : s.quiet t = true) {i : Instr} {r : Nat} {v : W64} (hm : (slotSem i (s.assembled t i) t).Plain)
    (hact : (slotSem i (s.assembled t i) t).act = fun s' => s'.flyS t 1 r v) : s.slot ⟨t, false⟩ i = s.ranS t r v :=
  slot_now (l := .s r v) hq hm (by rw [hact]; rfl) rfl (by simp)

/-- A slot whose one effect is a predicate result of latency 1. -/
theorem slot_ranP (hq : s.quiet t = true) {i : Instr} {r : Nat} {v : W64} (hm : (slotSem i (s.assembled t i) t).Plain)
    (hact : (slotSem i (s.assembled t i) t).act = fun s' => s'.fly t 1 (.p r v)) : s.slot ⟨t, false⟩ i = s.ranP t r v :=
  slot_now (l := .p r v) hq hm (by rw [hact]) rfl (by simp)

/-- The registers a slot reads are those of the tile that assembles it. -/
theorem sreg_slots (i : Instr) (r : Nat) : ((s.assembled t i).tile t).sreg r = (s.tile t).sreg r := by
  rw [tile_assembled]
  rfl

theorem preg_slots (i : Instr) (r : Nat) : ((s.assembled t i).tile t).preg r = (s.tile t).preg r := by
  rw [tile_assembled]
  rfl

/-- A register operation (Table 6-3). -/
theorem slot_alu (hq : s.quiet t = true) {i : Instr} {f : FmtSR} {op : W64 → W64 → W64} {lat : Nat}
    (hi : ∀ v k, slotSem i v k = semAlu op lat f v k) :
    (lat = 1 → s.slot ⟨t, false⟩ i = s.ranS t f.rd.toNat (op ((s.tile t).sreg f.rs1.toNat) ((s.tile t).sreg f.rs2.toNat))) ∧
    (1 < lat → s.slot ⟨t, false⟩ i =
      s.ranLater t lat (.s f.rd.toNat (op ((s.tile t).sreg f.rs1.toNat) ((s.tile t).sreg f.rs2.toNat)))) := by
  have hm : (slotSem i (s.assembled t i) t).Plain := by
    rw [hi]
    exact { causes := rfl, dest := Nat.le_refl 1 }
  have hact : (slotSem i (s.assembled t i) t).act = fun s' => s'.flyS t lat f.rd.toNat
      (op ((s.tile t).sreg f.rs1.toNat) ((s.tile t).sreg f.rs2.toNat)) := by
    rw [hi]
    unfold semAlu
    simp only [sreg_slots]
  refine ⟨?_, fun hlat => slot_later hq hm (by rw [hact]; rfl) hlat rfl⟩
  rintro rfl
  exact slot_ranS hq hm hact

/-- An operation on a register and an immediate (Table 6-3). -/
theorem slot_aluI (hq : s.quiet t = true) {i : Instr} {f : FmtSI} {op : W64 → W64 → W64}
    (hi : ∀ v k, slotSem i v k = semAluI op f v k) :
    s.slot ⟨t, false⟩ i = s.ranS t f.rd.toNat (op ((s.tile t).sreg f.rs1.toNat) (f.imm.signExtend 64)) := by
  refine slot_ranS hq ?_ ?_
  · rw [hi]
    exact { causes := rfl, dest := Nat.le_refl 1 }
  · rw [hi]
    unfold semAluI
    simp only [sreg_slots]
    rfl

end State

open State

theorem opSlt_eq (a b : W64) : opSlt a b = if a.toInt < b.toInt then 1 else 0 := by
  simp only [opSlt, BitVec.slt, decide_eq_true_eq]

theorem opSltu_eq (a b : W64) : opSltu a b = if a.toNat < b.toNat then 1 else 0 := by
  simp only [opSltu, BitVec.ult, decide_eq_true_eq]

theorem opMin_eq (a b : W64) : opMin a b = if b.toInt ≤ a.toInt then b else a := by
  simp only [opMin, BitVec.slt, decide_eq_true_eq, ← Int.not_lt, ite_not]

theorem opMax_eq (a b : W64) : opMax a b = if a.toInt ≤ b.toInt then b else a := by
  simp only [opMax, BitVec.slt, decide_eq_true_eq]
  rcases Int.lt_trichotomy a.toInt b.toInt with h | h | h
  · rw [if_pos h, if_pos (Int.le_of_lt h)]
  · rw [if_neg (by omega), if_pos (by omega)]
    exact BitVec.eq_of_toInt_eq h
  · rw [if_neg (by omega), if_neg (by omega)]

/-- Settles O1: each operation is `semAlu` with a latency and a function of the two registers. -/
theorem scalarRegisterOperations : Obligations.ScalarRegisterOperations := by
  unfold Obligations.ScalarRegisterOperations
  intro s t f hq a b d
  have one {i : Instr} {op : W64 → W64 → W64} (hi : ∀ v k, slotSem i v k = semAlu op 1 f v k) :
      (.next (s.slot ⟨t, false⟩ i) : Res) = .next (s.ranS t d (op a b)) :=
    congrArg Host.Outcome.next ((slot_alu hq hi).1 rfl)
  have three {i : Instr} {op : W64 → W64 → W64} (hi : ∀ v k, slotSem i v k = semAlu op 3 f v k) :
      (.next (s.slot ⟨t, false⟩ i) : Res) = .next (s.ranLater t 3 (.s d (op a b))) :=
    congrArg Host.Outcome.next ((slot_alu hq hi).2 (by decide))
  exact ⟨one (op := opAdd) fun _ _ => rfl, one (op := opSub) fun _ _ => rfl, one (op := opAnd) fun _ _ => rfl,
    one (op := opOr) fun _ _ => rfl, one (op := opXor) fun _ _ => rfl, one (op := opSll) fun _ _ => rfl,
    one (op := opSrl) fun _ _ => rfl, one (op := opSra) fun _ _ => rfl, opSlt_eq a b ▸ one fun _ _ => rfl,
    opSltu_eq a b ▸ one fun _ _ => rfl, opMin_eq a b ▸ one fun _ _ => rfl, opMax_eq a b ▸ one fun _ _ => rfl,
    three (op := opMul) fun _ _ => rfl, three (op := opMulhu) fun _ _ => rfl⟩

theorem shamt_signExtend (i : BitVec 14) : shamt (i.signExtend 64) = i.toNat % 64 := by
  have hi := i.isLt
  rw [shamt, BitVec.toNat_signExtend, BitVec.toNat_setWidth]
  split <;> omega

theorem opSlt_signExtend (a : W64) (i : BitVec 14) : opSlt a (i.signExtend 64) = if a.toInt < i.toInt then 1 else 0 := by
  rw [opSlt_eq, BitVec.toInt_signExtend_of_le (by decide)]

/-- Settles O2: each immediate operation is `semAluI` with a function, each of the others one result of latency 1. -/
theorem scalarImmediateOperations : Obligations.ScalarImmediateOperations := by
  unfold Obligations.ScalarImmediateOperations
  intro s t hq
  refine ⟨?immediates, ?lui, ?predicates⟩
  case immediates =>
    intro f a d i
    have one {j : Instr} {op : W64 → W64 → W64} (hj : ∀ v k, slotSem j v k = semAluI op f v k) :
        (.next (s.slot ⟨t, false⟩ j) : Res) = .next (s.ranS t d (op a i)) :=
      congrArg Host.Outcome.next (slot_aluI hq hj)
    have hsh : shamt i = f.imm.toNat % 64 := shamt_signExtend f.imm
    exact ⟨one (op := opAdd) fun _ _ => rfl, one (op := opAnd) fun _ _ => rfl, one (op := opOr) fun _ _ => rfl,
      one (op := opXor) fun _ _ => rfl, hsh ▸ one (op := opSll) fun _ _ => rfl, hsh ▸ one (op := opSrl) fun _ _ => rfl,
      hsh ▸ one (op := opSra) fun _ _ => rfl, opSlt_signExtend a f.imm ▸ one fun _ _ => rfl⟩
  case lui =>
    intro f
    exact congrArg Host.Outcome.next (slot_ranS hq { causes := rfl, dest := Nat.le_refl 1 } rfl)
  case predicates =>
    intro f hrsv a b d
    have logic (w : W64) (hf : f.func.toNat ≤ 4) (hw : (match f.func.toNat with
          | 0 => a &&& b | 1 => a ||| b | 2 => a ^^^ b | 3 => a &&& ~~~b | _ => ~~~a) = w) :
        exec (.plog ⟨t, false⟩ f) s = .next (s.ranP t d w) := by
      refine congrArg Host.Outcome.next (slot_ranP hq { causes := ?_, dest := Nat.le_refl 1 } ?_)
      · show rsv (f.rsv != 0) ++ when_ (4 < f.func.toNat) 0x05 = []
        rw [rsv_eq_nil hrsv]
        simp [when_, hf]
      · rw [← hw]
        show (fun s' : State => s'.fly t 1 _) = _
        simp only [preg_slots]
        rfl
    refine ⟨fun h => logic _ (by rw [h]; decide) (by rw [h]; rfl), fun h => logic _ (by rw [h]; decide) (by rw [h]; rfl),
      fun h => logic _ (by rw [h]; decide) (by rw [h]; rfl), fun h => logic _ (by rw [h]; decide) (by rw [h]; rfl),
      fun h => logic _ (by rw [h]; decide) (by rw [h]; rfl), ?pset, ?pget⟩
    case pset =>
      refine congrArg Host.Outcome.next (slot_ranP hq { causes := rsv_eq_nil hrsv, dest := Nat.le_refl 1 } ?_)
      rw [← sreg_slots]
      rfl
    case pget =>
      refine congrArg Host.Outcome.next (slot_ranS hq { causes := rsv_eq_nil hrsv, dest := Nat.le_refl 1 } ?_)
      show _ = fun s' : State => s'.flyS t 1 f.rs.toNat ((s.tile t).preg f.pa.toNat)
      rw [← preg_slots (s := s) (t := t) (.pget ⟨t, false⟩ f) f.pa.toNat]
      rfl

end Sys2Proof.Machine
end

section
/-! PROOF. The integer operations of the V slot, lane by lane (O8). -/

namespace Sys2Proof.Machine

variable {s : State} {t : Nat}

theorem w32_toNat (x : W32) : w32 x.toNat = x := BitVec.ofNat_toNat 32 x |>.trans (BitVec.setWidth_eq x)

theorem lane_eq_toNat (v : Vec) (i : Nat) : lane v i = (v.extractLsb' (32 * i) 32).toNat := by
  rw [← lane_eq_extractLsb', BitVec.toNat_ofNat]
  exact (Nat.mod_eq_of_lt (Nat.mod_lt _ (by decide))).symm

theorem merge_allOnes (a b : Vec) : merge a b (BitVec.allOnes 2048) = b := by
  rw [merge, BitVec.not_allOnes, BitVec.and_zero, BitVec.zero_or, BitVec.and_allOnes]

namespace State

theorem vreg_slots (i : Instr) (r : Nat) : ((s.assembled t i).tile t).vreg r = (s.tile t).vreg r := by
  rw [tile_assembled]
  rfl

theorem on_slots (i : Instr) (p : BitVec 3) : ((s.assembled t i).tile t).on p = (s.tile t).on p := by
  rw [tile_assembled]
  rfl

/-- An operation on 32-bit lanes (Table 6-4). -/
theorem slot_vector (hq : s.quiet t = true) {i : Instr} {f : FmtVR} (hrm : f.rm = 0) {op : Nat → Nat → Nat} {lat : Nat}
    (hi : ∀ v k, slotSem i v k = semVI lat op f v k) {r : Nat → W32}
    (hr : ∀ j, op (lane ((s.tile t).vreg f.va.toNat) j) (lane ((s.tile t).vreg f.vb.toNat) j) = (r j).toNat) :
    let l : Land := .v f.vd.toNat (vecOf (fun j => (r j).toNat)) (laneMask ((s.tile t).preg f.pred.toNat))
    (lat = 1 → s.slot ⟨t, false⟩ i = s.ran t l.onto) ∧ (1 < lat → s.slot ⟨t, false⟩ i = s.ranLater t lat l) := by
  intro l
  have hm : (slotSem i (s.assembled t i) t).Plain := by
    rw [hi]
    exact { causes := rsv_eq_nil hrm, dest := Nat.le_refl 1 }
  have hact : (slotSem i (s.assembled t i) t).act = fun s' => s'.fly t lat l := by
    rw [hi]
    unfold semVI
    simp only [vreg_slots, preg_slots, hr]
    rfl
  refine ⟨?_, fun hlat => slot_later hq hm (by rw [hact]) hlat rfl⟩
  rintro rfl
  exact slot_now hq hm (by rw [hact]) rfl (by simp [l])

end State

open State

/-- Settles O8: each operation is `semVI` with a latency and a function of two lanes, or one result of its own. -/
theorem vectorIntegerOperations : Obligations.VectorIntegerOperations := by
  unfold Obligations.VectorIntegerOperations
  intro s t hq
  refine ⟨?lanes, ?compare⟩
  case lanes =>
    intro f hrm x d mask a b one
    have at1 {i : Instr} {op : Nat → Nat → Nat} (hi : ∀ v k, slotSem i v k = semVI 1 op f v k) {r : Nat → W32}
        (hr : ∀ j, op (lane (x.vreg f.va.toNat) j) (lane (x.vreg f.vb.toNat) j) = (r j).toNat) :
        (.next (s.slot ⟨t, false⟩ i) : Res) = .next (one r) := congrArg Host.Outcome.next ((slot_vector hq hrm hi hr).1 rfl)
    refine ⟨at1 (op := lAdd) (fun _ _ => rfl) fun j => ?_, at1 (op := lSub) (fun _ _ => rfl) fun j => ?_,
      at1 (op := lAnd) (fun _ _ => rfl) fun j => ?_, at1 (op := lOr) (fun _ _ => rfl) fun j => ?_,
      at1 (op := lXor) (fun _ _ => rfl) fun j => ?_, at1 (op := lShl) (fun _ _ => rfl) fun j => ?_,
      at1 (op := lShr) (fun _ _ => rfl) fun j => ?_, at1 (op := lSra) (fun _ _ => rfl) fun j => ?_,
      congrArg Host.Outcome.next ((slot_vector hq hrm (op := lMul) (fun _ _ => rfl) fun j => ?_).2 (by decide)), ?vsel, ?vperm⟩
    case vsel =>
      refine congrArg Host.Outcome.next ((slot_now hq (i := .vsel ⟨t, false⟩ f) (l := .v d (merge (x.vreg f.vb.toNat) (x.vreg f.va.toNat) mask)
        (BitVec.allOnes 2048)) { causes := rsv_eq_nil hrm, dest := Nat.le_refl 1 } ?_ rfl (by simp)).trans (ran_congr ?_))
      · show State.flyV _ t 1 d (merge _ _ _) _ = _
        rw [vreg_slots, vreg_slots, preg_slots]
        rfl
      · exact congrArg (x.setV d) (merge_allOnes _ _)
    case vperm =>
      refine congrArg Host.Outcome.next (slot_later hq { causes := rsv_eq_nil hrm, dest := Nat.le_refl 1 } ?_ (by decide) rfl)
      show State.flyV _ t 3 d (ofLanes ((List.range 64).map _)) _ = _
      simp only [vreg_slots, preg_slots, lane_eq_toNat]
      rfl
    all_goals simp only [lAdd, lSub, lMul, lAnd, lOr, lXor, lShl, lShr, lSra, lane_eq_toNat, w32_toNat, a, b, x]
  case compare =>
    intro f hrsv hrsv2 x on a b gives
    have holds (c : Nat) (hc : f.cond.toNat = c) (h4 : c ≠ 4) (h5 : c ≤ 5) {r : Nat → Bool}
        (hr : ∀ j, i32Cmp c (a j).toNat (b j).toNat = r j) : gives r := by
      refine congrArg Host.Outcome.next (slot_later hq { causes := ?_, dest := Nat.le_refl 1 } ?_ (by decide) rfl)
      · show rsv (f.rsv != 0 || f.rsv2 != 0) ++ when_ (decide (f.cond.toNat = 4) || decide (5 < f.cond.toNat)) 0x05 = []
        rw [hrsv, hrsv2, hc, decide_eq_false h4, decide_eq_false (Nat.not_lt.mpr h5)]
        rfl
      · show State.fly _ t 2 (.p f.pd.toNat (ofBits ((List.range 64).map _))) = _
        rw [vreg_slots, vreg_slots, on_slots, hc]
        simp only [lane_eq_toNat]
        exact congrArg (fun l => State.fly _ t 2 (.p f.pd.toNat (ofBits l)))
          (List.map_congr_left fun j _ => congrArg (on j && ·) (hr j))
    refine ⟨fun h => holds 0 (by rw [h]; rfl) (by decide) (by decide) fun j => ?_,
      fun h => holds 1 (by rw [h]; rfl) (by decide) (by decide) fun j => ?_,
      fun h => holds 2 (by rw [h]; rfl) (by decide) (by decide) fun j => ?_,
      fun h => holds 3 (by rw [h]; rfl) (by decide) (by decide) fun j => ?_,
      fun h => holds 5 (by rw [h]; rfl) (by decide) (by decide) fun j => ?_⟩
    all_goals simp only [i32Cmp, w32_toNat]
    · exact beq_eq_decide (a j) (b j)
    · rw [bne, beq_eq_decide (a j) (b j), decide_not]
    · rfl
    · rfl
    · rfl

end Sys2Proof.Machine
end

section
/-! PROOF. What the post of an event leaves of the tiles and the registers, wherever its page routes it (R416, R469,
R472, R473): firmware's messages change no register, and of the tiles their tallies alone. The relation `Posted s u`
is carried through the functions a post is made of, in the model's order. -/

namespace Sys2Proof.Machine

variable {s u v : State}

/-- A state as it follows from another by firmware's messages. -/
structure Posted (s u : State) : Prop where
  regs : u.regs = s.regs
  tile : ∀ k, ∃ m, u.tile k = { s.tile k with tallies := m }

namespace Posted

theorem refl : Posted s s := ⟨rfl, fun _ => ⟨_, rfl⟩⟩

/-- Fields other than registers and tiles are free. -/
theorem same (h : Posted s u) (hr : v.regs = u.regs := by with_reducible rfl) (ht : v.tiles = u.tiles := by with_reducible rfl) :
    Posted s v :=
  ⟨hr.trans h.regs, fun k => by rw [State.tile, ht]; exact h.tile k⟩

theorem ite {c : Prop} [Decidable c] (ht : Posted s u) (hu : Posted s v) : Posted s (if c then u else v) := by
  split
  · exact ht
  · exact hu

theorem setMb {ch b x} (h : Posted s u) : Posted s (u.setMb ch b x) := ⟨h.regs, h.tile⟩
theorem setPart {p x} (h : Posted s u) : Posted s (u.setPart p x) := ⟨h.regs, h.tile⟩
theorem setGroup {g x} (h : Posted s u) : Posted s (u.setGroup g x) := ⟨h.regs, h.tile⟩
theorem count {b i o n} (h : Posted s u) : Posted s (u.count b i o n) := ⟨h.regs, h.tile⟩
theorem emit {o} (h : Posted s u) : Posted s (u.emit o) := ⟨h.regs, h.tile⟩
theorem freshen (h : Posted s u) : Posted s u.freshen := ⟨h.regs, h.tile⟩
theorem poke {a bs} (h : Posted s u) : Posted s (u.poke a bs) := ⟨h.regs, h.tile⟩
theorem lineRead {c l} (h : Posted s u) : Posted s (u.lineRead c l) := ⟨h.regs, h.tile⟩
theorem lineWrite {c l} (h : Posted s u) : Posted s (u.lineWrite c l) := ⟨h.regs, h.tile⟩

/-- A tile tally counts. -/
theorem countTally {t k} (h : Posted s u) : Posted s (u.updTile t (fun x => x.incTally k)) := by
  refine ⟨h.regs, fun i => ?_⟩
  obtain ⟨m, hm⟩ := h.tile i
  rw [State.updTile, State.tile_setTile]
  split
  next e =>
    subst e
    exact ⟨_, by rw [hm]; rfl⟩
  next => exact ⟨m, hm⟩

theorem armedCheck {p i} (h : Posted s u) : Posted s (u.armedCheck p i) := by
  unfold State.armedCheck
  extract_lets _ _ _ s1
  have h1 : Posted s s1 := h.same
  exact .ite h (.ite h1.setPart h1.same)

theorem incTally {p w} (h : Posted s u) : Posted s (u.incTally p w) := by
  unfold State.incTally
  refine .ite h (.ite h.countTally ?_)
  extract_lets
  exact h.setPart.armedCheck

theorem noteEcc {l} (h : Posted s u) : Posted s (u.noteEcc l) := .ite h.same (.ite h.same h)

theorem fwLine {id a bs} (h : Posted s u) : Posted s (u.fwLine id a bs) := by
  unfold State.fwLine
  extract_lets _ _ src _ _ _ src'
  have hsrc : Posted s src := h.lineWrite.poke
  have hsrc' : Posted s src' := h.lineWrite.lineRead.noteEcc.poke
  exact .ite hsrc.same (.ite h.lineWrite.lineRead.noteEcc hsrc'.same.freshen)

theorem chanPut {p off bs} (h : Posted s u) : Posted s (u.chanPut p off bs) := by
  unfold State.chanPut
  split
  · exact h.fwLine
  · exact h

theorem chanSend {p} (h : Posted s u) : Posted s (u.chanSend p) := by
  unfold State.chanSend
  extract_lets s1
  have h1 : Posted s s1 := h.chanPut.chanPut
  split
  · extract_lets _ s2
    have h2 : Posted s s2 := h1.lineRead.noteEcc
    exact .ite h2 h2.freshen.incTally
  · exact h1

theorem sendFw {ch words} (h : Posted s u) : Posted s (u.sendFw ch words) := by
  unfold State.sendFw
  extract_lets
  split
  · exact h.setMb.emit
  · exact h.setMb.emit
  · exact h.setMb.chanSend
  · exact h.setMb

theorem fwPost {ch words} (h : Posted s u) : Posted s (u.fwPost ch words) :=
  .ite h.sendFw (.ite h.setMb h.setMb.count)

theorem postEvent {ch blk inst bit} (h : Posted s u) : Posted s (u.postEvent ch blk inst bit) := h.setMb.fwPost

theorem route {blk inst bit} (h : Posted s u) : Posted s (u.route blk inst bit) := by
  unfold State.route
  extract_lets _ s1
  have h1 : Posted s s1 := .ite h.postEvent h
  refine .ite ?_ h1
  split
  · exact h1.postEvent
  · exact h1

theorem noteGroup {was g} (h : Posted s u) : Posted s (u.noteGroup was g) := .ite h.setGroup h

end Posted

namespace State

/-- An event's record, and the messages that carry it. -/
theorem posted_raise (blk inst bit : Nat) (i0 i1 : W32) :
    Posted (s.logged blk inst bit i0 i1) (s.raise blk inst bit i0 i1) := by
  rw [raise_eq]
  exact .ite Posted.refl.route .refl

theorem tile_logged (blk inst bit : Nat) (i0 i1 : W32) (k : Nat) : (s.logged blk inst bit i0 i1).tile k = s.tile k := by
  obtain ⟨r, c, h⟩ := s.logged_frame blk inst bit i0 i1
  rw [h]
  rfl

/-- Of the tiles an event changes tallies alone (R416). -/
theorem tile_raise (blk inst bit : Nat) (i0 i1 : W32) (k : Nat) :
    ∃ m, (s.raise blk inst bit i0 i1).tile k = { s.tile k with tallies := m } := by
  obtain ⟨m, h⟩ := (s.posted_raise blk inst bit i0 i1).tile k
  exact ⟨m, by rw [h, tile_logged]⟩


theorem reg_of_regs (h : u.regs = s.regs) (b i o : Nat) : u.reg b i o = s.reg b i o := by
  unfold reg
  rw [h]

theorem reg_raise_logged (blk inst bit : Nat) (i0 i1 : W32) (b i o : Nat) :
    (s.raise blk inst bit i0 i1).reg b i o = (s.logged blk inst bit i0 i1).reg b i o :=
  reg_of_regs (s.posted_raise blk inst bit i0 i1).regs b i o

/-- The bit of an event is set, wherever the event is routed (R469). -/
theorem events_raise (blk inst : Nat) {bit : Nat} (hb : bit < 32) (i0 i1 : W32) :
    ((s.raise blk inst bit i0 i1).reg blk inst oEVENTS).getLsbD bit = true := by
  rw [reg_raise_logged]
  exact s.logged_ev blk inst i0 i1 hb

theorem regs_noteGroup (was : State) (g : Nat) : (s.noteGroup was g).regs = s.regs :=
  (Posted.refl.noteGroup (was := was) (g := g)).regs

theorem tile_noteGroup (was : State) (g k : Nat) : (s.noteGroup was g).tile k = s.tile k := by
  unfold noteGroup
  split <;> rfl

end State

/-! ### What lands leaves a tile's control -/

/-- The control of a tile's program: its bundle, its state, its wait and its requests. -/
def Tile.control (x : Tile) : Nat × Run × Option Wait × Bool × Bool := (x.pc, x.run, x.waitFor, x.holdReq, x.stopReq)

theorem Tile.control_macAll (x : Tile) (av bv : Nat → Nat → XVal) (k : Nat) : (x.macAll av bv k).control = x.control := by
  unfold macAll
  generalize List.range 4096 = l
  induction l generalizing x with
  | nil => rfl
  | cons e l ih => exact ih _

/-- The record of a tile whose program has ended (R156). -/
def Tile.finished (x : Tile) : Tile :=
  { x with run := .done, stopReq := false, holdReq := false, waitFor := none, waitExt := false, sramPend := false }

/-- The record of a tile whose drain after a boundary has ended (R156). -/
def Tile.drainedOut (x : Tile) : Tile :=
  { x with run := .stopped, heldFrom := none, holdReq := false, stopReq := false, waitFor := none, waitExt := false }

namespace State

theorem control_updTile {t : Nat} {f : Tile → Tile} (h : ∀ x, (f x).control = x.control) :
    ((s.updTile t f).tile t).control = (s.tile t).control := by
  rw [updTile, tile_setTile, if_pos rfl]
  exact h _

theorem control_landFlight (t : Nat) (l : Land) : ((s.landFlight t l).tile t).control = (s.tile t).control := by
  have setS (r : Nat) (w : W64) (x : Tile) : (x.setS r w).control = x.control := by
    unfold Tile.setS
    split <;> rfl
  have setP (r : Nat) (w : W64) (x : Tile) : (x.setP r w).control = x.control := by
    unfold Tile.setP
    split <;> rfl
  have tally (k : Nat) (m : Bool) (x : Tile) : (let y := x.incTally k
      if m then { y with marks := mset false y.marks k true } else y).control = x.control := by cases m <;> rfl
  cases l with
  | s r w => exact control_updTile (setS r w)
  | p r w => exact control_updTile (setP r w)
  | v | nstat | mmavCut => exact control_updTile fun _ => rfl
  | csr r w => cases r <;> exact control_updTile fun _ => rfl
  | csrClear r w => cases r <;> exact control_updTile fun _ => rfl
  | tally k m o => cases o <;> exact control_updTile (tally k m)
  | mem a bs =>
    obtain ⟨_, _, _, _, _, _, e⟩ := s.pokeMask_frame a bs
    show ((s.pokeMask a bs).tile t).control = _
    rw [e]
    rfl
  | memBusy a bs =>
    obtain ⟨_, _, _, _, _, _, e⟩ := s.pokeMask_frame a bs
    show ((s.pokeMask a bs).tile t).control = _
    rw [e]
    rfl
  | mma =>
    unfold landFlight
    extract_lets
    rw [tile_freshen]
    exact control_updTile fun x => x.control_macAll _ _ _
  | mmav =>
    unfold landFlight
    extract_lets
    rw [tile_freshen]
    exact control_updTile fun x => x.control_macAll _ _ _

theorem control_landAllOf (t : Nat) (l : List Flight) : ((s.landAllOf t l).tile t).control = (s.tile t).control := by
  induction l generalizing s with
  | nil => rfl
  | cons f l ih => exact ih.trans (control_landFlight t f.land)

theorem control_landRest (t : Nat) : ((s.landRest t).tile t).control = (s.tile t).control := by
  unfold landRest landIf
  refine (control_landAllOf t _).trans ?_
  rw [tile_setTile, if_pos rfl]
  rfl

/-- A program that ends with no hold request: its tile is done, and EVENTS.DONE is set (R156). -/
theorem endTile_spec {t : Nat} (hhold : (s.tile t).holdReq = false) :
    (∃ m, (s.endTile t).tile t = { ((s.landRest t).tile t).finished with tallies := m }) ∧
    (∀ k, k ≠ t → ∃ m, (s.endTile t).tile k = { (s.landRest t).tile k with tallies := m }) ∧
    ((s.endTile t).reg bTILE t oEVENTS).getLsbD 0 = true := by
  have hland : ((s.landRest t).tile t).holdReq = false := by
    have h := control_landRest (s := s) t
    simp only [Tile.control, Prod.mk.injEq] at h
    obtain ⟨-, -, -, hreq, -⟩ := h
    rw [hreq, hhold]
  have hend : s.endTile t = (((s.landRest t).updTile t Tile.finished).raise bTILE t 0).noteGroup s
      (((s.landRest t).updTile t Tile.finished).tileGroup t) := by
    unfold endTile
    dsimp only
    rw [hland]
    have hfin : (s.landRest t).updTile t (fun x => { x with
        run := if x.holdReq then .held else .done, heldFrom := if x.holdReq then some .done else x.heldFrom
        stopReq := false, holdReq := false, waitFor := none, waitExt := false, sramPend := false }) =
        (s.landRest t).updTile t Tile.finished := by
      unfold updTile Tile.finished
      dsimp only
      rw [hland]
      rfl
    rw [hfin]
    rfl
  refine ⟨?_, fun k hk => ?_, ?_⟩
  · obtain ⟨m, hm⟩ := ((s.landRest t).updTile t Tile.finished).tile_raise bTILE t 0 0 0 t
    exact ⟨m, by rw [hend, tile_noteGroup, hm, updTile, tile_setTile, if_pos rfl]⟩
  · obtain ⟨m, hm⟩ := ((s.landRest t).updTile t Tile.finished).tile_raise bTILE t 0 0 0 k
    exact ⟨m, by rw [hend, tile_noteGroup, hm, updTile, tile_setTile, if_neg hk]⟩
  · rw [hend, reg_of_regs (regs_noteGroup _ _)]
    exact events_raise bTILE t (by decide) 0 0

/-- The drain after a boundary ends with no hold request: the tile is stopped, TILE_STOP_PC names its next bundle, and
EVENTS.STOPPED is set (R156, Table 4-10). -/
theorem drainDone_spec {t : Nat} (hhold : (s.tile t).holdReq = false) :
    (∃ m, (s.drainDone t).tile t = { ((s.landRest t).tile t).drainedOut with tallies := m }) ∧
    (s.drainDone t).reg bTILE t 0x060 = BitVec.ofNat 32 (((s.landRest t).tile t).pc % 16384) ∧
    ((s.drainDone t).reg bTILE t oEVENTS).getLsbD 1 = true := by
  have hland : ((s.landRest t).tile t).holdReq = false := by
    have h := control_landRest (s := s) t
    simp only [Tile.control, Prod.mk.injEq] at h
    obtain ⟨-, -, -, hreq, -⟩ := h
    rw [hreq, hhold]
  have hdone : s.drainDone t = (((s.landRest t).updTile t Tile.drainedOut).noteHeld t).noteGroup s
      (((s.landRest t).updTile t Tile.drainedOut).tileGroup t) := by
    unfold drainDone
    dsimp only
    rw [hland]
    rfl
  have htile : ((s.landRest t).updTile t Tile.drainedOut).tile t = ((s.landRest t).tile t).drainedOut := by
    rw [updTile, tile_setTile, if_pos rfl]
  refine ⟨?_, ?_, ?_⟩
  · obtain ⟨m, hm⟩ := (((s.landRest t).updTile t Tile.drainedOut).setReg bTILE t 0x060
      (BitVec.ofNat 32 ((((s.landRest t).updTile t Tile.drainedOut).tile t).pc % 16384))).tile_raise bTILE t 1 0 0 t
    refine ⟨m, ?_⟩
    rw [hdone, tile_noteGroup, noteHeld, hm, ← htile]
    rfl
  · rw [hdone, reg_of_regs (regs_noteGroup _ _), noteHeld, reg_raise_logged,
      reg_logged _ _ _ _ _ _ (by decide) (by decide) (by decide) (by decide) (by decide), reg_setReg_same, htile]
    rfl
  · rw [hdone, reg_of_regs (regs_noteGroup _ _), noteHeld]
    exact events_raise bTILE t (by decide) 0 0

end State
end Sys2Proof.Machine
end

section
/-! PROOF. Control registers, NOP and STEP on a quiet tile (R144, R149, R153, R156). -/

namespace Sys2Proof.Machine

variable {s : State} {t : Nat}

namespace State

theorem csr_slots (i : Instr) (cr : Nat) : (s.assembled t i).csr t cr = s.csr t cr := by
  unfold csr
  rw [tile_assembled]
  rfl

/-- With no loop active the loop counters read 0 (Table 6-1). -/
theorem csr_loops (hl : (s.tile t).loops = []) {n : Nat} (hlo : 0x10 ≤ n) (hhi : n ≤ 0x13) : s.csr t n = some 0 := by
  obtain rfl | rfl | rfl | rfl : n = 0x10 ∨ n = 0x11 ∨ n = 0x12 ∨ n = 0x13 := by omega
  all_goals
    unfold csr
    dsimp only
    rw [hl]
    rfl

/-- CSRR reads the control register (Table 6-1). -/
theorem slot_csrr (hq : s.quiet t = true) {f : FmtSC} (hrsv : f.rsv = 0) {v : W64} (hv : s.csr t f.cr.toNat = some v) :
    s.slot ⟨t, false⟩ (.csrr ⟨t, false⟩ f) = s.ranS t f.r.toNat v := by
  refine slot_ranS hq { causes := ?_, dest := Nat.le_refl 1 } ?_
  · show rsv (f.rsv != 0) ++ when_ (State.csr _ t f.cr.toNat).isNone 0x05 = []
    rw [rsv_eq_nil hrsv, csr_slots, hv]
    rfl
  · show (fun s' : State => s'.flyS t 1 f.r.toNat ((State.csr _ t f.cr.toNat).getD 0)) = _
    rw [csr_slots, hv]
    rfl

/-- CSRW and CSRC write and clear NSTAT and XERR (R149). -/
theorem slot_csrW (hq : s.quiet t = true) {i : Instr} {clear : Bool} {f : FmtSC} (hi : ∀ v k, slotSem i v k = semCsrW clear f v k)
    (hrsv : f.rsv = 0) {c : Nat} (hc : f.cr.toNat = c) (hcr : crRW c = true) {v : W64} (hv : s.csr t c = some v) :
    s.slot ⟨t, false⟩ i = s.ran t (if clear then Land.csrClear c ((s.tile t).sreg f.r.toNat)
      else Land.csr c ((s.tile t).sreg f.r.toNat)).onto := by
  subst hc
  have hsem : slotSem i (s.assembled t i) t = semCsrW clear f (s.assembled t i) t := hi _ _
  have hcauses : rsv (f.rsv != 0) ++ when_ (s.csr t f.cr.toNat).isNone 0x05
      ++ when_ ((s.csr t f.cr.toNat).isSome && !crRW f.cr.toNat) 0x10 = [] := by
    rw [rsv_eq_nil hrsv, hcr, hv]
    rfl
  refine slot_now hq ?_ ?_ ?_ ?_
  · rw [hsem]
    exact { causes := by rw [← hcauses, ← csr_slots i]; rfl, dest := Nat.le_refl 1 }
  · rw [hsem, ← sreg_slots i]
    rfl
  · cases clear <;> rfl
  · cases clear <;> simp

theorem slotSem_nop {u : State} {k : Nat} : slotSem (.nop ⟨t, false⟩ .S 0) u k = {} := rfl

/-- A NOP takes one ACLK and does nothing (R144). -/
theorem slot_nop (hq : s.quiet t = true) : s.slot ⟨t, false⟩ (.nop ⟨t, false⟩ .S 0) = s.ran t id :=
  slot_follows (g := id) hq s.fresh { causes := rfl } rfl { due := .nil (quiet_flight hq) }

/-- The ACLK after a bundle of a quiet tile that leaves its record as it is. -/
theorem led_advance_quiet (hq : s.quiet t = true) :
    ((s.setTile t (s.tile t)).led t [] ((s.tile t).pc + 1)).advance t 1 = s.ran t id := by
  obtain ⟨-, -, -, -, -, hflight, hloops, -, -, -, -, -, hrp0, hrp1, hwp, -, -, heng, -⟩ := (quiet_iff s t).mp hq
  have htile : (s.setTile t (s.tile t)).tile t = s.tile t := by rw [tile_setTile, if_pos rfl]
  have hpass : (s.tile t).Lasts 1 := .of_later (quiet_live hq) (by simp [hflight]) (by simp [hflight])
  have hports := portsRest_led (ls := []) (pc := (s.tile t).pc + 1) (n := 1) htile (quiet_live hq) (quiet_engIdle hq)
    (by rw [heng]; omega)
  rw [led_advance (by rw [htile]; exact hpass) hports, htile, setTile_setTile_live (quiet_live hq), ← hloops,
    Tile.kept_self hrp0 hrp1 hwp, Tile.landed_nil hflight]
  rfl

theorem tile_ran {g : Tile → Tile} : (s.ran t g).tile t = { g (s.tile t) with
    pc := (s.tile t).pc + 1, aclk := (s.tile t).aclk + 1, eng := ((s.tile t).aclk + 1) / 2
    cycle := (s.tile t).cycle + BitVec.ofNat 64 1 } := by
  unfold ran ranTo
  rw [tile_count, tile_setTile, if_pos rfl]

/-- What follows a bundle of a quiet tile whose one slot is STEP or END. -/
theorem slot_ends (hq : s.quiet t = true) {i : Instr} {ctl : Ctl} (hctl : ctl = .step ∨ ctl = .endp)
    (hi : ∀ v k, slotSem i v k = { ctl := ctl }) :
    s.slot ⟨t, false⟩ i = if ctl = .endp then (s.ran t id).beginEnd t else (s.ran t id).stepBoundary t := by
  obtain ⟨-, -, -, -, -, -, hloops, -, -, -, -, -, -, -, -, -, -, -, -, -, -, -, hpc, -⟩ := (quiet_iff s t).mp hq
  have htile : (s.setTile t (s.tile t)).tile t = s.tile t := by rw [tile_setTile, if_pos rfl]
  have hnext : ctlNext (s.tile t) ctl = ([], (s.tile t).pc + 1, 0) := by
    rcases hctl with rfl | rfl <;> simp only [ctlNext, hloops, seqNext]
  have hover : decide (16383 < (s.tile t).pc + 1) = false := decide_eq_false (by omega)
  have hadv : ((s.setTile t (s.tile t)).setTile t { s.tile t with loops := [], pc := (s.tile t).pc + 1 }).advance t
      (1 + 0 + 0) = s.ran t id := by
    rw [← led_advance_quiet hq, led, htile]
  rw [slot_alone hq (.of_dest (by rw [hi]) (by rw [hi]; exact Nat.zero_le _) (by rw [hi])) (by rw [hi]), hi]
  unfold afterBundle
  dsimp only [id]
  rw [htile, hnext]
  rcases hctl with rfl | rfl <;> simp only [hadv, hover, Bool.false_and, Bool.false_eq_true, reduceCtorEq, if_true, if_false]

/-- A step boundary with nothing pending (R156). -/
theorem slot_step (hq : s.quiet t = true) (hstop : (s.tile t).stopReq = false) (hhold : (s.tile t).holdReq = false)
    (hxerr : (s.tile t).xerr.getLsbD 16 = false) (hpend : (s.tile t).sramPend = false) :
    s.slot ⟨t, false⟩ (.step ⟨t, false⟩ 0) =
      (s.ran t (fun x => { x with stepcnt := x.stepcnt + 1, sre := 0 })).count bTILE t 0xC10 1 := by
  rw [slot_ends hq (.inl rfl) (fun _ _ => rfl), if_neg (by simp)]
  have hupd : (s.ran t id).updTile t (fun x => { x with stepcnt := x.stepcnt + 1, sre := 0 }) =
      s.ran t (fun x => { x with stepcnt := x.stepcnt + 1, sre := 0 }) :=
    updTile_count_setTile (s := s) (x := { s.tile t with
      pc := (s.tile t).pc + 1, aclk := (s.tile t).aclk + 1, eng := ((s.tile t).aclk + 1) / 2
      cycle := (s.tile t).cycle + BitVec.ofNat 64 1 }) (quiet_run hq) bTILE t 0xC00 1 _
  unfold stepBoundary
  dsimp only
  rw [hupd, tile_count, tile_ran]
  dsimp only
  rw [hxerr, hpend, hstop, hhold]
  rfl

/-- END with nothing outstanding: the tile is done, and no other tile's state is another (R156). -/
theorem slot_end (hq : s.quiet t = true) (hhold : (s.tile t).holdReq = false) (hd : (s.tile t).drained = true) :
    s.slot ⟨t, false⟩ (.endProg ⟨t, false⟩ 0) = (s.ran t id).endTile t ∧
    (∃ m, ((s.ran t id).endTile t).tile t = { ((s.ran t id).tile t).finished with tallies := m }) ∧
    (∀ k, k ≠ t → ∃ m, ((s.ran t id).endTile t).tile k = { s.tile k with tallies := m }) ∧
    (((s.ran t id).endTile t).reg bTILE t oEVENTS).getLsbD 0 = true := by
  have hflight : ((s.ran t id).tile t).flight = [] := by
    rw [tile_ran]
    exact quiet_flight hq
  have hland (k : Nat) : ((s.ran t id).landRest t).tile k = (s.ran t id).tile k := by
    rw [landRest, landIf_none _ _ _ hflight, tile_setTile]
    split
    next h => rw [h]
    next => rfl
  have hother (k : Nat) (hk : k ≠ t) : (s.ran t id).tile k = s.tile k := by
    rw [ran, ranTo, tile_count, tile_setTile, if_neg hk]
  obtain ⟨hself, hothers, hev⟩ := endTile_spec (s := s.ran t id) (t := t) (by rw [tile_ran]; exact hhold)
  refine ⟨?_, ?_, fun k hk => ?_, hev⟩
  · rw [slot_ends hq (.inr rfl) (fun _ _ => rfl), if_pos rfl, beginEnd, if_pos]
    rw [tile_ran]
    exact hd
  · rwa [hland] at hself
  · obtain ⟨m, hm⟩ := hothers k hk
    exact ⟨m, by rw [hm, hland, hother k hk]⟩

end State

open State

/-- Settles O5: CSRR, CSRW and CSRC by what the register reads as, NOP, STEP and END by what follows their bundle. -/
theorem controlRegistersNopStepAndEnd : Obligations.ControlRegistersNopStepAndEnd := by
  unfold Obligations.ControlRegistersNopStepAndEnd
  refine ⟨?registers, ?control⟩
  case registers =>
    intro s t f hq hrsv x v reads
    have read {c : BitVec 8} {w : W64} (hw : s.csr t c.toNat = some w) (h : f.cr = c) : reads w :=
      congrArg Host.Outcome.next (slot_csrr hq hrsv (by rw [h, hw]))
    have write (c : BitVec 8) (h : f.cr = c) (hcr : crRW c.toNat = true) {w : W64} (hw : s.csr t c.toNat = some w) :
        exec (.csrw ⟨t, false⟩ f) s = .next (s.ran t (Land.csr c.toNat v).onto) ∧
        exec (.csrc ⟨t, false⟩ f) s = .next (s.ran t (Land.csrClear c.toNat v).onto) :=
      ⟨congrArg Host.Outcome.next (slot_csrW (clear := false) hq (fun _ _ => rfl) hrsv (congrArg BitVec.toNat h) hcr hw),
        congrArg Host.Outcome.next (slot_csrW (clear := true) hq (fun _ _ => rfl) hrsv (congrArg BitVec.toNat h) hcr hw)⟩
    have nstat : s.csr t 0x00 = some (x.nstat.setWidth 64) := congrArg some (BitVec.ofNat_toNat 64 _)
    have xerr : s.csr t 0x0A = some (x.xerr.setWidth 64) := congrArg some (BitVec.ofNat_toNat 64 _)
    have mode : s.csr t 0x05 = some (if x.mode then 1 else 0) := by
      show some (BitVec.ofNat 64 x.mode.toNat) = _
      cases x.mode <;> rfl
    refine ⟨fun h => ⟨read (c := 0x00) nstat h, write 0x00 h rfl nstat⟩, read rfl,
      read (congrArg some (BitVec.ofNat_toNat 64 _)), read rfl, read rfl, read mode, read rfl, read rfl, read rfl, read rfl,
      fun h => ⟨read (c := 0x0A) xerr h, write 0x0A h rfl xerr⟩, read rfl, fun hlo hhi => ?loops⟩
    case loops =>
      obtain ⟨-, -, -, -, -, -, hloops, -⟩ := (quiet_iff s t).mp hq
      refine read (c := f.cr) ?_ rfl
      exact csr_loops hloops hlo hhi
  case control =>
    intro s t hq hstop hhold
    refine ⟨congrArg Host.Outcome.next (slot_nop hq),
      fun hxerr hpend => congrArg Host.Outcome.next (slot_step hq hstop hhold hxerr hpend), fun hd => ?ends⟩
    case ends =>
      obtain ⟨hslot, ⟨m, hself⟩, hothers, hev⟩ := slot_end hq hhold hd
      rw [tile_ran] at hself
      refine ⟨_, congrArg Host.Outcome.next hslot, by rw [hself]; rfl, by rw [hself]; rfl, by rw [hself]; rfl,
        by rw [hself]; rfl, hev, fun k hk => ?_⟩
      obtain ⟨m, hk⟩ := hothers k hk
      rw [hk]

end Sys2Proof.Machine
end

section
/-! PROOF. Scalar loads and stores on a quiet tile (R152, R153): one port access and one result in flight (O3). -/

namespace Sys2Proof.Machine

variable {s : State} {t : Nat} {x : Tile} {a n : Nat}

/-- A use of a port in the present GCLK counts at the next ACLK if that is in the same GCLK (R152). -/
theorem Tile.filter_portUse : [(x.aclk / 2, bankOf a)].filter (fun u => decide ((x.aclk + 1) / 2 ≤ u.1)) = x.portUse a := by
  have heven : (x.aclk + 1) / 2 ≤ x.aclk / 2 ↔ x.aclk % 2 = 0 := by omega
  unfold portUse
  by_cases h : x.aclk % 2 = 0 <;> simp [heven, h]

/-- The record of a tile that has used read port 0, and the write port, as it stands in the next ACLK. -/
theorem Tile.kept_read (h1 : x.rp1 = []) (hw : x.wp = []) :
    { x with rp0 := [(x.aclk / 2, bankOf a)] }.kept x.loops 1 = { x with rp0 := x.portUse a } := by
  unfold kept
  dsimp only
  rw [filter_portUse, h1, hw, List.filter_nil]

theorem Tile.kept_write (h0 : x.rp0 = []) (h1 : x.rp1 = []) :
    { x with wp := [(x.aclk / 2, bankOf a)] }.kept x.loops 1 = { x with wp := x.portUse a } := by
  unfold kept
  dsimp only
  rw [filter_portUse, h0, h1, List.filter_nil]

theorem accessBad_eq_nil (hr : a + n ≤ 0x800000) (ha : a % n = 0) : accessBad a n = [] := by
  simp [accessBad, when_, inTile, hr, ha]

namespace State

theorem length_peek (s : State) (p n : Nat) : (s.peek p n).length = n := by
  induction n generalizing p with
  | zero => rfl
  | succ n ih => rw [peek, List.length_cons, ih]

/-- The program reads sound bytes as any reader finds them, nothing being in flight (R90, R152). -/
theorem progRead_sound (hue : hits s.ue (sramAt t a) n = []) (hf : (s.tile t).flight = []) :
    s.progRead t a n = s.sram t a n := by
  have hbusy (p : Nat) (b : Byte) : s.busyByte t p b = b := by
    unfold busyByte
    rw [hf]
    rfl
  unfold progRead
  simp only [hbusy]
  rw [List.zipIdx_map_fst 0, guessed_sound (by rw [length_peek]; exact hue)]
  rfl

/-- Settled bytes are those of memory. -/
theorem progRead_settled (h : s.settled t a n = true) (hf : (s.tile t).flight = []) (hr : a + n ≤ 0x800000) :
    s.progRead t a n = readBytes s.mem (sramAt t a) n := by
  obtain ⟨-, -, -, hue, -⟩ := settled_iff.mp h
  rw [progRead_sound hue hf, peek_settled h hr]

theorem progRead_assembled {i : Instr} (hq : s.quiet t = true) (h : s.settled t a n = true) (hr : a + n ≤ 0x800000) :
    (s.assembled t i).progRead t a n = readBytes s.mem (sramAt t a) n := by
  have hset := settled_setTile (s := s) (t := t) (a := a) (n := n) (x := { s.tile t with slots := [i] }) rfl
  exact progRead_settled (hset.trans h) (by rw [tile_assembled]; exact quiet_flight hq) hr

/-- A lone slot whose accesses are served at once, leaving these port uses, and whose effect puts one result in flight
for later than the next ACLK. -/
theorem slot_access (hq : s.quiet t = true) {i : Instr} {l : Land} {lat k : Nat} {r0 r1 w : List (Nat × Nat)}
    (hm : (slotSem i (s.assembled t i) t).Alone) (hctl : (slotSem i (s.assembled t i) t).ctl = .seq)
    (hserve : ({ s.tile t with slots := [i] } : Tile).serve (s.tile t).aclk (slotSem i (s.assembled t i) t).uses 0 0 =
      ({ s.tile t with slots := [i], rp0 := r0, rp1 := r1, wp := w }, 0, 0))
    (hact : (slotSem i (s.assembled t i) t).act (s.setTile t { s.tile t with rp0 := r0, rp1 := r1, wp := w }) =
      (s.setTile t { (s.tile t).result lat l with rp0 := r0, rp1 := r1, wp := w }).freshAt k)
    (hlat : 1 < lat) (hl : l.isProducts = false) :
    s.slot ⟨t, false⟩ i =
      (s.ran t (fun y => { y.result lat l with rp0 := r0, rp1 := r1, wp := w }.kept y.loops 1)).freshAt k := by
  obtain ⟨-, hrun, hwait, -, hslots, hflight, hloops, -, -, -, -, -, -, -, -, -, -, heng, -, -, -, -, hpc, -⟩ :=
    (quiet_iff s t).mp hq
  let g (y : Tile) : Tile := { y.result lat l with rp0 := r0, rp1 := r1, wp := w }
  have hlater : ∀ f ∈ (g (s.tile t)).flight, (s.tile t).aclk + 1 < f.due := fun f hf => by
    obtain rfl := List.mem_singleton.mp hf
    exact Nat.add_lt_add_left hlat _
  have hpass : (g (s.tile t)).Passes 1 := .of_later (quiet_live hq) hwait hlater fun f hf => by
    obtain rfl := List.mem_singleton.mp hf
    exact hl
  have htile : ((s.setTile t (g (s.tile t))).freshAt k).tile t = g (s.tile t) := by
    show (s.setTile t (g (s.tile t))).tile t = _
    rw [tile_setTile, if_pos rfl]
  have hports := portsRest_led (n := 1) (ls := (s.tile t).loops) (pc := (s.tile t).pc + 1) htile hpass.live
    (quiet_engIdle hq) (by show (s.tile t).eng ≤ ((s.tile t).aclk + 1) / 2; omega)
  rw [slot_serves hq hm hserve]
  dsimp only
  rw [← hslots, hact, hctl, afterBundle_ranTo (g := g) (b := 0) rfl rfl rfl ?_ (by simp) (by simp) hpc hpass hports]
  · refine congrArg (freshAt · k) (ranTo_congr ?_)
    exact Tile.landed_later (x := (g (s.tile t)).kept (s.tile t).loops 1) hlater
  · rw [hloops]
    exact ctlNext_seq hloops

/-- A load (LD, LW): its value is in flight for 4 ACLK. -/
theorem slot_load (hq : s.quiet t = true) {i : Instr} {f : FmtSI} (hi : ∀ v k, slotSem i v k = semLoad n f v k)
    (ha : ((s.tile t).sreg f.rs1.toNat + f.imm.signExtend 64).toNat = a) (hr : a + n ≤ 0x800000) (hal : a % n = 0)
    (hs : s.settled t a n = true) :
    s.slot ⟨t, false⟩ i = (s.ran t (fun y => { y.result 4 (.s f.rd.toNat (BitVec.ofNat 64 (s.sramWord t a n))) with
      rp0 := (s.tile t).portUse a })).freshen := by
  obtain ⟨-, -, -, -, -, hflight, -, -, -, -, -, -, hrp0, hrp1, hwp, hown, -⟩ := (quiet_iff s t).mp hq
  have hat : (((s.assembled t i).tile t).sreg f.rs1.toNat + sx f.imm).toNat = a := by
    rw [sreg_slots]
    exact ha
  have hsound := sound_of_settled hs
  have hm : (slotSem i (s.assembled t i) t).Alone := by
    rw [hi]
    refine .of_dest ?_ (Nat.le_refl 1) rfl
    show accessBad _ n = []
    rw [hat, accessBad_eq_nil hr hal]
  refine (slot_access (k := s.fresh + 1) (lat := 4) (l := .s f.rd.toNat (BitVec.ofNat 64 (s.sramWord t a n)))
    (r0 := [((s.tile t).aclk / 2, bankOf a)]) (r1 := (s.tile t).rp1) (w := (s.tile t).wp) hq hm (by rw [hi]; rfl) ?serve
    ?act (by decide) rfl).trans (congrArg (freshAt · (s.fresh + 1)) (ran_congr ?ran))
  case serve =>
    rw [hi]
    show Tile.serve _ _ [(0, _)] 0 0 = _
    rw [hat]
    exact Tile.serve_read (x := { s.tile t with slots := [i] }) a hrp0 hrp1 hown
  case act =>
    rw [hi]
    show State.progReadMarks (State.flyS _ t 4 _ _) t _ n = _
    rw [hat, progRead_assembled hq hs hr, flyS,
      fly_setTile (x := { s.tile t with rp0 := [((s.tile t).aclk / 2, bankOf a)] }) (quiet_live hq) hflight]
    exact progReadMarks_sound (s := s.setTile t _) hsound
  case ran => exact Tile.kept_read (x := (s.tile t).result 4 _) hrp1 hwp

/-- A store (ST, SW): its bytes are in flight for 2 ACLK. -/
theorem slot_store (hq : s.quiet t = true) {i : Instr} {f : FmtSB} (hi : ∀ v k, slotSem i v k = semStore n f v k)
    (ha : ((s.tile t).sreg f.rs1.toNat + f.off.signExtend 64).toNat = a) (hr : a + n ≤ 0x800000) (hal : a % n = 0)
    (hg : (s.tile t).aclk / 2 % 8 ≠ 7) :
    s.slot ⟨t, false⟩ i = s.ran t (fun y =>
      { y.result 2 (.mem (sramAt t a) ((leBytes n ((s.tile t).sreg f.rs2.toNat).toNat).map some)) with
        wp := (s.tile t).portUse a }) := by
  obtain ⟨-, -, -, -, -, hflight, -, -, -, hland, -, -, hrp0, hrp1, hwp, -, hown, -⟩ := (quiet_iff s t).mp hq
  have hat : (((s.assembled t i).tile t).sreg f.rs1.toNat + sx f.off).toNat = a := by
    rw [sreg_slots]
    exact ha
  have hm : (slotSem i (s.assembled t i) t).Alone := by
    rw [hi]
    refine .of_dest ?_ (Nat.zero_le 1) rfl
    show accessBad _ n = []
    rw [hat, accessBad_eq_nil hr hal]
  refine (slot_access (k := s.fresh) (lat := 2)
    (l := .mem (sramAt t a) ((leBytes n ((s.tile t).sreg f.rs2.toNat).toNat).map some))
    (r0 := (s.tile t).rp0) (r1 := (s.tile t).rp1) (w := [((s.tile t).aclk / 2, bankOf a)]) hq hm (by rw [hi]; rfl) ?serve
    ?act (by decide) rfl).trans (freshAt_ranTo.trans (ran_congr ?ran))
  case serve =>
    rw [hi]
    show Tile.serve _ _ [(2, _)] 0 0 = _
    rw [hat]
    exact Tile.serve_write (x := { s.tile t with slots := [i] }) a hwp hland hown hg
  case act =>
    rw [hi]
    show State.flyMem _ t _ ((leBytes n _).map some) = _
    rw [hat, sreg_slots, flyMem,
      fly_setTile (x := { s.tile t with wp := [((s.tile t).aclk / 2, bankOf a)] }) (quiet_live hq) hflight]
    rfl
  case ran => exact Tile.kept_write (x := (s.tile t).result 2 _) hrp0 hrp1

end State

open State

/-- Settles O3: loads and stores of 8 and of 4 bytes. -/
theorem scalarLoadsAndStores : Obligations.ScalarLoadsAndStores := by
  unfold Obligations.ScalarLoadsAndStores
  intro s t hq
  refine ⟨?loads, ?stores⟩
  case loads =>
    intro f x a u
    exact ⟨fun hr hal hs => congrArg Host.Outcome.next (slot_load hq (fun _ _ => rfl) rfl hr hal hs),
      fun hr hal hs => congrArg Host.Outcome.next (slot_load hq (fun _ _ => rfl) rfl hr hal hs)⟩
  case stores =>
    intro f x a u hg
    exact ⟨fun hr hal => congrArg Host.Outcome.next (slot_store hq (fun _ _ => rfl) rfl hr hal hg),
      fun hr hal => congrArg Host.Outcome.next (slot_store hq (fun _ _ => rfl) rfl hr hal hg)⟩

end Sys2Proof.Machine
end

section
/-! PROOF. Branches, jumps and LOOP on a quiet tile, and the end of a loop's body (R154, R155; O4). -/

namespace Sys2Proof.Machine

variable {s v : State} {t : Nat} {x y : Tile}

namespace State

/-- Reads see of a tile only the lines that are landing on it (R180). -/
theorem peek_setTile (h : y.landing = (s.tile t).landing) (a n : Nat) : (s.setTile t y).peek a n = s.peek a n := by
  have hland (k p : Nat) (b : Byte) : (s.setTile t y).landByte k p b = s.landByte k p b := by
    unfold landByte
    rw [tile_setTile]
    split
    next hk => rw [h, hk]; rfl
    next => rfl
  induction n generalizing a with
  | zero => rfl
  | succ n ih =>
    rw [peek, peek, hland, ih]
    rfl

theorem peek_slots (i : Instr) (a n : Nat) : (s.assembled t i).peek a n = s.peek a n :=
  peek_setTile (y := { s.tile t with slots := [i] }) rfl a n

theorem imS_slots (i : Instr) (k : Nat) : (s.assembled t i).imS t k = s.imS t k := by
  unfold imS imBundle
  rw [peek_slots]
  rfl

/-- A transfer of control that is a bundle's one effect (R154). -/
theorem slot_goes (hq : s.quiet t = true) {i : Instr} {pc b : Nat} {ls : List LoopRec}
    (hm : (slotSem i (s.assembled t i) t).Alone) (huses : (slotSem i (s.assembled t i) t).uses = [])
    (hact : (slotSem i (s.assembled t i) t).act = id)
    (hctl : ctlNext (s.tile t) (slotSem i (s.assembled t i) t).ctl = (ls, pc, b))
    (hstep : (slotSem i (s.assembled t i) t).ctl ≠ .step) (hend : (slotSem i (s.assembled t i) t).ctl ≠ .endp)
    (hpc : pc ≤ 16383) : s.slot ⟨t, false⟩ i = s.ranTo t (1 + b) pc (fun y => { y with loops := ls }) := by
  obtain ⟨-, -, hwait, -, -, hflight, -⟩ := (quiet_iff s t).mp hq
  have hpass : (s.tile t).Passes (1 + b) :=
    .of_later (quiet_live hq) hwait (by simp [hflight]) (by simp [hflight])
  have hg : (s.tile t).Goes (id (s.tile t)) (1 + b) := { passes := hpass }
  rw [slot_ranTo (g := id) hq s.fresh hm huses (by rw [hact]; rfl) hctl hstep hend hpc hg
    (portsRest_quiet (g := id) hq hg (quiet_engIdle hq)), freshAt_ranTo]
  exact ranTo_congr (Tile.landed_nil (x := { s.tile t with loops := ls }) hflight _)

/-- A bundle that goes on in sequence with no effect. -/
theorem slot_passes (hq : s.quiet t = true) {i : Instr} (hm : (slotSem i (s.assembled t i) t).Plain)
    (hact : (slotSem i (s.assembled t i) t).act = id) : s.slot ⟨t, false⟩ i = s.ran t id :=
  slot_follows (g := id) hq s.fresh hm (by rw [hact]; rfl) { due := .nil (quiet_flight hq) }

/-- A jump to a bundle of instruction memory issues it 2 ACLK later. -/
theorem slot_jump (hq : s.quiet t = true) {i : Instr} {g : Int} (hm : (slotSem i (s.assembled t i) t).Alone)
    (huses : (slotSem i (s.assembled t i) t).uses = []) (hact : (slotSem i (s.assembled t i) t).act = id)
    (hctl : (slotSem i (s.assembled t i) t).ctl = .jump g) (hg : g ≤ 16383) :
    s.slot ⟨t, false⟩ i = s.ranTo t 2 g.toNat id := by
  obtain ⟨-, -, -, -, -, -, hloops, -⟩ := (quiet_iff s t).mp hq
  rw [slot_goes (ls := []) (pc := g.toNat) (b := 1) hq hm huses hact (by rw [hctl, ctlNext, hloops]; rfl) (by simp [hctl])
    (by simp [hctl]) (by omega)]
  exact ranTo_congr (by rw [← hloops]; rfl)

/-- A conditional branch (R154). -/
theorem slot_branch (hq : s.quiet t = true) {i : Instr} {f : FmtSB} {cond : W64 → W64 → Bool}
    (hi : ∀ u k, slotSem i u k = semBranch cond f u k) (h0 : 0 ≤ ((s.tile t).pc : Int) + f.off.toInt)
    (h1 : ((s.tile t).pc : Int) + f.off.toInt ≤ 16383) :
    s.slot ⟨t, false⟩ i = if cond ((s.tile t).sreg f.rs1.toNat) ((s.tile t).sreg f.rs2.toNat) then
      s.ranTo t 2 (((s.tile t).pc : Int) + f.off.toInt).toNat id else s.ran t id := by
  have htarget : target ((s.assembled t i).tile t) f.off.toInt = ((s.tile t).pc : Int) + f.off.toInt := by
    rw [tile_assembled]
    rfl
  have hgood : targetBad (((s.tile t).pc : Int) + f.off.toInt) = false := by
    simp only [targetBad, Bool.or_eq_false_iff, decide_eq_false_iff_not]
    omega
  have hcauses : (slotSem i (s.assembled t i) t).causes = [] := by
    rw [hi]
    unfold semBranch
    dsimp only
    rw [htarget, hgood, Bool.and_false]
    rfl
  have hctl : (slotSem i (s.assembled t i) t).ctl = if cond ((s.tile t).sreg f.rs1.toNat) ((s.tile t).sreg f.rs2.toNat) then
      .jump (((s.tile t).pc : Int) + f.off.toInt) else .seq := by
    rw [hi]
    unfold semBranch
    dsimp only
    rw [htarget, sreg_slots, sreg_slots]
  split
  next h =>
    rw [if_pos h] at hctl
    exact slot_jump hq (.of_dest hcauses (by rw [hi]; exact Nat.zero_le 1) (by rw [hi]; rfl)) (by rw [hi]; rfl) (by rw [hi]; rfl)
      hctl h1
  next h =>
    rw [if_neg h] at hctl
    exact slot_passes hq ⟨hcauses, by rw [hi]; exact Nat.zero_le 1, by rw [hi]; rfl, by rw [hi]; rfl, hctl⟩ (by rw [hi]; rfl)

/-- LOOP with a body that its last bundle does not leave (R155). -/
theorem slot_loop (hq : s.quiet t = true) {f : FmtSL} (hrsv : f.rsv = 0) (hn : 0 < f.len.toNat)
    (hlast : ctlWord (s.imS t ((s.tile t).pc + f.len.toNat)) = false) (hpc : (s.tile t).pc + f.len.toNat < 16383) :
    s.slot ⟨t, false⟩ (.loop ⟨t, false⟩ f) =
      if ((s.tile t).sreg f.rs.toNat).toNat = 0 then s.ranTo t 2 ((s.tile t).pc + f.len.toNat + 1) id
      else s.ran t (fun y => { y with loops := [{
        lvl := f.lvl.toNat, first := (s.tile t).pc + 1, last := (s.tile t).pc + f.len.toNat
        left := ((s.tile t).sreg f.rs.toNat).toNat }] }) := by
  obtain ⟨-, -, -, -, -, -, hloops, -⟩ := (quiet_iff s t).mp hq
  have hcauses : (slotSem (.loop ⟨t, false⟩ f) (s.assembled t (.loop ⟨t, false⟩ f)) t).causes = [] := by
    show rsv (f.rsv != 0) ++ when_ (decide (f.len.toNat = 0) || (State.tile _ t).loops.any _ ||
      (State.tile _ t).loops.any _ || ctlWord (State.imS _ t ((State.tile _ t).pc + _))) 0x09 = []
    rw [imS_slots, tile_assembled]
    dsimp only
    rw [hlast, hloops, rsv_eq_nil hrsv, decide_eq_false (by omega)]
    rfl
  have hctl : (slotSem (.loop ⟨t, false⟩ f) (s.assembled t (.loop ⟨t, false⟩ f)) t).ctl =
      .loop f.lvl.toNat f.len.toNat ((s.tile t).sreg f.rs.toNat).toNat := by
    show Ctl.loop _ _ (Tile.sreg _ _).toNat = _
    rw [sreg_slots]
  have hm := SlotSem.Alone.of_dest hcauses (Nat.zero_le 1) rfl
  split
  next h0 =>
    rw [slot_goes (ls := []) (pc := (s.tile t).pc + f.len.toNat + 1) (b := 1) hq hm rfl rfl
      (by rw [hctl, ctlNext, if_pos h0, hloops]; rfl) (by simp [hctl]) (by simp [hctl]) (by omega)]
    exact ranTo_congr (by rw [← hloops]; rfl)
  next h0 =>
    exact slot_goes (b := 0) hq hm rfl rfl (by rw [hctl, ctlNext, if_neg h0, hloops]) (by simp [hctl]) (by simp [hctl])
      (by omega)

/-! ### A NOP on a tile whose loops or results in flight are its only business -/

/-- The state of a tile that has assembled a lone NOP. -/
theorem bundleSem_nop {k : Nat} {u : State} (hs : (u.tile k).slots = [.nop ⟨t, false⟩ .S 0]) : u.bundleSem k = [{}] := by
  rw [bundleSem, hs]
  rfl

/-- A bundle of a NOP alone is enacted with no effect, whatever is in flight. -/
theorem enact_nop {u : State} (hs : (u.tile t).slots = [.nop ⟨t, false⟩ .S 0]) :
    u.enact t = (u.setTile t { u.tile t with slots := [] }).afterBundle t 0 0 .seq := by
  unfold enact
  rw [bundleSem_nop hs]
  rfl

/-- Neither a far load nor a result in flight holds a bundle of a NOP alone. -/
theorem tryIssue_nop {u : State} (hs : (u.tile t).slots = [.nop ⟨t, false⟩ .S 0]) (hfar : (u.tile t).far = []) :
    u.tryIssue t = u.enact t := by
  have hblocked (ss : List SlotSem) : farBlocked (u.tile t) ss = false := by simp [farBlocked, hfar]
  have hsteady : steadyUntil (u.tile t) [{}] = (u.tile t).aclk := by
    have hfold (l : List Flight) (d : Nat) :
        l.foldl (fun d f => if ([] : List RegName).any (landsIn f.land) then max d f.due else d) d = d := by
      induction l with
      | nil => rfl
      | cons f l ih => exact ih
    exact hfold _ _
  unfold tryIssue
  rw [bundleSem_nop hs]
  simp only [hblocked, hsteady, ite_self, Nat.lt_irrefl, Bool.false_eq_true, if_false]
  exact if_pos rfl

/-- A NOP alone in its bundle has no effect of its own, whatever is in flight and not yet due (R144). -/
theorem slot_nop_rests {x : Tile} (htile : v.tile t = x) (hself : v.setTile t x = v) (hcan : v.canIssue t = true)
    (hlive : x.Live) (hslots : x.slots = []) (hfar : x.far = []) (htest : v.testing t = false)
    (hue : hits v.ue (imAt t (x.pc * 16)) 16 = []) (hce : hits v.ce (imAt t (x.pc * 16)) 16 = [])
    (hd : ∀ f ∈ x.flight, f.dueBy x.aclk = false) :
    v.slot ⟨t, false⟩ (.nop ⟨t, false⟩ .S 0) = v.afterBundle t 0 0 .seq := by
  let y : Tile := { x with slots := [.nop ⟨t, false⟩ .S 0] }
  have hy : (v.setTile t y).tile t = y := by rw [tile_setTile, if_pos rfl]
  have hland : (v.setTile t y).landUpTo t x.aclk = v.setTile t y := by
    rw [landUpTo_landed (by rw [hy]; exact fun f hf h => absurd h (by rw [hd f hf]; exact Bool.false_ne_true))
      (by rw [hy]; exact hlive), hy, Tile.landed_none (x := y) hd, setTile_setTile_live (x := y) hlive]
  have hissue : (v.setTile t y).issueBundle t = (v.setTile t y).tryIssue t := by
    unfold issueBundle
    dsimp only
    rw [show (v.setTile t y).abandonTest t = v.setTile t y by
      unfold abandonTest
      rw [show (v.setTile t y).testing t = v.testing t from rfl, htest]
      rfl, hy, hland, hy]
    simp only [show (v.setTile t y).ue = v.ue from rfl, show (v.setTile t y).ce = v.ce from rfl, y, hue, hce]
    rfl
  unfold slot
  dsimp only
  rw [htile, hcan, hslots]
  show State.issueBundle (State.updTile v t _) t = _
  rw [updTile, htile, hslots]
  show (v.setTile t y).issueBundle t = _
  rw [hissue, tryIssue_nop (by rw [hy]) (by rw [hy]; exact hfar), enact_nop (by rw [hy]), hy,
    setTile_setTile_live (x := y) hlive]
  rw [show ({ y with slots := [] } : Tile) = x by rw [← hslots], hself]

/-- A quiet tile with loops active and results in flight. -/
def busied (s : State) (t : Nat) (ls : List LoopRec) (fl : List Flight) : State :=
  s.setTile t { s.tile t with loops := ls, flight := fl }

variable {ls : List LoopRec} {fl : List Flight}

theorem tile_busied : (s.busied t ls fl).tile t = { s.tile t with loops := ls, flight := fl } := by
  rw [busied, tile_setTile, if_pos rfl]

/-- A NOP on such a tile, nothing in flight being due. -/
theorem slot_nop_busied (hq : s.quiet t = true) (hd : ∀ f ∈ fl, f.dueBy (s.tile t).aclk = false) :
    (s.busied t ls fl).slot ⟨t, false⟩ (.nop ⟨t, false⟩ .S 0) = (s.busied t ls fl).afterBundle t 0 0 .seq := by
  obtain ⟨hok, hrun, hwait, hedges, hslots, -, -, hfar, -, -, -, -, -, -, -, -, -, -, -, -, -, -, -, htest, hue, hce⟩ :=
    (quiet_iff s t).mp hq
  refine slot_nop_rests tile_busied (setTile_setTile_live (quiet_live hq)) ?_ (quiet_live hq) hslots hfar htest hue hce hd
  have hedges' : (s.busied t ls fl).tileEdges t = true := hedges
  unfold canIssue
  dsimp only
  rw [tile_busied, hedges']
  dsimp only
  rw [hok, hrun, hwait]
  rfl

/-- The ports of such a tile rest. -/
theorem portsRest_busied (hq : s.quiet t = true) {n pc : Nat} {ls' : List LoopRec} :
    ((s.busied t ls fl).led t ls' pc).PortsRest t (1 + n) := by
  obtain ⟨-, -, -, -, -, -, -, -, -, -, -, -, -, -, -, -, -, heng, -⟩ := (quiet_iff s t).mp hq
  exact portsRest_led tile_busied (quiet_live hq) (quiet_engIdle hq)
    (by show (s.tile t).eng ≤ ((s.tile t).aclk + (1 + n)) / 2; omega)

theorem busied_self (hq : s.quiet t = true) :
    s.busied t ls fl = ((s.busied t ls fl).setTile t ((s.busied t ls fl).tile t)).freshAt (s.busied t ls fl).fresh := by
  rw [tile_busied]
  unfold busied
  rw [setTile_setTile_live (x := { s.tile t with loops := ls, flight := fl }) (quiet_live hq)]
  rfl

/-- A NOP on such a tile, control going on as the loops say: what is due by the next ACLK lands. -/
theorem slot_nop_ranTo (hq : s.quiet t = true) (hd : ∀ f ∈ fl, f.dueBy (s.tile t).aclk = false) {ls' : List LoopRec} {pc : Nat}
    (hnext : seqNext (s.tile t).pc ls = (ls', pc)) (hpc : pc ≤ 16383)
    (hpass : ({ s.tile t with loops := ls, flight := fl } : Tile).Passes 1) :
    (s.busied t ls fl).slot ⟨t, false⟩ (.nop ⟨t, false⟩ .S 0) =
      (s.busied t ls fl).ranTo t 1 pc (fun y => { y with loops := ls' }.landed (y.aclk + 1)) := by
  obtain ⟨-, -, -, -, -, -, -, -, -, -, -, -, hrp0, hrp1, hwp, -⟩ := (quiet_iff s t).mp hq
  have hctl : ctlNext ((s.busied t ls fl).tile t) .seq = (ls', pc, 0) := by
    rw [tile_busied]
    simp only [ctlNext, hnext]
  have hkept : ({ s.tile t with loops := ls, flight := fl } : Tile).kept ls' 1 =
      { s.tile t with loops := ls', flight := fl } :=
    Tile.kept_self (x := { s.tile t with loops := ls', flight := fl }) hrp0 hrp1 hwp 1
  have hafter := afterBundle_ranTo (s := s.busied t ls fl) (g := fun y => y) (b := 0) (busied_self hq) rfl rfl hctl (by simp)
    (by simp) hpc (by rw [tile_busied]; exact hpass) (portsRest_busied hq)
  rw [slot_nop_busied hq hd, hafter, freshAt_ranTo]
  refine ranTo_congr ?_
  rw [tile_busied, hkept]

/-- A NOP at the end of a loop's body: control goes where the loop says, at no cost (R155). -/
theorem slot_nop_loop (hq : s.quiet t = true) {ls' : List LoopRec} {pc : Nat}
    (hnext : seqNext (s.tile t).pc ls = (ls', pc)) (hpc : pc ≤ 16383) :
    (s.busied t ls []).slot ⟨t, false⟩ (.nop ⟨t, false⟩ .S 0) =
      (s.busied t ls []).ranTo t 1 pc (fun y => { y with loops := ls' }) := by
  obtain ⟨-, -, hwait, -⟩ := (quiet_iff s t).mp hq
  have hpass : ({ s.tile t with loops := ls, flight := [] } : Tile).Passes 1 :=
    .of_later (quiet_live hq) hwait (by simp) (by simp)
  rw [slot_nop_ranTo hq (by simp) hnext hpc hpass]
  refine ranTo_congr ?_
  rw [tile_busied]
  exact Tile.landed_nil (x := { s.tile t with loops := ls', flight := [] }) rfl _

end State

open State

theorem brGe_eq (a b : W64) : brGe a b = decide (b.toInt ≤ a.toInt) := by
  simp only [brGe, BitVec.slt, ← decide_not, Int.not_lt]

theorem brGeu_eq (a b : W64) : brGeu a b = decide (b.toNat ≤ a.toNat) := by
  simp only [brGeu, BitVec.ult, ← decide_not, Nat.not_lt]

theorem brNe_eq (a b : W64) : brNe a b = decide (a ≠ b) := by
  rw [brNe, bne, beq_eq_decide a b, decide_not]

/-- Settles O4: branches, jumps and LOOP by what control comes to after them, and the end of a body by `seqNext`. -/
theorem branchesJumpsAndLoops : Obligations.BranchesJumpsAndLoops := by
  unfold Obligations.BranchesJumpsAndLoops
  refine ⟨fun s t hq => ⟨?branches, ?jal, ?jr⟩, fun s t hq => ⟨?loop, ?bodyEnd⟩⟩
  case branches =>
    intro f x a b g h0 h1 goes
    have one {i : Instr} {cond : W64 → W64 → Bool} (hi : ∀ u k, slotSem i u k = semBranch cond f u k) :
        (.next (s.slot ⟨t, false⟩ i) : Res) = .next (goes (cond a b)) := congrArg Host.Outcome.next (slot_branch hq hi h0 h1)
    exact ⟨beq_eq_decide a b ▸ one (cond := brEq) fun _ _ => rfl, brNe_eq a b ▸ one fun _ _ => rfl,
      one (cond := brLt) fun _ _ => rfl, brGe_eq a b ▸ one fun _ _ => rfl, one (cond := brLtu) fun _ _ => rfl,
      brGeu_eq a b ▸ one fun _ _ => rfl⟩
  case jal =>
    intro f g h0 h1
    obtain ⟨-, -, -, -, -, -, hloops, -⟩ := (quiet_iff s t).mp hq
    have hpc : ((s.assembled t (.jal ⟨t, false⟩ f)).tile t).pc = (s.tile t).pc := by rw [tile_assembled]
    have htarget : target ((s.assembled t (.jal ⟨t, false⟩ f)).tile t) f.imm.toInt = g := by
      rw [target, hpc]
    have hgood : targetBad g = false := by
      simp only [targetBad, Bool.or_eq_false_iff, decide_eq_false_iff_not]
      omega
    have hctl : (slotSem (.jal ⟨t, false⟩ f) (s.assembled t (.jal ⟨t, false⟩ f)) t).ctl = .jump g := congrArg Ctl.jump htarget
    have hm : (slotSem (.jal ⟨t, false⟩ f) (s.assembled t (.jal ⟨t, false⟩ f)) t).Alone := by
      refine .of_dest ?_ (Nat.le_refl 1) rfl
      show when_ (targetBad (target _ _)) 0x08 = []
      rw [htarget, hgood]
      rfl
    have hact : (slotSem (.jal ⟨t, false⟩ f) (s.assembled t (.jal ⟨t, false⟩ f)) t).act (s.setTile t (s.tile t)) =
        (s.setTile t (s.tile t)).fly t 1 (.s f.rd.toNat (BitVec.ofNat 64 ((s.tile t).pc + 1))) := by
      show State.flyS _ t 1 _ (BitVec.ofNat 64 (Tile.pc _ + 1)) = _
      rw [hpc]
      rfl
    refine congrArg Host.Outcome.next ((slot_lands (pc := g.toNat) (b := 1) hq hm rfl hact ?_ ?_ ?_ ?_ rfl (by simp)).trans
      (ranTo_congr rfl))
    · rw [hctl, ctlNext, hloops]
      rfl
    · simp [hctl]
    · simp [hctl]
    · omega
  case jr =>
    intro f hrd himm g hg
    have hreg : ((((s.assembled t (.jr ⟨t, false⟩ f)).tile t).sreg f.rs1.toNat).toNat : Int) = (g : Int) := by rw [sreg_slots]
    refine congrArg Host.Outcome.next ((slot_jump (i := .jr ⟨t, false⟩ f) (g := (g : Int)) hq (.of_dest ?_ (Nat.zero_le 1) rfl) rfl rfl ?_ (by omega)).trans ?_)
    · show rsv (f.rd != 0 || f.imm != 0) ++ when_ (decide (16383 < (Tile.sreg _ _).toNat)) 0x08 = []
      rw [sreg_slots, hrd, himm, decide_eq_false (Nat.not_lt.mpr hg)]
      rfl
    · exact congrArg Ctl.jump hreg
    · rfl
  case loop =>
    intro f x n c hrsv hn hlast hpc
    have h := slot_loop hq hrsv hn hlast hpc
    exact ⟨fun hc => congrArg Host.Outcome.next (h.trans (if_neg (Nat.ne_of_gt hc))),
      fun hc => congrArg Host.Outcome.next (h.trans (if_pos hc))⟩
  case bodyEnd =>
    intro l v hlast hfirst hv
    obtain ⟨-, -, -, -, -, hflight, -, -, -, -, -, -, -, -, -, -, -, -, -, -, -, -, hpc, -⟩ := (quiet_iff s t).mp hq
    have hbusied : v = s.busied t [l] [] := by rw [hv, busied, ← hflight]
    have hvpc : (v.tile t).pc = (s.tile t).pc := by rw [hbusied, tile_busied]
    refine ⟨fun hleft => ?_, fun hleft => ?_⟩
    · have hnext : seqNext (s.tile t).pc [l] = ([{ l with left := l.left - 1 }], l.first) := by
        simp only [seqNext, hlast, if_pos hleft, if_true]
      rw [hbusied]
      exact congrArg Host.Outcome.next (slot_nop_loop hq hnext (by omega))
    · have hnext : seqNext (s.tile t).pc [l] = ([], (s.tile t).pc + 1) := by
        simp only [seqNext, hlast, if_neg (Nat.not_lt.mpr hleft), if_true]
      rw [State.ran, hvpc, hbusied]
      exact congrArg Host.Outcome.next (slot_nop_loop hq hnext (by omega))

end Sys2Proof.Machine
end

section
/-! PROOF. When and where a result lands, seen by a NOP that issues before it does (R145, R146, R148, R181; O6). -/

namespace Sys2Proof.Machine

variable {s : State} {t : Nat} {l : Land}

theorem allSome_map_some {α : Type} (bs : List α) : allSome (bs.map some) = some bs := by
  induction bs with
  | nil => rfl
  | cons b bs ih => rw [List.map_cons, allSome, ih]; rfl

namespace State

theorem pokeMask_some (a : Nat) (bs : List Byte) : s.pokeMask a (bs.map some) = s.poke a bs := by
  rw [pokeMask, allSome_map_some]

theorem seqNext_nil {pc : Nat} : seqNext pc [] = ([], pc + 1) := rfl

/-- A quiet tile with one result in flight. -/
theorem busied_one (hq : s.quiet t = true) (d : Nat) :
    s.setTile t { s.tile t with flight := [⟨d, l⟩] } = s.busied t [] [⟨d, l⟩] := by
  obtain ⟨-, -, -, -, -, -, hloops, -⟩ := (quiet_iff s t).mp hq
  rw [busied, ← hloops]

/-- The issue of a bundle from a quiet tile's record with results in flight, as one from the quiet tile. -/
theorem ranTo_busied (hq : s.quiet t = true) {ls : List LoopRec} {fl : List Flight} {n pc : Nat} {g : Tile → Tile} :
    (s.busied t ls fl).ranTo t n pc g = s.ranTo t n pc (fun y => g { y with loops := ls, flight := fl }) := by
  unfold ranTo
  dsimp only
  rw [tile_busied]
  unfold busied
  rw [setTile_setTile_live (x := { s.tile t with loops := ls, flight := fl }) (quiet_live hq)]

/-- A result due after the next bundle's ACLK has not landed there (R145). -/
theorem slot_nop_later (hq : s.quiet t = true) {n : Nat} (hn : 2 ≤ n) (hl : l.isProducts = false) :
    (s.busied t [] [⟨(s.tile t).aclk + n, l⟩]).slot ⟨t, false⟩ (.nop ⟨t, false⟩ .S 0) =
      (s.busied t [] [⟨(s.tile t).aclk + n, l⟩]).ran t id := by
  obtain ⟨-, -, hwait, -, -, -, -, -, -, -, -, -, -, -, -, -, -, -, -, -, -, -, hpc, -⟩ := (quiet_iff s t).mp hq
  have hdue (a : Nat) (ha : a < (s.tile t).aclk + n) : ∀ f ∈ [Flight.mk ((s.tile t).aclk + n) l], a < f.due := by
    simpa using ha
  have hpass : ({ s.tile t with loops := [], flight := [⟨(s.tile t).aclk + n, l⟩] } : Tile).Passes 1 :=
    .of_later (quiet_live hq) hwait (hdue _ (Nat.add_lt_add_left hn _)) (by simpa using hl)
  rw [slot_nop_ranTo hq (fun f hf => Flight.not_dueBy (hdue _ (by omega) f hf)) seqNext_nil hpc hpass, ran, tile_busied]
  refine ranTo_congr ?_
  rw [tile_busied]
  exact Tile.landed_later (x := { s.tile t with loops := [], flight := [⟨(s.tile t).aclk + n, l⟩] })
    (hdue _ (Nat.add_lt_add_left hn _))

/-- A result for registers that is due by the next bundle's operations has landed there (R145, R181). -/
theorem slot_nop_landed (hq : s.quiet t = true) {n : Nat} (hl : l.registers = true)
    (hnow : (Flight.mk ((s.tile t).aclk + n) l).dueBy (s.tile t).aclk = false)
    (hnext : (Flight.mk ((s.tile t).aclk + n) l).dueBy ((s.tile t).aclk + 1) = true) :
    (s.busied t [] [⟨(s.tile t).aclk + n, l⟩]).slot ⟨t, false⟩ (.nop ⟨t, false⟩ .S 0) = s.ran t l.onto := by
  obtain ⟨-, -, hwait, -, -, hflight, hloops, -, -, -, -, -, -, -, -, -, -, -, -, -, -, -, hpc, -⟩ := (quiet_iff s t).mp hq
  have hpass : ({ s.tile t with loops := [], flight := [⟨(s.tile t).aclk + n, l⟩] } : Tile).Passes 1 :=
    Tile.result_passes (x := { s.tile t with loops := [] }) (quiet_live hq) hwait (Land.not_isProducts hl) hl
  rw [slot_nop_ranTo hq (by simpa using hnow) seqNext_nil hpc hpass, ranTo_busied hq]
  exact ranTo_congr (Tile.landed_result hloops hflight hnext)

/-- A store's bytes land in memory. -/
theorem landUpTo_store {d a c : Nat} {bs : List Byte} (hf : (s.tile t).flight = [⟨d, .mem a (bs.map some)⟩]) (hd : d ≤ c) :
    s.landUpTo t c = (s.setTile t { s.tile t with flight := [] }).poke a bs := by
  have hdue : decide (d ≤ c) = true := decide_eq_true hd
  unfold landUpTo landIf
  simp only [hf, Flight.isTally, List.filter_singleton, hdue, Bool.false_eq_true, if_false, Bool.not_true, cond_true, cond_false]
  exact pokeMask_some a bs

/-- Bytes due by the next bundle's operations are in memory there (R152). -/
theorem slot_nop_stored (hq : s.quiet t = true) (a : Nat) (bs : List Byte) :
    (s.busied t [] [⟨(s.tile t).aclk + 1, .mem a (bs.map some)⟩]).slot ⟨t, false⟩ (.nop ⟨t, false⟩ .S 0) =
      (s.ran t id).poke a bs := by
  obtain ⟨-, -, hwait, -, -, hflight, hloops, -, -, -, -, -, hrp0, hrp1, hwp, -, -, -, -, -, -, -, hpc, -⟩ :=
    (quiet_iff s t).mp hq
  let fl : List Flight := [⟨(s.tile t).aclk + 1, .mem a (bs.map some)⟩]
  have hctl : ctlNext ((s.busied t [] fl).tile t) .seq = ([], (s.tile t).pc + 1, 0) := by
    rw [tile_busied]
    rfl
  have hled : ((s.busied t [] fl).led t [] ((s.tile t).pc + 1)).tile t =
      { s.tile t with loops := [], pc := (s.tile t).pc + 1, flight := fl } := by rw [tile_led, tile_busied]
  have hnext : (({ s.tile t with loops := [], pc := (s.tile t).pc + 1, flight := fl } : Tile).kept [] 1).ahead
      ((s.tile t).pc + 1) 1 = { (s.tile t).ahead ((s.tile t).pc + 1) 1 with flight := fl } := by
    rw [Tile.kept_self (x := { s.tile t with loops := [], pc := (s.tile t).pc + 1, flight := fl }) hrp0 hrp1 hwp, ← hloops]
    rfl
  rw [slot_nop_busied hq (by simp [Flight.dueBy, Flight.isTally]), afterBundle_led hctl (by simp) (by simp) hpc,
    advance_lands (portsRest_busied hq) (by rw [hled]; exact .of_noProducts (by simp [fl, Land.isProducts])), hled]
  dsimp only
  rw [hnext, led, setTile_setTile_live (by rw [tile_busied]; exact quiet_live hq), busied,
    setTile_setTile_live (x := { s.tile t with loops := [], flight := fl }) (quiet_live hq),
    landUpTo_store (bs := bs) (by rw [tile_count, tile_setTile, if_pos rfl]) (Nat.le_refl _), tile_count, tile_setTile, if_pos rfl,
    setTile_count, setTile_setTile_live (x := { (s.tile t).ahead ((s.tile t).pc + 1) 1 with flight := fl }) (quiet_live hq),
    settleTime_timeless]
  · dsimp only [Tile.ahead]
    rw [← hflight]
    rfl
  · rw [tile_poke, tile_count, tile_setTile, if_pos rfl]
    exact Tile.timeless_of_none hwait

end State

open State

/-- Settles O6. -/
theorem resultsLand : Obligations.ResultsLand := by
  unfold Obligations.ResultsLand
  intro s t l n hq v runs
  have hv : v = s.busied t [] [⟨(s.tile t).aclk + n, l⟩] := busied_one hq _
  refine ⟨fun hn hmma hmmav => ?later, fun hn => ?next, fun hn k hl => ?tally⟩
  case later =>
    have hl : l.isProducts = false := by
      cases l with
      | mma => exact absurd rfl (hmma _ _ _ _ _ _ _ _ _ _ _)
      | mmav => exact absurd rfl (hmmav _ _ _ _ _ _ _ _ _)
      | _ => rfl
    show exec _ v = .next _
    rw [hv]
    exact congrArg Host.Outcome.next (slot_nop_later hq hn hl)
  case next =>
    subst hn
    have registers (hl : l.registers = true) (ht : ∀ k m o, l ≠ .tally k m o) : runs (s.ran t l.onto) := by
      show exec _ v = .next _
      rw [hv]
      exact congrArg Host.Outcome.next (slot_nop_landed hq hl (Flight.not_dueBy (Nat.lt_succ_self _))
        (Flight.dueBy_of_le ht (Nat.le_refl _)))
    refine ⟨?_, ?_, ?_, ?_, ?_⟩
    · rintro r x rfl
      exact registers rfl (by simp)
    · rintro r x rfl
      exact registers rfl (by simp)
    · rintro r x m rfl
      exact registers rfl (by simp)
    · rintro fl rfl
      exact registers rfl (by simp)
    · rintro a bs rfl
      show exec _ v = .next _
      rw [hv]
      exact congrArg Host.Outcome.next (slot_nop_stored hq a bs)
  case tally =>
    subst hn hl
    show exec _ v = .next _
    rw [hv]
    exact congrArg Host.Outcome.next (slot_nop_landed hq rfl (by simp [Flight.dueBy, Flight.isTally])
      (by simp [Flight.dueBy, Flight.isTally]))

end Sys2Proof.Machine
end

section
/-! PROOF. Tallies, sync waves and waits for network time on a quiet tile (R157, R168, R169, R181, R189; O15). -/

namespace Sys2Proof.Machine

variable {s : State} {t : Nat} {g : Tile → Tile}

/-- The record of a tile `n` ACLK on that has done nothing but wait; its ports' clock and uses are those given. -/
def Tile.aged (x : Tile) (n e : Nat) (r0 r1 w : List (Nat × Nat)) : Tile :=
  x.clocked x.loops x.pc (x.aclk + n) e (x.cycle + BitVec.ofNat 64 n) r0 r1 w x.flight

/-- The record of a tile whose program waits for a time word (R157). -/
def Tile.timed (x : Tile) (v : W64) : Tile := { x with waitFor := some (.time v), waitExt := true, waited := 0 }

namespace State

/-- The issue of a lone slot that goes on in sequence without an access of its own, and of whose effect `g` on the tile
nothing lands in the next ACLK. -/
theorem slot_effect (hq : s.quiet t = true) {i : Instr} (n : Nat) (hm : (slotSem i (s.assembled t i) t).Alone)
    (huses : (slotSem i (s.assembled t i) t).uses = []) (hctl : (slotSem i (s.assembled t i) t).ctl = .seq)
    (hact : (slotSem i (s.assembled t i) t).act (s.setTile t (s.tile t)) = (s.setTile t (g (s.tile t))).freshAt n)
    (hg : (s.tile t).Goes (g (s.tile t)) 1) (hloops : (g (s.tile t)).loops = (s.tile t).loops)
    (hpc : (g (s.tile t)).pc = (s.tile t).pc) (hlater : ∀ f ∈ (g (s.tile t)).flight, f.dueBy ((s.tile t).aclk + 1) = false)
    (hports : (((s.setTile t (g (s.tile t))).freshAt n).led t [] ((s.tile t).pc + 1)).PortsRest t 1) :
    s.slot ⟨t, false⟩ i = (s.ran t g).freshAt n := by
  obtain ⟨-, -, -, -, -, -, hl, -, -, -, -, -, -, -, -, -, -, -, -, -, -, -, hp, -⟩ := (quiet_iff s t).mp hq
  have hnext : ctlNext (g (s.tile t)) (slotSem i (s.assembled t i) t).ctl = ([], (s.tile t).pc + 1, 0) := by
    rw [hctl, ctlNext_congr hloops hpc, ctlNext_seq hl]
  rw [slot_ranTo (b := 0) hq n hm huses hact hnext (by simp [hctl]) (by simp [hctl]) hp hg hports]
  refine congrArg (freshAt · n) (ranTo_congr ?_)
  have hself : ({ g (s.tile t) with loops := [] } : Tile) = g (s.tile t) := by rw [← hl, ← hloops]
  dsimp only
  rw [hself]
  exact Tile.landed_none hlater

theorem freshAt_setTile {x : Tile} : (s.setTile t x).freshAt s.fresh = s.setTile t x := rfl

/-- The same where nothing is under way at the tile's ports, and nothing in flight. -/
theorem slot_sets (hq : s.quiet t = true) {i : Instr} (hm : (slotSem i (s.assembled t i) t).Alone)
    (huses : (slotSem i (s.assembled t i) t).uses = []) (hctl : (slotSem i (s.assembled t i) t).ctl = .seq)
    (hact : (slotSem i (s.assembled t i) t).act (s.setTile t (s.tile t)) = s.setTile t (g (s.tile t)))
    (hg : (s.tile t).Goes (g (s.tile t)) 1) (hloops : (g (s.tile t)).loops = (s.tile t).loops)
    (hpc : (g (s.tile t)).pc = (s.tile t).pc) (hflight : (g (s.tile t)).flight = []) (hi : (g (s.tile t)).engIdle = true) :
    s.slot ⟨t, false⟩ i = s.ran t g :=
  (slot_effect (g := g) hq s.fresh hm huses hctl (hact.trans freshAt_setTile.symm) hg hloops hpc (by simp [hflight])
    (portsRest_quiet (g := g) hq hg hi)).trans freshAt_ranTo

/-- With nothing in flight no increment arrives. -/
theorem landTallies_setTile {x : Tile} (h : x.Live) (hf : x.flight = []) (a : Nat) :
    (s.setTile t x).landTallies t a = s.setTile t x := by
  have hx : (s.setTile t x).tile t = x := by rw [tile_setTile, if_pos rfl]
  rw [landTallies, landIf_none _ _ _ (by rw [hx]; exact hf), hx, setTile_setTile_live h]

theorem updTile_live {x : Tile} (h : x.Live) : (s.setTile t x).updTile t g = s.setTile t (g x) := by
  rw [updTile, tile_setTile, if_pos rfl, setTile_setTile_live h]

/-- The slot effects of the X slot on a quiet tile, nothing of which lands in the next ACLK. -/
theorem goes_of_same {y : Tile} (hq : s.quiet t = true) (hrun : y.run = (s.tile t).run) (htime : y.Timeless)
    (hflight : y.flight = []) (ha : y.aclk = (s.tile t).aclk := by rfl) (hc : y.cycle = (s.tile t).cycle := by rfl)
    (he : y.eng = (s.tile t).eng := by rfl) (h0 : y.rp0 = (s.tile t).rp0 := by rfl) (h1 : y.rp1 = (s.tile t).rp1 := by rfl)
    (hw : y.wp = (s.tile t).wp := by rfl) : (s.tile t).Goes y 1 where
  aclk := ha
  cycle := hc
  eng := he
  rp0 := h0
  rp1 := h1
  wp := hw
  passes := { Tile.Lasts.of_later (.inl (by rw [hrun]; exact quiet_run hq)) (by simp [hflight]) (by simp [hflight]) with
    timeless := htime }

/-- XTSET (R181). -/
theorem slot_xtset (hq : s.quiet t = true) {f : FmtXT} (hrsv : f.rsv = 0) :
    s.slot ⟨t, false⟩ (.xtset ⟨t, false⟩ f) = s.ran t (·.setTally f.t.toNat (((s.tile t).sreg f.rs.toNat).setWidth 32)) := by
  obtain ⟨-, -, hwait, -, -, hflight, -⟩ := (quiet_iff s t).mp hq
  let i : Instr := .xtset ⟨t, false⟩ f
  have hact : (semXtset f (s.assembled t i) t).act (s.setTile t (s.tile t)) =
      s.setTile t ((s.tile t).setTally f.t.toNat (((s.tile t).sreg f.rs.toNat).setWidth 32)) := by
    unfold semXtset
    dsimp only
    rw [sreg_slots, updTile_live (quiet_live hq)]
    exact landTallies_setTile (x := (s.tile t).setTally f.t.toNat _) (quiet_live hq) hflight _
  exact slot_sets hq (.of_dest (rsv_eq_nil hrsv) (Nat.zero_le 1) rfl) rfl rfl hact
    (goes_of_same hq rfl (Tile.timeless_of_none hwait) hflight) rfl rfl hflight (quiet_engIdle hq)

/-- XTRD (R181). -/
theorem slot_xtrd (hq : s.quiet t = true) {f : FmtXT} (hrsv : f.rsv = 0) :
    s.slot ⟨t, false⟩ (.xtrd ⟨t, false⟩ f) =
      s.ranLater t 2 (.s f.rs.toNat (((s.tile t).tally f.t.toNat).setWidth 64)) := by
  refine slot_later hq { causes := rsv_eq_nil hrsv, dest := Nat.le_refl 1 } ?_ (by decide) rfl
  show (semXtrd f (s.assembled t (.xtrd ⟨t, false⟩ f)) t).act _ = _
  unfold semXtrd
  dsimp only
  rw [landTallies_setTile (quiet_live hq) (quiet_flight hq), tile_setTile, if_pos rfl]
  rfl

/-- XWAIT on a tally that allows it (R181). -/
theorem slot_xwait_now (hq : s.quiet t = true) {f : FmtXT} (hrsv : f.rsv = 0)
    (hn : ((s.tile t).sreg f.rs.toNat).toNat ≤ ((s.tile t).tally f.t.toNat).toNat) :
    s.slot ⟨t, false⟩ (.xwait ⟨t, false⟩ f) = s.ran t (fun y =>
      { y.setTally f.t.toNat (BitVec.ofNat 32 (((s.tile t).tally f.t.toNat).toNat - ((s.tile t).sreg f.rs.toNat).toNat)) with
        marks := merase y.marks f.t.toNat }) := by
  obtain ⟨-, -, hwait, -, -, hflight, -⟩ := (quiet_iff s t).mp hq
  let i : Instr := .xwait ⟨t, false⟩ f
  have hact : (semXwait f (s.assembled t i) t).act (s.setTile t (s.tile t)) = s.setTile t
      { (s.tile t).setTally f.t.toNat (BitVec.ofNat 32 (((s.tile t).tally f.t.toNat).toNat -
        ((s.tile t).sreg f.rs.toNat).toNat)) with marks := merase (s.tile t).marks f.t.toNat } := by
    unfold semXwait
    dsimp only
    rw [sreg_slots, landTallies_setTile (quiet_live hq) hflight, updTile_live (quiet_live hq), if_pos hn]
  exact slot_sets hq (.of_seq (rsv_eq_nil hrsv) (Nat.zero_le 1) rfl) rfl rfl hact
    (goes_of_same hq rfl (Tile.timeless_of_none hwait) hflight) rfl rfl hflight (quiet_engIdle hq)

/-- XWAIT on a tally below its operand: the tile waits (R169, R181). -/
theorem slot_xwait_wait (hq : s.quiet t = true) {f : FmtXT} (hrsv : f.rsv = 0)
    (hn : ((s.tile t).tally f.t.toNat).toNat < ((s.tile t).sreg f.rs.toNat).toNat) :
    let k := f.t.toNat
    let ext : Bool := 48 ≤ k || mget false (s.tile t).marks k
    s.slot ⟨t, false⟩ (.xwait ⟨t, false⟩ f) = s.ran t (fun y => { y with
      waitFor := some (.tally k ((s.tile t).sreg f.rs.toNat).toNat (48 ≤ k)), waitExt := ext, waited := 0
      flag := y.flag || ext, soiled := y.soiled || ext }) := by
  intro k ext
  obtain ⟨-, -, hwait, -, -, hflight, -⟩ := (quiet_iff s t).mp hq
  let i : Instr := .xwait ⟨t, false⟩ f
  have hflag : (if ext then (s.tile t).setFlag else s.tile t) =
      { s.tile t with flag := (s.tile t).flag || ext, soiled := (s.tile t).soiled || ext } := by
    cases ext
    · simp only [Bool.false_eq_true, if_false, Bool.or_false]
    · simp only [if_true, Bool.or_true, Tile.setFlag]
  have hact : (semXwait f (s.assembled t i) t).act (s.setTile t (s.tile t)) = s.setTile t { s.tile t with
      waitFor := some (.tally k ((s.tile t).sreg f.rs.toNat).toNat (48 ≤ k)), waitExt := ext, waited := 0
      flag := (s.tile t).flag || ext, soiled := (s.tile t).soiled || ext } := by
    unfold semXwait
    dsimp only
    rw [sreg_slots, landTallies_setTile (quiet_live hq) hflight, updTile_live (quiet_live hq), if_neg (Nat.not_le.mpr hn)]
    show s.setTile t { (if ext then (s.tile t).setFlag else s.tile t) with waitFor := _, waitExt := _, waited := _ } = _
    rw [hflag]
  exact slot_sets hq (.of_seq (rsv_eq_nil hrsv) (Nat.zero_le 1) rfl) rfl rfl hact
    (goes_of_same hq rfl (by simp [Tile.Timeless]) hflight) rfl rfl hflight (quiet_engIdle hq)

/-- XSYNC joins its wave (R189). -/
theorem slot_xsync (hq : s.quiet t = true) {f : FmtXS} (hrsv : f.rsv = 0) (hrsv2 : f.rsv2 = 0)
    (hw : s.waveMember ((s.tileOwner t).getD 1024) (s.tileGroup t) f.wave.toNat t = true) :
    s.slot ⟨t, false⟩ (.xsync ⟨t, false⟩ f) = s.ran t (fun y => { y with
      waitFor := some (.wave f.wave.toNat), waitExt := false, waited := 0
      joinG := (s.tile t).aclk / 2 + (s.tile t).lag }) := by
  obtain ⟨-, -, -, -, -, hflight, -⟩ := (quiet_iff s t).mp hq
  have hact : (semXsync f (s.assembled t (.xsync ⟨t, false⟩ f)) t).act (s.setTile t (s.tile t)) = s.setTile t { s.tile t with
      waitFor := some (.wave f.wave.toNat), waitExt := false, waited := 0
      joinG := (s.tile t).aclk / 2 + (s.tile t).lag } := by
    unfold semXsync
    dsimp only
    rw [updTile_live (quiet_live hq)]
  refine slot_sets hq (.of_seq ?_ (Nat.zero_le 1) rfl) rfl rfl hact
    (goes_of_same hq rfl (by simp [Tile.Timeless]) hflight) rfl rfl hflight (quiet_engIdle hq)
  show rsv (f.rsv != 0 || f.rsv2 != 0) ++
    when_ (!s.waveMember ((s.tileOwner t).getD 1024) (s.tileGroup t) f.wave.toNat t) 0x14 = []
  rw [hrsv, hrsv2, hw]
  rfl

/-! ### The hold of a tile with nothing under way -/

/-- A tile with nothing under way at its ports, to which results come in registers alone, goes on by `n` ACLK. -/
theorem advance_resting {x : Tile} {n : Nat} (hx : s.tile t = x) (hl : x.Lasts n) (hi : x.engIdle = true) :
    ∃ e r0 r1 w, s.advance t n = (s.setTile t ((x.aged n e r0 r1 w).landed (x.aclk + n))).count bTILE t 0xC00 n := by
  subst hx
  obtain ⟨hlive, hprod, hlands⟩ := hl
  have hland (y : Tile) (hy : y.flight = (s.tile t).flight) (hl : y.Live) :
      ((s.setTile t y).count bTILE t 0xC00 n).landUpTo t ((s.tile t).aclk + n) =
        (s.setTile t (y.landed ((s.tile t).aclk + n))).count bTILE t 0xC00 n := by
    have htile : ((s.setTile t y).count bTILE t 0xC00 n).tile t = y := by rw [tile_count, tile_setTile, if_pos rfl]
    have hregs : y.LandsInRegisters ((s.tile t).aclk + n) := by
      unfold Tile.LandsInRegisters
      rw [hy]
      exact hlands
    rw [landUpTo_landed (by rw [htile]; exact hregs) (by rw [htile]; exact hl), htile, setTile_count, setTile_setTile_live hl]
  have hage (u : State) (e : Nat) (hu : u.tile t = { s.tile t with eng := e }) (hset : ∀ y, u.setTile t y = s.setTile t y)
      (hv : s.engTo t (((s.tile t).aclk + n) / 2 - (s.tile t).eng) = u) :
      ∃ r0 r1 w, s.advance t n =
        (s.setTile t (((s.tile t).aged n e r0 r1 w).landed ((s.tile t).aclk + n))).count bTILE t 0xC00 n := by
    let keep (l : List (Nat × Nat)) := l.filter (fun u => ((s.tile t).aclk + n) / 2 ≤ u.1)
    refine ⟨keep (s.tile t).rp0, keep (s.tile t).rp1, keep (s.tile t).wp, ?_⟩
    unfold advance
    dsimp only
    rw [hv, hu, Tile.NoneLate.delayMma (x := { s.tile t with eng := e }) hprod, hset]
    exact hland ((s.tile t).aged n e _ _ _) rfl hlive
  by_cases h0 : ((s.tile t).aclk + n) / 2 - (s.tile t).eng = 0
  · exact ⟨_, hage s (s.tile t).eng rfl (fun _ => rfl) (by rw [engTo_idle s t _ hi, if_pos h0])⟩
  · let e := (s.tile t).eng + (((s.tile t).aclk + n) / 2 - (s.tile t).eng)
    exact ⟨e, hage (s.setTile t { s.tile t with eng := e }) e (by rw [tile_setTile, if_pos rfl])
      (fun _ => setTile_setTile_live hlive) (by rw [engTo_idle s t _ hi, if_neg h0])⟩

/-- What a hold of `n` ACLK counts: TILE_CNT_ACLK, and TILE_CNT_EXTWAIT where the wait is an external one (R169). -/
def counted (s : State) (t n : Nat) (ext : Bool) : State :=
  if ext then (s.count bTILE t 0xC00 n).count bTILE t 0xC08 n else s.count bTILE t 0xC00 n

theorem counted_frame (s : State) (t n : Nat) (ext : Bool) : ∃ c, s.counted t n ext = { s with cnts := c } := by
  unfold counted
  split
  · exact ⟨_, rfl⟩
  · exact ⟨_, rfl⟩

/-- The hold of such a tile (R169). -/
theorem hold_resting {x : Tile} {n : Nat} (hx : s.tile t = x) (hl : x.Lasts n) (hi : x.engIdle = true) :
    ∃ e r0 r1 w p, s.hold t n = (s.setTile t { (x.aged n e r0 r1 w).landed (x.aclk + n) with
      waited := ((x.aged n e r0 r1 w).landed (x.aclk + n)).waited + n, extwait := p }).counted t n x.waitExt ∧
      p = (let y := (x.aged n e r0 r1 w).landed (x.aclk + n)
        if x.waitExt then y.extwait + BitVec.ofNat 64 n else y.extwait) := by
  obtain ⟨e, r0, r1, w, h⟩ := advance_resting hx hl hi
  let y : Tile := (x.aged n e r0 r1 w).landed (x.aclk + n)
  let z : Tile := { y with waited := y.waited + n }
  have hlive : y.Live := Tile.landed_live (x := x.aged n e r0 r1 w) hl.live _
  have hwaited : ((s.setTile t y).count bTILE t 0xC00 n).updTile t (fun y => { y with waited := y.waited + n }) =
      (s.setTile t z).count bTILE t 0xC00 n := by
    rw [updTile, tile_count, tile_setTile, if_pos rfl, setTile_count, setTile_setTile_live hlive]
  refine ⟨e, r0, r1, w, _, ?_, rfl⟩
  unfold hold
  dsimp only
  rw [h, hwaited, hx]
  unfold counted
  split
  next hext =>
    rw [updTile, tile_count, tile_setTile, if_pos rfl, setTile_count, setTile_setTile_live (x := z) hlive]
  next hext => rfl

/-- With nothing in flight the hold leaves all but the clocks and the counts of the wait. -/
theorem hold_still {x : Tile} (hx : s.tile t = x) (hlive : x.Live) (hf : x.flight = []) (hi : x.engIdle = true) (n : Nat) :
    ∃ e r0 r1 w, s.hold t n = (s.setTile t { x.aged n e r0 r1 w with
      waited := x.waited + n, extwait := if x.waitExt then x.extwait + BitVec.ofNat 64 n else x.extwait }).counted t n x.waitExt := by
  obtain ⟨e, r0, r1, w, p, h, rfl⟩ := hold_resting (n := n) hx (.of_later hlive (by simp [hf]) (by simp [hf])) hi
  refine ⟨e, r0, r1, w, ?_⟩
  rw [h, Tile.landed_nil (x := x.aged n e r0 r1 w) hf]
  rfl

/-! ### WAITT -/

/-- WAITT waits for its time word in the ACLK after its issue, where the word may have passed (R157). -/
theorem slot_waitt (hq : s.quiet t = true) {f : FmtSI} (hrd : f.rd = 0) (himm : f.imm = 0) :
    s.slot ⟨t, false⟩ (.waitt ⟨t, false⟩ f) =
      (s.ran t (·.timed ((s.tile t).sreg f.rs1.toNat))).settleTime t := by
  obtain ⟨-, -, -, -, -, hflight, hloops, -, -, -, -, -, hrp0, hrp1, hwp, -, -, heng, -, -, -, -, hpc, -⟩ := (quiet_iff s t).mp hq
  let i : Instr := .waitt ⟨t, false⟩ f
  let y : Tile := (s.tile t).timed ((s.tile t).sreg f.rs1.toNat)
  have hlive : y.Live := .inl (quiet_run hq)
  have htile : (s.setTile t y).tile t = y := by rw [tile_setTile, if_pos rfl]
  have hact : (slotSem i (s.assembled t i) t).act (s.setTile t (s.tile t)) = s.setTile t y := by
    show (semWaitt f (s.assembled t i) t).act _ = _
    unfold semWaitt
    dsimp only
    rw [sreg_slots, updTile_live (quiet_live hq)]
    rfl
  have hm : (slotSem i (s.assembled t i) t).Alone := by
    refine .of_seq ?_ (Nat.zero_le 1) rfl
    show rsv (f.rd != 0 || f.imm != 0) = []
    rw [hrd, himm]
    rfl
  have hctl : ctlNext ((s.setTile t y).tile t) .seq = ([], y.pc + 1, 0) := by rw [htile, ctlNext_seq (x := y) hloops]
  have hlasts : y.Lasts 1 := .of_later hlive (by simp [y, Tile.timed, hflight]) (by simp [y, Tile.timed, hflight])
  have hports := portsRest_led (n := 1) (ls := []) (pc := y.pc + 1) htile hlive (quiet_engIdle hq)
    (by show (s.tile t).eng ≤ ((s.tile t).aclk + 1) / 2; omega)
  have hkept : y.kept [] 1 = y := by
    have h := Tile.kept_self (x := y) hrp0 hrp1 hwp 1
    rwa [show y.loops = [] from hloops] at h
  rw [slot_alone hq hm rfl, hact, show (slotSem i (s.assembled t i) t).ctl = .seq from rfl,
    afterBundle_led hctl (by simp) (by simp) (by exact hpc), led_advance (by rw [htile]; exact hlasts) hports, htile, hkept,
    Tile.landed_nil (x := y) hflight, setTile_setTile_live hlive]
  rfl

/-- A time word still to come leaves the tile waiting, its external flag set (R157). -/
theorem settleTime_early {v : W64} (hw : (s.tile t).waitFor = some (.time v)) (h : s.timeWord.toNat < v.toNat) :
    s.settleTime t = s.updTile t Tile.setFlag := by
  unfold settleTime
  rw [hw]
  exact if_neg (Nat.not_le.mpr h)

/-- A time word that has passed holds the tile until GCLK 0 of the next alignment period (R157, R169). -/
theorem settleTime_past {v : W64} (hw : (s.tile t).waitFor = some (.time v)) (h : v.toNat ≤ s.timeWord.toNat) :
    s.settleTime t = (s.hold t ((16 - (s.tile t).aclk % 16) % 16)).updTile t (fun x =>
      { (if (16 - (s.tile t).aclk % 16) % 16 = 0 then x else x.setFlag) with waitFor := none, waitExt := false }) := by
  unfold settleTime
  rw [hw]
  exact if_pos h

/-- WAITT for a time still to come (R157, R169). -/
theorem slot_waitt_wait (hq : s.quiet t = true) {f : FmtSI} (hrd : f.rd = 0) (himm : f.imm = 0)
    (hv : s.timeWord.toNat < ((s.tile t).sreg f.rs1.toNat).toNat) :
    s.slot ⟨t, false⟩ (.waitt ⟨t, false⟩ f) = s.ran t (fun y =>
      { y with waitFor := some (.time ((s.tile t).sreg f.rs1.toNat)), waitExt := true, waited := 0, flag := true, soiled := true }) := by
  rw [slot_waitt hq hrd himm, settleTime_early (s := s.ran t (·.timed ((s.tile t).sreg f.rs1.toNat))) (v := (s.tile t).sreg f.rs1.toNat) (by rw [tile_ran]; rfl) hv]
  exact updTile_count_setTile (s := s) (x := ((s.tile t).timed ((s.tile t).sreg f.rs1.toNat)).ahead ((s.tile t).pc + 1) 1)
    (quiet_run hq) bTILE t 0xC00 1 _

/-- The wait for a time word that has passed, from the ACLK after its issue (R157, R169). -/
theorem settleTime_still {x : Tile} {v : W64} (hx : s.tile t = x) (hlive : x.Live) (hf : x.flight = []) (hi : x.engIdle = true)
    (hw : x.waitFor = some (.time v)) (hext : x.waitExt = true) (h : v.toNat ≤ s.timeWord.toNat) :
    let n := (16 - x.aclk % 16) % 16
    let u := s.settleTime t
    (u.tile t).waitFor = none ∧ (u.tile t).pc = x.pc ∧ (u.tile t).aclk = x.aclk + n ∧
      (u.tile t).extwait = x.extwait + BitVec.ofNat 64 n ∧ (u.tile t).cycle = x.cycle + BitVec.ofNat 64 n ∧
      (u.tile t).s = x.s ∧ u.mem = s.mem ∧ u.regs = s.regs := by
  subst hx
  dsimp only
  rw [settleTime_past hw h]
  obtain ⟨e, r0, r1, w, hh⟩ := hold_still rfl hlive hf hi ((16 - (s.tile t).aclk % 16) % 16)
  obtain ⟨c, hc⟩ := counted_frame (s.setTile t { (s.tile t).aged ((16 - (s.tile t).aclk % 16) % 16) e r0 r1 w with
    waited := (s.tile t).waited + (16 - (s.tile t).aclk % 16) % 16
    extwait := (s.tile t).extwait + BitVec.ofNat 64 ((16 - (s.tile t).aclk % 16) % 16) }) t ((16 - (s.tile t).aclk % 16) % 16) true
  rw [hh, hext, if_pos rfl, hc, tile_updTile]
  rw [show ({ s.setTile t _ with cnts := c } : State).tile t = (s.setTile t _).tile t from rfl, tile_setTile, if_pos rfl, if_pos rfl]
  split
  · exact ⟨rfl, rfl, rfl, rfl, rfl, rfl, rfl, rfl⟩
  · exact ⟨rfl, rfl, rfl, rfl, rfl, rfl, rfl, rfl⟩

/-- WAITT for a time that has passed (R157, R169). -/
theorem slot_waitt_past (hq : s.quiet t = true) {f : FmtSI} (hrd : f.rd = 0) (himm : f.imm = 0)
    (hv : ((s.tile t).sreg f.rs1.toNat).toNat ≤ s.timeWord.toNat) :
    let x := s.tile t
    let n := (16 - (x.aclk + 1) % 16) % 16
    let u := s.slot ⟨t, false⟩ (.waitt ⟨t, false⟩ f)
    (u.tile t).waitFor = none ∧ (u.tile t).pc = x.pc + 1 ∧ (u.tile t).aclk = x.aclk + 1 + n ∧
      (u.tile t).aclk % 16 = 0 ∧ (u.tile t).extwait = x.extwait + BitVec.ofNat 64 n ∧
      (u.tile t).cycle = x.cycle + BitVec.ofNat 64 (1 + n) ∧ (u.tile t).s = x.s ∧ u.mem = s.mem ∧ u.regs = s.regs := by
  dsimp only
  rw [slot_waitt hq hrd himm]
  let v : W64 := (s.tile t).sreg f.rs1.toNat
  obtain ⟨hwait, hpc, haclk, hext, hcyc, hs, hmem, hregs⟩ := settleTime_still (s := s.ran t (·.timed v)) (v := v)
    (x := ((s.tile t).timed v).ahead ((s.tile t).pc + 1) 1) tile_ran (.inl (quiet_run hq))
    (quiet_flight hq) (quiet_engIdle hq) rfl rfl hv
  refine ⟨hwait, hpc, haclk, ?_, hext, ?_, hs, hmem, hregs⟩
  · rw [haclk]
    show ((s.tile t).aclk + 1 + (16 - ((s.tile t).aclk + 1) % 16) % 16) % 16 = 0
    omega
  · rw [hcyc, BitVec.ofNat_add, ← BitVec.add_assoc]
    rfl

end State
open State

/-- Settles O15: each clause is the issue of its lone slot; a time word that has passed is held for as a wait with
nothing in flight. -/
theorem talliesAndWaits : Obligations.TalliesAndWaits := by
  unfold Obligations.TalliesAndWaits
  intro s t hq
  refine ⟨fun f h => ⟨?_, ?_, ?_, ?_⟩, fun f h h2 hw => ?_, fun f h h2 => ⟨fun hv => ?_, fun hv => ⟨_, rfl, ?_⟩⟩⟩
  · exact congrArg Host.Outcome.next (slot_xtset hq h)
  · exact congrArg Host.Outcome.next (slot_xtrd hq h)
  · exact fun hn => congrArg Host.Outcome.next (slot_xwait_now hq h hn)
  · exact fun hn => congrArg Host.Outcome.next ((slot_xwait_wait hq h hn).trans (ran_congr (by simp only [Bool.or_assoc])))
  · exact congrArg Host.Outcome.next (slot_xsync hq h h2 hw)
  · exact congrArg Host.Outcome.next (slot_waitt_wait hq h h2 hv)
  · exact slot_waitt_past hq h h2 hv

end Sys2Proof.Machine
end

section
/-! PROOF. Copy requests, the tile mailbox and far loads on a quiet tile (R168, R174, R194; O16). -/

namespace Sys2Proof.Machine

variable {s u : State} {t : Nat} {x y : Tile}

/-- A list without repetitions has none for the check of a bundle. -/
theorem hasDup_of_nodup {l : List RegName} (h : l.Nodup) : hasDup l = false := by
  induction h with
  | nil => rfl
  | cons hne _ ih => exact Bool.or_eq_false_iff.mpr ⟨by simpa using fun hm => hne _ hm rfl, ih⟩

/-- The record of a tile to whose scalar registers words come at the next ACLK. -/
def Tile.receives (x : Tile) (n : Nat) (w : Nat → W64) (l : List Nat) : Tile :=
  { x with flight := l.map (fun k => ⟨x.aclk + 1, .s (n + k) (w k)⟩) }

/-- A result joins behind those that are due no later (R145). -/
theorem addFlight_of_le {f : Flight} {l : List Flight} (h : ∀ g ∈ l, flightKey g ≤ flightKey f) : addFlight f l = l ++ [f] := by
  induction l with
  | nil => rfl
  | cons g l ih =>
    rw [addFlight, if_neg (Nat.not_lt.mpr (h g List.mem_cons_self)), ih fun g hg => h g (List.mem_cons_of_mem _ hg)]
    rfl

namespace State

/-- The issue of a lone slot without an access of its own, whose effect reaches more of the state than the tile. -/
theorem slot_beside (hq : s.quiet t = true) {i : Instr} (hm : (slotSem i (s.assembled t i) t).Alone)
    (huses : (slotSem i (s.assembled t i) t).uses = []) (hctl : (slotSem i (s.assembled t i) t).ctl = .seq)
    (hact : (slotSem i (s.assembled t i) t).act (s.setTile t (s.tile t)) = u) (hu : u.tile t = y)
    (hg : (s.tile t).Goes y 1) (hloops : y.loops = []) (hpc : y.pc = (s.tile t).pc)
    (hports : (u.led t [] ((s.tile t).pc + 1)).PortsRest t 1) :
    s.slot ⟨t, false⟩ i =
      (u.setTile t ((y.landed ((s.tile t).aclk + 1)).ahead ((s.tile t).pc + 1) 1)).count bTILE t 0xC00 1 := by
  obtain ⟨-, -, -, -, -, -, -, -, -, -, -, -, hrp0, hrp1, hwp, -, -, -, -, -, -, -, hlast, -⟩ := (quiet_iff s t).mp hq
  subst hu
  have hnext : ctlNext (u.tile t) .seq = ([], (s.tile t).pc + 1, 0) := by rw [ctlNext_seq hloops, hpc]
  have hkept : (u.tile t).kept [] (1 + 0) = u.tile t := by
    have h := Tile.kept_self (hg.rp0.trans hrp0) (hg.rp1.trans hrp1) (hg.wp.trans hwp) (1 + 0)
    rwa [hloops] at h
  rw [slot_alone hq hm huses, hact, hctl, afterBundle_rest hnext (by simp) (by simp) hlast hg.passes hports, hkept, hg.aclk]

/-- The registers of a tile with a slot assembled are those it has. -/
theorem sn_slots (i : Instr) (r : Nat) : ((s.assembled t i).tile t).sn r = (s.tile t).sn r := congrArg BitVec.toNat (sreg_slots i r)

/-! ### Copy requests -/

/-- The request that a tile's engine accepts (R194). -/
def tileJob (s : State) (t : Nat) (spill : Bool) (va tva len k : Nat) (im : Bool) : CopyJob :=
  let p := (s.tileOwner t).getD 0
  { eng := copyEngine t spill, id := s.fresh, from_ := .tile t, part := p, spill := spill, lva := va
    tva := tva, im := im, len := len, tally := some k, flags := 0, ctally := 0, epoch := (s.part p).epoch
    cells := s.copyCells p spill va len (fun i => some (if im then imAt t (tva + i) else sramAt t (tva + i))) }

theorem copyRequest_setTile (h : x.Live) {spill im : Bool} {va tva len k : Nat} :
    (s.setTile t x).copyRequest t spill va tva len k im = State.freshen { s.setTile t { x with copies := x.copies + 1 } with
      jobs := s.jobs ++ [(s.setTile t x).tileJob t spill va tva len k im] } := by
  show State.freshen { (s.setTile t x).updTile t (fun y => { y with copies := y.copies + 1 }) with jobs := _ } = _
  rw [updTile_live h]
  rfl

/-- A copy request is accepted by the engine of the tile (R194). -/
theorem slot_copies (hq : s.quiet t = true) {i : Instr} {spill im : Bool} {va tva len k : Nat}
    (hc : (slotSem i (s.assembled t i) t).causes = []) (hd : (slotSem i (s.assembled t i) t).dest = [])
    (huses : (slotSem i (s.assembled t i) t).uses = []) (hctl : (slotSem i (s.assembled t i) t).ctl = .seq)
    (hact : ∀ v, (slotSem i (s.assembled t i) t).act v = v.copyRequest t spill va tva len k im) :
    s.slot ⟨t, false⟩ i = State.freshen { s.ran t (fun y => { y with copies := y.copies + 1 }) with
      jobs := s.jobs ++ [(s.setTile t (s.tile t)).tileJob t spill va tva len k im] } := by
  obtain ⟨-, -, hwait, -, -, hflight, hloops, -, -, -, -, -, -, -, -, -, -, heng, -⟩ := (quiet_iff s t).mp hq
  let y : Tile := { s.tile t with copies := (s.tile t).copies + 1 }
  let js := s.jobs ++ [(s.setTile t (s.tile t)).tileJob t spill va tva len k im]
  have hu : (State.freshen { s.setTile t y with jobs := js }).tile t = y := (tile_setTile ..).trans (if_pos rfl)
  have hlive : y.Live := quiet_live hq
  have hg : (s.tile t).Goes y 1 := goes_of_same hq rfl (Tile.timeless_of_none hwait) hflight
  have he : y.eng ≤ (y.aclk + 1) / 2 := by
    show (s.tile t).eng ≤ ((s.tile t).aclk + 1) / 2
    omega
  rw [slot_beside hq (.of_seq hc (by rw [hd]; exact Nat.zero_le 1) hctl) huses hctl
    ((hact _).trans (copyRequest_setTile (quiet_live hq))) hu hg hloops rfl
    (portsRest_led hu hlive (quiet_engIdle hq) he), Tile.landed_nil (x := y) hflight]
  show State.freshen { ((s.setTile t y).setTile t (y.ahead ((s.tile t).pc + 1) 1)).count bTILE t 0xC00 1 with jobs := js } = _
  rw [setTile_setTile_live hlive]
  rfl

/-- A group of registers that ends by s63 is none too long. -/
theorem groupBad_eq_nil {n c : Nat} (h : n + c ≤ 64) : groupBad n c = [] := by
  rw [groupBad, when_, if_neg (by simpa using h)]

/-- What the checks of a well-formed request find (R168, Table 6-9). -/
theorem copyChecks {spill im : Bool} {a len k : Nat} (hlen : len % 256 = 0) (hmax : len ≤ 0x800000) (hk : 48 ≤ k)
    (him : im = true → spill = false ∧ a % 16 = 0 ∧ (len = 0 ∨ a + len ≤ 0x40000))
    (hsram : im = false → len = 0 ∨ a + len ≤ 0x800000) :
    when_ (if im && !spill then !(len = 0 || a + len ≤ 0x40000) else !inTile a len) 0x06 ++
      when_ (len % 256 != 0 || 0x800000 < len || k < 48 || (spill && im) || (im && a % 16 != 0)) 0x0F = [] := by
  cases im with
  | true =>
    obtain ⟨rfl, ha, hr⟩ := him rfl
    simpa [when_, hlen, ha, hk, hmax, or_iff_not_imp_left] using hr
  | false => simpa [when_, inTile, hlen, hk, hmax, or_iff_not_imp_left] using hsram rfl

/-- What a well-formed request of a tile meets. -/
theorem semXcopy_causes {v : State} {spill im : Bool} {f : FmtXD} (hsn : ∀ r, (v.tile t).sn r = x.sn r)
    (hrsv : f.rsv = 0) (hn : f.sn.toNat ≤ 60) (hb : decide (x.sn (f.sn.toNat + 3) / 2 ^ 8 % 2 = 1) = im)
    (hlen : x.sn (f.sn.toNat + 2) % 256 = 0) (hmax : x.sn (f.sn.toNat + 2) ≤ 0x800000) (hk : 48 ≤ x.sn (f.sn.toNat + 3) % 64)
    (him : im = true → spill = false ∧ x.sn (f.sn.toNat + 1) % 16 = 0 ∧
      (x.sn (f.sn.toNat + 2) = 0 ∨ x.sn (f.sn.toNat + 1) + x.sn (f.sn.toNat + 2) ≤ 0x40000))
    (hsram : im = false → x.sn (f.sn.toNat + 2) = 0 ∨ x.sn (f.sn.toNat + 1) + x.sn (f.sn.toNat + 2) ≤ 0x800000) :
    (semXcopy spill f v t).causes = [] := by
  subst hb
  unfold semXcopy
  simp only [hsn]
  rw [hrsv, if_neg (by omega), bitsAt_low]
  exact copyChecks hlen hmax hk him hsram

/-- XFILL and XSPILL (R168, R194). -/
theorem slot_xcopy (hq : s.quiet t = true) (f : FmtXD) (spill : Bool) (hrsv : f.rsv = 0) (hn : f.sn.toNat ≤ 60)
    (hx : s.tile t = x) {im : Bool} (hb : decide (x.sn (f.sn.toNat + 3) / 2 ^ 8 % 2 = 1) = im)
    (hlen : x.sn (f.sn.toNat + 2) % 256 = 0) (hmax : x.sn (f.sn.toNat + 2) ≤ 0x800000) (hk : 48 ≤ x.sn (f.sn.toNat + 3) % 64)
    (him : im = true → spill = false ∧ x.sn (f.sn.toNat + 1) % 16 = 0 ∧
      (x.sn (f.sn.toNat + 2) = 0 ∨ x.sn (f.sn.toNat + 1) + x.sn (f.sn.toNat + 2) ≤ 0x40000))
    (hsram : im = false → x.sn (f.sn.toNat + 2) = 0 ∨ x.sn (f.sn.toNat + 1) + x.sn (f.sn.toNat + 2) ≤ 0x800000) :
    s.slot ⟨t, false⟩ (if spill then .xspill ⟨t, false⟩ f else .xfill ⟨t, false⟩ f) =
      State.freshen { s.ran t (fun y => { y with copies := y.copies + 1 }) with
        jobs := s.jobs ++ [(s.setTile t x).tileJob t spill (x.sn f.sn.toNat) (x.sn (f.sn.toNat + 1)) (x.sn (f.sn.toNat + 2))
          (x.sn (f.sn.toNat + 3) % 64) im] } := by
  subst hx
  have hsem (i : Instr) (hi : slotSem i (s.assembled t i) t = semXcopy spill f (s.assembled t i) t) :=
    slot_copies (i := i) (spill := spill) (im := im) (va := (s.tile t).sn f.sn.toNat) (tva := (s.tile t).sn (f.sn.toNat + 1))
      (len := (s.tile t).sn (f.sn.toNat + 2)) (k := (s.tile t).sn (f.sn.toNat + 3) % 64) hq
      (by rw [hi]; exact semXcopy_causes (sn_slots i) hrsv hn hb hlen hmax hk him hsram)
      (by rw [hi]; rfl) (by rw [hi]; rfl) (by rw [hi]; rfl) (fun v => by
        rw [hi]
        show v.copyRequest t spill (Tile.sn _ _) (Tile.sn _ _) (Tile.sn _ _) (bitsAt (Tile.sn _ _) 0 6) (bitsAt (Tile.sn _ _) 8 1 == 1) = _
        simp only [sn_slots, bitsAt_low, ← hb]
        rfl)
  cases spill with
  | true => exact hsem (.xspill ⟨t, false⟩ f) rfl
  | false => exact hsem (.xfill ⟨t, false⟩ f) rfl

/-! ### The tile mailbox -/

/-- An effect on the tile's mailbox beside the tile. -/
theorem slot_mailbox (hq : s.quiet t = true) {i : Instr} {d : Bool} {m : Mbox} {n : Nat}
    (hm : (slotSem i (s.assembled t i) t).Alone)
    (huses : (slotSem i (s.assembled t i) t).uses = []) (hctl : (slotSem i (s.assembled t i) t).ctl = .seq)
    (hact : (slotSem i (s.assembled t i) t).act (s.setTile t (s.tile t)) = ((s.setTile t y).setMb (.tile t) d m).freshAt n)
    (hg : (s.tile t).Goes y 1) (hloops : y.loops = []) (hpc : y.pc = (s.tile t).pc) (hi : y.engIdle = true) :
    s.slot ⟨t, false⟩ i = ((s.ran t (fun _ => y.landed ((s.tile t).aclk + 1))).setMb (.tile t) d m).freshAt n := by
  obtain ⟨-, -, -, -, -, -, -, -, -, -, -, -, -, -, -, -, -, heng, -⟩ := (quiet_iff s t).mp hq
  have hu : (((s.setTile t y).setMb (.tile t) d m).freshAt n).tile t = y := (tile_setTile ..).trans (if_pos rfl)
  have hports := portsRest_led (n := 1) (ls := []) (pc := (s.tile t).pc + 1) hu hg.passes.live hi
    (by rw [hg.eng, hg.aclk]; omega)
  rw [slot_beside hq hm huses hctl hact hu hg hloops hpc hports]
  show ((((s.setTile t y).setTile t _).count bTILE t 0xC00 1).setMb (.tile t) d m).freshAt n = _
  rw [setTile_setTile_live hg.passes.live]
  rw [ran, ranTo_eq_ahead (Tile.landed_aclk _ |>.trans hg.aclk) (Tile.landed_cycle _ |>.trans hg.cycle)]

/-- XMBW (R168, R408). -/
theorem slot_xmbw (hq : s.quiet t = true) {f : FmtXB} (hrsv : f.rsv = 0) (h1 : 1 ≤ f.cnt.toNat) (h8 : f.cnt.toNat ≤ 8)
    (hn : f.sn.toNat + f.cnt.toNat ≤ 64) :
    s.slot ⟨t, false⟩ (.xmbw ⟨t, false⟩ f) = (s.ran t id).setMb (.tile t) true
      { s.mb (.tile t) true with
        words := (List.range f.cnt.toNat).map (fun i => (s.tile t).sreg (f.sn.toNat + i)), len := f.cnt.toNat, full := true
        collision := (s.mb (.tile t) true).collision || (s.mb (.tile t) true).full, src := false, acked := false } := by
  obtain ⟨-, -, hwait, -, -, hflight, hloops, -⟩ := (quiet_iff s t).mp hq
  let i : Instr := .xmbw ⟨t, false⟩ f
  let m : Mbox := { s.mb (.tile t) true with
    words := (List.range f.cnt.toNat).map (fun i => (s.tile t).sreg (f.sn.toNat + i)), len := f.cnt.toNat, full := true
    collision := (s.mb (.tile t) true).collision || (s.mb (.tile t) true).full, src := false, acked := false }
  have hact : (slotSem i (s.assembled t i) t).act (s.setTile t (s.tile t)) =
      ((s.setTile t (s.tile t)).setMb (.tile t) true m).freshAt s.fresh := by
    show (s.setTile t (s.tile t)).setMb (.tile t) true ((s.mb (.tile t) true).post
      ((List.range f.cnt.toNat).map (fun k => ((s.assembled t i).tile t).sreg (f.sn.toNat + k))) false) = _
    rw [Mbox.post, List.length_map, List.length_range]
    simp only [sreg_slots]
    rfl
  have hm : (slotSem i (s.assembled t i) t).Alone := by
    refine .of_seq ?_ (Nat.zero_le 1) rfl
    show rsv (f.rsv != 0) ++ when_ (f.cnt.toNat = 0 || 8 < f.cnt.toNat) 0x05 ++ groupBad f.sn.toNat f.cnt.toNat = []
    rw [hrsv, groupBad_eq_nil hn, when_, if_neg (by simp; omega)]
    rfl
  rw [slot_mailbox (y := s.tile t) hq hm rfl rfl hact (goes_of_same hq rfl (Tile.timeless_of_none hwait) hflight) hloops rfl
    (quiet_engIdle hq), Tile.landed_nil hflight]
  rfl

/-- XMBR of eight registers makes a legal bundle (R147, R168). -/
theorem xmbr_alone {v : State} {f : FmtXB} (hrsv : f.rsv = 0) (hc : f.cnt.toNat = 0) (hn : f.sn.toNat + 8 ≤ 64) :
    (semXmbr f v t).Alone where
  causes := by
    show rsv (f.rsv != 0 || f.cnt != 0) ++ groupBad f.sn.toNat 8 = []
    rw [hrsv, BitVec.eq_of_toNat_eq (y := 0) hc, groupBad_eq_nil hn]
    rfl
  fits := by
    have hnodup : ((List.range 8).map (fun i => ((0, f.sn.toNat + i) : RegName))).Nodup :=
      List.nodup_range.map fun a b h => Nat.add_left_cancel (Prod.mk.inj h).2
    have hdup := hasDup_of_nodup (hnodup.filter (fun r => r != (0, 0) && r != (2, 0)))
    simp [compositionBad, semXmbr] at hdup ⊢
    exact hdup

/-- XMBR on an empty mailbox waits (R168, R169). -/
theorem slot_xmbr_wait (hq : s.quiet t = true) {f : FmtXB} (hrsv : f.rsv = 0) (hc : f.cnt.toNat = 0) (hn : f.sn.toNat + 8 ≤ 64)
    (he : (s.mb (.tile t) false).full = false) :
    s.slot ⟨t, false⟩ (.xmbr ⟨t, false⟩ f) = s.ran t (fun y =>
      { y with waitFor := some (.mbox f.sn.toNat), waitExt := true, waited := 0, flag := true, soiled := true }) := by
  obtain ⟨-, -, -, -, -, hflight, -⟩ := (quiet_iff s t).mp hq
  let i : Instr := .xmbr ⟨t, false⟩ f
  have hact : (slotSem i (s.assembled t i) t).act (s.setTile t (s.tile t)) = s.setTile t { s.tile t with
      waitFor := some (.mbox f.sn.toNat), waitExt := true, waited := 0, flag := true, soiled := true } := by
    show (semXmbr f (s.assembled t i) t).act _ = _
    unfold semXmbr
    dsimp only
    rw [if_neg (by rw [show ((s.setTile t (s.tile t)).mb (.tile t) false).full = false from he]; exact Bool.false_ne_true),
      updTile_live (quiet_live hq)]
    rfl
  exact slot_sets hq (xmbr_alone (v := s) hrsv hc hn) rfl rfl hact (goes_of_same hq rfl (by simp [Tile.Timeless]) hflight) rfl rfl hflight
    (quiet_engIdle hq)

/-- A word for a register joins those that come at the next ACLK. -/
theorem flyS_receives {n k : Nat} {w : Nat → W64} {l : List Nat} (h : x.Live) :
    (s.setTile t (x.receives n w l)).flyS t 1 (n + k) (w k) = s.setTile t (x.receives n w (l ++ [k])) := by
  have hdue (p : Flight → Bool) : (l.map (fun k => (⟨x.aclk + 1, .s (n + k) (w k)⟩ : Flight))).foldl
      (fun d f => if p f then max d f.due else d) (x.aclk + 1) = x.aclk + 1 := by
    induction l with
    | nil => rfl
    | cons a l ih => rw [List.map_cons, List.foldl_cons, Nat.max_self, ite_self, ih]
  have hadd := addFlight_of_le (f := ⟨x.aclk + 1, .s (n + k) (w k)⟩)
    (l := l.map (fun k => (⟨x.aclk + 1, .s (n + k) (w k)⟩ : Flight))) (by simp [flightKey])
  unfold flyS fly
  rw [updTile_live (x := x.receives n w l) h]
  unfold Tile.receives Tile.fly
  dsimp only
  rw [hdue, ite_self, hadd, List.map_append]
  rfl

theorem flyS_all {n : Nat} {w : Nat → W64} (h : x.Live) (l l' : List Nat) :
    l'.foldl (fun a k => a.flyS t 1 (n + k) (w k)) (s.setTile t (x.receives n w l)) =
      s.setTile t (x.receives n w (l ++ l')) := by
  induction l' generalizing l with
  | nil => rw [List.append_nil]; rfl
  | cons k l' ih => rw [List.foldl_cons, flyS_receives h, ih, List.append_assoc]; rfl

/-- The words that come have landed at the next ACLK, in their order. -/
theorem landed_receives {n : Nat} {w : Nat → W64} {l : List Nat} (hf : x.flight = []) :
    (x.receives n w l).landed (x.aclk + 1) = l.foldl (fun y k => y.setS (n + k) (w k)) x := by
  have hx : ({ x with flight := [] } : Tile) = x := by rw [← hf]
  rw [Tile.landed_all fun f hf => ?due]
  case due =>
    obtain ⟨k, -, rfl⟩ := List.mem_map.mp hf
    exact Flight.dueBy_of_le (by simp) (Nat.le_refl _)
  show ({ x with flight := [] } : Tile).takes (l.map _) = _
  rw [hx, Tile.takes, List.foldl_map]
  rfl

/-- XMBR takes a message that waits (R168). -/
theorem slot_xmbr (hq : s.quiet t = true) {f : FmtXB} (hrsv : f.rsv = 0) (hc : f.cnt.toNat = 0) (hn : f.sn.toNat + 8 ≤ 64)
    (hfull : (s.mb (.tile t) false).full = true) (hpend : (s.mb (.tile t) false).pend = []) :
    s.slot ⟨t, false⟩ (.xmbr ⟨t, false⟩ f) = State.freshen ((s.ran t (fun y => (List.range 8).foldl (fun y k =>
      y.setS (f.sn.toNat + k) (s.msgWord (s.mb (.tile t) false).words k)) y)).setMb (.tile t) false
        { s.mb (.tile t) false with full := false }) := by
  obtain ⟨-, -, hwait, -, -, hflight, hloops, -⟩ := (quiet_iff s t).mp hq
  let i : Instr := .xmbr ⟨t, false⟩ f
  let m : Mbox := { s.mb (.tile t) false with full := false }
  let w : Nat → W64 := s.msgWord (s.mb (.tile t) false).words
  let y : Tile := (s.tile t).receives f.sn.toNat w (List.range 8)
  have hstart : (s.setTile t (s.tile t)).setMb (.tile t) false m =
      (s.setMb (.tile t) false m).setTile t ((s.tile t).receives f.sn.toNat w []) := by
    rw [show (s.tile t).receives f.sn.toNat w [] = s.tile t by rw [Tile.receives, List.map_nil, ← hflight]]
    rfl
  have htake : (s.setTile t (s.tile t)).takeTileMsg t f.sn.toNat =
      (((s.setTile t y).setMb (.tile t) false m).freshAt (s.fresh + 1)).fwNext (.tile t) := by
    show ((List.range 8).foldl (fun a k => a.flyS t 1 (f.sn.toNat + k) (w k))
      ((s.setTile t (s.tile t)).setMb (.tile t) false m)).freshen.fwNext (.tile t) = _
    rw [hstart, flyS_all (x := s.tile t) (quiet_live hq)]
    rfl
  have hnext : (((s.setTile t y).setMb (.tile t) false m).freshAt (s.fresh + 1)).fwNext (.tile t) =
      ((s.setTile t y).setMb (.tile t) false m).freshAt (s.fresh + 1) := by
    have hmb : ((((s.setTile t y).setMb (.tile t) false m).freshAt (s.fresh + 1)).mb (.tile t) false).pend = [] := by
      show (mget {} (mset {} _ _ m) _).pend = []
      rw [mget_mset, if_pos rfl]
      exact hpend
    rw [fwNext, hmb]
  have hact : (slotSem i (s.assembled t i) t).act (s.setTile t (s.tile t)) =
      ((s.setTile t y).setMb (.tile t) false m).freshAt (s.fresh + 1) := by
    show (semXmbr f (s.assembled t i) t).act _ = _
    unfold semXmbr
    dsimp only
    rw [if_pos (show ((s.setTile t (s.tile t)).mb (.tile t) false).full = true from hfull), htake, hnext]
  have hg : (s.tile t).Goes y 1 :=
    { passes :=
        { live := quiet_live hq, timeless := Tile.timeless_of_none hwait
          noneLate := .of_noProducts (by simp [y, Tile.receives, Land.isProducts])
          lands := by simp [y, Tile.LandsInRegisters, Tile.receives, Land.registers] } }
  rw [slot_mailbox (i := i) (y := y) hq (xmbr_alone (v := s) hrsv hc hn) rfl rfl hact hg hloops rfl (quiet_engIdle hq)]
  refine congrArg (fun v => (State.setMb v (.tile t) false m).freshAt (s.fresh + 1)) (ran_congr ?_)
  exact landed_receives hflight

/-- A far load of a quiet tile (R174). -/
theorem slot_xfld (hq : s.quiet t = true) {f : FmtXV} (hrsv : f.rsv = 0) (hmode : (s.tile t).mode = true)
    (hva : (s.tile t).sn f.sn.toNat % 256 = 0) :
    s.slot ⟨t, false⟩ (.xfld ⟨t, false⟩ f) = s.ran t (fun y =>
      { y with far := [(f.v.toNat, (s.tile t).sn f.sn.toNat, (s.part ((s.tileOwner t).getD 0)).epoch)] }) := by
  obtain ⟨-, -, hwait, -, -, hflight, hloops, hfar, -⟩ := (quiet_iff s t).mp hq
  let i : Instr := .xfld ⟨t, false⟩ f
  have hact : (slotSem i (s.assembled t i) t).act (s.setTile t (s.tile t)) = s.setTile t { s.tile t with
      far := [(f.v.toNat, (s.tile t).sn f.sn.toNat, (s.part ((s.tileOwner t).getD 0)).epoch)] } := by
    show (semXfld f (s.assembled t i) t).act _ = _
    unfold semXfld
    dsimp only
    rw [updTile_live (quiet_live hq), hfar, sn_slots]
    rfl
  have hm : (slotSem i (s.assembled t i) t).Alone := by
    refine .of_seq ?_ (Nat.le_refl 1) rfl
    show rsv (f.rsv != 0) ++ when_ (((s.assembled t i).tile t).sn f.sn.toNat % 256 != 0) 0x07 ++
      when_ (!((s.assembled t i).tile t).mode) 0x11 = []
    rw [hrsv, sn_slots, hva, show ((s.assembled t i).tile t).mode = true by rw [tile_assembled]; exact hmode]
    rfl
  exact slot_sets hq hm rfl rfl hact (goes_of_same hq rfl (Tile.timeless_of_none hwait) hflight) rfl rfl hflight (quiet_engIdle hq)

end State
open State

/-- Settles O16: each clause is the issue of its lone slot with what its effect leaves beside the tile. -/
theorem copyRequestsMailboxAndFarLoads : Obligations.CopyRequestsMailboxAndFarLoads := by
  unfold Obligations.CopyRequestsMailboxAndFarLoads
  intro s t hq
  refine ⟨fun f spill hrsv hn hlen hmax hk him hsram => ?copies, fun f hrsv => ⟨?_, ?_, ?_⟩, fun f hrsv hmode hva => ?_⟩
  case copies =>
    have h := slot_xcopy hq f spill hrsv hn rfl rfl hlen hmax hk him hsram
    refine ⟨(s.setTile t (s.tile t)).tileJob t spill _ _ _ _ _, ?_, rfl, rfl, rfl, rfl, rfl, rfl, rfl, rfl, rfl, rfl, rfl⟩
    cases spill with
    | true => exact congrArg Host.Outcome.next h
    | false => exact congrArg Host.Outcome.next h
  · exact fun h1 h8 hn => congrArg Host.Outcome.next (slot_xmbw hq hrsv h1 h8 hn)
  · exact fun hc hn hfull hpend => congrArg Host.Outcome.next (slot_xmbr hq hrsv hc hn hfull hpend)
  · exact fun hc hn he => congrArg Host.Outcome.next (slot_xmbr_wait hq hrsv hc hn he)
  · exact congrArg Host.Outcome.next (slot_xfld hq hrsv hmode hva)

end Sys2Proof.Machine
end

section
/-! PROOF. Messages and local moves of a quiet tile (R168, R175 to R177, R520; O14). -/

namespace Sys2Proof.Machine

variable {s u : State} {t : Nat} {x y : Tile}

/-! ### Ports whose work begins later -/

/-- In GCLK g a tile's ports have nothing to do: no store is due, no line is landing, and the fetches, messages and
moves that are to come begin after it (R152, R166, R176, R520). -/
structure Tile.PortsWait (x : Tile) (g : Nat) : Prop where
  stores : ∀ f ∈ x.flight, f.isMem = false
  landing : x.landing = []
  fetches : x.m0 = 0 ∧ x.m1 = 0 ∨ g < x.mNext
  messages : ∀ m ∈ x.injq, g < m.ready ∧ ∀ r, m.beatFrom = some r → g < r
  moves : ∀ m ∈ x.xmovs, g < m.ready ∧ m.buf = []

/-- A message none of whose lines is staged has no beat to leave before it is ready (R176). -/
theorem Msg.beatFrom_unstaged {m : Msg} (hl : m.lines = []) (hs : m.sent = 0) {r : Nat} (hr : m.beatFrom = some r) :
    r = m.ready := by
  unfold beatFrom at hr
  split at hr
  · exact (Option.some.inj hr).symm
  · have hfirst : 0 ∈ (List.range (m.beatHi m.sent + 1)).filter (m.beatLo m.sent ≤ ·) := by simp [beatLo, hs]
    have hneed : ((List.range (m.beatHi m.sent + 1)).filter (m.beatLo m.sent ≤ ·)).all
        (fun i => m.lines.any (fun l => l.1 == i)) = false := List.all_eq_false.mpr ⟨0, hfirst, by simp [hl]⟩
    dsimp only at hr
    rw [hneed] at hr
    simp at hr

/-- Results that reach registers alone end no wait. -/
theorem Tile.Passes.of_registers {n : Nat} (h : x.Live) (hw : x.waitFor = none)
    (hf : ∀ f ∈ x.flight, f.land.registers = true) : x.Passes n where
  live := h
  timeless := Tile.timeless_of_none hw
  noneLate := .of_noProducts fun f hm => Land.not_isProducts (hf f hm)
  lands f hm _ := hf f hm

/-- Increments of a tally that count in the next GCLK (R177, R520). -/
def Tile.counts (x : Tile) (ks : List Nat) : List Flight :=
  ks.map (fun k => ⟨2 * (x.aclk / 2 + 1), .tally k false none⟩)

/-- They come after the operations of the bundle of the next ACLK (R181). -/
theorem Tile.counts_not_dueBy {ks : List Nat} {f : Flight} (hf : f ∈ x.counts ks) : f.dueBy (x.aclk + 1) = false := by
  obtain ⟨k, -, rfl⟩ := List.mem_map.mp hf
  simp [Flight.dueBy, Flight.isTally]
  omega

theorem Tile.counts_registers {ks : List Nat} {f : Flight} (hf : f ∈ x.counts ks) : f.land.registers = true := by
  obtain ⟨k, -, rfl⟩ := List.mem_map.mp hf
  rfl

theorem Tile.counts_stores {ks : List Nat} {f : Flight} (hf : f ∈ x.counts ks) : f.isMem = false := by
  obtain ⟨k, -, rfl⟩ := List.mem_map.mp hf
  rfl

/-- The source tally that a message's word names (Table 6-8). -/
def sourceTally (w : Nat) : Option Nat := if w / 2 ^ 31 % 2 = 1 then some (w / 2 ^ 24 % 64) else none

/-- A message that a word sends, staged from the next GCLK on (R176). -/
def Tile.message (x : Tile) (vec : Bool) (src dst len w : Nat) (old : List Byte) : Msg :=
  { vec := vec, src := src, dstTile := w % 2 ^ 11, dst := dst, len := len, tally := w / 2 ^ 16 % 64, srct := sourceTally w
    old := old, sent := 0, ready := x.aclk / 2 + 1 }

/-- The record of a tile with a message queued and the increments `ks` to come. -/
def Tile.queues (x : Tile) (m : Msg) (ks : List Nat) : Tile :=
  { x with injq := [m], flight := x.counts ks }

/-- The record of a tile after an XMOV (R520): the move is pending from the next GCLK on; one of length 0 counts then. -/
def Tile.moves (x : Tile) (src dst len k : Nat) : Tile :=
  if len = 0 then { x with flight := x.counts [k] }
  else { x with xmovs := [{ src := src, dst := dst, len := len, tally := k, ready := x.aclk / 2 + 1 }] }

namespace State

/-- Where the ports have nothing to do in a GCLK, their clock goes on and nothing else. -/
theorem engGclk_waits {g : Nat} (hlive : (s.tile t).Live) (h : (s.tile t).PortsWait g) :
    s.engGclk t g = s.setTile t { s.tile t with eng := g + 1 } := by
  obtain ⟨hstores, hlanding, hfetches, hmessages, hmoves⟩ := h
  have hmem : s.landMem t (2 * g + 1) = s.setTile t (s.tile t) := by
    have hnone : (s.tile t).flight.filter (fun f => f.isMem && f.due ≤ 2 * g + 1) = [] :=
      List.filter_eq_nil_iff.mpr fun f hf => by simp [hstores f hf]
    have hall : (s.tile t).flight.filter (fun f => !(f.isMem && f.due ≤ 2 * g + 1)) = (s.tile t).flight :=
      List.filter_eq_self.mpr fun f hf => by simp [hstores f hf]
    unfold landMem landIf
    dsimp only
    rw [hnone, hall]
    rfl
  have htile : (s.setTile t (s.tile t)).tile t = s.tile t := by rw [tile_setTile, if_pos rfl]
  have hfetch : (((s.tile t).m0 != 0 || (s.tile t).m1 != 0) && decide ((s.tile t).mNext ≤ g)) = false := by
    rcases hfetches with ⟨h0, h1⟩ | hnext
    · simp [h0, h1]
    · simp [Nat.not_le.mpr hnext]
  have hline : (s.tile t).nextLine g = none := by rw [Tile.nextLine, hlanding]; rfl
  have hstage : (s.tile t).injq.findIdx? (fun m => m.stages g) = none := by
    rw [List.findIdx?_eq_none_iff]
    exact fun m hm => by simp [Msg.stages, Nat.not_le.mpr (hmessages m hm).1]
  have hread : (s.setTile t (s.tile t)).xmovRead t g = s.setTile t (s.tile t) := by
    unfold xmovRead
    rw [htile]
    split
    next m ms hm => rw [if_neg (by simp [Nat.not_le.mpr (hmoves m (hm ▸ List.mem_cons_self)).1])]
    next => rfl
  have hwrite : (s.setTile t (s.tile t)).xmovWrite t g = s.setTile t (s.tile t) := by
    unfold xmovWrite
    rw [htile]
    split
    next m ms hm => rw [(hmoves m (hm ▸ List.mem_cons_self)).2]
    next => rfl
  have hbeat : (s.setTile t (s.tile t)).exactBeat t g = s.setTile t (s.tile t) := by
    unfold exactBeat
    rw [htile]
    split
    next r d hr hd =>
      obtain ⟨m, hm, hbf⟩ := Option.bind_eq_some_iff.mp hr
      rw [if_neg (Nat.not_le.mpr ((hmessages m (List.mem_of_head? hm)).2 r hbf))]
    next => rfl
  unfold engGclk
  dsimp only
  rw [hmem, htile, hline, ite_self]
  dsimp only
  rw [hfetch, if_neg Bool.false_ne_true, htile, hstage]
  dsimp only
  rw [hread, ite_self, hwrite, ite_self, hbeat, updTile_live hlive]

/-- Such ports rest in the ACLK that follows a bundle. -/
theorem portsRest_waits (hlive : (s.tile t).Live) (heng : (s.tile t).eng = (s.tile t).aclk / 2)
    (h : (s.tile t).PortsWait (s.tile t).eng) : s.PortsRest t 1 := by
  unfold PortsRest
  dsimp only
  by_cases h1 : ((s.tile t).aclk + 1) / 2 - (s.tile t).eng = 0
  · rw [h1]
    exact ⟨fun _ => rfl, by rw [show ((s.tile t).aclk + 1) / 2 = (s.tile t).eng by omega]; rfl⟩
  · have hn : ((s.tile t).aclk + 1) / 2 = (s.tile t).eng + 1 := by omega
    have hstep : s.engTo t 1 = s.setTile t { s.tile t with eng := (s.tile t).eng + 1 } := by
      unfold engTo
      split
      · rfl
      · rw [engGclk_waits hlive h]
        rfl
    rw [hn, Nat.add_sub_cancel_left, hstep]
    exact ⟨fun y => setTile_setTile_live hlive, by rw [tile_setTile, if_pos rfl]⟩

/-- The issue of a lone slot that gives its tile's ports work from the next GCLK on; `n` is the free-value number it leaves. -/
theorem slot_begins_at (hq : s.quiet t = true) {i : Instr} {g : Tile → Tile} (n : Nat) (hm : (slotSem i (s.assembled t i) t).Alone)
    (huses : (slotSem i (s.assembled t i) t).uses = []) (hctl : (slotSem i (s.assembled t i) t).ctl = .seq)
    (hact : (slotSem i (s.assembled t i) t).act (s.setTile t (s.tile t)) = (s.setTile t (g (s.tile t))).freshAt n)
    (hg : (s.tile t).Goes (g (s.tile t)) 1) (hloops : (g (s.tile t)).loops = (s.tile t).loops)
    (hpc : (g (s.tile t)).pc = (s.tile t).pc) (hlater : ∀ f ∈ (g (s.tile t)).flight, f.dueBy ((s.tile t).aclk + 1) = false)
    (hw : (g (s.tile t)).PortsWait ((s.tile t).aclk / 2)) : s.slot ⟨t, false⟩ i = (s.ran t g).freshAt n := by
  obtain ⟨-, -, -, -, -, -, -, -, -, -, -, -, -, -, -, -, -, heng, -⟩ := (quiet_iff s t).mp hq
  have htile : (((s.setTile t (g (s.tile t))).freshAt n).led t [] ((s.tile t).pc + 1)).tile t =
      { g (s.tile t) with loops := [], pc := (s.tile t).pc + 1 } := by
    rw [tile_led, show ((s.setTile t (g (s.tile t))).freshAt n).tile t = g (s.tile t) from (tile_setTile ..).trans (if_pos rfl)]
  obtain ⟨hstores, hlanding, hfetches, hmessages, hmoves⟩ := hw
  refine slot_effect (g := g) hq n hm huses hctl hact hg hloops hpc hlater (portsRest_waits (by rw [htile]; exact hg.passes.live) ?_ ?_)
  · rw [htile]
    show (g (s.tile t)).eng = (g (s.tile t)).aclk / 2
    rw [hg.eng, hg.aclk, heng]
  · rw [htile]
    show Tile.PortsWait _ (g (s.tile t)).eng
    rw [hg.eng, heng]
    exact ⟨hstores, hlanding, hfetches, hmessages, hmoves⟩

/-- The same for an effect that takes no free value. -/
theorem slot_begins (hq : s.quiet t = true) {i : Instr} {g : Tile → Tile} (hm : (slotSem i (s.assembled t i) t).Alone)
    (huses : (slotSem i (s.assembled t i) t).uses = []) (hctl : (slotSem i (s.assembled t i) t).ctl = .seq)
    (hact : (slotSem i (s.assembled t i) t).act (s.setTile t (s.tile t)) = s.setTile t (g (s.tile t)))
    (hg : (s.tile t).Goes (g (s.tile t)) 1) (hloops : (g (s.tile t)).loops = (s.tile t).loops)
    (hpc : (g (s.tile t)).pc = (s.tile t).pc) (hlater : ∀ f ∈ (g (s.tile t)).flight, f.dueBy ((s.tile t).aclk + 1) = false)
    (hw : (g (s.tile t)).PortsWait ((s.tile t).aclk / 2)) : s.slot ⟨t, false⟩ i = s.ran t g :=
  (slot_begins_at (g := g) hq s.fresh hm huses hctl (hact.trans freshAt_setTile.symm) hg hloops hpc hlater hw).trans freshAt_ranTo

/-! ### Messages -/

theorem steadyPath_setTile (dst n at_ : Nat) : (s.setTile t y).steadyPath t dst n at_ = s.steadyPath t dst n at_ := by
  induction n generalizing at_ with
  | zero => rfl
  | succ n ih =>
    unfold steadyPath
    split
    · rfl
    · split
      · rw [ih]; rfl
      · rfl

/-- A message's word that tile `t` may send: its reserved bits are 0, its tallies exist, and it names another tile of the
launch group, in Steady mode along links of the group (Table 6-8, R176, R183). -/
def wordOk (s : State) (t w : Nat) : Prop :=
  w / 2 ^ 11 % 32 = 0 ∧ w / 2 ^ 16 % 64 ≤ 47 ∧ w / 2 ^ 22 % 4 = 0 ∧ w / 2 ^ 30 % 2 = 0 ∧
    (w / 2 ^ 31 % 2 = 1 → w / 2 ^ 24 % 64 ≤ 47) ∧ w % 2 ^ 11 ≠ t ∧ s.sameGroup t (w % 2 ^ 11) = true ∧
    ((s.tile t).mode = true → s.steadyPath t (w % 2 ^ 11) 80 t = true)

/-- Such a word meets no trap. -/
theorem msgBad_wordOk (i : Instr) {w len : Nat} (h : s.wordOk t w) (h1 : 1 ≤ len) (h2 : len ≤ 65536) :
    (s.assembled t i).msgBad t w len = [] := by
  obtain ⟨h11, h16, h22, h30, h24, hself, hgroup, hpath⟩ := h
  have hmode : ((s.assembled t i).tile t).mode = (s.tile t).mode := by rw [tile_assembled]
  have hroute : ((s.tile t).mode && !s.steadyPath t (w % 2 ^ 11) 80 t) = false := by
    cases hm : (s.tile t).mode with
    | false => rfl
    | true => rw [hpath hm]; rfl
  have hsrct : (bitsAt w 31 1 == 1 && decide (47 < bitsAt w 24 6)) = false := by
    cases hb : bitsAt w 31 1 == 1 with
    | false => rfl
    | true => exact decide_eq_false (Nat.not_lt.mpr (h24 (beq_iff_eq.mp hb)))
  have hlen : (decide (len = 0) || decide (65536 < len)) = false := by simp; omega
  unfold msgBad
  dsimp only
  rw [hsrct, hlen, hmode, bitsAt_low, assembled, steadyPath_setTile, hroute, show bitsAt w 22 2 = 0 from h22,
    show bitsAt w 11 5 = 0 from h11, show bitsAt w 30 1 = 0 from h30, show decide (47 < bitsAt w 16 6) = false from decide_eq_false (Nat.not_lt.mpr h16),
    show (s.setTile t _).sameGroup t (w % 2 ^ 11) = true from hgroup, beq_false_of_ne hself]
  rfl

/-- A message joins an empty queue; the source tally of a register's message counts in the next GCLK (R176, R177). -/
theorem queueMsg_setTile (h : x.Live) (hi : x.injq = []) (hf : x.flight = []) (vec : Bool) (src dst len w : Nat) (old : List Byte) :
    (s.setTile t x).queueMsg t vec src dst len w old =
      s.setTile t (x.queues (x.message vec src dst len w old) (if vec then (sourceTally w).toList else [])) := by
  have hb : (bitsAt w 31 1 == 1) = decide (w / 2 ^ 31 % 2 = 1) := rfl
  unfold queueMsg
  dsimp only
  rw [updTile_live h, hi, hb, bitsAt_low]
  unfold Tile.queues Tile.message Tile.counts sourceTally
  by_cases hw : w / 2 ^ 31 % 2 = 1
  · cases vec with
    | true =>
      simp only [hw, decide_true, Bool.and_self, if_true, Tile.fly, hf]
      rfl
    | false =>
      simp only [hw, decide_true, Bool.and_false, if_true, if_false, hf, Bool.false_eq_true]
      rfl
  · cases vec with
    | true =>
      simp only [hw, decide_false, if_false, Bool.false_and, hf, Bool.false_eq_true, if_true]
      rfl
    | false =>
      simp only [hw, decide_false, Bool.and_false, if_false, hf, Bool.false_eq_true]
      rfl

/-- The issue of a message of a quiet tile. -/
theorem slot_message (hq : s.quiet t = true) {i : Instr} {vec : Bool} {src dst len w : Nat} {old : List Byte}
    (hc : (slotSem i (s.assembled t i) t).causes = []) (hd : (slotSem i (s.assembled t i) t).dest = [])
    (huses : (slotSem i (s.assembled t i) t).uses = []) (hctl : (slotSem i (s.assembled t i) t).ctl = .seq)
    (hact : ∀ v, (slotSem i (s.assembled t i) t).act v = v.queueMsg t vec src dst len w old) :
    s.slot ⟨t, false⟩ i = s.ran t (fun x => x.queues (x.message vec src dst len w old) (if vec then (sourceTally w).toList else [])) := by
  obtain ⟨-, -, hwait, -, -, hflight, hloops, -, hinjq, hlanding, hxmovs, -, -, -, -, -, -, -, hm0, hm1, -⟩ := (quiet_iff s t).mp hq
  let m : Msg := (s.tile t).message vec src dst len w old
  let ks : List Nat := if vec then (sourceTally w).toList else []
  have hg : (s.tile t).Goes ((s.tile t).queues m ks) 1 :=
    { passes := .of_registers (quiet_live hq) hwait fun f hf => Tile.counts_registers hf }
  refine slot_begins (g := fun x => x.queues (x.message vec src dst len w old) ks) hq
    (.of_seq hc (by rw [hd]; exact Nat.zero_le 1) hctl) huses hctl
    ((hact _).trans (queueMsg_setTile (quiet_live hq) hinjq hflight vec src dst len w old)) hg rfl rfl
    (fun f hf => Tile.counts_not_dueBy hf) ?_
  exact {
    stores := fun f hf => Tile.counts_stores hf
    landing := hlanding
    fetches := .inl ⟨hm0, hm1⟩
    messages := fun m' hm' => by
      obtain rfl := List.mem_singleton.mp hm'
      have hready : (s.tile t).aclk / 2 < m.ready := Nat.lt_succ_self _
      exact ⟨hready, fun r hr => (Msg.beatFrom_unstaged rfl rfl hr) ▸ hready⟩
    moves := fun m' hm' => absurd (hxmovs ▸ hm') List.not_mem_nil }

/-- A range inside tile SRAM (R152). -/
theorem inTile_of_le {a n : Nat} (h : a + n ≤ 0x800000) : inTile a n = true := by simp [inTile, h]

/-- XMSG (R168, R176). -/
theorem slot_xmsg (hq : s.quiet t = true) {f : FmtXD} (hrsv : f.rsv = 0) (hn : f.sn.toNat ≤ 60) (hx : s.tile t = x)
    (hw : s.wordOk t (x.sn (f.sn.toNat + 3))) (h1 : 1 ≤ x.sn (f.sn.toNat + 2)) (h2 : x.sn (f.sn.toNat + 2) ≤ 65536)
    (hsrc : x.sn f.sn.toNat + x.sn (f.sn.toNat + 2) ≤ 0x800000) (hdst : x.sn (f.sn.toNat + 1) + x.sn (f.sn.toNat + 2) ≤ 0x800000) :
    s.slot ⟨t, false⟩ (.xmsg ⟨t, false⟩ f) = s.ran t (fun y =>
      { y with injq := [x.message false (x.sn f.sn.toNat) (x.sn (f.sn.toNat + 1)) (x.sn (f.sn.toNat + 2)) (x.sn (f.sn.toNat + 3))
        (s.sram t (x.sn f.sn.toNat) (x.sn (f.sn.toNat + 2)))] }) := by
  subst hx
  let i : Instr := .xmsg ⟨t, false⟩ f
  have hc : (semXmsg f (s.assembled t i) t).causes = [] := by
    unfold semXmsg
    simp only [sn_slots]
    rw [hrsv, if_neg (Nat.not_lt.mpr hn), msgBad_wordOk i hw h1 h2, inTile_of_le hsrc, inTile_of_le hdst]
    rfl
  refine (slot_message (i := i) (vec := false) (src := (s.tile t).sn f.sn.toNat) (dst := (s.tile t).sn (f.sn.toNat + 1))
    (len := (s.tile t).sn (f.sn.toNat + 2)) (w := (s.tile t).sn (f.sn.toNat + 3))
    (old := s.sram t ((s.tile t).sn f.sn.toNat) ((s.tile t).sn (f.sn.toNat + 2))) hq hc rfl rfl rfl fun v => ?_).trans (ran_congr ?_)
  · show (semXmsg f (s.assembled t i) t).act v = _
    unfold semXmsg
    simp only [sn_slots, sram, peek_slots]
  · show (s.tile t).queues _ [] = _
    unfold Tile.queues Tile.counts
    rw [List.map_nil, ← quiet_flight hq]

/-- XMSGV (R168, R176, R177). -/
theorem slot_xmsgv (hq : s.quiet t = true) {f : FmtXV} (hrsv : f.rsv = 0) (hn : f.sn.toNat ≤ 62) (hx : s.tile t = x)
    (hw : s.wordOk t (x.sn (f.sn.toNat + 1))) (hdst : x.sn f.sn.toNat + 256 ≤ 0x800000) (ha : x.sn f.sn.toNat % 256 = 0) :
    s.slot ⟨t, false⟩ (.xmsgv ⟨t, false⟩ f) = s.ran t (fun y => y.queues
      (y.message true 0 (x.sn f.sn.toNat) 256 (x.sn (f.sn.toNat + 1)) (vecBytes (x.vreg f.v.toNat)))
      (sourceTally (x.sn (f.sn.toNat + 1))).toList) := by
  subst hx
  let i : Instr := .xmsgv ⟨t, false⟩ f
  have hc : (semXmsgv f (s.assembled t i) t).causes = [] := by
    unfold semXmsgv
    simp only [sn_slots]
    rw [hrsv, if_neg (Nat.not_lt.mpr hn), msgBad_wordOk i hw (by omega) (by omega), inTile_of_le hdst, ha]
    rfl
  refine slot_message (i := i) (vec := true) hq hc rfl rfl rfl fun v => ?_
  show (semXmsgv f (s.assembled t i) t).act v = _
  unfold semXmsgv
  simp only [sn_slots, vreg_slots]

/-! ### Local moves -/

/-- XMOV (R168, R520). -/
theorem slot_xmov (hq : s.quiet t = true) {f : FmtXD} (hrsv : f.rsv = 0) (hn : f.sn.toNat ≤ 60) (hx : s.tile t = x)
    (hsa : x.sn f.sn.toNat % 256 = 0) (hda : x.sn (f.sn.toNat + 1) % 256 = 0) (hla : x.sn (f.sn.toNat + 2) % 256 = 0)
    (hsrc : x.sn f.sn.toNat + x.sn (f.sn.toNat + 2) ≤ 0x800000) (hdst : x.sn (f.sn.toNat + 1) + x.sn (f.sn.toNat + 2) ≤ 0x800000)
    (hk : x.sn (f.sn.toNat + 3) % 64 ≤ 47) :
    s.slot ⟨t, false⟩ (.xmov ⟨t, false⟩ f) = s.ran t (fun y =>
      y.moves (x.sn f.sn.toNat) (x.sn (f.sn.toNat + 1)) (x.sn (f.sn.toNat + 2)) (x.sn (f.sn.toNat + 3) % 64)) := by
  subst hx
  obtain ⟨-, -, hwait, -, -, hflight, hloops, -, hinjq, hlanding, hxmovs, -, -, -, -, -, -, -, hm0, hm1, -⟩ := (quiet_iff s t).mp hq
  let i : Instr := .xmov ⟨t, false⟩ f
  let move (y : Tile) : Tile := y.moves ((s.tile t).sn f.sn.toNat) ((s.tile t).sn (f.sn.toNat + 1)) ((s.tile t).sn (f.sn.toNat + 2))
    ((s.tile t).sn (f.sn.toNat + 3) % 64)
  have hc : (semXmov f (s.assembled t i) t).causes = [] := by
    unfold semXmov
    simp only [sn_slots]
    rw [hrsv, if_neg (Nat.not_lt.mpr hn), bitsAt_low, inTile_of_le hsrc, inTile_of_le hdst, hsa, hda, hla,
      show decide (47 < (s.tile t).sn (f.sn.toNat + 3) % 2 ^ 6) = false from decide_eq_false (Nat.not_lt.mpr hk)]
    rfl
  have hact : (slotSem i (s.assembled t i) t).act (s.setTile t (s.tile t)) = s.setTile t (move (s.tile t)) := by
    show (semXmov f (s.assembled t i) t).act _ = _
    unfold semXmov
    simp only [sn_slots, bitsAt_low]
    rw [updTile_live (quiet_live hq), hxmovs]
    refine congrArg (s.setTile t) ?_
    unfold move Tile.moves
    by_cases h0 : (s.tile t).sn (f.sn.toNat + 2) = 0
    · simp only [h0, decide_true, List.isEmpty_nil, Bool.and_self, if_true, Tile.fly, hflight]
      rfl
    · simp only [h0, decide_false, Bool.false_and, if_false, Bool.false_eq_true]
      rfl
  have hm : (slotSem i (s.assembled t i) t).Alone := .of_seq hc (Nat.zero_le 1) rfl
  by_cases h0 : (s.tile t).sn (f.sn.toNat + 2) = 0
  · have hmove (y : Tile) : move y = { y with flight := y.counts [(s.tile t).sn (f.sn.toNat + 3) % 64] } := if_pos h0
    refine slot_begins (g := move) hq hm rfl rfl hact ?_ ?_ ?_ ?_ ?_
    · rw [hmove]
      exact { passes := .of_registers (quiet_live hq) hwait fun f hf => Tile.counts_registers hf }
    · rw [hmove]
    · rw [hmove]
    · rw [hmove]
      exact fun f hf => Tile.counts_not_dueBy hf
    · rw [hmove]
      exact {
        stores := fun f hf => Tile.counts_stores hf
        landing := hlanding
        fetches := .inl ⟨hm0, hm1⟩
        messages := fun m' hm' => absurd (hinjq ▸ hm') List.not_mem_nil
        moves := fun m' hm' => absurd (hxmovs ▸ hm') List.not_mem_nil }
  · have hmove (y : Tile) : move y = { y with xmovs := [{
        src := (s.tile t).sn f.sn.toNat, dst := (s.tile t).sn (f.sn.toNat + 1), len := (s.tile t).sn (f.sn.toNat + 2)
        tally := (s.tile t).sn (f.sn.toNat + 3) % 64, ready := y.aclk / 2 + 1 }] } := if_neg h0
    refine slot_begins (g := move) hq hm rfl rfl hact ?_ ?_ ?_ ?_ ?_
    · rw [hmove]
      exact goes_of_same hq rfl (Tile.timeless_of_none hwait) hflight
    · rw [hmove]
    · rw [hmove]
    · rw [hmove]
      exact fun f hf => absurd (hflight ▸ hf) List.not_mem_nil
    · rw [hmove]
      exact {
        stores := fun f hf => absurd (hflight ▸ hf) List.not_mem_nil
        landing := hlanding
        fetches := .inl ⟨hm0, hm1⟩
        messages := fun m' hm' => absurd (hinjq ▸ hm') List.not_mem_nil
        moves := fun m' hm' => by
          obtain rfl := List.mem_singleton.mp hm'
          exact ⟨Nat.lt_succ_self _, rfl⟩ }

end State
open State

/-- Settles O14: each clause is the issue of its lone slot, whose ports begin their work in the next GCLK. -/
theorem messagesAndMoves : Obligations.MessagesAndMoves := by
  unfold Obligations.MessagesAndMoves
  intro s t hq
  refine ⟨fun f hrsv hn => ⟨fun hw h1 h2 hsrc hdst => ?_, fun hsa hda hla hsrc hdst hk => ?_⟩, fun f hrsv hn hw hdst ha => ?_⟩
  · exact congrArg Host.Outcome.next (slot_xmsg hq hrsv hn rfl hw h1 h2 hsrc hdst)
  · exact congrArg Host.Outcome.next (slot_xmov hq hrsv hn rfl hsa hda hla hsrc hdst hk)
  · exact congrArg Host.Outcome.next (slot_xmsgv hq hrsv hn rfl hw hdst ha)

end Sys2Proof.Machine
end

section
/-! PROOF. How the waits of a tile end (R156, R157, R169, R181, R188 to R190, R197, R520; O17). -/

namespace Sys2Proof.Machine

variable {s u : State} {t : Nat} {x y : Tile}

/-- What the end of a wait on tally `k` for operand `op` makes of a tile's record (R181, R188). -/
def Tile.released (x : Tile) (k op : Nat) (marked : Bool) : Tile :=
  let z := x.setTally k (BitVec.ofNat 32 ((x.tally k).toNat - op))
  { (if marked then z.setFlag else z) with marks := merase x.marks k, waitFor := none, waitExt := false }

/-- The flags of the tile are set where the tally is marked; the other parts of the record do not ask. -/
theorem Tile.released_eq (k op : Nat) (marked : Bool) : x.released k op marked = { x with
    tallies := mset 0 x.tallies k (BitVec.ofNat 32 ((x.tally k).toNat - op)), marks := merase x.marks k
    flag := if marked then true else x.flag, soiled := if marked then true else x.soiled, waitFor := none, waitExt := false } := by
  unfold released
  cases marked with
  | true => rfl
  | false => rfl

theorem Tile.live_of_wait {w : Wait} (h : x.waitFor = some w) : x.Live := .inr (by simp [h])

/-- A tile whose ports have nothing to do but a move (R520). -/
structure Tile.OnlyMove (x : Tile) (m : XMov) : Prop where
  live : x.Live
  flight : x.flight = []
  m0 : x.m0 = 0
  m1 : x.m1 = 0
  injq : x.injq = []
  landing : x.landing = []
  xmovs : x.xmovs = [m]
  rp1 : x.rp1 = []
  wp : x.wp = []

/-- What the end of a wave's generation in GCLK `g` makes of a member's record (R189, R190). -/
structure Tile.GoesOn (x y : Tile) (g : Nat) : Prop where
  waitFor : y.waitFor = none
  pc : y.pc = x.pc
  soiled : y.soiled = false
  aclk : y.aclk = max x.aclk (2 * (g - x.lag))

namespace State

/-- The state with its counters and its test records replaced. -/
def aside (s : State) (c : SMap W64) (p : Test) : State := { s with cnts := c, test := p }

theorem aside_setTile {c : SMap W64} {p : Test} : (s.aside c p).setTile t x = (s.setTile t x).aside c p := rfl
theorem tile_aside {c : SMap W64} {p : Test} {k : Nat} : (s.aside c p).tile k = s.tile k := rfl

/-- The end of a test segment changes the test records and a counter alone (R489). -/
theorem abandonTest_frame (s : State) (t : Nat) : ∃ c p, s.abandonTest t = s.aside c p := by
  unfold abandonTest
  split
  · exact ⟨_, _, rfl⟩
  · exact ⟨_, _, rfl⟩

theorem counted_aside (s : State) (t n : Nat) (ext : Bool) (c : SMap W64) (p : Test) :
    ∃ c', (s.aside c p).counted t n ext = s.aside c' p := by
  obtain ⟨c', h⟩ := counted_frame (s.aside c p) t n ext
  exact ⟨c', h⟩

/-! ### Waits on tallies -/

/-- The end of a wait on a tally by which everything in flight has landed in the tile's registers. -/
theorem endTallyWait_resting {n : Nat} (hx : s.tile t = x) (hl : x.Lasts n) (hi : x.engIdle = true)
    (hend : ∀ f ∈ x.flight, f.dueBy (x.aclk + n) = true) (k op : Nat) (marked : Bool) :
    ∃ e r0 r1 w c p, s.endTallyWait t k n op marked =
      let y := ({ x with waitExt := decide (48 ≤ k) || marked }.aged n e r0 r1 w).landed (x.aclk + n)
      (s.setTile t (Tile.released { y with
        waited := y.waited + n
        extwait := if decide (48 ≤ k) || marked then y.extwait + BitVec.ofNat 64 n else y.extwait } k op marked)).aside c p := by
  subst hx
  let ext := decide (48 ≤ k) || marked
  let v : Tile := { s.tile t with waitExt := ext }
  have hlive : v.Live := hl.live
  obtain ⟨c, p, habandon⟩ := abandonTest_frame (s.setTile t v) t
  have htile : ((s.setTile t v).abandonTest t).tile t = v := by rw [habandon, tile_aside, tile_setTile, if_pos rfl]
  obtain ⟨e, r0, r1, w, q, hhold, rfl⟩ := hold_resting (x := v) (n := n) htile ⟨hl.live, hl.noneLate, hl.lands⟩ hi
  let y : Tile := (v.aged n e r0 r1 w).landed (v.aclk + n)
  let z : Tile := { y with waited := y.waited + n, extwait := if ext then y.extwait + BitVec.ofNat 64 n else y.extwait }
  have hz : z.Live := Tile.landed_live (x := v.aged n e r0 r1 w) hlive _
  have hflight : z.flight = [] := by
    show (Tile.landed _ _).flight = []
    rw [Tile.landed_eq]
    refine List.filter_eq_nil_iff.mpr fun f hf => ?_
    rw [show f.dueBy (v.aclk + n) = true from hend f hf]
    exact Bool.false_ne_true
  obtain ⟨c', hcount⟩ := counted_aside (s.setTile t z) t n ext c p
  have hwait : ((s.setTile t v).abandonTest t).hold t n = (s.setTile t z).aside c' p := by
    rw [hhold]
    show State.counted (State.setTile _ t z) t n ext = _
    rw [habandon, aside_setTile, setTile_setTile_live hlive, hcount]
  have hread : ((s.setTile t z).aside c' p).tile t = z := by rw [tile_aside, tile_setTile, if_pos rfl]
  have hland : ((s.setTile t z).aside c' p).landTallies t ((s.tile t).aclk + n) = (s.setTile t z).aside c' p := by
    rw [landTallies, landIf_none _ _ _ (by rw [hread]; exact hflight), hread, aside_setTile, setTile_setTile_live hz]
  refine ⟨e, r0, r1, w, c', p, ?_⟩
  show ((((s.setTile t v).abandonTest t).hold t n).landTallies t ((s.tile t).aclk + n)).updTile t (·.released k op marked) = _
  rw [hwait, hland, updTile, hread, aside_setTile, setTile_setTile_live hz]

/-- TALLY_WAIT_RELEASE of a tally that satisfies the wait already (R169, R181, R188). -/
theorem tallyWaitRelease_now {k n : Nat} {e : Bool} (hx : s.tile t = x) (hw : x.waitFor = some (.tally k n e))
    (hedges : s.tileEdges t = true) (hstill : x.still = true) (hn : n ≤ (x.tally k).toNat) :
    let ext : Bool := 48 ≤ k || mget false x.marks k
    let m := if x.aclk % 2 = 0 then 1 else 2
    ∃ u, exec (.tallyWaitRelease t) s = .next u ∧ (u.tile t).waitFor = none ∧ (u.tile t).pc = x.pc ∧
      (u.tile t).run = x.run ∧ ((u.tile t).tally k).toNat = (x.tally k).toNat - n ∧
      (∀ j, j ≠ k → (u.tile t).tally j = x.tally j) ∧ (u.tile t).aclk = x.aclk + m ∧
      (u.tile t).cycle = x.cycle + BitVec.ofNat 64 m ∧ mget false (u.tile t).marks k = false ∧
      (u.tile t).extwait = (if ext then x.extwait + BitVec.ofNat 64 m else x.extwait) ∧ u.mem = s.mem ∧ u.regs = s.regs := by
  simp only [Tile.still, Bool.and_eq_true, List.isEmpty_iff] at hstill
  obtain ⟨hflight, hidle⟩ := hstill
  intro ext m
  have hlasts : x.Lasts m := .of_later (Tile.live_of_wait hw) (by simp [hflight]) (by simp [hflight])
  obtain ⟨e, r0, r1, w, c, p, h⟩ := endTallyWait_resting hx hlasts hidle (by simp [hflight]) k n (mget false x.marks k)
  have hexec : exec (.tallyWaitRelease t) s = .next (s.endTallyWait t k m n (mget false x.marks k)) := by
    show execTallyWaitRelease t s = _
    unfold execTallyWaitRelease
    rw [hx, hw]
    dsimp only
    rw [hedges, if_neg (by decide), if_pos hn, hflight, List.any_nil, Bool.or_false]
    rfl
  refine ⟨_, hexec, ?_⟩
  rw [h, tile_aside, tile_setTile, if_pos rfl, Tile.released_eq, Tile.landed_nil (by exact hflight)]
  refine ⟨rfl, rfl, rfl, ?_, fun j hj => ?_, rfl, rfl, ?_, rfl, rfl, rfl⟩
  · show (mget 0 (mset 0 x.tallies k (BitVec.ofNat 32 ((x.tally k).toNat - n))) k).toNat = _
    rw [mget_mset, if_pos rfl, BitVec.toNat_ofNat, Nat.mod_eq_of_lt]
    have := (x.tally k).isLt
    omega
  · show mget 0 (mset 0 x.tallies k _) j = _
    rw [mget_mset, if_neg hj]
    rfl
  · show mget false (merase x.marks k) k = false
    rw [mget_merase, if_pos rfl]

/-- TALLY_WAIT_RELEASE by the increment that is in flight (R181). -/
theorem tallyWaitRelease_due {k n d : Nat} (hx : s.tile t = x) (hw : x.waitFor = some (.tally k n false))
    (hedges : s.tileEdges t = true) (hidle : x.engIdle = true) (hn : (x.tally k).toNat + 1 = n) (hlt : n < 2 ^ 32)
    (hd : x.aclk ≤ d) (hflight : x.flight = [{ due := d, land := .tally k false none }]) :
    ∃ u, exec (.tallyWaitRelease t) s = .next u ∧ (u.tile t).waitFor = none ∧ (u.tile t).pc = x.pc ∧
      (u.tile t).flight = [] ∧ (u.tile t).tally k = 0 ∧ (u.tile t).aclk = d + 1 ∧ u.mem = s.mem := by
  have ha : x.aclk + (d + 1 - x.aclk) = d + 1 := by omega
  have hdue (f : Flight) (hf : f ∈ x.flight) : f.dueBy (x.aclk + (d + 1 - x.aclk)) = true := by
    rw [hflight] at hf
    obtain rfl := List.mem_singleton.mp hf
    simp [Flight.dueBy, Flight.isTally]
    omega
  have hlasts : x.Lasts (d + 1 - x.aclk) :=
    { live := Tile.live_of_wait hw
      noneLate := .of_noProducts (by simp [hflight, Land.isProducts])
      lands := by simp [Tile.LandsInRegisters, hflight, Land.registers] }
  obtain ⟨e, r0, r1, w, c, p, h⟩ := endTallyWait_resting hx hlasts hidle hdue k n (mget false x.marks k)
  have hdueAt : x.tallyDue k n = some d := by
    rw [Tile.tallyDue, hflight]
    simp [Tile.tallyDue.go, hn]
  have hexec : exec (.tallyWaitRelease t) s = .next (s.endTallyWait t k (d + 1 - x.aclk) n (mget false x.marks k)) := by
    show execTallyWaitRelease t s = _
    unfold execTallyWaitRelease
    rw [hx, hw]
    dsimp only
    rw [hedges, if_neg (by decide), if_neg (by omega), hdueAt]
    dsimp only
    rw [if_neg (Nat.not_lt.mpr hd), hflight]
    simp
  refine ⟨_, hexec, ?_⟩
  have hland (v : Tile) (hv : v.flight = x.flight) (a : Nat) (hall : ∀ f ∈ x.flight, f.dueBy a = true) :
      v.landed a = { v with flight := [] }.incTally k := by
    rw [Tile.landed_all (by rw [hv]; exact hall), hv, hflight]
    rfl
  rw [h, tile_aside, tile_setTile, if_pos rfl, Tile.released_eq,
    hland (({ x with waitExt := decide (48 ≤ k) || mget false x.marks k } : Tile).aged (d + 1 - x.aclk) e r0 r1 w) rfl _ hdue]
  refine ⟨rfl, rfl, rfl, ?_, ha, rfl⟩
  show mget 0 (mset 0 (mset 0 x.tallies k _) k (BitVec.ofNat 32 ((mget 0 (mset 0 x.tallies k
    (BitVec.ofNat 32 (min ((x.tally k).toNat + 1) 0xFFFFFFFF))) k).toNat - n))) k = 0
  rw [mget_mset, if_pos rfl, mget_mset, if_pos rfl, BitVec.toNat_ofNat, hn]
  rw [Nat.min_eq_left (by omega), Nat.mod_eq_of_lt hlt, Nat.sub_self]
  rfl

/-! ### The other waits of one tile -/

/-- WAITT_RELEASE (R157). -/
theorem waittRelease_spec {v : W64} (hx : s.tile t = x) (hw : x.waitFor = some (.time v)) (hv : v.toNat ≤ s.timeWord.toNat)
    (hedges : s.tileEdges t = true) (hstill : x.still = true) :
    ∃ u, exec (.waittRelease t) s = .next u ∧ (u.tile t).waitFor = none ∧ (u.tile t).pc = x.pc ∧
      (u.tile t).aclk % 16 = 0 ∧ x.aclk ≤ (u.tile t).aclk ∧ (u.tile t).aclk < x.aclk + 16 ∧ u.regs = s.regs := by
  simp only [Tile.still, Bool.and_eq_true, List.isEmpty_iff] at hstill
  obtain ⟨hflight, hidle⟩ := hstill
  have hexec : exec (.waittRelease t) s = .next (((s.abandonTest t).hold t ((16 - x.aclk % 16) % 16)).updTile t
      (fun x => { x with waitFor := none, waitExt := false })) := by
    show execWaittRelease t s = _
    unfold execWaittRelease
    rw [hx, hw]
    dsimp only
    rw [hedges, decide_eq_true hv]
    rfl
  obtain ⟨c, p, habandon⟩ := abandonTest_frame s t
  obtain ⟨e, r0, r1, w, hhold⟩ := hold_still (s := s.abandonTest t) (by rw [habandon, tile_aside]; exact hx)
    (Tile.live_of_wait hw) hflight hidle ((16 - x.aclk % 16) % 16)
  rw [habandon, aside_setTile] at hhold
  obtain ⟨c', hcount⟩ := counted_aside (s.setTile t { x.aged ((16 - x.aclk % 16) % 16) e r0 r1 w with
    waited := x.waited + (16 - x.aclk % 16) % 16
    extwait := if x.waitExt then x.extwait + BitVec.ofNat 64 ((16 - x.aclk % 16) % 16) else x.extwait }) t
    ((16 - x.aclk % 16) % 16) x.waitExt c p
  refine ⟨_, hexec, ?_⟩
  rw [habandon, hhold, hcount, tile_updTile, if_pos rfl, tile_aside, tile_setTile, if_pos rfl]
  refine ⟨rfl, rfl, ?_, ?_, ?_, rfl⟩
  · show (x.aclk + (16 - x.aclk % 16) % 16) % 16 = 0
    omega
  · show x.aclk ≤ x.aclk + (16 - x.aclk % 16) % 16
    omega
  · show x.aclk + (16 - x.aclk % 16) % 16 < x.aclk + 16
    omega

/-- What lands leaves the program's next bundle (R156). -/
theorem pc_landRest (s : State) (t : Nat) : ((s.landRest t).tile t).pc = (s.tile t).pc :=
  congrArg Prod.fst (control_landRest t)

/-- END_DONE (R156). -/
theorem endDone_spec (hw : (s.tile t).waitFor = some .endDrain) (hd : (s.tile t).drained = true) (hhold : (s.tile t).holdReq = false)
    (hedges : s.tileEdges t = true) :
    ∃ u, exec (.endDone t) s = .next u ∧ (u.tile t).run = .done ∧ (u.tile t).waitFor = none ∧ (u.tile t).pc = (s.tile t).pc ∧
      (u.reg bTILE t oEVENTS).getLsbD 0 = true := by
  obtain ⟨⟨m, htile⟩, -, hevent⟩ := endTile_spec hhold
  refine ⟨s.endTile t, ?_, ?_⟩
  · show execEndDone t s = _
    unfold execEndDone
    rw [hw, hd, hedges]
    rfl
  · rw [htile]
    exact ⟨rfl, rfl, pc_landRest s t, hevent⟩

/-- DRAIN_DONE (R156, R197). -/
theorem drainDone_stops (hw : (s.tile t).waitFor = some .stepDrain) (hd : (s.tile t).drained = true)
    (hhold : (s.tile t).holdReq = false) :
    ∃ u, exec (.drainDone t) s = .next u ∧ (u.tile t).run = .stopped ∧ (u.tile t).waitFor = none ∧ (u.tile t).stopReq = false ∧
      u.reg bTILE t 0x060 = BitVec.ofNat 32 ((s.tile t).pc % 16384) ∧ (u.reg bTILE t oEVENTS).getLsbD 1 = true := by
  obtain ⟨⟨m, htile⟩, hpc, hevent⟩ := drainDone_spec hhold
  refine ⟨s.drainDone t, ?_, ?_⟩
  · show execDrainDone t s = _
    unfold execDrainDone
    rw [hw, hd]
    rfl
  · rw [htile, hpc, pc_landRest]
    exact ⟨rfl, rfl, rfl, rfl, hevent⟩

/-- HOLD_RELEASE at the slot index of the hold (R197). -/
theorem holdRelease_at (hx : s.tile t = x) (hw : x.waitFor = some .phase) (hedges : s.tileEdges t = true) (hflight : x.flight = [])
    (hnow : (s.group (s.tileGroup t)).gclk % 256 = x.slotHold % 256) :
    exec (.holdRelease t) s = .next (s.setTile t { x with
      waitFor := none, lag := x.lag + ((s.group (s.tileGroup t)).gclk - x.slotHold) }) := by
  subst hx
  show execHoldRelease t s = _
  unfold execHoldRelease
  dsimp only
  rw [hw, hedges, beq_iff_eq.mpr hnow, landRest, landIf_none _ _ _ hflight, updTile_live (Tile.live_of_wait hw)]
  rfl

/-- HOLD_RELEASE at another slot index. -/
theorem holdRelease_not (hnow : (s.group (s.tileGroup t)).gclk % 256 ≠ (s.tile t).slotHold % 256) :
    exec (.holdRelease t) s = .next s := by
  show execHoldRelease t s = _
  unfold execHoldRelease
  dsimp only
  rw [beq_false_of_ne hnow, Bool.and_false]
  rfl

/-! ### The end of a move -/

/-- Reading back what was written. -/
theorem readBytes_writeBytes (m : SMap Byte) (a : Nat) (bs : List Byte) : readBytes (writeBytes m a bs) a bs.length = bs := by
  induction bs generalizing m a with
  | nil => rfl
  | cons b bs ih =>
    rw [writeBytes, List.length_cons, readBytes, ih, mget_writeBytes, if_neg (by omega), mget_mset, if_pos rfl]

/-- Memory after a write: the bytes written there, every other byte as before. -/
theorem writeBytes_line (m : SMap Byte) (a : Nat) {n : Nat} {bs : List Byte} (h : bs.length = n) :
    readBytes (writeBytes m a bs) a n = bs ∧ ∀ p, p < a ∨ a + n ≤ p → mget 0 (writeBytes m a bs) p = mget 0 m p := by
  subst h
  exact ⟨readBytes_writeBytes m a bs, fun p hp => by rw [mget_writeBytes, if_neg (by omega)]⟩

theorem engWhile_next {go : Tile → Bool} (h : (go (s.tile t) && (s.tile t).mayRun (s.tile t).eng) = true) (n : Nat) :
    s.engWhile t go (n + 1) = (s.engGclk t (s.tile t).eng).engWhile t go n := if_pos h

theorem engWhile_end {go : Tile → Bool} (h : go (s.tile t) = false) (n : Nat) : s.engWhile t go n = s := by
  cases n with
  | zero => rfl
  | succ n =>
    unfold engWhile
    dsimp only
    rw [h, Bool.false_and, if_neg Bool.false_ne_true]

/-- A GCLK of such a tile's ports: a line of the move is read, and one is written. -/
theorem engGclk_move {m : XMov} {g : Nat} (hx : (s.tile t).OnlyMove m) (hg : g % 8 ≠ 7)
    (hu : ((s.setTile t (s.tile t)).xmovRead t g).xmovWrite t g = u) (hinj : (u.tile t).injq = []) :
    s.engGclk t g = u.updTile t (fun y => { y with eng := g + 1 }) := by
  obtain ⟨hlive, hflight, hm0, hm1, hinjq, hlanding, -, hrp1, hwp⟩ := hx
  have htile : (s.setTile t (s.tile t)).tile t = s.tile t := by rw [tile_setTile, if_pos rfl]
  have hmem : s.landMem t (2 * g + 1) = s.setTile t (s.tile t) := landIf_none _ _ _ hflight
  have hline : (s.tile t).nextLine g = none := by rw [Tile.nextLine, hlanding]; rfl
  have hfree : (s.tile t).writeFree g = true := by simp [Tile.writeFree, hg, hwp]
  have hfetch : (((s.tile t).m0 != 0 || (s.tile t).m1 != 0) && decide ((s.tile t).mNext ≤ g)) = false := by simp [hm0, hm1]
  have hport : (g % 8 != 7) = true := by simp [hg]
  have hbeat : u.exactBeat t g = u := by
    unfold exactBeat
    rw [hinj]
    rfl
  unfold engGclk
  dsimp only
  rw [hmem, htile, hline, hfree, hfetch, if_pos rfl, if_neg Bool.false_ne_true]
  dsimp only
  rw [htile, hport, hrp1, hinjq]
  show (State.exactBeat (((s.setTile t (s.tile t)).xmovRead t g).xmovWrite t g) t g).updTile t _ = _
  rw [hu, hbeat]

/-- The line of a move is read (R520). -/
theorem engGclk_reads {m : XMov} {g : Nat} (hx : (s.tile t).OnlyMove m) (hg : g % 8 ≠ 7) (hready : m.ready ≤ g)
    (hlen : m.len = 256) (hread : m.read = 0) (hbuf : m.buf = []) (hsound : s.sound t m.src 256 = true) :
    s.engGclk t g = (s.setTile t { s.tile t with
      xmovs := [{ m with read := 1, buf := [(g, s.sram t m.src 256)] }], eng := g + 1 }).freshen := by
  obtain ⟨hlive, hflight, -, -, hinjq, -, hxmovs, -, -⟩ := id hx
  have htile : (s.setTile t (s.tile t)).tile t = s.tile t := by rw [tile_setTile, if_pos rfl]
  have hue : hits (s.setTile t (s.tile t)).ue (sramAt t m.src) 256 = [] := by
    simp only [sound, Bool.and_eq_true, List.isEmpty_iff] at hsound
    exact hsound.1
  have hbytes : (s.setTile t (s.tile t)).progRead t m.src 256 = s.sram t m.src 256 := by
    rw [progRead_sound hue (by rw [htile]; exact hflight), sram, peek_setTile rfl]
    rfl
  let m1 : XMov := { m with read := 1, buf := [(g, s.sram t m.src 256)] }
  have hr : (s.setTile t (s.tile t)).xmovRead t g = (s.setTile t { s.tile t with xmovs := [m1] }).freshen := by
    unfold xmovRead
    rw [htile, hxmovs]
    dsimp only
    rw [if_pos (by simp [hready, hread, hlen]), hread, hbuf, updTile_live hlive,
      show (s.setTile t (s.tile t)).progRead t (m.src + 256 * 0) 256 = s.sram t m.src 256 from hbytes]
    exact progReadMarks_sound hsound
  have hw : ((s.setTile t (s.tile t)).xmovRead t g).xmovWrite t g = (s.setTile t { s.tile t with xmovs := [m1] }).freshen := by
    rw [hr]
    unfold xmovWrite
    rw [show ((s.setTile t { s.tile t with xmovs := [m1] }).freshen).tile t = { s.tile t with xmovs := [m1] } from
      (tile_setTile ..).trans (if_pos rfl)]
    exact if_neg (Nat.lt_irrefl g)
  have htile1 : ((s.setTile t { s.tile t with xmovs := [m1] }).freshen).tile t = { s.tile t with xmovs := [m1] } :=
    (tile_setTile ..).trans (if_pos rfl)
  rw [engGclk_move hx hg hw (by rw [htile1]; exact hinjq)]
  rw [updTile, htile1]
  exact congrArg freshen (setTile_setTile_live (x := { s.tile t with xmovs := [m1] }) hlive)

/-- A move whose last line is written leaves, and its tally counts in the next GCLK of a tile whose program stops (R520). -/
theorem xmovEnds_last {m : XMov} {g n : Nat} (hx : x.xmovs = [m]) (hlive : x.Live) (hrun : x.run = .stopping) (hflight : x.flight = [])
    (hlen : m.len ≤ 256 * m.read) (hbuf : m.buf = []) :
    (s.setTile t x).xmovEnds t g (n + 1) = s.setTile t { x with
      xmovs := [], flight := [{ due := 2 * (g + 1), land := .tally m.tally false none }] } := by
  have htile (y : Tile) : (s.setTile t y).tile t = y := by rw [tile_setTile, if_pos rfl]
  have hnone (y : Tile) (hy : y.xmovs = []) : (s.setTile t y).xmovEnds t g n = s.setTile t y := by
    cases n with
    | zero => rfl
    | succ n =>
      unfold xmovEnds
      rw [htile, hy]
  unfold xmovEnds
  rw [htile, hx]
  dsimp only
  rw [if_pos (by simp [hlen, hbuf]), updTile_live hlive]
  have hcount : (s.setTile t { x with xmovs := [] }).tallyAt t (g + 1) m.tally false none = s.setTile t { x with
      xmovs := [], flight := [{ due := 2 * (g + 1), land := .tally m.tally false none }] } := by
    unfold tallyAt
    dsimp only
    rw [htile, if_pos (by simp [hrun]), updTile_live (x := { x with xmovs := [] }) hlive]
    unfold Tile.fly
    dsimp only
    rw [hflight]
    rfl
  rw [hcount, hnone _ rfl]

/-- The line of a move is written in a GCLK after its reading (R520). -/
theorem engGclk_writes {m : XMov} {g c : Nat} {bs : List Byte} (hx : (s.tile t).OnlyMove m) (hrun : (s.tile t).run = .stopping)
    (hg : g % 8 ≠ 7) (hlen : m.len = 256) (hread : m.read = 1) (hbuf : m.buf = [(c, bs)]) (hc : c < g) :
    s.engGclk t g = (s.poke (sramAt t m.dst) bs).setTile t { s.tile t with
      xmovs := [], flight := [{ due := 2 * (g + 1), land := .tally m.tally false none }], eng := g + 1 } := by
  obtain ⟨hlive, hflight, -, -, hinjq, -, hxmovs, -, -⟩ := id hx
  have htile : (s.setTile t (s.tile t)).tile t = s.tile t := by rw [tile_setTile, if_pos rfl]
  have hr : (s.setTile t (s.tile t)).xmovRead t g = s.setTile t (s.tile t) := by
    unfold xmovRead
    rw [htile, hxmovs]
    dsimp only
    rw [if_neg (by simp [hlen, hread])]
  let y : Tile := { s.tile t with xmovs := [], flight := [{ due := 2 * (g + 1), land := .tally m.tally false none }] }
  have hw : ((s.setTile t (s.tile t)).xmovRead t g).xmovWrite t g = (s.poke (sramAt t m.dst) bs).setTile t y := by
    rw [hr]
    unfold xmovWrite
    rw [htile, hxmovs]
    dsimp only
    rw [hbuf]
    dsimp only
    rw [if_pos hc, hread]
    show (State.updTile ((s.poke (sramAt t m.dst) bs).setTile t (s.tile t)) t _).xmovEnds t g 2 = _
    rw [updTile_live hlive]
    exact xmovEnds_last (m := { m with read := 1, buf := [] }) (x := { s.tile t with xmovs := [{ m with read := 1, buf := [] }] }) rfl hlive hrun hflight
      (by simp [hlen]) rfl
  have hy : ((s.poke (sramAt t m.dst) bs).setTile t y).tile t = y := by rw [tile_setTile, if_pos rfl]
  rw [engGclk_move hx hg hw (by rw [hy]; exact hinjq), updTile_live (x := y) hlive]

/-- XMOV_DONE of a move of one line on a tile whose program stops (R520). -/
theorem xmovDone_line {m : XMov} (hx : s.tile t = x) (htile : tileOk t = true) (hedges : s.tileEdges t = true)
    (honly : x.only [] [] [m] = true) (hlen : m.len = 256) (hread : m.read = 0) (hbuf : m.buf = []) (hready : m.ready ≤ x.eng)
    (heng : x.eng % 8 < 6) (hrp1 : x.rp1 = []) (hwp : x.wp = []) (hrun : x.run = .stopping) (hw : x.waitFor = some .stepDrain)
    (hsound : s.sound t m.src 256 = true) :
    ∃ u, exec (.xmovDone t) s = .next u ∧ (u.tile t).xmovs = [] ∧ (u.tile t).pc = x.pc ∧ (u.tile t).waitFor = x.waitFor ∧
      (u.tile t).flight = [{ due := 2 * (x.eng + 2), land := .tally m.tally false none }] ∧
      readBytes u.mem (sramAt t m.dst) 256 = s.sram t m.src 256 ∧
      ∀ a, a < sramAt t m.dst ∨ sramAt t m.dst + 256 ≤ a → mget 0 u.mem a = mget 0 s.mem a := by
  subst hx
  simp only [Tile.only, Bool.and_eq_true, List.isEmpty_iff, beq_iff_eq] at honly
  obtain ⟨⟨⟨⟨⟨hflight, hm0⟩, hm1⟩, hinjq⟩, hlanding⟩, hxmovs⟩ := honly
  obtain ⟨bs, hbs⟩ : ∃ bs, s.sram t m.src 256 = bs := ⟨_, rfl⟩
  let e := (s.tile t).eng
  let m1 : XMov := { m with read := 1, buf := [(e, bs)] }
  let y1 : Tile := { s.tile t with xmovs := [m1], eng := e + 1 }
  let s1 : State := (s.setTile t y1).freshen
  let y2 : Tile := { s.tile t with
    xmovs := [], flight := [{ due := 2 * (e + 1 + 1), land := .tally m.tally false none }], eng := e + 1 + 1 }
  let s2 : State := (s1.poke (sramAt t m.dst) bs).setTile t y2
  have hlive : (s.tile t).Live := Tile.live_of_wait hw
  have hmove : (s.tile t).OnlyMove m := ⟨hlive, hflight, hm0, hm1, hinjq, hlanding, hxmovs, hrp1, hwp⟩
  have ht1 : s1.tile t = y1 := (tile_setTile ..).trans (if_pos rfl)
  have ht2 : s2.tile t = y2 := (tile_setTile ..).trans (if_pos rfl)
  have hmove1 : (s1.tile t).OnlyMove m1 := by
    rw [ht1]
    exact ⟨hlive, hflight, hm0, hm1, hinjq, hlanding, rfl, hrp1, hwp⟩
  have hfirst : s.engGclk t e = s1 := by rw [engGclk_reads hmove (by omega) hready hlen hread hbuf hsound, hbs]
  have hsecond : s1.engGclk t (e + 1) = s2 := by
    rw [engGclk_writes hmove1 (by rw [ht1]; exact hrun) (by omega) hlen rfl rfl (Nat.lt_succ_self e), ht1]
  let go (x : Tile) : Bool := x.xmovs.length == 1
  have hmay (y : Tile) (g : Nat) (hr : y.run = .stopping) (hw : y.waitFor = some .stepDrain) : y.mayRun g = true := by
    simp [Tile.mayRun, Tile.mayRun.go, hr, hw]
  have hwhile : s.engWhile t go (m.len / 64 + injectSpan) = s2 := by
    rw [hlen]
    show s.engWhile t go (1026 + 1 + 1) = s2
    rw [engWhile_next (by simp [go, hxmovs, hmay _ _ hrun hw]), hfirst,
      engWhile_next (by rw [ht1]; simp [go, y1, hmay y1 _ hrun hw]), ht1, hsecond, engWhile_end (by rw [ht2]; rfl)]
  obtain ⟨hline, hother⟩ := writeBytes_line s.mem (sramAt t m.dst) (n := 256) (bs := bs) (hbs ▸ length_peek s _ 256)
  rw [hbs]
  have hmem : s2.mem = writeBytes s.mem (sramAt t m.dst) bs := rfl
  refine ⟨s2, ?_, ht2 ▸ rfl, ht2 ▸ rfl, ht2 ▸ rfl, ?_,
    (congrArg (readBytes · (sramAt t m.dst) 256) hmem).trans hline, fun a ha => (congrArg (mget 0 · a) hmem).trans (hother a ha)⟩
  case refine_2 =>
    rw [ht2]
  show execXmovDone t s = _
  unfold execXmovDone
  rw [htile, hedges, hxmovs]
  exact congrArg Host.Outcome.next hwhile

/-! ### Sync waves -/

/-- What the hold of a tile counts is on the tile's own page. -/
theorem cnt_counted {k n : Nat} (hk : k < 1440) (ext : Bool) : (s.counted k n ext).cnt bGRID 0 0xC08 = s.cnt bGRID 0 0xC08 := by
  have hne (o : Nat) (ho : o < 4096) : rk bGRID 0 0xC08 ≠ rk bTILE k o := fun h =>
    absurd ((rk_inj (by omega) (by omega) (by omega) ho).mp h).1 (by decide)
  unfold counted
  split
  · rw [cnt_count_other _ _ (hne 0xC08 (by omega)), cnt_count_other _ _ (hne 0xC00 (by omega))]
  · rw [cnt_count_other _ _ (hne 0xC00 (by omega))]

/-- A member of a generation goes on, and nothing else does (R188, R190). -/
theorem endWave_spec {w : Wait} {k g : Nat} {ext : Bool} (hk : k < 1440) (hw : (s.tile k).waitFor = some w) (hstill : (s.tile k).still = true) :
    (s.tile k).GoesOn ((s.endWave k g ext).tile k) g ∧ (∀ j, j ≠ k → (s.endWave k g ext).tile j = s.tile j) ∧
      (s.endWave k g ext).mem = s.mem ∧ (s.endWave k g ext).cnt bGRID 0 0xC08 = s.cnt bGRID 0 0xC08 := by
  simp only [Tile.still, Bool.and_eq_true, List.isEmpty_iff] at hstill
  obtain ⟨hflight, hidle⟩ := hstill
  let n := 2 * (g - (s.tile k).lag) - (s.tile k).aclk
  let x : Tile := { s.tile k with waitExt := ext }
  have hlive : x.Live := Tile.live_of_wait hw
  obtain ⟨e, r0, r1, w', hhold⟩ := hold_still (s := s.setTile k x) (x := x) (by rw [tile_setTile, if_pos rfl]) hlive hflight hidle n
  rw [setTile_setTile_live hlive] at hhold
  let y : Tile := { x.aged n e r0 r1 w' with
    waited := x.waited + n, extwait := if ext then x.extwait + BitVec.ofNat 64 n else x.extwait }
  obtain ⟨c, hc⟩ := counted_frame (s.setTile k y) k n ext
  have hcnt : ((s.setTile k y).counted k n ext).cnt bGRID 0 0xC08 = s.cnt bGRID 0 0xC08 := cnt_counted hk ext
  have htile (j : Nat) : ((s.setTile k y).counted k n ext).tile j = if j = k then y else s.tile j := by
    rw [hc]
    exact tile_setTile ..
  have hend : s.endWave k g ext = ((s.setTile k y).counted k n ext).updTile k (fun x =>
      { x with waitFor := none, waitExt := false, flag := ext, soiled := false }) := by
    unfold endWave
    dsimp only
    exact congrArg (fun v => State.updTile v k _) hhold
  refine ⟨?_, fun j hj => ?_, ?_, ?_⟩
  · rw [hend, tile_updTile, if_pos rfl, htile, if_pos rfl]
    refine ⟨rfl, rfl, rfl, ?_⟩
    show (s.tile k).aclk + n = _
    omega
  · rw [hend, tile_updTile, if_neg hj, htile, if_neg hj]
  · rw [hend, hc]
    rfl
  · rw [hend]
    exact hcnt

/-- The members of a generation go on, each for itself. -/
theorem endWaves_spec {w : Wait} {g : Nat} {ext : Bool} {l : List Nat} (hl : l.Nodup)
    (h : ∀ k ∈ l, k < 1440 ∧ (s.tile k).waitFor = some w ∧ (s.tile k).still = true) :
    let u := l.foldl (fun s t => s.endWave t g ext) s
    (∀ k ∈ l, (s.tile k).GoesOn (u.tile k) g) ∧ (∀ k, k ∉ l → u.tile k = s.tile k) ∧ u.mem = s.mem ∧
      u.cnt bGRID 0 0xC08 = s.cnt bGRID 0 0xC08 := by
  induction l generalizing s with
  | nil => exact ⟨fun k hk => absurd hk List.not_mem_nil, fun _ _ => rfl, rfl, rfl⟩
  | cons a l ih =>
    obtain ⟨hk, hw, hstill⟩ := h a List.mem_cons_self
    obtain ⟨hfirst, hothers, hmem, hcnt⟩ := endWave_spec (g := g) (ext := ext) hk hw hstill
    obtain ⟨hnot, hl'⟩ := List.nodup_cons.mp hl
    have hsame (k : Nat) (hm : k ∈ l) : (s.endWave a g ext).tile k = s.tile k := hothers k fun he => hnot (he ▸ hm)
    obtain ⟨hin, hout, hmem', hcnt'⟩ := ih (s := s.endWave a g ext) hl' fun k hm => by
      rw [hsame k hm]
      exact h k (List.mem_cons_of_mem _ hm)
    refine ⟨fun k hm => ?_, fun k hm => ?_, hmem'.trans hmem, hcnt'.trans hcnt⟩
    · rcases List.mem_cons.mp hm with rfl | hm
      · rw [List.foldl_cons, hout k hnot]
        exact hfirst
      · rw [List.foldl_cons, ← hsame k hm]
        exact hin k hm
    · rw [List.foldl_cons, hout k fun h => hm (List.mem_cons_of_mem _ h), hothers k fun he => hm (he ▸ List.mem_cons_self)]

/-- A maximum that no later value exceeds stays. -/
theorem foldl_max_of_le {l : List Nat} {f : Nat → Nat} {a : Nat} (h : ∀ j ∈ l, f j ≤ a) : l.foldl (fun m t => max m (f t)) a = a := by
  induction l with
  | nil => rfl
  | cons c l ih =>
    obtain ⟨hc, hl⟩ := List.forall_mem_cons.mp h
    rw [List.foldl_cons, Nat.max_eq_left hc, ih hl]

/-- The GCLK after the last join is that of a member with none later. -/
theorem foldl_max_eq {l : List Nat} {f : Nat → Nat} {a b : Nat} (hb : b ∈ l) (ha : a ≤ f b) (h : ∀ j ∈ l, f j ≤ f b) :
    l.foldl (fun m t => max m (f t)) a = f b := by
  induction l generalizing a with
  | nil => exact absurd hb List.not_mem_nil
  | cons c l ih =>
    obtain ⟨hc, hl⟩ := List.forall_mem_cons.mp h
    rw [List.foldl_cons]
    rcases List.mem_cons.mp hb with rfl | hm
    · rw [Nat.max_eq_right ha, foldl_max_of_le hl]
    · exact ih hm (Nat.max_le.mpr ⟨ha, hc⟩) hl

/-- WAVE_COMPLETE (R188 to R190). -/
theorem waveComplete_spec (s : State) (p w g : Nat) :
    let joined (k : Nat) : Prop := k < 1440 ∧ s.waveMember p g w k = true ∧ (s.tile k).waitFor = some (.wave w)
    (∃ k, joined k) →
    (∀ k, k < 1440 → s.waveMember p g w k = true → (s.tile k).waitFor = some (.wave w) ∨ (s.tile k).run = .done) →
    (∀ k, joined k → s.tileEdges k = true ∧ (s.tile k).still = true) →
    ∃ u, exec (.waveComplete p w g) s = .next u ∧
      (∀ k, joined k → (u.tile k).waitFor = none ∧ (u.tile k).pc = (s.tile k).pc ∧ (u.tile k).soiled = false ∧
        ∀ last, joined last → (∀ j, joined j → (s.tile j).joinG ≤ (s.tile last).joinG) →
          (u.tile k).aclk = max (s.tile k).aclk (2 * ((s.tile last).joinG + 64 - (s.tile k).lag))) ∧
      (∀ k, s.waveMember p g w k = false → u.tile k = s.tile k) ∧ u.mem = s.mem ∧
      u.cnt bGRID 0 0xC08 = s.cntUp bGRID 0 0xC08 1 := by
  intro joined hsome hall hready
  let ms := (List.range 1440).filter (s.waveMember p g w)
  let waiting := ms.filter (fun t => (s.tile t).waitFor == some (.wave w))
  have hmem (k : Nat) : k ∈ waiting ↔ joined k := by
    simp only [waiting, ms, joined, List.mem_filter, List.mem_range, beq_iff_eq, and_assoc]
  have hnodup : waiting.Nodup := (List.nodup_range.filter _).filter _
  have hms : ms.all (fun t => (s.tile t).waitFor == some (.wave w) || (s.tile t).run == .done) = true := by
    refine List.all_eq_true.mpr fun k hk => ?_
    obtain ⟨hrange, hm⟩ := List.mem_filter.mp hk
    simpa using hall k (List.mem_range.mp hrange) hm
  have hedges : waiting.all s.tileEdges = true := List.all_eq_true.mpr fun k hk => (hready k ((hmem k).mp hk)).1
  have hne : (!waiting.isEmpty) = true := by
    obtain ⟨k, hk⟩ := hsome
    simpa using List.ne_nil_of_mem ((hmem k).mpr hk)
  let rel := waiting.foldl (fun m t => max m ((s.tile t).joinG + 64)) 0
  let ext := waiting.any (fun t => (s.tile t).soiled)
  obtain ⟨hin, hout, hmemory, hcnt⟩ := endWaves_spec (s := s.count bGRID 0 0xC08 1) (w := .wave w) (g := rel) (ext := ext) hnodup
    fun k hk => by
      obtain ⟨hlt, hm, hw⟩ := (hmem k).mp hk
      exact ⟨hlt, hw, (hready k ⟨hlt, hm, hw⟩).2⟩
  refine ⟨waiting.foldl (fun s t => s.endWave t rel ext) (s.count bGRID 0 0xC08 1), ?_, fun k hk => ?_, fun k hk => ?_, hmemory, ?_⟩
  · show execWaveComplete p w g s = _
    unfold execWaveComplete
    exact congrArg Host.Outcome.next (if_pos (by rw [hms, hedges, hne]; rfl))
  · obtain ⟨hwait, hpc, hsoiled, haclk⟩ := hin k ((hmem k).mpr hk)
    refine ⟨hwait, hpc, hsoiled, fun last hlast hmax => ?_⟩
    have hrel : rel = (s.tile last).joinG + 64 := foldl_max_eq (f := fun t => (s.tile t).joinG + 64) ((hmem last).mpr hlast)
      (Nat.zero_le _) fun j hj => Nat.add_le_add_right (hmax j ((hmem j).mp hj)) 64
    rw [haclk, hrel]
    rfl
  · exact hout k fun h => by
      obtain ⟨-, hm, -⟩ := (hmem k).mp h
      exact absurd (hk.symm.trans hm) Bool.false_ne_true
  · rw [hcnt, cnt_count_same]
    rfl

end State
open State

/-- Settles O17: each clause is the end of its wait; a move's line takes two GCLK of the ports, and the members of a
generation go on one by one. -/
theorem endsOfWaits : Obligations.EndsOfWaits := by
  unfold Obligations.EndsOfWaits
  intro s t
  refine ⟨?_, ?_, ?_, ?_, ?_, ?_, ?_, ?_⟩
  · exact fun k n e hw hedges hstill hn => tallyWaitRelease_now rfl hw hedges hstill hn
  · exact fun k n d hw hedges hidle hn hlt hd hflight => tallyWaitRelease_due rfl hw hedges hidle hn hlt hd hflight
  · exact fun v hw hv hedges hstill => waittRelease_spec rfl hw hv hedges hstill
  · exact fun hw hd hhold hedges => endDone_spec hw hd hhold hedges
  · exact fun hw hd hhold => drainDone_stops hw hd hhold
  · exact fun hw hedges hflight => ⟨fun hnow => holdRelease_at rfl hw hedges hflight hnow, fun hnow => holdRelease_not hnow⟩
  · exact fun m htile hedges honly hlen hread hbuf hready heng hrp1 hwp hrun hw hsound =>
      xmovDone_line rfl htile hedges honly hlen hread hbuf hready heng hrp1 hwp hrun hw hsound
  · exact fun p w g => waveComplete_spec s p w g

end Sys2Proof.Machine
end

section
/-! PROOF. MMA and MMAV on a quiet tile: the issue, and the products that land when the unit's busy time ends
(R163 to R166; O11). -/

namespace Sys2Proof.Machine

variable {s u : State} {t : Nat} {x y : Tile} {a k n : Nat}

/-! ### The long accumulators -/

/-- Each accumulator takes the products of its own row and column. -/
theorem Tile.lacc_macAll (av bv : Nat → Nat → XVal) (k : Nat) {i j : Nat} (hi : i < 64) (hj : j < 64) :
    (x.macAll av bv k).lacc (i * 64 + j) = macAcc (x.lacc (i * 64 + j)) (av i) (bv j) k := by
  have hfold (n e : Nat) : ((List.range n).foldl (fun x e => x.setLacc e (macAcc (x.lacc e) (av (e / 64)) (bv (e % 64)) k)) x).lacc e =
      if e < n then macAcc (x.lacc e) (av (e / 64)) (bv (e % 64)) k else x.lacc e := by
    induction n with
    | zero => rfl
    | succ n ih =>
      rw [List.range_succ, List.foldl_append, List.foldl_cons, List.foldl_nil]
      show mget ({} : LAcc) (mset ({} : LAcc) _ n _) e = _
      rw [mget_mset]
      split
      next he =>
        subst he
        rw [if_pos (Nat.lt_succ_self e), ih, if_neg (Nat.lt_irrefl e)]
      next he =>
        refine ih.trans (if_congr ?_ rfl rfl)
        omega
  unfold macAll
  rw [hfold, if_pos (by omega), show (i * 64 + j) / 64 = i by omega, show (i * 64 + j) % 64 = j by omega]

/-- Bytes that have not changed are read as they were, whichever they are taken to be. -/
theorem State.eitherLines_self (bs : List Byte) : s.eitherLines a k bs bs = bs := by
  unfold eitherLines
  simp only [List.zip_eq_zipWith, List.zipWith_self, List.zipIdx_map, List.map_map]
  refine Eq.trans (List.map_congr_left (g := Prod.fst) fun p _ => ?_) (List.zipIdx_map_fst 0 bs)
  simp

/-- The record of a tile with products due at the end of its unit's busy time (R164, R166). -/
def Tile.multiplies (x : Tile) (c n0 n1 : Nat) (ls : List Land) : Tile :=
  { x.busyMma c n0 n1 with flight := ls.map (fun l => ⟨x.aclk + c + 8, l⟩) }

/-- A result of the matrix unit joins those that land when its busy time ends. -/
theorem Tile.fly_multiplies (c n0 n1 : Nat) (ls : List Land) (l : Land) (hls : ∀ l' ∈ l :: ls, ∀ d, flightKey ⟨d, l'⟩ = 2 * d + 1) :
    (x.multiplies c n0 n1 ls).fly (x.aclk + c + 8) l = x.multiplies c n0 n1 (ls ++ [l]) := by
  unfold fly
  rw [addFlight_of_le ?le]
  case le =>
    intro f hf
    obtain ⟨l', hl', rfl⟩ := List.mem_map.mp hf
    rw [hls l' (List.mem_cons_of_mem _ hl'), hls l List.mem_cons_self]
  unfold multiplies
  rw [List.map_append]
  rfl

/-- The operands that the registers of a tile give an MMA (Table 6-7). -/
structure Tile.MmaOperands (x : Tile) (f : FmtMM) (k a sa b sb : Nat) : Prop where
  depth : (x.sreg f.sK.toNat).toNat = k
  rows : (x.sreg f.sA.toNat).toNat = a
  rowScales : (if matMx f.fa.toNat then (x.sreg (f.sA.toNat + 1)).toNat else 0) = sa
  columns : (x.sreg f.sB.toNat).toNat = b
  columnScales : (if matMx f.fb.toNat then (x.sreg (f.sB.toNat + 1)).toNat else 0) = sb

/-- Their bases are aligned, and registers hold them (R163). -/
structure MmaAligned (f : FmtMM) (a sa b sb : Nat) : Prop where
  rows : a % 32 = 0
  columns : b % 32 = 0
  rowScales : matMx f.fa.toNat = true → sa % 64 = 0 ∧ f.sA.toNat ≤ 62
  columnScales : matMx f.fb.toNat = true → sb % 64 = 0 ∧ f.sB.toNat ≤ 62

/-- They are whole blocks inside tile SRAM (R163). -/
structure MmaInside (f : FmtMM) (k a sa b sb : Nat) : Prop where
  blocks : matBlock f.fa.toNat = true ∨ matBlock f.fb.toNat = true → k % 32 = 0
  rows : a + matLen f.fa.toNat k ≤ 0x800000
  columns : b + matLen f.fb.toNat k ≤ 0x800000
  rowScales : sa + matScaleLen f.fa.toNat k ≤ 0x800000
  columnScales : sb + matScaleLen f.fb.toNat k ≤ 0x800000

namespace State

/-- Where nothing but the tile's program changes, settled bytes stay. -/
theorem sram_settled_of_same (h : s.settled t a n = true) (hr : a + n ≤ 0x800000) (hmem : u.mem = s.mem := by rfl)
    (hsoft : u.soft = s.soft := by rfl) (hjobs : u.jobs = s.jobs := by rfl) (hue : u.ue = s.ue := by rfl) (hce : u.ce = s.ce := by rfl)
    (hland : (u.tile t).landing = (s.tile t).landing) : u.sram t a n = s.sram t a n := by
  have hu : u.settled t a n = true := by
    rw [settled_iff, hsoft, hjobs, hland, hue, hce]
    exact settled_iff.mp h
  rw [peek_settled h hr, peek_settled hu hr, hmem]

/-- The operand of an MMA-like instruction on settled bytes is what they were at its issue (R164). -/
theorem matRead_quiet {i : Instr} (hq : s.quiet t = true) (h : s.settled t a n = true) (hr : a + n ≤ 0x800000) :
    (s.assembled t i).matRead t a n = s.sram t a n :=
  (matRead_assembled hq h hr).trans (peek_settled h hr).symm

/-! ### The issue -/

/-- The issue of a slot that has the matrix unit multiply; `ls` is what lands when its busy time ends. -/
theorem slot_multiplies (hq : s.quiet t = true) {i : Instr} (m : Nat) {c n0 n1 : Nat} {ls : List Land}
    (hm : (slotSem i (s.assembled t i) t).Alone) (huses : (slotSem i (s.assembled t i) t).uses = [])
    (hctl : (slotSem i (s.assembled t i) t).ctl = .seq)
    (hact : (slotSem i (s.assembled t i) t).act (s.setTile t (s.tile t)) =
      (s.setTile t ((s.tile t).multiplies c n0 n1 ls)).freshAt m)
    (hls : ∀ l ∈ ls, ∀ d, (Flight.mk d l).isMem = false) :
    s.slot ⟨t, false⟩ i = (s.ran t (·.multiplies c n0 n1 ls)).freshAt m := by
  obtain ⟨-, -, hwait, -, -, -, -, -, hinjq, hlanding, hxmovs, -⟩ := (quiet_iff s t).mp hq
  have hdue (f : Flight) (hf : f ∈ ((s.tile t).multiplies c n0 n1 ls).flight) :
      f.due = (s.tile t).aclk + c + 8 ∧ f.isMem = false := by
    obtain ⟨l, hl, rfl⟩ := List.mem_map.mp hf
    exact ⟨rfl, hls l hl _⟩
  have hlater (f : Flight) (hf : f ∈ ((s.tile t).multiplies c n0 n1 ls).flight) : (s.tile t).aclk + 1 < f.due := by
    rw [(hdue f hf).1]
    omega
  have hend : ((s.tile t).multiplies c n0 n1 ls).mEnd = (s.tile t).aclk + c + 8 := by
    show (s.tile t).aclk + c + 8 + (2 * 0 - c) = _
    omega
  have hg : (s.tile t).Goes ((s.tile t).multiplies c n0 n1 ls) 1 :=
    { passes :=
        { live := quiet_live hq
          timeless := Tile.timeless_of_none hwait
          noneLate := fun f hf _ => by
            rw [(hdue f hf).1, hend]
            split
            · exact Nat.le_refl _
            · refine Nat.max_le.mpr ⟨?_, Nat.le_refl _⟩
              show (s.tile t).aclk + 1 + 1 ≤ _
              omega
          lands := fun f hf h => absurd ((Flight.not_dueBy (hlater f hf)).symm.trans h) Bool.false_ne_true } }
  exact slot_begins_at (g := (·.multiplies c n0 n1 ls)) hq m hm huses hctl hact hg rfl rfl (fun f hf => Flight.not_dueBy (hlater f hf)) {
    stores := fun f hf => (hdue f hf).2
    landing := hlanding
    fetches := .inr (Nat.lt_succ_self _)
    messages := fun m' hm' => absurd (hinjq ▸ hm') List.not_mem_nil
    moves := fun m' hm' => absurd (hxmovs ▸ hm') List.not_mem_nil }

theorem baseBad_eq_nil {c base sc : Nat} (h : base % 32 = 0) (hs : matMx c = true → sc % 64 = 0) : baseBad c base sc = [] := by
  cases hc : matMx c with
  | false => simp [baseBad, when_, h, hc]
  | true => simp [baseBad, when_, h, hc, hs hc]

theorem scaleGroup_eq_nil {c r : Nat} (h : matMx c = true → r ≤ 62) : (if matMx c then groupBad r 2 else []) = [] := by
  split
  next hc => exact groupBad_eq_nil (by have := h hc; omega)
  next => rfl

theorem scaleBase_slots (i : Instr) (c r : Nat) :
    scaleBase ((s.assembled t i).tile t) c r = if matMx c then ((s.tile t).sreg (r + 1)).toNat else 0 := by
  unfold scaleBase
  rw [sreg_slots]

/-- With such operands an MMA meets no trap; one of depth 0 has none to fetch. -/
theorem mma_alone (i : Instr) {f : FmtMM} {a sa b sb : Nat} (ho : (s.tile t).MmaOperands f k a sa b sb)
    (ha : MmaAligned f a sa b sb) (hin : k ≠ 0 → MmaInside f k a sa b sb) : (semMma f (s.assembled t i) t).Alone := by
  obtain ⟨rfl, rfl, rfl, rfl, rfl⟩ := ho
  obtain ⟨hrows, hcolumns, hrowScales, hcolumnScales⟩ := ha
  refine .of_seq ?_ (Nat.zero_le 1) rfl
  unfold semMma
  dsimp only
  rw [sreg_slots, sreg_slots, sreg_slots, scaleBase_slots, scaleBase_slots, baseBad_eq_nil hrows fun h => (hrowScales h).1,
    baseBad_eq_nil hcolumns fun h => (hcolumnScales h).1, scaleGroup_eq_nil fun h => (hrowScales h).2,
    scaleGroup_eq_nil fun h => (hcolumnScales h).2]
  by_cases hk : ((s.tile t).sreg f.sK.toNat).toNat = 0
  · simp [when_, hk]
  · obtain ⟨hblock, h1, h2, h3, h4⟩ := hin hk
    rw [inTile_of_le h1, inTile_of_le h2, inTile_of_le h3, inTile_of_le h4]
    cases hbl : (matBlock f.fa.toNat || matBlock f.fb.toNat) with
    | false => simp [when_]
    | true => simp [when_, hblock (by simpa using hbl)]

/-- The result of an MMA: the products of these operands, which are those of its issue unless stores reach them (R164). -/
def mmaProducts (s : State) (t : Nat) (f : FmtMM) (k a sa b sb : Nat) : Land :=
  .mma f.fa.toNat f.fb.toNat a sa b sb k (s.sram t a (matLen f.fa.toNat k)) (s.sram t sa (matScaleLen f.fa.toNat k))
    (s.sram t b (matLen f.fb.toNat k)) (s.sram t sb (matScaleLen f.fb.toNat k))

/-- Its operands are settled bytes (R164). -/
structure MmaSettled (s : State) (t : Nat) (f : FmtMM) (k a sa b sb : Nat) : Prop where
  rows : s.settled t a (matLen f.fa.toNat k) = true
  columns : s.settled t b (matLen f.fb.toNat k) = true
  rowScales : s.settled t sa (matScaleLen f.fa.toNat k) = true
  columnScales : s.settled t sb (matScaleLen f.fb.toNat k) = true

/-- The matrix unit begins, on a tile with nothing in flight. -/
theorem beginMma_setTile (h : x.Live) (hf : x.flight = []) (c n0 n1 : Nat) :
    (s.setTile t x).beginMma t c n0 n1 = s.setTile t (x.multiplies c n0 n1 []) := by
  unfold beginMma
  rw [updTile_live h]
  unfold Tile.multiplies Tile.busyMma
  dsimp only
  rw [List.map_nil, ← hf]

/-- A read of settled bytes leaves nothing but a free value used up (R90). -/
theorem marks_setTile {m : Nat} (h : s.settled t a n = true) :
    ((s.setTile t y).freshAt m).progReadMarks t a n = (s.setTile t y).freshAt (m + 1) := by
  have hsound : s.sound t a n = true := sound_of_settled h
  exact progReadMarks_sound (s := (s.setTile t y).freshAt m) hsound

/-- MMA of depth 0 (R164). -/
theorem slot_mma_zero (hq : s.quiet t = true) {f : FmtMM} {a sa b sb : Nat} (hk : k = 0) (ho : (s.tile t).MmaOperands f k a sa b sb)
    (ha : MmaAligned f a sa b sb) :
    s.slot ⟨t, false⟩ (.mma ⟨t, false⟩ f) = s.ran t (fun y => y.busyMma 0 (lines2 a 0 sa 0) (lines2 b 0 sb 0)) := by
  subst hk
  let i : Instr := .mma ⟨t, false⟩ f
  have hlen (c : Nat) : matLen c 0 = 0 ∧ matScaleLen c 0 = 0 := by simp [matLen, matScaleLen]
  have hcycles : matCycles f.fa.toNat f.fb.toNat 0 = 0 := by
    unfold matCycles matRate4
    dsimp only
    split
    · rfl
    · split <;> rfl
  have hm : (slotSem i (s.assembled t i) t).Alone := mma_alone i ho ha fun h => absurd rfl h
  have hact : (slotSem i (s.assembled t i) t).act (s.setTile t (s.tile t)) =
      (s.setTile t ((s.tile t).multiplies 0 (lines2 a 0 sa 0) (lines2 b 0 sb 0) [])).freshAt s.fresh := by
    obtain ⟨hk, rfl, rfl, rfl, rfl⟩ := ho
    show (semMma f (s.assembled t i) t).act _ = _
    unfold semMma
    dsimp only
    rw [sreg_slots, sreg_slots, sreg_slots, scaleBase_slots, scaleBase_slots, hk, if_pos rfl, hcycles, (hlen _).1, (hlen _).1,
      (hlen _).2, (hlen _).2, beginMma_setTile (quiet_live hq) (quiet_flight hq), freshAt_setTile]
  refine (slot_multiplies hq s.fresh hm rfl rfl hact (by simp)).trans (freshAt_ranTo.trans (ran_congr ?_))
  unfold Tile.multiplies Tile.busyMma
  dsimp only
  rw [List.map_nil, ← quiet_flight hq]

/-- MMA on settled operands (R164). -/
theorem slot_mma (hq : s.quiet t = true) {f : FmtMM} {a sa b sb : Nat} (hk : k ≠ 0) (ho : (s.tile t).MmaOperands f k a sa b sb)
    (ha : MmaAligned f a sa b sb) (hin : MmaInside f k a sa b sb) (hs : s.MmaSettled t f k a sa b sb) :
    s.slot ⟨t, false⟩ (.mma ⟨t, false⟩ f) = (s.ran t (·.multiplies (matCycles f.fa.toNat f.fb.toNat k)
      (lines2 a (matLen f.fa.toNat k) sa (matScaleLen f.fa.toNat k)) (lines2 b (matLen f.fb.toNat k) sb (matScaleLen f.fb.toNat k))
      [s.mmaProducts t f k a sa b sb])).freshAt (s.fresh + 4) := by
  let i : Instr := .mma ⟨t, false⟩ f
  have hm : (slotSem i (s.assembled t i) t).Alone := mma_alone i ho ha fun _ => hin
  have hact : (slotSem i (s.assembled t i) t).act (s.setTile t (s.tile t)) =
      (s.setTile t ((s.tile t).multiplies (matCycles f.fa.toNat f.fb.toNat k)
        (lines2 a (matLen f.fa.toNat k) sa (matScaleLen f.fa.toNat k)) (lines2 b (matLen f.fb.toNat k) sb (matScaleLen f.fb.toNat k))
        [s.mmaProducts t f k a sa b sb])).freshAt (s.fresh + 4) := by
    obtain ⟨rfl, rfl, rfl, rfl, rfl⟩ := ho
    show (semMma f (s.assembled t i) t).act _ = _
    unfold semMma
    dsimp only
    rw [sreg_slots, sreg_slots, sreg_slots, scaleBase_slots, scaleBase_slots, if_neg hk,
      beginMma_setTile (quiet_live hq) (quiet_flight hq), matRead_quiet hq hs.rows hin.rows, matRead_quiet hq hs.rowScales hin.rowScales,
      matRead_quiet hq hs.columns hin.columns, matRead_quiet hq hs.columnScales hin.columnScales,
      updTile_live (x := (s.tile t).multiplies _ _ _ []) (quiet_live hq),
      show ((s.tile t).multiplies _ _ _ []).mbusy = (s.tile t).aclk + _ + 8 from rfl, Tile.fly_multiplies _ _ _ [] _ (by simp [flightKey]),
      ← freshAt_setTile, marks_setTile hs.rows, marks_setTile hs.rowScales, marks_setTile hs.columns, marks_setTile hs.columnScales]
    rfl
  exact slot_multiplies hq _ hm rfl rfl hact (by simp [mmaProducts, Flight.isMem])

/-! ### The products -/

/-- What the matrix unit has under way lands when its busy time ends (R164). -/
theorem landUpTo_multiplies {m c n0 n1 : Nat} {ls : List Land} (htally : ∀ l ∈ ls, ∀ k m o, l ≠ .tally k m o) :
    ((s.ran t (·.multiplies c n0 n1 ls)).freshAt m).landUpTo t ((s.tile t).aclk + c + 8) =
      (((s.ran t (·.multiplies c n0 n1 ls)).freshAt m).setTile t (((s.tile t).multiplies c n0 n1 []).ahead ((s.tile t).pc + 1) 1)
        ).landAllOf t (ls.map (fun l => ⟨(s.tile t).aclk + c + 8, l⟩)) := by
  let a := (s.tile t).aclk + c + 8
  have htile : ((s.ran t (·.multiplies c n0 n1 ls)).freshAt m).tile t =
      ((s.tile t).multiplies c n0 n1 ls).ahead ((s.tile t).pc + 1) 1 := tile_ran (g := (·.multiplies c n0 n1 ls))
  have hdue (f : Flight) (hf : f ∈ ls.map (fun l => (⟨a, l⟩ : Flight))) : f.dueBy a = true := by
    obtain ⟨l, hl, rfl⟩ := List.mem_map.mp hf
    exact Flight.dueBy_of_le (htally l hl) (Nat.le_refl _)
  have hall : (ls.map (fun l => (⟨a, l⟩ : Flight))).filter (·.dueBy a) = ls.map (fun l => (⟨a, l⟩ : Flight)) :=
    List.filter_eq_self.mpr hdue
  have hnone : (ls.map (fun l => (⟨a, l⟩ : Flight))).filter (fun f => !f.dueBy a) = [] :=
    List.filter_eq_nil_iff.mpr fun f hf => by simp [hdue f hf]
  show ((State.setTile _ t { State.tile _ t with flight := (State.tile _ t).flight.filter (fun f => !f.dueBy a) }).landAllOf t
    ((State.tile _ t).flight.filter (·.dueBy a))) = _
  rw [htile]
  unfold Tile.multiplies Tile.ahead
  dsimp only
  rw [hall, hnone]
  rfl

/-- The products of operands that have not changed (R164). -/
theorem landFlight_mma {fa fb ab asc bb bsc : Nat} {ao aso bo bso : List Byte} (ha : u.sram t ab ao.length = ao)
    (has : u.sram t asc aso.length = aso) (hb : u.sram t bb bo.length = bo) (hbs : u.sram t bsc bso.length = bso)
    {i j : Nat} (hi : i < 64) (hj : j < 64) :
    ((u.landFlight t (.mma fa fb ab asc bb bsc k ao aso bo bso)).tile t).lacc (i * 64 + j) =
      macAcc ((u.tile t).lacc (i * 64 + j)) (matValue fa (leNat ao) (leNat aso) i) (matValue fb (leNat bo) (leNat bso) j) k := by
  unfold landFlight
  dsimp only
  rw [ha, has, hb, hbs, eitherLines_self, eitherLines_self, eitherLines_self, eitherLines_self, tile_freshen, tile_updTile,
    if_pos rfl]
  exact Tile.lacc_macAll (fun i q => matValue fa (leNat ao) (leNat aso) i q) (fun j q => matValue fb (leNat bo) (leNat bso) j q) k hi hj

/-- Settled bytes are those that they were as the products land. -/
theorem sram_landing {b m q : Nat} (h : s.settled t b q = true) (hr : b + q ≤ 0x800000) (g : Tile → Tile)
    (hy : y.landing = (s.tile t).landing) :
    (((s.ran t g).freshAt m).setTile t y).sram t b (s.sram t b q).length = s.sram t b q := by
  rw [show (s.sram t b q).length = q from length_peek s _ q]
  exact sram_settled_of_same h hr rfl rfl rfl rfl rfl (by rw [tile_setTile, if_pos rfl]; exact hy)

/-- What an MMA on settled operands has added to the long accumulators when its busy time ends (R164). -/
theorem lacc_mma {f : FmtMM} {a sa b sb m c n0 n1 : Nat} (hin : MmaInside f k a sa b sb) (hs : s.MmaSettled t f k a sa b sb)
    {i j : Nat} (hi : i < 64) (hj : j < 64) :
    (((((s.ran t (·.multiplies c n0 n1 [s.mmaProducts t f k a sa b sb])).freshAt m).landUpTo t ((s.tile t).aclk + c + 8)).tile t).lacc
      (i * 64 + j)) = macAcc ((s.tile t).lacc (i * 64 + j))
        (matValue f.fa.toNat (leNat (s.sram t a (matLen f.fa.toNat k))) (leNat (s.sram t sa (matScaleLen f.fa.toNat k))) i)
        (matValue f.fb.toNat (leNat (s.sram t b (matLen f.fb.toNat k))) (leNat (s.sram t sb (matScaleLen f.fb.toNat k))) j) k := by
  have hy : (((s.tile t).multiplies c n0 n1 []).ahead ((s.tile t).pc + 1) 1).landing = (s.tile t).landing := rfl
  rw [landUpTo_multiplies (by simp [mmaProducts])]
  show (((State.setTile _ t _).landFlight t (s.mmaProducts t f k a sa b sb)).tile t).lacc (i * 64 + j) = _
  unfold mmaProducts
  rw [landFlight_mma (sram_landing hs.rows hin.rows _ hy) (sram_landing hs.rowScales hin.rowScales _ hy)
    (sram_landing hs.columns hin.columns _ hy) (sram_landing hs.columnScales hin.columnScales _ hy) hi hj, tile_setTile, if_pos rfl]
  rfl

/-! ### MMAV -/

/-- The vector registers that an MMAV takes its rows from (R163). -/
def mmavRows (x : Tile) (va nv : Nat) : List Vec := (List.range nv).map (fun i => x.vreg (va + i))

/-- What an MMAV has in flight: the registers of its rows as they may be rewritten, and the products (R164). -/
def mmavProducts (s : State) (t fa fb va nv k b : Nat) : List Land :=
  [.mmavCut va nv, .mmav fa fb va nv (mmavRows (s.tile t) va nv) none b k (s.sram t b (matLen fb k))]

/-- MMAV on a settled operand (R163, R164). -/
theorem slot_mmav (hq : s.quiet t = true) {f : FmtMV} {nv b : Nat} (hrsv : f.rsv = 0) (hfa : f.fa.toNat < 9) (hfb : f.fb.toNat < 9)
    (hnv : (if f.nv = 0 then 32 else f.nv.toNat) = nv) (hk : nv * 2048 / (64 * eltBits (matElt f.fa.toNat)) = k)
    (hb : ((s.tile t).sreg f.sB.toNat).toNat = b) (hva : f.va.toNat + nv ≤ 32) (halign : b % 32 = 0)
    (hr : b + matLen f.fb.toNat k ≤ 0x800000) (hs : s.settled t b (matLen f.fb.toNat k) = true) :
    s.slot ⟨t, false⟩ (.mmav ⟨t, false⟩ f) = (s.ran t (·.multiplies (matCycles f.fa.toNat f.fb.toNat k) 0
      (linesMet b (matLen f.fb.toNat k)) (s.mmavProducts t f.fa.toNat f.fb.toNat f.va.toNat nv k b))).freshAt (s.fresh + 1) := by
  let i : Instr := .mmav ⟨t, false⟩ f
  have hblock (c : Nat) (h : c < 9) : matBlock c = false := decide_eq_false (Nat.not_le.mpr h)
  have hm : (slotSem i (s.assembled t i) t).Alone := by
    refine .of_seq ?_ (Nat.zero_le 1) rfl
    show (semMmav f (s.assembled t i) t).causes = []
    unfold semMmav
    dsimp only
    rw [sreg_slots, hrsv, hblock _ hfa, hblock _ hfb, hnv, hk, hb, inTile_of_le hr, halign, when_, when_,
      if_neg (by simp), if_neg (by simpa using hva)]
    rfl
  have hact : (slotSem i (s.assembled t i) t).act (s.setTile t (s.tile t)) = (s.setTile t ((s.tile t).multiplies
      (matCycles f.fa.toNat f.fb.toNat k) 0 (linesMet b (matLen f.fb.toNat k))
      (s.mmavProducts t f.fa.toNat f.fb.toNat f.va.toNat nv k b))).freshAt (s.fresh + 1) := by
    show (semMmav f (s.assembled t i) t).act _ = _
    unfold semMmav
    dsimp only
    simp only [vreg_slots]
    rw [sreg_slots, hnv, hk, hb, beginMma_setTile (quiet_live hq) (quiet_flight hq), matRead_quiet hq hs hr,
      updTile_live (x := (s.tile t).multiplies _ _ _ []) (quiet_live hq),
      show ((s.tile t).multiplies _ _ _ []).mbusy = (s.tile t).aclk + _ + 8 from rfl, Tile.fly_multiplies _ _ _ [] _ (by simp [flightKey]),
      Tile.fly_multiplies _ _ _ _ _ (by simp [flightKey]), ← freshAt_setTile, marks_setTile hs]
    rfl
  exact slot_multiplies hq _ hm rfl rfl hact (by simp [mmavProducts, Flight.isMem])

/-- The products of registers and bytes that have not changed (R164). -/
theorem landFlight_mmav {fa fb va nv bb : Nat} {ao : List Vec} {bo : List Byte} (ha : mmavRows (u.tile t) va nv = ao)
    (hb : u.sram t bb bo.length = bo) {i j : Nat} (hi : i < 64) (hj : j < 64) :
    ((u.landFlight t (.mmav fa fb va nv ao none bb k bo)).tile t).lacc (i * 64 + j) = macAcc ((u.tile t).lacc (i * 64 + j))
      (fun q => eltDecode (matElt fa) (elem (eltBits (matElt fa)) (elem (64 * eltBits (matElt fa)) (packE 2048 (ao.map BitVec.toNat)) q) i))
      (matValue fb (leNat bo) 0 j) k := by
  unfold landFlight
  dsimp only
  rw [hb, eitherLines_self, Option.getD_none, show (List.range nv).map (fun i => (u.tile t).vreg (va + i)) = ao from ha, tile_freshen,
    tile_updTile, if_pos rfl, Tile.lacc_macAll _ _ _ hi hj]
  simp only [ite_self]

/-- What an MMAV on a settled operand has added to the long accumulators when its busy time ends (R164). -/
theorem lacc_mmav {fa fb va nv b m c n0 n1 : Nat} (hlive : (s.tile t).Live) (hr : b + matLen fb k ≤ 0x800000)
    (hs : s.settled t b (matLen fb k) = true) {i j : Nat} (hi : i < 64) (hj : j < 64) :
    (((((s.ran t (·.multiplies c n0 n1 (s.mmavProducts t fa fb va nv k b))).freshAt m).landUpTo t ((s.tile t).aclk + c + 8)).tile t).lacc
      (i * 64 + j)) = macAcc ((s.tile t).lacc (i * 64 + j))
        (fun q => eltDecode (matElt fa) (elem (eltBits (matElt fa)) (elem (64 * eltBits (matElt fa))
          (packE 2048 ((List.range nv).map (fun i => ((s.tile t).vreg (va + i)).toNat))) q) i))
        (matValue fb (leNat (s.sram t b (matLen fb k))) 0 j) k := by
  let z : Tile := ((s.tile t).multiplies c n0 n1 []).ahead ((s.tile t).pc + 1) 1
  have hz : z.landing = (s.tile t).landing := rfl
  have hcut (v : State) : (v.setTile t z).landFlight t (.mmavCut va nv) = v.setTile t z := by
    unfold landFlight
    dsimp only
    rw [updTile_live (x := z) hlive]
    rfl
  rw [landUpTo_multiplies (by simp [mmavProducts])]
  show ((((State.setTile _ t z).landFlight t (.mmavCut va nv)).landFlight t (.mmav fa fb va nv (mmavRows (s.tile t) va nv) none b k
    (s.sram t b (matLen fb k)))).tile t).lacc (i * 64 + j) = _
  rw [hcut, landFlight_mmav (by rw [tile_setTile, if_pos rfl]; rfl) (sram_landing hs hr _ hz) hi hj, tile_setTile, if_pos rfl,
    mmavRows, List.map_map]
  rfl

theorem freshAt_fresh (v : State) (n : Nat) : (v.freshAt n).freshen = v.freshAt (n + 1) := rfl

theorem ran_fresh (g : Tile → Tile) : (s.ran t g).freshen = (s.ran t g).freshAt (s.fresh + 1) := rfl

/-- The state after an MMA as the statement gives it. -/
theorem ran_mma (c n0 n1 : Nat) (l : Land) :
    (s.ran t (fun y => { y.busyMma c n0 n1 with flight := [{ due := y.aclk + c + 8, land := l }] })).freshen.freshen.freshen.freshen =
      (s.ran t (·.multiplies c n0 n1 [l])).freshAt (s.fresh + 4) := by
  rw [ran_fresh, freshAt_fresh, freshAt_fresh, freshAt_fresh]
  exact congrArg (State.freshAt · (s.fresh + 4)) (ran_congr rfl)

theorem ran_mmav (c n1 : Nat) (l l' : Land) :
    (s.ran t (fun y => { y.busyMma c 0 n1 with
      flight := [{ due := y.aclk + c + 8, land := l }, { due := y.aclk + c + 8, land := l' }] })).freshen =
      (s.ran t (·.multiplies c 0 n1 [l, l'])).freshAt (s.fresh + 1) := by
  rw [ran_fresh]
  exact congrArg (State.freshAt · (s.fresh + 1)) (ran_congr rfl)

end State
open State

/-- Settles O11: the unit is busy with the products in flight; they are those of the operands at issue, since nothing has
reached them. -/
theorem matrixMultiplyAccumulate : Obligations.MatrixMultiplyAccumulate := by
  unfold Obligations.MatrixMultiplyAccumulate
  intro s t hq
  refine ⟨?mma, ?mmav⟩
  case mma =>
    intro f x fa fb k a b sa sb ha hb hsa hsb
    have ho : (s.tile t).MmaOperands f k a sa b sb := ⟨rfl, rfl, rfl, rfl, rfl⟩
    have halign : MmaAligned f a sa b sb := ⟨ha, hb, hsa, hsb⟩
    refine ⟨fun hk => ?_, fun hk hblock h1 h2 h3 h4 s1 s2 s3 s4 => ?_⟩
    · have h := slot_mma_zero hq hk ho halign
      exact congrArg Host.Outcome.next h
    · have hin : MmaInside f k a sa b sb := ⟨hblock, h1, h2, h3, h4⟩
      have hs : s.MmaSettled t f k a sa b sb := ⟨s1, s2, s3, s4⟩
      intro c land n0 n1 u
      have hu : u = (s.ran t (·.multiplies c n0 n1 [land])).freshAt (s.fresh + 4) := ran_mma c n0 n1 land
      have hexec : exec (.mma ⟨t, false⟩ f) s = .next ((s.ran t (·.multiplies c n0 n1 [land])).freshAt (s.fresh + 4)) :=
        congrArg Host.Outcome.next (slot_mma hq (Nat.ne_of_gt hk) ho halign hin hs)
      refine ⟨hexec.trans (congrArg Host.Outcome.next hu.symm), fun i j hi hj => ?_⟩
      rw [hu]
      exact lacc_mma hin hs hi hj
  case mmav =>
    intro f x fa fb nv w k b av hrsv hfa hfb hva halign hr hs c land n1 u
    have hu : u = (s.ran t (·.multiplies c 0 n1 (s.mmavProducts t fa fb f.va.toNat nv k b))).freshAt (s.fresh + 1) :=
      ran_mmav c n1 (.mmavCut f.va.toNat nv) land
    have hexec : exec (.mmav ⟨t, false⟩ f) s = .next ((s.ran t (·.multiplies c 0 n1 (s.mmavProducts t fa fb f.va.toNat nv k b))).freshAt
        (s.fresh + 1)) := congrArg Host.Outcome.next (slot_mmav hq hrsv hfa hfb rfl rfl rfl hva halign hr hs)
    refine ⟨hexec.trans (congrArg Host.Outcome.next hu.symm), fun i j hi hj => ?_⟩
    rw [hu]
    exact lacc_mmav (quiet_live hq) hr hs hi hj

end Sys2Proof.Machine
end

section
/-! PROOF. Copies and far loads arrive (R170, R174, R194, R213, R222 to R224; O31). -/

namespace Sys2Proof.Machine

variable {s u v : State} {t : Nat} {x y : Tile} {a id : Nat} {bs : List Byte}

/-- The tile of a served copy request counts its tally up and the request off (R194). -/
def Tile.served (x : Tile) (k : Nat) : Tile := { x.incTally k with copies := x.copies - 1 }

namespace State

/-! ### Far loads -/

/-- The bytes of a far load land in its register where nothing in flight names it (R173, R174). -/
theorem farLand_eq (hf : (s.tile t).flight = []) (hw : (s.tile t).waitFor ≠ some .far) (r : Nat) (w : Vec) :
    s.farLand t r w = s.updTile t (·.setV r w) := by
  unfold farLand
  dsimp only
  rw [hf]
  simp only [List.filter_nil, List.map_nil, List.isEmpty_nil, if_true]
  refine if_neg ?_
  rw [tile_updTile, if_pos rfl]
  simpa [Tile.setV] using hw

/-- What the end of a far load makes of the state that its read leaves (R174). -/
def farEnd (v : State) (t : Nat) (f : Nat × Nat × Nat) (fs : List (Nat × Nat × Nat)) : VRes → State
  | .ok bs hs => if hs.all (fun r => inDram r.pa) then
      (v.updTile t (fun y => { y with far := fs })).farLand t f.1 (BitVec.ofNat 2048 (leNat bs))
    else (v.updTile t (fun y => { y with far := fs })).farFail t
  | .fault _ _ => (v.updTile t (fun y => { y with far := fs })).farFail t
  | .stat _ _ => (v.updTile t (fun y => { y with far := fs })).farFail t

/-- XFLD_DONE at an edge of a tile's clocks, by what its read finds (R174). -/
theorem xfldDone_eq {f : Nat × Nat × Nat} {fs : List (Nat × Nat × Nat)} {res : VRes} (hfar : (s.tile t).far = f :: fs)
    (hget : s.vget (decide (tileFd t = 1)) ((s.tileOwner t).getD 0) accR f.2.1 256 [] = (v, res)) (hedges : s.tileEdges t = true)
    (hrun : (s.tile t).run ≠ .held) : exec (.xfldDone t) s = .next (v.farEnd t f fs res) := by
  show execXfldDone t s = _
  unfold execXfldDone
  dsimp only
  rw [hfar]
  dsimp only
  rw [if_neg (by simp [hedges, hrun])]
  refine congrArg Host.Outcome.next ?_
  cases res with
  | ok bs hs => simp only [hget, farEnd]
  | fault f n => simp only [hget, farEnd]
  | stat c n => simp only [hget, farEnd]

/-- A far load that is served enters its register. -/
theorem xfldDone_served {f : Nat × Nat × Nat} {fs : List (Nat × Nat × Nat)} {bs : List Byte} {hs : List Held}
    (hfar : (s.tile t).far = f :: fs)
    (hget : s.vget (decide (tileFd t = 1)) ((s.tileOwner t).getD 0) accR f.2.1 256 [] = (v, .ok bs hs)) (hedges : s.tileEdges t = true)
    (hrun : (s.tile t).run ≠ .held) (hdram : ∀ r, r ∈ hs → inDram r.pa = true) (hwait : (v.tile t).waitFor ≠ some .far)
    (hflight : (v.tile t).flight = []) :
    ∃ u, exec (.xfldDone t) s = .next u ∧ u.tile t = { (v.tile t).setV f.1 (BitVec.ofNat 2048 (leNat bs)) with far := fs } ∧
      (∀ k, k ≠ t → u.tile k = v.tile k) ∧ u.mem = v.mem ∧ u.regs = v.regs ∧ u.cnts = v.cnts := by
  have htile (k : Nat) : (v.updTile t (fun y => { y with far := fs })).tile k =
      if k = t then { v.tile t with far := fs } else v.tile k := tile_updTile ..
  have hland := farLand_eq (s := v.updTile t (fun y => { y with far := fs })) (t := t) (by rw [htile, if_pos rfl]; exact hflight)
    (by rw [htile, if_pos rfl]; exact hwait) f.1 (BitVec.ofNat 2048 (leNat bs))
  refine ⟨_, xfldDone_eq hfar hget hedges hrun, ?_⟩
  rw [farEnd, if_pos (List.all_eq_true.mpr hdram), hland]
  refine ⟨?_, fun k hk => ?_, rfl, rfl, rfl⟩
  · rw [tile_updTile, if_pos rfl, htile, if_pos rfl]
    rfl
  · rw [tile_updTile, if_neg hk, htile, if_neg hk]

/-- A far load that fails traps its tile while the program has not ended. -/
theorem farFail_eq (fs : List (Nat × Nat × Nat)) :
    (v.updTile t (fun y => { y with far := fs })).farFail t =
      if (v.tile t).run = .running ∨ (v.tile t).run = .stopping ∨ (v.tile t).run = .stopped then
        (v.setTile t { v.tile t with far := fs }).trapTile t 0x12 (v.tile t).pc
      else v.setTile t { v.tile t with far := fs } := by
  unfold farFail
  dsimp only
  rw [tile_updTile, if_pos rfl]
  simp only [Bool.or_eq_true, decide_eq_true_eq, or_assoc]
  rfl

/-- A far load whose read fails, or leaves the DRAM tier. -/
theorem xfldDone_failed {f : Nat × Nat × Nat} {fs : List (Nat × Nat × Nat)} {res : VRes} (hfar : (s.tile t).far = f :: fs)
    (hget : s.vget (decide (tileFd t = 1)) ((s.tileOwner t).getD 0) accR f.2.1 256 [] = (v, res)) (hedges : s.tileEdges t = true)
    (hrun : (s.tile t).run ≠ .held) (hres : ∀ bs hs, res = .ok bs hs → ∃ r, r ∈ hs ∧ inDram r.pa = false) :
    exec (.xfldDone t) s = .next ((v.updTile t (fun y => { y with far := fs })).farFail t) := by
  rw [xfldDone_eq hfar hget hedges hrun]
  cases res with
  | ok bs hs =>
    obtain ⟨r, hr, hout⟩ := hres bs hs rfl
    refine congrArg Host.Outcome.next (if_neg fun h => ?_)
    exact absurd (hout.symm.trans (List.all_eq_true.mp h r hr)) Bool.false_ne_true
  | fault f n => rfl
  | stat c n => rfl

/-! ### Lines of the DRAM tier -/

theorem writeBytes_append (m : SMap Byte) (a : Nat) (l l' : List Byte) :
    writeBytes (writeBytes m a l) (a + l.length) l' = writeBytes m a (l ++ l') := by
  induction l generalizing m a with
  | nil => rfl
  | cons b l ih =>
    rw [List.cons_append, writeBytes, writeBytes, ← ih, List.length_cons]
    congr 1
    omega

/-- What writing whole lines under a data key does: the bytes are there, their lines are under the key, and tiles, jobs,
queues and the counts of the copy engines stay (R217, R220). -/
structure WroteLines (s u : State) (id a : Nat) (bs : List Byte) : Prop where
  mem : u.mem = writeBytes s.mem a bs
  key : ∀ l, a / 64 ≤ l → l < (a + bs.length) / 64 → mget 0 u.lineKey l = id
  others : ∀ l, l < a / 64 ∨ (a + bs.length) / 64 ≤ l → mget 0 u.lineKey l = mget 0 s.lineKey l
  tiles : u.tiles = s.tiles
  jobs : u.jobs = s.jobs
  queues : u.queues = s.queues
  counts : ∀ e, u.cnt bCOPY e 0xC08 = s.cnt bCOPY e 0xC08

/-- A line's write changes device records and counters, those of the copy engines not among them (R33, R502). -/
theorem lineWrite_frame (cls l : Nat) : ∃ c d, s.lineWrite cls l = { s with cnts := c, devs := d } ∧
    ∀ e, mget 0 c (rk bCOPY e 0xC08) = s.cnt bCOPY e 0xC08 := by
  refine ⟨_, _, rfl, fun e => ?_⟩
  refine cnt_count_other s (blk := bDRAMC) (inst := s.devOf l) (off := 0xC20) 64 ?_
  simp only [rk]
  omega

/-- A whole line is written without a read (R217). -/
theorem writeLine_whole (ha : a % 64 = 0) (hl : bs.length = 64) (cls : Nat) :
    ∃ u, s.writeLine id a bs cls = (u, false) ∧ s.WroteLines u id a bs := by
  have hline : (a + bs.length) / 64 = a / 64 + 1 := by omega
  obtain ⟨c, d, hd, hcounts⟩ := lineWrite_frame (s := s) cls (a / 64 * 64)
  have hu : s.writeLine id a bs cls = ({ ({ s with cnts := c, devs := d } : State).poke a bs with
      lineKey := mset 0 s.lineKey (a / 64 * 64 / 64) id }, false) := by
    unfold writeLine
    dsimp only
    rw [if_pos hl, hd]
  refine ⟨_, hu, rfl, fun l h1 h2 => ?_, fun l h => ?_, rfl, rfl, rfl, hcounts⟩
  · show mget 0 (mset 0 s.lineKey (a / 64 * 64 / 64) id) l = id
    rw [mget_mset, if_pos (by omega)]
  · show mget 0 (mset 0 s.lineKey (a / 64 * 64 / 64) id) l = _
    rw [mget_mset, if_neg (by omega)]

/-- Whole lines are written one by one, and none fails. -/
theorem writeLines_whole (cls : Nat) {n : Nat} (ha : a % 64 = 0) (hl : bs.length = 64 * n) {m : Nat} (hm : n ≤ m) (q : Nat) :
    ∃ u, s.writeLines id cls (lineChunks m a bs) q = (u, 0, q + bs.length) ∧ s.WroteLines u id a bs := by
  induction n generalizing s a bs m q with
  | zero =>
    obtain rfl := List.eq_nil_of_length_eq_zero hl
    have hnone : lineChunks m a [] = [] := by cases m <;> rfl
    rw [hnone]
    exact ⟨s, rfl, rfl, fun l h1 h2 => absurd h2 (by simp; omega), fun _ _ => rfl, rfl, rfl, rfl, fun _ => rfl⟩
  | succ n ih =>
    obtain ⟨m, rfl⟩ : ∃ k, m = k + 1 := ⟨m - 1, by omega⟩
    have hne : bs.isEmpty = false := by cases bs with | nil => simp at hl | cons => rfl
    have hfirst : (bs.take 64).length = 64 := by rw [List.length_take]; omega
    have hrest : (bs.drop 64).length = 64 * n := by rw [List.length_drop]; omega
    obtain ⟨v, hv, hvmem, hvkey, hvothers, hvtiles, hvjobs, hvqueues, hvcounts⟩ := writeLine_whole (s := s) (id := id) ha hfirst cls
    obtain ⟨u, hu, humem, hukey, huothers, hutiles, hujobs, huqueues, hucounts⟩ :=
      ih (s := v) (a := a + 64) (bs := bs.drop 64) (m := m) (by omega) hrest (by omega) (q + 64)
    rw [hfirst] at hvkey hvothers
    rw [hrest] at hukey huothers
    refine ⟨u, ?_, ?_, fun l h1 h2 => ?_, fun l h => ?_, hutiles.trans hvtiles, hujobs.trans hvjobs, huqueues.trans hvqueues,
      fun e => (hucounts e).trans (hvcounts e)⟩
    · rw [lineChunks, hne, if_neg Bool.false_ne_true, ha]
      dsimp only [writeLines]
      rw [hv]
      dsimp only
      rw [hfirst, hu, hrest, hl]
      congr 2
      omega
    · rw [humem, hvmem, ← List.take_append_drop 64 bs, ← writeBytes_append, hfirst, List.take_append_drop]
    · by_cases hlast : a / 64 + 1 ≤ l
      · exact hukey l (by omega) (by omega)
      · rw [huothers l (by omega)]
        exact hvkey l h1 (by omega)
    · rw [huothers l (by omega), hvothers l (by omega)]

/-- An engine's write of whole lines to the DRAM tier is served (R217, R220). -/
theorem physPut_whole {p k n : Nat} (hd : inDram a = true) (hkey : s.keyGone p = false) (ha : a % 64 = 0) (hl : bs.length = 64 * n)
    (cls : Nat) : ∃ u, s.physPut p k a bs none cls = (u, 0, bs.length) ∧ s.WroteLines u (s.keyId p k) a bs := by
  obtain ⟨u, hu, hw⟩ := writeLines_whole (s := s) (id := s.keyId p k) cls ha hl (m := bs.length / 64 + 2) (by omega) 0
  refine ⟨u, ?_, hw⟩
  unfold physPut dramPut
  dsimp only
  rw [if_pos hd, hkey, if_neg Bool.false_ne_true, hu, Nat.zero_add]

/-! ### The source of a spill -/

/-- An address of a tile's SRAM is none of the DRAM tier. -/
theorem inSram_sramAt {q : Nat} (ht : tileOk t = true) (hq : q < 0x800000) :
    inSram (sramAt t q) = true ∧ inDram (sramAt t q) = false := by
  have ht : t < 1440 := of_decide_eq_true ht
  unfold inSram inDram sramAt sramBase0 sramTop dramTop
  exact ⟨Bool.and_eq_true_iff.mpr ⟨decide_eq_true (by omega), decide_eq_true (by omega)⟩, decide_eq_false (by omega)⟩

/-- An engine reads sound bytes of tile SRAM as any reader finds them (R90). -/
theorem physRead_sram {p k q n : Nat} (ht : tileOk t = true) (hq : q < 0x800000) (hue : hits s.ue (sramAt t q) n = [])
    (hce : hits s.ce (sramAt t q) n = []) (cls : Nat) : s.physRead p k (sramAt t q) n cls = (s.freshen, 0, s.sram t q n) := by
  obtain ⟨hsram, hdram⟩ := inSram_sramAt ht hq
  unfold physRead sramRead
  rw [hdram, hsram, hue, hce]
  rfl

/-- Bytes whose job keeps no former ones are read as they stand. -/
theorem peek_taken (j : CopyJob) (p n : Nat) :
    ({ s with jobs := [{ j with cells := [] }] } : State).peek p n = ({ s with jobs := [] } : State).peek p n := by
  induction n generalizing p with
  | zero => rfl
  | succ n ih =>
    unfold peek
    rw [ih]
    rfl

/-- Where the source has not changed since the engine took the request, the bytes of a piece are those it reads (R170). -/
theorem pieceBytes_same {j : CopyJob} (h : ∀ i, (hi : i < bs.length) → ∀ c ∈ j.cells, c.1 = a + i → c.2 = bs[i]) :
    s.pieceBytes j a bs = bs := by
  refine Eq.trans (List.map_congr_left (g := Prod.fst) fun p hp => ?_) (List.zipIdx_map_fst 0 bs)
  obtain ⟨hi, hb⟩ := List.mem_zipIdx' (x := p.1) (i := p.2) hp
  split
  next c hc =>
    have hsame : c.2 = p.1 := (h p.2 hi c (List.mem_of_find?_eq_some hc) (by simpa using List.find?_some hc)).trans hb.symm
    rw [hsame, ite_self]
  next => rfl

/-- Cells that name each byte of a range, and no more than there are, are those bytes. -/
theorem cells_eq {cells : List (Nat × Byte)} {n : Nat} {f : Nat → Byte} (hall : ∀ i, i < n → (a + i, f i) ∈ cells)
    (hlen : cells.length = n) {c : Nat × Byte} (hc : c ∈ cells) : ∃ i, i < n ∧ c = (a + i, f i) := by
  let named : List (Nat × Byte) := (List.range n).map (fun i => (a + i, f i))
  have hnodup : named.Nodup := List.nodup_range.map fun i j h => Nat.add_left_cancel (Prod.mk.inj h).1
  have hsub : named ⊆ cells := fun x hx => by
    obtain ⟨i, hi, rfl⟩ := List.mem_map.mp hx
    exact hall i (List.mem_range.mp hi)
  have hperm : named.Perm cells := (List.subperm_of_subset hnodup hsub).perm_of_length_le (by simp [named, hlen])
  obtain ⟨i, hi, rfl⟩ := List.mem_map.mp (hperm.mem_iff.mpr hc)
  exact ⟨i, List.mem_range.mp hi, rfl⟩

/-! ### The job -/

/-- A held run that covers an address serves it, its slab being whole (R213, R233). -/
theorem xlHeld_held {fd : Bool} {p va acc cls : Nat} {r : Held} (hva : va < 2 ^ 48) (hcovers : r.covers va = true)
    (hreach : s.reach (r.at_ va) = true) : s.xlHeld fd p va acc [r] cls = (s, .inr (r, [r])) := by
  unfold xlHeld
  dsimp only
  rw [Nat.mod_eq_of_lt hva, show [r].find? (fun r => r.covers va) = some r by simp [hcovers]]
  dsimp only
  rw [if_pos hreach]

/-- The tile side of a tile's spill (R223). -/
theorem tileSide_spill {j : CopyJob} (hfrom : j.from_ = .tile t) (him : j.im = false) (n : Nat) :
    s.tileSide j n = (s, .inr (sramAt t (j.tva + n), j.len - n, [])) := by
  unfold tileSide
  rw [hfrom]
  dsimp only
  rw [him, if_neg Bool.false_ne_true]

/-- A tile's request has no descriptor to note a run in (R233). -/
theorem recordNew_tile {j : CopyJob} (hfrom : j.from_ = .tile t) (hs : List Held) : s.recordNew j hs = s := by
  unfold recordNew
  rw [hfrom]

/-- A job that has moved everything is done. -/
theorem moveJob_moved {j : CopyJob} (h : j.len ≤ j.moved) (fuel : Nat) : s.moveJob fuel j = (s, j, .done 0) := by
  cases fuel with
  | zero => rfl
  | succ fuel =>
    unfold moveJob
    exact if_pos h

/-- What is left of a spill moves in one piece where one held run covers it within a slab (R194, R224). -/
theorem moveJob_spill {fuel la ta n : Nat} {j : CopyJob} {r : Held} (hfrom : j.from_ = .tile t) (hspill : j.spill = true)
    (him : j.im = false) (hlen : j.moved < j.len) (hn : j.len - j.moved = n) (hla : r.at_ (j.lva + j.moved) = la)
    (hta : sramAt t (j.tva + j.moved) = ta) (hxl : s.xlHeld (j.eng / 16 == 1) j.part (j.lva + j.moved) accW j.runs 2 = (s, .inr (r, [r])))
    (hleft : n ≤ r.left (j.lva + j.moved)) (hdram : inDram la = true) (hsram : inSram ta = true)
    (hread : s.physRead j.part 0 ta n 2 = (s.freshen, 0, bs)) (hlogs : r.logs = false)
    (hput : s.freshen.physPut j.part r.ksel la (s.freshen.pieceBytes j la bs) none 2 = (u, 0, n)) :
    ∃ j', s.moveJob (fuel + 1) j = ((u.count bCOPY j.eng 0xC00 n).freshen, j', .done 0) ∧ j'.eng = j.eng ∧ j'.id = j.id ∧
      j'.from_ = j.from_ ∧ j'.tally = j.tally ∧ j'.im = j.im := by
  have hok : (!inDram la || !j.sideOk ta) = false := by
    unfold CopyJob.sideOk
    rw [hdram, hsram]
    rfl
  have hside : s.tileSide { j with runs := [r] } j.moved = (s, .inr (ta, n, [])) := by
    rw [← hta, ← hn]
    exact tileSide_spill (j := { j with runs := [r] }) hfrom him j.moved
  have hmin : min n (min (r.left (j.lva + j.moved)) n) = n := by omega
  have hlogged : r.logged la n = [] := by
    unfold Held.logged
    rw [hlogs]
    rfl
  unfold moveJob
  rw [if_neg (Nat.not_le.mpr hlen)]
  simp only [if_pos hspill, hxl, recordNew_tile hfrom, hside, hla, hn, hmin, hok, hread, hput, hlogged]
  rw [if_neg Bool.false_ne_true]
  refine ⟨_, moveJob_moved ?_ fuel, rfl, rfl, rfl, rfl, rfl⟩
  show j.len ≤ j.moved + n
  omega

/-- The bytes of a range, one by one. -/
theorem getElem_readBytes {m : SMap Byte} {p n i : Nat} (h : i < (readBytes m p n).length) :
    (readBytes m p n)[i] = mget 0 m (p + i) := by
  induction n generalizing p i with
  | zero => exact absurd h (Nat.not_lt_zero i)
  | succ n ih =>
    cases i with
    | zero => rfl
    | succ i => exact (ih (p := p + 1) (Nat.lt_of_succ_lt_succ h)).trans (congrArg (mget 0 m) (by omega))

/-- A tile's spill is the only job, its run is held and lies in one mapped slab, its source is sound and has not changed
since the engine took the request (R170, R194, R213, R224). -/
structure Spills (s : State) (t k pa : Nat) (j : CopyJob) (r : Held) : Prop where
  jobs : s.jobs = [j]
  source : j.from_ = .tile t
  unparked : j.parked = false
  spill : j.spill = true
  im : j.im = false
  moved : j.moved = 0
  tally : j.tally = some k
  runs : j.runs = [r]
  tile : tileOk t = true
  pos : 0 < j.len
  lines : j.len % 64 = 0
  local_ : j.tva + j.len ≤ 0x600000
  first : r.va ≤ j.lva
  last : j.lva + j.len ≤ r.va + r.n
  virtual : j.lva + j.len ≤ 2 ^ 48
  target : r.at_ j.lva = pa
  aligned : pa % 64 = 0
  dram : pa + j.len ≤ dramTop
  slab : pa % 2 ^ 30 + j.len ≤ 2 ^ 30
  reach : s.reach pa = true
  keyed : s.keyGone j.part = false
  unlogged : r.logs = false
  edges : s.tileEdges t = true
  soft : s.soft = []
  landing : (s.tile t).landing = []
  ue : hits s.ue (sramAt t j.tva) j.len = []
  ce : hits s.ce (sramAt t j.tva) j.len = []
  cells : ∀ i, i < j.len → (pa + i, mget 0 s.mem (sramAt t j.tva + i)) ∈ j.cells
  count : j.cells.length = j.len

/-- The state in which a job ends: its former bytes are no longer wanted. -/
def ending (s : State) (j : CopyJob) : State := { s with jobs := [{ j with cells := [] }] }

section
variable {k pa : Nat} {j : CopyJob} {r : Held} (h : s.Spills t k pa j r)
include h

/-- The engine finds the spill's source as memory holds it. -/
theorem Spills.read : (s.ending j).physRead j.part 0 (sramAt t j.tva) j.len 2 =
    ((s.ending j).freshen, 0, readBytes s.mem (sramAt t j.tva) j.len) := by
  have hroom := h.local_
  have hsettled : ({ s with jobs := [] } : State).settled t j.tva j.len = true := settled_iff.mpr ⟨h.soft, rfl, h.landing, h.ue, h.ce⟩
  have hbytes : (s.ending j).sram t j.tva j.len = readBytes s.mem (sramAt t j.tva) j.len :=
    (peek_taken j _ _).trans (peek_settled hsettled (by omega))
  rw [physRead_sram (s := s.ending j) h.tile (by omega) h.ue h.ce, hbytes]

/-- What it writes is what it read. -/
theorem Spills.piece : (s.ending j).freshen.pieceBytes j pa (readBytes s.mem (sramAt t j.tva) j.len) =
    readBytes s.mem (sramAt t j.tva) j.len := by
  refine pieceBytes_same fun i hi c hc hat => ?_
  obtain ⟨i', -, rfl⟩ := cells_eq (f := fun i => mget 0 s.mem (sramAt t j.tva + i)) h.cells h.count hc
  obtain rfl : i' = i := Nat.add_left_cancel hat
  exact (getElem_readBytes hi).symm

/-- The spill moves whole, and nothing fails. -/
theorem Spills.moves : ∃ w j', (s.ending j).moveJob (2 * runsOf j.len) j = ((w.count bCOPY j.eng 0xC00 j.len).freshen, j', .done 0) ∧
    (j'.eng = j.eng ∧ j'.id = j.id ∧ j'.from_ = j.from_ ∧ j'.tally = j.tally ∧ j'.im = j.im) ∧
    (s.ending j).freshen.WroteLines w (s.keyId j.part r.ksel) pa (readBytes s.mem (sramAt t j.tva) j.len) := by
  have hpos := h.pos
  have hdram : inDram pa = true := by
    have := h.dram
    unfold inDram
    exact decide_eq_true (by omega)
  have hlines : (readBytes s.mem (sramAt t j.tva) j.len).length = 64 * (j.len / 64) := by
    rw [length_readBytes, Nat.mul_div_cancel' (Nat.dvd_of_mod_eq_zero h.lines)]
  obtain ⟨w, hw, hwrote⟩ := physPut_whole (s := (s.ending j).freshen) (k := r.ksel) hdram h.keyed h.aligned hlines 2
  have hfirst : j.lva + j.moved = j.lva := by rw [h.moved]; rfl
  have hmod : j.lva % 2 ^ 48 = j.lva := Nat.mod_eq_of_lt (by have := h.virtual; omega)
  have hcovers : r.covers j.lva = true := by
    have := h.last
    unfold Held.covers
    exact Bool.and_eq_true_iff.mpr ⟨decide_eq_true h.first, decide_eq_true (by omega)⟩
  have hleft : j.len ≤ r.left j.lva := by
    have hslab := h.slab
    have := h.first
    have := h.last
    unfold Held.left
    dsimp only
    rw [h.target, if_pos hdram, hmod]
    omega
  obtain ⟨fuel, hfuel⟩ : ∃ fuel, 2 * runsOf j.len = fuel + 1 := ⟨2 * (j.len / 4096 + 1) + 1, by unfold runsOf; omega⟩
  rw [hfuel]
  obtain ⟨j', hmove, hj'⟩ := moveJob_spill (s := s.ending j) (u := w) (fuel := fuel) (la := pa) (ta := sramAt t j.tva) (n := j.len)
    h.source h.spill h.im (by rw [h.moved]; exact hpos) (by rw [h.moved]; rfl) (by rw [hfirst]; exact h.target) (by rw [h.moved]; rfl)
    (by rw [hfirst, h.runs]; exact xlHeld_held (by have := h.virtual; omega) hcovers (by rw [h.target]; exact h.reach))
    (by rw [hfirst]; exact hleft) hdram (inSram_sramAt h.tile (by have := h.local_; omega)).1 h.read h.unlogged
    (by rw [h.piece, hw, length_readBytes])
  exact ⟨w, j', hmove, hj', hwrote⟩

end

/-- A spill that has moved whole leaves its engine, is counted, and its tile is told (R194). -/
theorem jobEnd_spill {k : Nat} {j : CopyJob} (hjobs : ∀ y ∈ s.jobs, y.eng = j.eng ∧ y.id = j.id) (hfrom : j.from_ = .tile t)
    (htally : j.tally = some k) (him : j.im = false) :
    s.jobEnd j 0 = ({ s with jobs := [] }.count bCOPY j.eng 0xC08 1).updTile t (·.served k) := by
  have hgone : s.jobs.filter (fun x => !(x.eng == j.eng && x.id == j.id)) = [] :=
    List.filter_eq_nil_iff.mpr fun y hy => by
      obtain ⟨heng, hid⟩ := hjobs y hy
      simp [heng, hid]
  unfold jobEnd copyCount
  dsimp only
  rw [hgone, hfrom, htally, him]
  rfl

/-- The end of a tile's copy request at an edge of the tile's clocks, its tile not waiting for a free request. -/
theorem copyComplete_alone {j : CopyJob} (hjobs : s.jobs = [j]) (hfrom : j.from_ = .tile t) (hpark : j.parked = false)
    (hedges : s.tileEdges t = true) (hrun : s.jobRun j = u) (hwait : (u.tile t).waitFor ≠ some .copies) (hidle : u.queuesIdle = true) :
    exec (.copyComplete j.eng 0) s = .next u := by
  have hfree : s.jobFree j = true := by
    unfold jobFree
    rw [hjobs, hpark, hfrom]
    simp
  have hedge : s.jobEdges j = true := by
    unfold jobEdges
    rw [hfrom]
    exact hedges
  have hhead : (s.jobs.filter (fun x => x.eng == j.eng))[0]? = some j := by rw [hjobs]; simp
  show execCopyComplete j.eng 0 s = _
  unfold execCopyComplete
  rw [hhead]
  dsimp only
  rw [hfree, hedge, hrun, hfrom]
  simp [hwait, settle_of_queuesIdle hidle]

/-- What a spill leaves: its bytes and the keys of their lines, its tile, and its engine's count (R194, R220, R224). -/
theorem copyComplete_spill {k pa : Nat} {j : CopyJob} {r : Held} (h : s.Spills t k pa j r)
    (hwait : (s.tile t).waitFor ≠ some .copies) (hidle : s.queuesIdle = true) :
    ∃ u, exec (.copyComplete j.eng 0) s = .next u ∧ u.jobs = [] ∧ u.mem = writeBytes s.mem pa (readBytes s.mem (sramAt t j.tva) j.len) ∧
      (∀ l, pa / 64 ≤ l → l < (pa + j.len) / 64 → mget 0 u.lineKey l = s.keyId j.part r.ksel) ∧ u.tile t = (s.tile t).served k ∧
      (∀ i, i ≠ t → u.tile i = s.tile i) ∧ u.cnt bCOPY j.eng 0xC08 = s.cntUp bCOPY j.eng 0xC08 1 := by
  obtain ⟨w, j', hmove, ⟨heng, hid, hfrom, htally, him⟩, hwrote⟩ := h.moves
  have htile (i : Nat) : w.tile i = s.tile i := by
    unfold tile
    rw [hwrote.tiles]
    rfl
  have hjobs : w.jobs = [{ j with cells := [] }] := hwrote.jobs
  let v : State := { (w.count bCOPY j.eng 0xC00 j.len).freshen with jobs := [] }
  let u : State := (v.count bCOPY j.eng 0xC08 1).updTile t (·.served k)
  have hu (i : Nat) : u.tile i = if i = t then (s.tile t).served k else s.tile i := by
    rw [← htile t, ← htile i]
    exact tile_updTile ..
  have hcnt : v.cnt bCOPY j.eng 0xC08 = s.cnt bCOPY j.eng 0xC08 := by
    refine (cnt_count_other w (blk := bCOPY) (inst := j.eng) (off := 0xC00) j.len ?_).trans (hwrote.counts j.eng)
    simp only [rk]
    omega
  have hending : ({ s with jobs := s.jobs.map (fun (x : CopyJob) => if x.eng = j.eng && x.id = j.id then { x with cells := [] } else x) } :
      State) = s.ending j := by
    rw [h.jobs]
    simp [ending]
  have hrun : s.jobRun j = u := by
    unfold jobRun
    dsimp only
    rw [hending, hmove]
    dsimp only
    rw [jobEnd_spill (t := t) (k := k) (fun y hy => ?_) (hfrom.trans h.source) (htally.trans h.tally) (him.trans h.im), heng]
    obtain rfl : y = { j with cells := [] } := by simpa [hjobs] using (show y ∈ w.jobs from hy)
    exact ⟨heng.symm, hid.symm⟩
  refine ⟨u, copyComplete_alone h.jobs h.source h.unparked h.edges hrun ?_ ?_, rfl, hwrote.mem, ?_, ?_, ?_, ?_⟩
  · rw [hu, if_pos rfl]
    exact hwait
  · rw [queuesIdle, show u.queues = s.queues from hwrote.queues]
    exact hidle
  · intro l h1 h2
    exact hwrote.key l h1 (by rw [length_readBytes]; exact h2)
  · rw [hu, if_pos rfl]
  · intro i hi
    rw [hu, if_neg hi]
  · refine (cnt_count_same v bCOPY j.eng 0xC08 1).trans ?_
    rw [hcnt]
    rfl

end State
open State

/-- A served tile's tally counts up by 1, and stops at its last value (R181). -/
theorem Tile.tally_served (k : Nat) : ((x.served k).tally k).toNat = min ((x.tally k).toNat + 1) 0xFFFFFFFF := by
  show (mget 0 (mset 0 x.tallies k _) k).toNat = _
  rw [mget_mset, if_pos rfl, BitVec.toNat_ofNat]
  exact Nat.mod_eq_of_lt (by omega)

/-- Its other tallies stay. -/
theorem Tile.tally_served_other {k i : Nat} (h : i ≠ k) : (x.served k).tally i = x.tally i := by
  show mget 0 (mset 0 x.tallies k _) i = _
  rw [mget_mset, if_neg h]
  rfl

/-- Settles O31: a spill that one held run serves moves in one piece, and its end is told to its tile; a far load ends by
what its read finds. -/
theorem copiesAndFarLoadsArrive : Obligations.CopiesAndFarLoadsArrive := by
  unfold Obligations.CopiesAndFarLoadsArrive
  refine ⟨?_, ?_⟩
  · intro s eng t k j r jobs heng source unparked spill im moved tally runs tile pos lines local_ first last virtual pa aligned
      dram slab reach keyed unlogged edges soft landing hwait hidle ue ce cells count
    subst heng
    obtain ⟨u, hu, hjobs, hmem, hkey, htile, hothers, hcnt⟩ := copyComplete_spill (k := k) (pa := pa)
      { jobs, source, unparked, spill, im, moved, tally, runs, tile, pos, lines, local_, first, last, virtual, target := rfl,
        aligned, dram, slab, reach, keyed, unlogged, edges, soft, landing, ue, ce, cells, count } hwait hidle
    refine ⟨u, hu, hjobs, fun i hi => ?_, fun a ha => ?_, hkey, ?_, fun i hi => ?_, ?_, ?_, hothers, hcnt⟩
    · rw [hmem, mget_writeBytes, length_readBytes, if_pos ⟨by omega, by omega⟩, Nat.add_sub_cancel_left,
        List.getD_eq_getElem _ _ (by rw [length_readBytes]; exact hi), getElem_readBytes]
    · rw [hmem, mget_writeBytes, length_readBytes, if_neg (by omega)]
    · rw [htile, Tile.tally_served]
    · rw [htile, Tile.tally_served_other hi]
    · rw [htile]
      rfl
    · rw [htile]
      rfl
  · intro s v t f fs res hfar hget hedges hrun y left
    refine ⟨fun bs hs hres hdram hwait hflight => ?_, fun hres => ⟨fun hlive => ?_, fun h1 h2 h3 => ?_⟩⟩
    · subst hres
      exact xfldDone_served hfar hget hedges hrun hdram hwait hflight
    · rw [xfldDone_failed hfar hget hedges hrun hres, farFail_eq, if_pos hlive]
    · rw [xfldDone_failed hfar hget hedges hrun hres, farFail_eq, if_neg (by rintro (h | h | h) <;> contradiction)]

end Sys2Proof.Machine
end

section
/-! PROOF. The two statements about the V slot that fail as the statement about its floating-point operations does (O9,
O10): they have no flags in flight where an instruction sets none, but the model puts the flags of every result that
rounds or decodes in flight, the empty set too (R158). -/

namespace Sys2Proof.Machine

/-- `VRED.F v1, v2` under p0 and RNE. -/
def sumZeros : FmtVR := { vd := 1, va := 2, vb := 0, vc := 0, pred := 0, rm := 0 }
/-- `VCVT v1, v2` from FP32 to FP32 under p0 and RNE. -/
def convertZeros : FmtVC := { vd := 1, va := 2, sfmt := 0, dfmt := 0, sat := false, pred := 0, rm := 0, rsv := 0 }

theorem zeroTile_sums : ∃ u, exec (.vredF ⟨40, false⟩ sumZeros) zeroTile = .next u ∧
    (u.tile 40).flight = [⟨24, .v 1 0 (BitVec.allOnes 2048)⟩, ⟨24, .nstat 0⟩] :=
  ⟨_, rfl, by decide +kernel⟩

theorem zeroTile_converts : ∃ u, exec (.vcvt ⟨40, false⟩ convertZeros) zeroTile = .next u ∧
    (u.tile 40).flight = [⟨3, .v 1 0 (BitVec.allOnes 2048)⟩, ⟨3, .nstat 0⟩] :=
  ⟨_, rfl, by decide +kernel⟩

/-- Refutes O9 in its clause on VRED.F: the sum of 64 zeros sets no flag, and in `zeroTile` the empty set of flags is in
flight with it all the same. -/
theorem not_vectorMovesAndReduction : ¬ Obligations.VectorMovesAndReduction := by
  unfold Obligations.VectorMovesAndReduction
  rintro ⟨-, hred⟩
  have hsum := hred zeroTile 40 sumZeros (by decide +kernel) (by decide)
  obtain ⟨u, hu, hflight⟩ := zeroTile_sums
  have hone := Host.Outcome.next.inj (hu.symm.trans hsum)
  rw [hone] at hflight
  exact absurd hflight (by decide +kernel)

/-- Refutes O10 in its clause on VCVT: the conversion of 64 zeros sets no flag, and in `zeroTile` the empty set of flags
is in flight with it all the same. -/
theorem not_vectorConversions : ¬ Obligations.VectorConversions := by
  unfold Obligations.VectorConversions
  intro h
  obtain ⟨hcvt, -⟩ := h zeroTile 40 convertZeros (by decide +kernel) rfl
  have hconv := hcvt .fp32 .fp32 rfl rfl (by decide)
  obtain ⟨u, hu, hflight⟩ := zeroTile_converts
  have hone := Host.Outcome.next.inj (hu.symm.trans hconv)
  rw [hone] at hflight
  exact absurd hflight (by decide +kernel)

end Sys2Proof.Machine
end
